-- ==== Sys2Proof/Word.lean ====
section
/-! DEFINITION. The word types and their plainest arithmetic. -/
namespace Sys2Proof

/-- A 32-bit register value. -/
abbrev Word := BitVec 32
/-- A byte of memory. -/
abbrev Byte := BitVec 8
/-- A vector-register number field (R73). -/
abbrev VReg := BitVec 7
/-- A uniform-register number field (R87). -/
abbrev GReg := BitVec 6

/-- A set of the 32 lanes of a group, bit l for lane l. -/
abbrev Mask := BitVec 32

/-- Whether lane `l` is in `m`. -/
def Mask.has (m : Mask) (l : Nat) : Bool := m.getLsbD l

end Sys2Proof
end

