-- ==== Sys2Proof/Syntax.lean ====
section
/-! DEFINITION. The instructions and events of the part, one constructor per row of the opcode table (R69-R90 for the
fields of the words). -/
namespace Sys2Proof

/-- Execution scope, bits [29:28] of word 0 (R69, R32). -/
inductive Scope where
  | lane | group | set | team
  deriving DecidableEq, Repr

/-- What every word carries: the switch marker [30] and the scope [29:28] (R69). -/
structure Head where
  sw : Bool
  scope : Scope
  deriving DecidableEq, Repr

/-- The guard PG of word 1 (R74): `neg` is [31], `p` is [30:28]. -/
structure Guard where
  neg : Bool
  p : BitVec 3
  deriving DecidableEq, Repr

/-- The type codes T, 0 to 15 (R75). -/
inductive Ty where
  | i32 | n32 | i16 | n16 | i8 | n8 | f32 | f16 | bf16 | e4m3 | e5m2 | e3m2 | e2m3 | e2m1 | e8m0 | i64
  deriving DecidableEq, Repr

/-- A 128-byte line where a card's data lands: of a team's shared memory, of the pad, or of physical memory (R134). -/
inductive LineAt where
  | shm (tid line : Nat)
  | pad (line : Nat)
  | mem (line : Nat)
  deriving DecidableEq, Repr

/-- Whose data cannot be corrected or does not come (R289, R301): a lane's access to an address, a card's, each with whether a mirror copy fails
likewise, or a core's own state, with the teams whose state holds the word. -/
inductive ErrAt where
  | lane (tid gi lane pa : Nat) (copy : Bool)
  | card (die cid pa : Nat) (copy : Bool)
  | core (core : Nat) (tids : List Nat) (addr : Nat)
  deriving DecidableEq, Repr

/-- Who reaches a register (R299, R306, R309): privileged software through BAR 0, software in the user mapping of a context, or
management through the management controller's messages. -/
inductive RegBy where
  | host
  | user (ctx : Nat)
  | mgmt
  deriving DecidableEq, Repr

/-- What comes over the Enmer links (R301): a peer's load, store, or atomic with its operation, type and operands; or the word
of a peer's home slice that bytes of its memory have changed, with the invalidation of the copies this package holds. -/
inductive Remote where
  | load (pa n : Nat)
  | store (pa : Nat) (bs : List Byte)
  | atomic (pa op : Nat) (ty : Ty) (b c : Nat)
  | home (pa : Nat) (bs : List Byte)
  deriving DecidableEq, Repr

/-- The host's answer to a translation request (R152): refused, or granted for reads and writes as it says. -/
inductive AtsAnswer where
  | refused
  | granted (rd wr : Bool)
  deriving DecidableEq, Repr

/-- What concerns an RDMA queue pair (R304): privileged software binds it to a context, or a write comes for it. -/
inductive RdmaOp where
  | bind (ctx : Nat)
  | write (pa : Nat)
  deriving DecidableEq, Repr

/-- The steps of the opcode table, one constructor per row, in the table's order: 192 instructions, each with the fields its
encoding carries (R69-R88), then the 109 events no word encodes, each with the data that comes from outside the machine
or names what moves. -/
inductive Instr where
  /-- R311 -/
  | andLr (h : Head) (u : Bool) (d a b : VReg)
  /-- R311 -/
  | andLi (h : Head) (u : Bool) (d a i : VReg)
  /-- R311 -/
  | andXi (h : Head) (u : Bool) (g : Guard) (d a b : VReg) (t : Ty)
  /-- R312 -/
  | andn (h : Head) (u : Bool) (g : Guard) (d a b : VReg)
  /-- R313 -/
  | ared (h : Head) (d a : GReg) (i : BitVec 32)
  /-- R314 -/
  | atomg (h : Head) (g : Guard) (d a b c : VReg) (k : BitVec 4) (x : Bool) (r : BitVec 3) (t : Ty)
  /-- R314 -/
  | atomp (h : Head) (g : Guard) (d a b c : VReg) (k : BitVec 4) (x : Bool) (r : BitVec 3) (t : Ty)
  /-- R314 -/
  | atoms (h : Head) (g : Guard) (d a b c : VReg) (k : BitVec 4) (x : Bool) (r : BitVec 3) (t : Ty)
  /-- R317 -/
  | bar (h : Head) (n : BitVec 5) (r : Bool) (g : GReg) (q : Bool)
  /-- R317 -/
  | bara (h : Head) (n : BitVec 5) (r : Bool) (g : GReg)
  /-- R317 -/
  | barw (h : Head) (n : BitVec 5)
  /-- R318 -/
  | bfi (h : Head) (u : Bool) (g : Guard) (d a b c : VReg)
  /-- R318 -/
  | bfx (h : Head) (u : Bool) (g : Guard) (d a b : VReg) (t : Ty)
  /-- R319 -/
  | bpt (h : Head)
  /-- R320 -/
  | bra (h : Head) (o : BitVec 21)
  /-- R320 -/
  | braGuarded (h : Head) (g : Guard) (o : BitVec 21)
  /-- R322 -/
  | brev (h : Head) (u : Bool) (g : Guard) (d a : VReg)
  /-- R323 -/
  | brx (h : Head) (a : VReg)
  /-- R323 -/
  | brxGuarded (h : Head) (g : Guard) (a : VReg)
  /-- R324 -/
  | call (h : Head) (o : BitVec 21)
  /-- R324 -/
  | callGuarded (h : Head) (g : Guard) (o : BitVec 21)
  /-- R325 -/
  | calx (h : Head) (a : VReg)
  /-- R325 -/
  | calxGuarded (h : Head) (g : Guard) (a : VReg)
  /-- R326 -/
  | clk (h : Head) (d : GReg)
  /-- R327 -/
  | clz (h : Head) (u : Bool) (g : Guard) (d a : VReg)
  /-- R328 -/
  | cpy (h : Head) (d a : GReg) (i : BitVec 32)
  /-- R331 -/
  | cpyg (h : Head) (d a : GReg) (i : BitVec 32)
  /-- R332 -/
  | cpyr (h : Head) (d a : GReg) (i : BitVec 32)
  /-- R333 -/
  | cpyt (h : Head) (d a : GReg) (i : BitVec 32)
  /-- R334 -/
  | cvt (h : Head) (u : Bool) (g : Guard) (d a : VReg) (t : Ty) (m : BitVec 3) (f : Ty) (x : Bool)
  /-- R335 -/
  | cvtp (h : Head) (u : Bool) (g : Guard) (d a b : VReg) (t : Ty) (m : BitVec 3) (x : Bool)
  /-- R336 -/
  | cvtx (h : Head) (u : Bool) (g : Guard) (d a b : VReg) (t : Ty) (m : BitVec 3) (f : Ty) (x : Bool)
  /-- R338 -/
  | dqmx (h : Head) (g : Guard) (d a c : VReg) (t : Ty) (m : BitVec 3) (f : Ty)
  /-- R340 -/
  | eqry (h : Head) (d a : GReg)
  /-- R340 -/
  | ewt (h : Head) (a : GReg)
  /-- R342 -/
  | exit (h : Head)
  /-- R344 -/
  | faddLr (h : Head) (u : Bool) (d a b : VReg)
  /-- R344 -/
  | faddXf (h : Head) (u : Bool) (g : Guard) (d a b : VReg) (m : BitVec 3)
  /-- R346 -/
  | fcmpLc (h : Head) (u : Bool) (p : BitVec 3) (a b : VReg) (k : BitVec 4)
  /-- R346 -/
  | fcmpXf (h : Head) (u : Bool) (g : Guard) (p : BitVec 3) (a b : VReg) (t : Ty) (k : BitVec 4)
  /-- R348 -/
  | fcos (h : Head) (u : Bool) (g : Guard) (d a : VReg)
  /-- R348 -/
  | fex2 (h : Head) (u : Bool) (g : Guard) (d a : VReg)
  /-- R348 -/
  | flg2 (h : Head) (u : Bool) (g : Guard) (d a : VReg)
  /-- R348 -/
  | frcp (h : Head) (u : Bool) (g : Guard) (d a : VReg)
  /-- R348 -/
  | frsq (h : Head) (u : Bool) (g : Guard) (d a : VReg)
  /-- R348 -/
  | fsin (h : Head) (u : Bool) (g : Guard) (d a : VReg)
  /-- R348 -/
  | fsqrt (h : Head) (u : Bool) (g : Guard) (d a : VReg)
  /-- R349 -/
  | fenceAcq (h : Head)
  /-- R349 -/
  | fenceRel (h : Head)
  /-- R349 -/
  | fenceFull (h : Head)
  /-- R349 -/
  | fenceX (h : Head)
  /-- R351 -/
  | ffma (h : Head) (u : Bool) (g : Guard) (d a b c : VReg) (m : BitVec 3)
  /-- R344 -/
  | fmaxLr (h : Head) (u : Bool) (d a b : VReg)
  /-- R344 -/
  | fmaxXf (h : Head) (u : Bool) (g : Guard) (d a b : VReg)
  /-- R344 -/
  | fminLr (h : Head) (u : Bool) (d a b : VReg)
  /-- R344 -/
  | fminXf (h : Head) (u : Bool) (g : Guard) (d a b : VReg)
  /-- R344 -/
  | fmulLr (h : Head) (u : Bool) (d a b : VReg)
  /-- R344 -/
  | fmulXf (h : Head) (u : Bool) (g : Guard) (d a b : VReg) (m : BitVec 3)
  /-- R352 -/
  | frnd (h : Head) (u : Bool) (g : Guard) (d a : VReg) (m : BitVec 3)
  /-- R353 -/
  | fshf (h : Head) (u : Bool) (g : Guard) (d a b c : VReg) (x : Bool)
  /-- R355 -/
  | gargx (h : Head) (g : Guard) (d a c : VReg) (x : Bool) (m : BitVec 3)
  /-- R356 -/
  | gred (h : Head) (g : Guard) (d a c : VReg) (x : Bool) (m : BitVec 3) (t : Ty) (w : Bool)
  /-- R357 -/
  | gscan (h : Head) (g : Guard) (d a c : VReg) (x : Bool) (m : BitVec 3) (t : Ty)
  /-- R358 -/
  | gwait (h : Head)
  /-- R359 -/
  | hadd2 (h : Head) (u : Bool) (g : Guard) (d a b : VReg) (t : Ty) (m : BitVec 3)
  /-- R359 -/
  | hfma2 (h : Head) (u : Bool) (g : Guard) (d a b c : VReg) (t : Ty) (m : BitVec 3)
  /-- R359 -/
  | hmul2 (h : Head) (u : Bool) (g : Guard) (d a b : VReg) (t : Ty) (m : BitVec 3)
  /-- R360 -/
  | hgb (h : Head) (d a : GReg) (i : BitVec 32)
  /-- R360 -/
  | hgf (h : Head) (d a : GReg) (i : BitVec 32)
  /-- R362 -/
  | iabs (h : Head) (u : Bool) (g : Guard) (d a : VReg) (x : Bool)
  /-- R363 -/
  | iaddLr (h : Head) (u : Bool) (d a b : VReg)
  /-- R363 -/
  | iaddLi (h : Head) (u : Bool) (d a i : VReg)
  /-- R363 -/
  | iaddXi (h : Head) (u : Bool) (g : Guard) (d a b : VReg) (t : Ty) (x : Bool)
  /-- R363 -/
  | imaxLr (h : Head) (u : Bool) (d a b : VReg)
  /-- R363 -/
  | imaxXi (h : Head) (u : Bool) (g : Guard) (d a b : VReg) (t : Ty)
  /-- R363 -/
  | iminLr (h : Head) (u : Bool) (d a b : VReg)
  /-- R363 -/
  | iminXi (h : Head) (u : Bool) (g : Guard) (d a b : VReg) (t : Ty)
  /-- R363 -/
  | imulLr (h : Head) (u : Bool) (d a b : VReg)
  /-- R363 -/
  | imulXi (h : Head) (u : Bool) (g : Guard) (d a b : VReg) (t : Ty)
  /-- R363 -/
  | isubLr (h : Head) (u : Bool) (d a b : VReg)
  /-- R363 -/
  | isubXi (h : Head) (u : Bool) (g : Guard) (d a b : VReg) (t : Ty) (x : Bool)
  /-- R365 -/
  | iaddx (h : Head) (u : Bool) (g : Guard) (d a b : VReg) (ci co : BitVec 3)
  /-- R366 -/
  | icmpLc (h : Head) (u : Bool) (p : BitVec 3) (a b : VReg) (k : BitVec 4)
  /-- R366 -/
  | icmpXi (h : Head) (u : Bool) (g : Guard) (p : BitVec 3) (a b : VReg) (t : Ty) (k : BitVec 4)
  /-- R367 -/
  | idp4 (h : Head) (u : Bool) (g : Guard) (d a b c : VReg) (t : Ty)
  /-- R368 -/
  | imad (h : Head) (u : Bool) (g : Guard) (d a b c : VReg) (t : Ty)
  /-- R368 -/
  | imadw (h : Head) (u : Bool) (g : Guard) (d a b c : VReg) (t : Ty)
  /-- R368 -/
  | imulh (h : Head) (u : Bool) (g : Guard) (d a b : VReg) (t : Ty)
  /-- R369 -/
  | isel (h : Head) (u : Bool) (g : Guard) (d a b : VReg) (n : Bool) (p : BitVec 3)
  /-- R370 -/
  | isync (h : Head)
  /-- R373 -/
  | ldg (h : Head) (u : Bool) (g : Guard) (d a : VReg) (w : BitVec 3) (r ch : BitVec 2) (o : BitVec 20)
  /-- R373 -/
  | ldkLm (h : Head) (u : Bool) (d a i : VReg)
  /-- R373 -/
  | ldkXm (h : Head) (u : Bool) (g : Guard) (d a : VReg) (w : BitVec 3) (ch : BitVec 2) (o : BitVec 20)
  /-- R373 -/
  | ldpLm (h : Head) (u : Bool) (d a i : VReg)
  /-- R373 -/
  | ldpXm (h : Head) (u : Bool) (g : Guard) (d a : VReg) (w : BitVec 3) (r : BitVec 2) (o : BitVec 20)
  /-- R373 -/
  | ldsLm (h : Head) (u : Bool) (d a i : VReg)
  /-- R373 -/
  | ldsXm (h : Head) (u : Bool) (g : Guard) (d a : VReg) (w : BitVec 3) (o : BitVec 20)
  /-- R376 -/
  | ldr (h : Head) (g : Guard) (d a : VReg) (w : BitVec 3) (r : BitVec 2) (o : BitVec 20)
  /-- R377 -/
  | lea (h : Head) (u : Bool) (g : Guard) (d a b : VReg) (t : Ty) (x : BitVec 4)
  /-- R378 -/
  | lnxt (h : Head)
  /-- R379 -/
  | matchLanes (h : Head) (g : Guard) (d a c : VReg) (x : Bool) (t : Ty)
  /-- R381 -/
  | mld (h : Head) (g : Guard) (d a : VReg) (t : Ty) (x : BitVec 2)
  /-- R383 -/
  | mma (h : Head) (g : Guard) (d a b c : VReg) (t : Ty)
  /-- R385 -/
  | mmax (h : Head) (g : Guard) (d a b c : VReg) (t : Ty) (m n : BitVec 2) (x : Bool)
  /-- R386 -/
  | mst (h : Head) (g : Guard) (d a : VReg) (t : Ty)
  /-- R387 -/
  | mzro (h : Head) (g : Guard) (d : VReg)
  /-- R389 -/
  | movLr (h : Head) (u : Bool) (d a : VReg)
  /-- R389 -/
  | movXi (h : Head) (u : Bool) (g : Guard) (d a : VReg) (t : Ty)
  /-- R390 -/
  | movg (h : Head) (u : Bool) (d : VReg) (a : GReg)
  /-- R391 -/
  | movi (h : Head) (u : Bool) (d : VReg) (i : BitVec 32)
  /-- R392 -/
  | movs (h : Head) (u : Bool) (d a : VReg)
  /-- R393 -/
  | nop (h : Head)
  /-- R394 -/
  | oadm (h : Head) (g : Guard) (d a b : VReg) (c : GReg)
  /-- R394 -/
  | osgd (h : Head) (g : Guard) (d a b : VReg) (c : GReg)
  /-- R396 -/
  | orLr (h : Head) (u : Bool) (d a b : VReg)
  /-- R396 -/
  | orLi (h : Head) (u : Bool) (d a i : VReg)
  /-- R396 -/
  | orXi (h : Head) (u : Bool) (g : Guard) (d a b : VReg) (t : Ty)
  /-- R397 -/
  | pfg (h : Head) (g : Guard) (a : VReg) (ch : BitVec 2) (o : BitVec 20)
  /-- R398 -/
  | phf (h : Head) (n : BitVec 5)
  /-- R398 -/
  | phw (h : Head) (n : BitVec 5) (f : Bool)
  /-- R400 -/
  | plop (h : Head) (u : Bool) (g : Guard) (d a b : BitVec 3) (x : BitVec 4) (w : Bool)
  /-- R401 -/
  | popc (h : Head) (u : Bool) (g : Guard) (d a : VReg)
  /-- R402 -/
  | pswz (h : Head) (u : Bool) (g : Guard) (d a b c : VReg)
  /-- R403 -/
  | qmx (h : Head) (g : Guard) (d a : VReg) (b : GReg) (c : VReg) (t : Ty) (m : BitVec 3) (x : Bool)
  /-- R405 -/
  | rast (h : Head) (d a : GReg) (i : BitVec 32)
  /-- R406 -/
  | recv (h : Head) (v : VReg) (n : BitVec 5) (y : BitVec 3)
  /-- R406 -/
  | send (h : Head) (v : VReg) (n : BitVec 5) (y : BitVec 3)
  /-- R410 -/
  | redg (h : Head) (g : Guard) (a b c : VReg) (k : BitVec 4) (x : Bool) (r : BitVec 3) (t : Ty)
  /-- R410 -/
  | redp (h : Head) (g : Guard) (a b c : VReg) (k : BitVec 4) (x : Bool) (r : BitVec 3) (t : Ty)
  /-- R410 -/
  | reds (h : Head) (g : Guard) (a b c : VReg) (k : BitVec 4) (x : Bool) (r : BitVec 3) (t : Ty)
  /-- R411 -/
  | ret (h : Head)
  /-- R412 -/
  | rxbox (h : Head) (g : Guard) (d a b : VReg) (p : BitVec 3)
  /-- R412 -/
  | rxtri (h : Head) (g : Guard) (d a b : VReg) (p : BitVec 3)
  /-- R414 -/
  | sets (h : Head) (d a : GReg)
  /-- R415 -/
  | shfl (h : Head) (g : Guard) (d a b c : VReg) (x : Bool) (m : BitVec 3) (w : Bool)
  /-- R417 -/
  | shlLr (h : Head) (u : Bool) (d a b : VReg)
  /-- R417 -/
  | shlLi (h : Head) (u : Bool) (d a i : VReg)
  /-- R417 -/
  | shlXi (h : Head) (u : Bool) (g : Guard) (d a b : VReg) (t : Ty)
  /-- R417 -/
  | shrLr (h : Head) (u : Bool) (d a b : VReg)
  /-- R417 -/
  | shrLi (h : Head) (u : Bool) (d a i : VReg)
  /-- R417 -/
  | shrXi (h : Head) (u : Bool) (g : Guard) (d a b : VReg) (t : Ty)
  /-- R417 -/
  | shraLr (h : Head) (u : Bool) (d a b : VReg)
  /-- R417 -/
  | shraLi (h : Head) (u : Bool) (d a i : VReg)
  /-- R417 -/
  | shraXi (h : Head) (u : Bool) (g : Guard) (d a b : VReg) (t : Ty)
  /-- R418 -/
  | stc (h : Head) (g : Guard) (d a : VReg) (w : BitVec 3) (r : BitVec 2) (p : BitVec 3)
  /-- R419 -/
  | stg (h : Head) (g : Guard) (d a : VReg) (w : BitVec 3) (r ch : BitVec 2) (o : BitVec 20)
  /-- R419 -/
  | stkLm (h : Head) (d a i : VReg)
  /-- R419 -/
  | stkXm (h : Head) (g : Guard) (d a : VReg) (w : BitVec 3) (ch : BitVec 2) (o : BitVec 20)
  /-- R419 -/
  | stpLm (h : Head) (d a i : VReg)
  /-- R419 -/
  | stpXm (h : Head) (g : Guard) (d a : VReg) (w : BitVec 3) (r : BitVec 2) (o : BitVec 20)
  /-- R419 -/
  | stsLm (h : Head) (d a i : VReg)
  /-- R419 -/
  | stsXm (h : Head) (g : Guard) (d a : VReg) (w : BitVec 3) (o : BitVec 20)
  /-- R423 -/
  | texg (h : Head) (g : Guard) (d a : VReg) (c : GReg) (x : BitVec 2)
  /-- R423 -/
  | texl (h : Head) (g : Guard) (d a b : VReg) (c : GReg)
  /-- R423 -/
  | texs (h : Head) (g : Guard) (d a : VReg) (c : GReg)
  /-- R426 -/
  | time (h : Head) (d : GReg)
  /-- R427 -/
  | tlbiPage (h : Head) (a : GReg)
  /-- R427 -/
  | tlbiCtx (h : Head) (a : GReg)
  /-- R427 -/
  | tlbiAll (h : Head)
  /-- R428 -/
  | trap (h : Head) (x : BitVec 16)
  /-- R429 -/
  | tspn (h : Head) (d a b : GReg)
  /-- R430 -/
  | tsus (h : Head) (a b : GReg)
  /-- R432 -/
  | uadd (h : Head) (d a b : GReg)
  /-- R432 -/
  | usub (h : Head) (d a b : GReg)
  /-- R432 -/
  | umul (h : Head) (d a b : GReg)
  /-- R432 -/
  | uand (h : Head) (d a b : GReg)
  /-- R432 -/
  | uor (h : Head) (d a b : GReg)
  /-- R432 -/
  | uxor (h : Head) (d a b : GReg)
  /-- R432 -/
  | ushl (h : Head) (d a b : GReg)
  /-- R432 -/
  | ushr (h : Head) (d a b : GReg) (f : Bool)
  /-- R433 -/
  | ubra (h : Head) (a : GReg) (n : Bool) (i : BitVec 32)
  /-- R434 -/
  | ucmp (h : Head) (d a b : GReg) (k : BitVec 3)
  /-- R435 -/
  | uldShared (h : Head) (d a b : GReg)
  /-- R435 -/
  | uldPad (h : Head) (d a b : GReg)
  /-- R435 -/
  | uldGlobal (h : Head) (d a b : GReg)
  /-- R435 -/
  | ustShared (h : Head) (d a b : GReg)
  /-- R435 -/
  | ustPad (h : Head) (d a b : GReg)
  /-- R435 -/
  | ustGlobal (h : Head) (d a b : GReg)
  /-- R437 -/
  | uloop (h : Head) (d : GReg) (i : BitVec 32)
  /-- R438 -/
  | umov (h : Head) (d a : GReg)
  /-- R438 -/
  | umovi (h : Head) (d : GReg) (i : BitVec 32)
  /-- R439 -/
  | umovv (h : Head) (d : GReg) (v : VReg)
  /-- R440 -/
  | usel (h : Head) (d a b : GReg)
  /-- R441 -/
  | vote (h : Head) (g : Guard) (d : VReg) (a : BitVec 3) (c : VReg) (x : Bool) (m : BitVec 3) (n : Bool)
  /-- R443 -/
  | wbak (h : Head) (d a : GReg)
  /-- R443 -/
  | wpin (h : Head) (d a : GReg)
  /-- R443 -/
  | wpub (h : Head) (d a : GReg)
  /-- R443 -/
  | wunp (h : Head) (a b : GReg)
  /-- R445 -/
  | xorLr (h : Head) (u : Bool) (d a b : VReg)
  /-- R445 -/
  | xorLi (h : Head) (u : Bool) (d a i : VReg)
  /-- R445 -/
  | xorXi (h : Head) (u : Bool) (g : Guard) (d a b : VReg) (t : Ty)
  /-- R446 -/
  | yld (h : Head)
  /-- R306 -/
  | powerUp
  /-- R25 -/
  | bundleFormation (core : Nat)
  /-- R28 -/
  | fairnessTimer (tid gi : Nat)
  /-- R29 -/
  | cinchWindowClose (tid gi : Nat)
  /-- R93 -/
  | variableLatencyWriteback (tid gi k : Nat) (lanes : Mask)
  /-- R166 -/
  | writeAcknowledge (core k : Nat)
  /-- R194 -/
  | brambleCommit (tid gi : Nat)
  /-- R242 -/
  | clusterPlacement (gid : Nat)
  /-- R198 -/
  | bridleClusterPlacement (gid : Nat)
  /-- R49 -/
  | teamRetire (tid : Nat)
  /-- R134 -/
  | cardLineLanded (die cid : Nat) (line : LineAt)
  /-- R151 -/
  | pageWalkComplete (die ctx page : Nat)
  /-- R152 -/
  | atsTranslation (ctx page host : Nat) (a : AtsAnswer)
  /-- R147 -/
  | lineMigration (die line : Nat)
  /-- R144 -/
  | partitionWrite (die k off v : Nat) (wide : Bool)
  /-- R145 -/
  | granuleMapWrite (die off v : Nat)
  /-- R145 -/
  | granuleRemapComplete (die : Nat)
  /-- R146 -/
  | mirrorSizeWrite (die v : Nat)
  /-- R177 -/
  | hostPostedWrite (pa : Nat) (bs : List Byte)
  /-- R177 -/
  | hostRead (pa n : Nat)
  /-- R298 -/
  | cxlSnoop (pa : Nat)
  /-- R297 -/
  | atsInvalidation (pasid page : Nat)
  /-- R203 -/
  | roundEnd (tid : Nat)
  /-- R203 -/
  | roundResume (tid : Nat)
  /-- R206 -/
  | gridSyncMerge (gid : Nat)
  /-- R206 -/
  | gridEndMerge (gid : Nat)
  /-- R221 -/
  | cardStart (die cid : Nat)
  /-- R230 -/
  | aredMeet (ctx id : Nat) (peers : List (List Byte))
  /-- R217 -/
  | cardComplete (die cid : Nat)
  /-- R220 -/
  | cardFail (die cid : Nat)
  /-- R407 -/
  | channelMessageArrive (tid k : Nat)
  /-- R234 -/
  | doorbell (ctx queue v : Nat)
  /-- R234 -/
  | skip (ctx queue : Nat)
  /-- R237 -/
  | haltClear (ctx queue : Nat)
  /-- R286 -/
  | queueEnable (ctx queue v : Nat)
  /-- R239 -/
  | packetStart (ctx queue : Nat)
  /-- R244 -/
  | realtimePreempt (gid : Nat)
  /-- R252 -/
  | taskPlacement (die : Nat)
  /-- R252 -/
  | binSwitch (die : Nat)
  /-- R255 -/
  | graphNodeComplete (die graph node : Nat)
  /-- R255 -/
  | waitNodeExpiry (die graph node : Nat)
  /-- R256 -/
  | frameBoundary (die : Nat)
  /-- R256 -/
  | budgetCharge (die graph : Nat)
  /-- R257 -/
  | issueAgeLimit (tid gi : Nat) (u : Bool)
  /-- R259 -/
  | poolMove (gid : Nat)
  /-- R260 -/
  | poolMoveComplete (die block : Nat)
  /-- R261 -/
  | nocGovernorSample (die occ : Nat)
  /-- R262 -/
  | hbmPowerDown (ch : Nat)
  /-- R262 -/
  | hbmSelfRefresh (ch : Nat)
  /-- R262 -/
  | hbmExit (ch : Nat)
  /-- R263 -/
  | controlInterval (die : Nat) (energy : List Nat) (peak : List (Nat × Nat))
  /-- R264 -/
  | admissionAgeing (die kind id : Nat)
  /-- R265 -/
  | sensorSample (die : Nat) (temps : List Int)
  /-- R265 -/
  | t4Cutoff
  /-- R265 -/
  | throttleRelease (die : Nat)
  /-- R266 -/
  | dieReenable (die : Nat)
  /-- R267 -/
  | hotspotMigration (tid core : Nat)
  /-- R268 -/
  | powerBudgetWrite (die off v : Nat)
  /-- R270 -/
  | occupancyThresholdWrite (die v : Nat)
  /-- R281 -/
  | preemption (tid : Nat)
  /-- R287 -/
  | timeSliceExpiry (tid : Nat)
  /-- R282 -/
  | teamSaveComplete (tid : Nat)
  /-- R280 -/
  | pgreplyRetry (ctx : Nat) (lo : Word) (hi : Option Word)
  /-- R280 -/
  | pgreplyDecline (ctx : Nat) (lo : Word) (hi : Option Word)
  /-- R280 -/
  | resumeContinue (ctx : Nat) (lo : Word) (hi : Option Word)
  /-- R280 -/
  | resumeSkip (ctx : Nat) (lo : Word) (hi : Option Word)
  /-- R280 -/
  | resumeEnd (ctx : Nat) (lo : Word) (hi : Option Word)
  /-- R280 -/
  | resumeKill (ctx : Nat) (lo : Word) (hi : Option Word)
  /-- R280 -/
  | replyHighWordLatch (ctx : Nat) (pgreply : Bool) (v : Word)
  /-- R285 -/
  | tqrdWrite (ctx v : Nat)
  /-- R279 -/
  | tqerrRetry (ctx : Nat)
  /-- R136 -/
  | contextEnable (ctx v : Nat)
  /-- R285 -/
  | contextDisable (ctx v : Nat)
  /-- R289 -/
  | uncorrectableError (who : ErrAt) (retried : Bool)
  /-- R291 -/
  | lostSector (pa : Nat)
  /-- R288 -/
  | correctedError (unit : Nat)
  /-- R292 -/
  | coreRetire (core : Nat)
  /-- R293 -/
  | subbankSpare (die slice : Nat)
  /-- R293 -/
  | hbmRowRepair (ch : Nat)
  /-- R293 -/
  | linkLaneSpare (link : Nat)
  /-- R293 -/
  | dieReinit (die : Nat)
  /-- R293 -/
  | dieReinitComplete (die : Nat)
  /-- R295 -/
  | lifetimeRecordWrite
  /-- R300 -/
  | enmerFlitReceive (port : Nat) (crc auth : Bool)
  /-- R301 -/
  | enmerRemoteRequest (pkg : Nat) (req : Remote)
  /-- R301 -/
  | peerTimeout (who : ErrAt)
  /-- R459 -/
  | peerMapWrite (off v : Nat)
  /-- R304 -/
  | rdmaWrite (qp : Nat) (op : RdmaOp) (bs : List Byte)
  /-- R305 -/
  | ptpSync (die ns : Nat)
  /-- R307 -/
  | liveUpdate (version digest : Nat) (signer : Option Nat)
  /-- R307 -/
  | rollbackCounterAdvance (v : Nat)
  /-- R308 -/
  | getVersion
  /-- R308 -/
  | getCapabilities
  /-- R308 -/
  | negotiateAlgorithms
  /-- R308 -/
  | getDigests
  /-- R308 -/
  | getCertificate (off len : Nat)
  /-- R308 -/
  | challenge (nonce : List Byte)
  /-- R308 -/
  | getMeasurements (nonce : List Byte)
  /-- R308 -/
  | keyExchange (share : List Byte)
  /-- R308 -/
  | finish (port : Option Nat) (verified : Bool)
  /-- R308 -/
  | endSession (port : Option Nat)
  /-- R309 -/
  | pldmMonitor (die : Nat)
  /-- R309 -/
  | pldmFru
  /-- R309 -/
  | pldmFirmwareUpdate (version digest : Nat) (signer : Option Nat)
  /-- R309 -/
  | lifetimeRecordRead (copy piece : Nat)
  /-- R299: privileged software writes, or software in the user mapping of a context -/
  | registerWrite (who : RegBy) (off v : Nat) (wide : Bool)
  /-- R295 -/
  | powerLoss
  /-- R293 -/
  | hbmRowRepairComplete (ch : Nat)
  /-- R283 -/
  | teamRestoreComplete (tid : Nat)
  deriving DecidableEq, Repr

end Sys2Proof
end

