-- ==== Sys2Proof/Decode.lean ====
section
/-! DEFINITION. The decoder, total on any bytes and rejecting by name, and the encoder, both written from the encoding
tables of R69-R88. The decoder checks length, opcode and must-be-zero fields; the legality of codes, alignments and
scopes is WellFormed's (log 14). -/
namespace Sys2Proof

/-- Why a word is not an instruction (R72 order 2, R89): each is #ILL at issue. -/
inductive Reject where
  /-- a reserved MAJ, FN, SUB, OP or KIND -/
  | reserved
  /-- a must-be-zero field is nonzero -/
  | nonzero
  /-- UNI = 1 where R90 does not permit it -/
  | uniForbidden
  /-- fewer bytes than the length R70 gives -/
  | short
  deriving DecidableEq, Repr

/-- `len` bits of `w` from bit `lo` up. -/
def fld (w lo len : Nat) : Nat := w / 2 ^ lo % 2 ^ len
/-- Bit `i` of `w`. -/
def bit (w i : Nat) : Bool := fld w i 1 == 1
/-- `n` bits of `w` from bit `lo` up, as a bit vector. -/
def bvAt (n w lo : Nat) : BitVec n := BitVec.ofNat n (w / 2 ^ lo)
/-- A Boolean as a bit. -/
def ob (b : Bool) : Nat := if b then 1 else 0

/-- The code of a scope (R69). -/
def Scope.code : Scope → Nat
  | .lane => 0 | .group => 1 | .set => 2 | .team => 3
/-- The scope of a code. -/
def Scope.ofCode : Nat → Scope
  | 0 => .lane | 1 => .group | 2 => .set | _ => .team
/-- The code of a type (R75). -/
def Ty.code : Ty → Nat
  | .i32 => 0 | .n32 => 1 | .i16 => 2 | .n16 => 3 | .i8 => 4 | .n8 => 5 | .f32 => 6 | .f16 => 7
  | .bf16 => 8 | .e4m3 => 9 | .e5m2 => 10 | .e3m2 => 11 | .e2m3 => 12 | .e2m1 => 13 | .e8m0 => 14 | .i64 => 15
/-- The type of a code (R75). -/
def Ty.ofCode : Nat → Ty
  | 0 => .i32 | 1 => .n32 | 2 => .i16 | 3 => .n16 | 4 => .i8 | 5 => .n8 | 6 => .f32 | 7 => .f16
  | 8 => .bf16 | 9 => .e4m3 | 10 => .e5m2 | 11 => .e3m2 | 12 => .e2m3 | 13 => .e2m1 | 14 => .e8m0 | _ => .i64
/-- The type at bits [lo+3:lo]. -/
def tyAt (w lo : Nat) : Ty := Ty.ofCode (fld w lo 4)
/-- SW [30] and SCOPE [29:28] of word 0. -/
def headAt (w0 : Nat) : Head := ⟨bit w0 30, Scope.ofCode (fld w0 28 2)⟩
/-- PG [31:28] of word 1. -/
def guardAt (w1 : Nat) : Guard := ⟨bit w1 31, bvAt 3 w1 28⟩
/-- SW and SCOPE in place. -/
def Head.code (h : Head) : Nat := ob h.sw * 2 ^ 30 + h.scope.code * 2 ^ 28
/-- PG in place. -/
def Guard.code (g : Guard) : Nat := ob g.neg * 2 ^ 31 + g.p.toNat * 2 ^ 28

/-- Accept `i` unless UNI is forbidden and set, or a must-be-zero field is nonzero. -/
def accept (uni zero : Bool) (i : Instr) : Except Reject Instr :=
  if uni then .error .uniForbidden else if zero then .ok i else .error .nonzero

/-- L-set one-word majors (R73). -/
def decodeL1 (w0 : Nat) : Except Reject Instr :=
  match fld w0 21 6 with
  | 0x00 => accept (false) (true) (.iaddLr (headAt w0) (bit w0 27) (bvAt 7 w0 14) (bvAt 7 w0 7) (bvAt 7 w0 0))
  | 0x01 => accept (false) (true) (.isubLr (headAt w0) (bit w0 27) (bvAt 7 w0 14) (bvAt 7 w0 7) (bvAt 7 w0 0))
  | 0x02 => accept (false) (true) (.imulLr (headAt w0) (bit w0 27) (bvAt 7 w0 14) (bvAt 7 w0 7) (bvAt 7 w0 0))
  | 0x03 => accept (false) (true) (.iminLr (headAt w0) (bit w0 27) (bvAt 7 w0 14) (bvAt 7 w0 7) (bvAt 7 w0 0))
  | 0x04 => accept (false) (true) (.imaxLr (headAt w0) (bit w0 27) (bvAt 7 w0 14) (bvAt 7 w0 7) (bvAt 7 w0 0))
  | 0x05 => accept (false) (true) (.andLr (headAt w0) (bit w0 27) (bvAt 7 w0 14) (bvAt 7 w0 7) (bvAt 7 w0 0))
  | 0x06 => accept (false) (true) (.orLr (headAt w0) (bit w0 27) (bvAt 7 w0 14) (bvAt 7 w0 7) (bvAt 7 w0 0))
  | 0x07 => accept (false) (true) (.xorLr (headAt w0) (bit w0 27) (bvAt 7 w0 14) (bvAt 7 w0 7) (bvAt 7 w0 0))
  | 0x08 => accept (false) (true) (.shlLr (headAt w0) (bit w0 27) (bvAt 7 w0 14) (bvAt 7 w0 7) (bvAt 7 w0 0))
  | 0x09 => accept (false) (true) (.shrLr (headAt w0) (bit w0 27) (bvAt 7 w0 14) (bvAt 7 w0 7) (bvAt 7 w0 0))
  | 0x0A => accept (false) (true) (.shraLr (headAt w0) (bit w0 27) (bvAt 7 w0 14) (bvAt 7 w0 7) (bvAt 7 w0 0))
  | 0x0B => accept (false) (fld w0 0 7 == 0) (.movLr (headAt w0) (bit w0 27) (bvAt 7 w0 14) (bvAt 7 w0 7))
  | 0x0C => accept (false) (true) (.faddLr (headAt w0) (bit w0 27) (bvAt 7 w0 14) (bvAt 7 w0 7) (bvAt 7 w0 0))
  | 0x0D => accept (false) (true) (.fmulLr (headAt w0) (bit w0 27) (bvAt 7 w0 14) (bvAt 7 w0 7) (bvAt 7 w0 0))
  | 0x0E => accept (false) (true) (.fminLr (headAt w0) (bit w0 27) (bvAt 7 w0 14) (bvAt 7 w0 7) (bvAt 7 w0 0))
  | 0x0F => accept (false) (true) (.fmaxLr (headAt w0) (bit w0 27) (bvAt 7 w0 14) (bvAt 7 w0 7) (bvAt 7 w0 0))
  | 0x10 => accept (false) (true) (.iaddLi (headAt w0) (bit w0 27) (bvAt 7 w0 14) (bvAt 7 w0 7) (bvAt 7 w0 0))
  | 0x11 => accept (false) (true) (.andLi (headAt w0) (bit w0 27) (bvAt 7 w0 14) (bvAt 7 w0 7) (bvAt 7 w0 0))
  | 0x12 => accept (false) (true) (.orLi (headAt w0) (bit w0 27) (bvAt 7 w0 14) (bvAt 7 w0 7) (bvAt 7 w0 0))
  | 0x13 => accept (false) (true) (.xorLi (headAt w0) (bit w0 27) (bvAt 7 w0 14) (bvAt 7 w0 7) (bvAt 7 w0 0))
  | 0x14 => accept (false) (true) (.shlLi (headAt w0) (bit w0 27) (bvAt 7 w0 14) (bvAt 7 w0 7) (bvAt 7 w0 0))
  | 0x15 => accept (false) (true) (.shrLi (headAt w0) (bit w0 27) (bvAt 7 w0 14) (bvAt 7 w0 7) (bvAt 7 w0 0))
  | 0x16 => accept (false) (true) (.shraLi (headAt w0) (bit w0 27) (bvAt 7 w0 14) (bvAt 7 w0 7) (bvAt 7 w0 0))
  | 0x17 => accept (false) (fld w0 0 7 == 0 && fld w0 13 1 == 0) (.movg (headAt w0) (bit w0 27) (bvAt 7 w0 14) (bvAt 6 w0 7))
  | 0x18 => accept (false) (true) (.ldsLm (headAt w0) (bit w0 27) (bvAt 7 w0 14) (bvAt 7 w0 7) (bvAt 7 w0 0))
  | 0x19 => accept (bit w0 27) (true) (.stsLm (headAt w0) (bvAt 7 w0 14) (bvAt 7 w0 7) (bvAt 7 w0 0))
  | 0x1A => accept (false) (true) (.ldpLm (headAt w0) (bit w0 27) (bvAt 7 w0 14) (bvAt 7 w0 7) (bvAt 7 w0 0))
  | 0x1B => accept (bit w0 27) (true) (.stpLm (headAt w0) (bvAt 7 w0 14) (bvAt 7 w0 7) (bvAt 7 w0 0))
  | 0x1C => accept (false) (true) (.ldkLm (headAt w0) (bit w0 27) (bvAt 7 w0 14) (bvAt 7 w0 7) (bvAt 7 w0 0))
  | 0x1D => accept (bit w0 27) (true) (.stkLm (headAt w0) (bvAt 7 w0 14) (bvAt 7 w0 7) (bvAt 7 w0 0))
  | 0x1E => accept (false) (fld w0 0 7 == 0) (.movs (headAt w0) (bit w0 27) (bvAt 7 w0 14) (bvAt 7 w0 7))
  | 0x1F => if fld w0 14 4 < 10 then accept (false) (true) (.icmpLc (headAt w0) (bit w0 27) (bvAt 3 w0 18) (bvAt 7 w0 7) (bvAt 7 w0 0) (bvAt 4 w0 14)) else accept (false) (true) (.fcmpLc (headAt w0) (bit w0 27) (bvAt 3 w0 18) (bvAt 7 w0 7) (bvAt 7 w0 0) (bvAt 4 w0 14))
  | 0x20 => accept (bit w0 27) (true) (.bra (headAt w0) (bvAt 21 w0 0))
  | 0x21 => accept (bit w0 27) (true) (.call (headAt w0) (bvAt 21 w0 0))
  | 0x22 => accept (bit w0 27) (fld w0 0 7 == 0 && fld w0 14 7 == 0) (.brx (headAt w0) (bvAt 7 w0 7))
  | 0x23 => accept (bit w0 27) (fld w0 0 7 == 0 && fld w0 14 7 == 0) (.calx (headAt w0) (bvAt 7 w0 7))
  | 0x24 =>
    match fld w0 16 5 with
    | 0 => accept (bit w0 27) (fld w0 0 16 == 0) (.ret (headAt w0))
    | 1 => accept (bit w0 27) (fld w0 0 16 == 0) (.exit (headAt w0))
    | 2 => accept (bit w0 27) (fld w0 0 16 == 0) (.nop (headAt w0))
    | 3 => accept (bit w0 27) (fld w0 0 16 == 0) (.yld (headAt w0))
    | 4 => accept (bit w0 27) (fld w0 0 16 == 0) (.isync (headAt w0))
    | 5 => accept (bit w0 27) (fld w0 0 16 == 0) (.bpt (headAt w0))
    | 6 => accept (bit w0 27) (true) (.trap (headAt w0) (bvAt 16 w0 0))
    | _ => .error .reserved
  | 0x25 =>
    match fld w0 18 3 with
    | 0 => accept (bit w0 27) (fld w0 0 18 == 0) (.fenceAcq (headAt w0))
    | 1 => accept (bit w0 27) (fld w0 0 18 == 0) (.fenceRel (headAt w0))
    | 2 => accept (bit w0 27) (fld w0 0 18 == 0) (.fenceFull (headAt w0))
    | 3 => accept (bit w0 27) (fld w0 0 18 == 0) (.fenceX (headAt w0))
    | _ => .error .reserved
  | 0x26 =>
    match fld w0 14 2 with
    | 0 => accept (bit w0 27) (fld w0 0 6 == 0) (.bar (headAt w0) (bvAt 5 w0 16) (bit w0 13) (bvAt 6 w0 7) (bit w0 6))
    | 1 => accept (bit w0 27) (fld w0 0 7 == 0) (.bara (headAt w0) (bvAt 5 w0 16) (bit w0 13) (bvAt 6 w0 7))
    | 2 => accept (bit w0 27) (fld w0 0 14 == 0) (.barw (headAt w0) (bvAt 5 w0 16))
    | _ => .error .reserved
  | 0x27 =>
    match fld w0 15 1 with
    | 0 => accept (bit w0 27) (fld w0 0 14 == 0) (.phw (headAt w0) (bvAt 5 w0 16) (bit w0 14))
    | 1 => accept (bit w0 27) (fld w0 0 15 == 0) (.phf (headAt w0) (bvAt 5 w0 16))
    | _ => .error .reserved
  | 0x28 => accept (bit w0 27) (fld w0 0 4 == 0 && fld w0 14 2 == 0) (.send (headAt w0) (bvAt 7 w0 7) (bvAt 5 w0 16) (bvAt 3 w0 4))
  | 0x29 => accept (bit w0 27) (fld w0 0 4 == 0 && fld w0 14 2 == 0) (.recv (headAt w0) (bvAt 7 w0 7) (bvAt 5 w0 16) (bvAt 3 w0 4))
  | _ => .error .reserved

/-- U-set one-word majors (R87). -/
def decodeU1 (w0 : Nat) : Except Reject Instr :=
  match fld w0 21 6 with
  | 0x00 => accept (bit w0 27) (fld w0 0 3 == 0) (.uadd (headAt w0) (bvAt 6 w0 15) (bvAt 6 w0 9) (bvAt 6 w0 3))
  | 0x01 => accept (bit w0 27) (fld w0 0 3 == 0) (.usub (headAt w0) (bvAt 6 w0 15) (bvAt 6 w0 9) (bvAt 6 w0 3))
  | 0x02 => accept (bit w0 27) (fld w0 0 3 == 0) (.umul (headAt w0) (bvAt 6 w0 15) (bvAt 6 w0 9) (bvAt 6 w0 3))
  | 0x03 => accept (bit w0 27) (fld w0 0 3 == 0) (.uand (headAt w0) (bvAt 6 w0 15) (bvAt 6 w0 9) (bvAt 6 w0 3))
  | 0x04 => accept (bit w0 27) (fld w0 0 3 == 0) (.uor (headAt w0) (bvAt 6 w0 15) (bvAt 6 w0 9) (bvAt 6 w0 3))
  | 0x05 => accept (bit w0 27) (fld w0 0 3 == 0) (.uxor (headAt w0) (bvAt 6 w0 15) (bvAt 6 w0 9) (bvAt 6 w0 3))
  | 0x06 => accept (bit w0 27) (fld w0 0 3 == 0) (.ushl (headAt w0) (bvAt 6 w0 15) (bvAt 6 w0 9) (bvAt 6 w0 3))
  | 0x07 => accept (bit w0 27) (fld w0 1 2 == 0) (.ushr (headAt w0) (bvAt 6 w0 15) (bvAt 6 w0 9) (bvAt 6 w0 3) (bit w0 0))
  | 0x08 => accept (bit w0 27) (true) (.ucmp (headAt w0) (bvAt 6 w0 15) (bvAt 6 w0 9) (bvAt 6 w0 3) (bvAt 3 w0 0))
  | 0x09 => accept (bit w0 27) (fld w0 0 3 == 0) (.usel (headAt w0) (bvAt 6 w0 15) (bvAt 6 w0 9) (bvAt 6 w0 3))
  | 0x0A => accept (bit w0 27) (fld w0 0 9 == 0) (.umov (headAt w0) (bvAt 6 w0 15) (bvAt 6 w0 9))
  | 0x0B => accept (bit w0 27) (fld w0 0 8 == 0) (.umovv (headAt w0) (bvAt 6 w0 15) (bvAt 7 w0 8))
  | 0x0C =>
    match fld w0 0 3 with
    | 0 => accept (bit w0 27) (true) (.uldShared (headAt w0) (bvAt 6 w0 15) (bvAt 6 w0 9) (bvAt 6 w0 3))
    | 1 => accept (bit w0 27) (true) (.uldPad (headAt w0) (bvAt 6 w0 15) (bvAt 6 w0 9) (bvAt 6 w0 3))
    | 2 => accept (bit w0 27) (true) (.uldGlobal (headAt w0) (bvAt 6 w0 15) (bvAt 6 w0 9) (bvAt 6 w0 3))
    | _ => .error .reserved
  | 0x0D =>
    match fld w0 0 3 with
    | 0 => accept (bit w0 27) (true) (.ustShared (headAt w0) (bvAt 6 w0 15) (bvAt 6 w0 9) (bvAt 6 w0 3))
    | 1 => accept (bit w0 27) (true) (.ustPad (headAt w0) (bvAt 6 w0 15) (bvAt 6 w0 9) (bvAt 6 w0 3))
    | 2 => accept (bit w0 27) (true) (.ustGlobal (headAt w0) (bvAt 6 w0 15) (bvAt 6 w0 9) (bvAt 6 w0 3))
    | _ => .error .reserved
  | 0x0E => accept (bit w0 27) (fld w0 0 15 == 0) (.clk (headAt w0) (bvAt 6 w0 15))
  | 0x0F => accept (bit w0 27) (fld w0 0 15 == 0) (.time (headAt w0) (bvAt 6 w0 15))
  | 0x10 => accept (bit w0 27) (fld w0 0 9 == 0 && fld w0 15 6 == 0) (.ewt (headAt w0) (bvAt 6 w0 9))
  | 0x11 => accept (bit w0 27) (fld w0 0 9 == 0) (.eqry (headAt w0) (bvAt 6 w0 15) (bvAt 6 w0 9))
  | 0x12 => accept (bit w0 27) (fld w0 0 9 == 0) (.wpin (headAt w0) (bvAt 6 w0 15) (bvAt 6 w0 9))
  | 0x13 => accept (bit w0 27) (fld w0 0 3 == 0 && fld w0 15 6 == 0) (.wunp (headAt w0) (bvAt 6 w0 9) (bvAt 6 w0 3))
  | 0x14 => accept (bit w0 27) (fld w0 0 9 == 0) (.wpub (headAt w0) (bvAt 6 w0 15) (bvAt 6 w0 9))
  | 0x15 => accept (bit w0 27) (fld w0 0 9 == 0) (.wbak (headAt w0) (bvAt 6 w0 15) (bvAt 6 w0 9))
  | 0x16 => accept (bit w0 27) (fld w0 0 21 == 0) (.gwait (headAt w0))
  | 0x17 => accept (bit w0 27) (fld w0 0 21 == 0) (.lnxt (headAt w0))
  | 0x18 => accept (bit w0 27) (fld w0 0 3 == 0 && fld w0 15 6 == 0) (.tsus (headAt w0) (bvAt 6 w0 9) (bvAt 6 w0 3))
  | 0x19 => accept (bit w0 27) (fld w0 0 3 == 0) (.tspn (headAt w0) (bvAt 6 w0 15) (bvAt 6 w0 9) (bvAt 6 w0 3))
  | 0x1A => accept (bit w0 27) (fld w0 0 9 == 0) (.sets (headAt w0) (bvAt 6 w0 15) (bvAt 6 w0 9))
  | 0x1B =>
    match fld w0 0 3 with
    | 0 => accept (bit w0 27) (fld w0 3 6 == 0 && fld w0 15 6 == 0) (.tlbiPage (headAt w0) (bvAt 6 w0 9))
    | 1 => accept (bit w0 27) (fld w0 3 6 == 0 && fld w0 15 6 == 0) (.tlbiCtx (headAt w0) (bvAt 6 w0 9))
    | 2 => accept (bit w0 27) (fld w0 3 18 == 0) (.tlbiAll (headAt w0))
    | _ => .error .reserved
  | _ => .error .reserved

/-- MAJ 0x30, by FN. -/
def decodeXi (w0 w1 : Nat) : Except Reject Instr :=
  match fld w1 20 8 with
  | 0 => accept (false) (fld w1 0 6 == 0 && fld w1 10 10 == 0) (.imulh (headAt w0) (bit w0 27) (guardAt w1) (bvAt 7 w0 14) (bvAt 7 w0 7) (bvAt 7 w0 0) (tyAt w1 6))
  | 1 => accept (false) (fld w1 0 6 == 0 && fld w1 10 3 == 0) (.imad (headAt w0) (bit w0 27) (guardAt w1) (bvAt 7 w0 14) (bvAt 7 w0 7) (bvAt 7 w0 0) (bvAt 7 w1 13) (tyAt w1 6))
  | 2 => accept (false) (fld w1 0 6 == 0 && fld w1 10 3 == 0) (.imadw (headAt w0) (bit w0 27) (guardAt w1) (bvAt 7 w0 14) (bvAt 7 w0 7) (bvAt 7 w0 0) (bvAt 7 w1 13) (tyAt w1 6))
  | 3 => accept (false) (fld w0 0 7 == 0 && fld w1 1 5 == 0 && fld w1 10 10 == 0 && fld w1 6 4 == 0) (.iabs (headAt w0) (bit w0 27) (guardAt w1) (bvAt 7 w0 14) (bvAt 7 w0 7) (bit w1 0))
  | 4 => accept (false) (fld w1 4 2 == 0 && fld w1 10 10 == 0 && fld w1 6 4 == 0) (.isel (headAt w0) (bit w0 27) (guardAt w1) (bvAt 7 w0 14) (bvAt 7 w0 7) (bvAt 7 w0 0) (bit w1 3) (bvAt 3 w1 0))
  | 5 => accept (false) (fld w1 0 6 == 0 && fld w1 10 10 == 0) (.bfx (headAt w0) (bit w0 27) (guardAt w1) (bvAt 7 w0 14) (bvAt 7 w0 7) (bvAt 7 w0 0) (tyAt w1 6))
  | 6 => accept (false) (fld w1 0 6 == 0 && fld w1 10 3 == 0 && fld w1 6 4 == 1) (.bfi (headAt w0) (bit w0 27) (guardAt w1) (bvAt 7 w0 14) (bvAt 7 w0 7) (bvAt 7 w0 0) (bvAt 7 w1 13))
  | 7 => accept (false) (fld w0 0 7 == 0 && fld w1 0 6 == 0 && fld w1 10 10 == 0 && fld w1 6 4 == 1) (.popc (headAt w0) (bit w0 27) (guardAt w1) (bvAt 7 w0 14) (bvAt 7 w0 7))
  | 8 => accept (false) (fld w0 0 7 == 0 && fld w1 0 6 == 0 && fld w1 10 10 == 0 && fld w1 6 4 == 1) (.clz (headAt w0) (bit w0 27) (guardAt w1) (bvAt 7 w0 14) (bvAt 7 w0 7))
  | 9 => accept (false) (fld w0 0 7 == 0 && fld w1 0 6 == 0 && fld w1 10 10 == 0 && fld w1 6 4 == 1) (.brev (headAt w0) (bit w0 27) (guardAt w1) (bvAt 7 w0 14) (bvAt 7 w0 7))
  | 10 => accept (false) (fld w1 0 6 == 0 && fld w1 10 3 == 0 && fld w1 6 4 == 1) (.pswz (headAt w0) (bit w0 27) (guardAt w1) (bvAt 7 w0 14) (bvAt 7 w0 7) (bvAt 7 w0 0) (bvAt 7 w1 13))
  | 11 => accept (false) (fld w1 1 5 == 0 && fld w1 10 3 == 0 && fld w1 6 4 == 1) (.fshf (headAt w0) (bit w0 27) (guardAt w1) (bvAt 7 w0 14) (bvAt 7 w0 7) (bvAt 7 w0 0) (bvAt 7 w1 13) (bit w1 0))
  | 12 => accept (false) (fld w1 10 10 == 0 && fld w1 6 4 == 1) (.iaddx (headAt w0) (bit w0 27) (guardAt w1) (bvAt 7 w0 14) (bvAt 7 w0 7) (bvAt 7 w0 0) (bvAt 3 w1 0) (bvAt 3 w1 3))
  | 13 => accept (false) (fld w1 4 2 == 0 && fld w1 10 10 == 0) (.lea (headAt w0) (bit w0 27) (guardAt w1) (bvAt 7 w0 14) (bvAt 7 w0 7) (bvAt 7 w0 0) (tyAt w1 6) (bvAt 4 w1 0))
  | 14 => accept (false) (fld w1 0 6 == 0 && fld w1 10 3 == 0) (.idp4 (headAt w0) (bit w0 27) (guardAt w1) (bvAt 7 w0 14) (bvAt 7 w0 7) (bvAt 7 w0 0) (bvAt 7 w1 13) (tyAt w1 6))
  | 15 => accept (false) (fld w1 0 6 == 0 && fld w1 10 10 == 0 && fld w1 6 4 == 1) (.andn (headAt w0) (bit w0 27) (guardAt w1) (bvAt 7 w0 14) (bvAt 7 w0 7) (bvAt 7 w0 0))
  | 16 => accept (false) (fld w0 3 4 == 0 && fld w0 10 4 == 0 && fld w0 17 4 == 0 && fld w1 4 6 == 0 && fld w1 11 9 == 0) (.plop (headAt w0) (bit w0 27) (guardAt w1) (bvAt 3 w0 14) (bvAt 3 w0 7) (bvAt 3 w0 0) (bvAt 4 w1 0) (bit w1 10))
  | 17 => accept (false) (fld w0 17 4 == 0 && fld w1 4 2 == 0 && fld w1 10 10 == 0) (.icmpXi (headAt w0) (bit w0 27) (guardAt w1) (bvAt 3 w0 14) (bvAt 7 w0 7) (bvAt 7 w0 0) (tyAt w1 6) (bvAt 4 w1 0))
  | 32 => accept (false) (fld w1 1 5 == 0 && fld w1 10 10 == 0) (.iaddXi (headAt w0) (bit w0 27) (guardAt w1) (bvAt 7 w0 14) (bvAt 7 w0 7) (bvAt 7 w0 0) (tyAt w1 6) (bit w1 0))
  | 33 => accept (false) (fld w1 1 5 == 0 && fld w1 10 10 == 0) (.isubXi (headAt w0) (bit w0 27) (guardAt w1) (bvAt 7 w0 14) (bvAt 7 w0 7) (bvAt 7 w0 0) (tyAt w1 6) (bit w1 0))
  | 34 => accept (false) (fld w1 0 6 == 0 && fld w1 10 10 == 0) (.imulXi (headAt w0) (bit w0 27) (guardAt w1) (bvAt 7 w0 14) (bvAt 7 w0 7) (bvAt 7 w0 0) (tyAt w1 6))
  | 35 => accept (false) (fld w1 0 6 == 0 && fld w1 10 10 == 0) (.iminXi (headAt w0) (bit w0 27) (guardAt w1) (bvAt 7 w0 14) (bvAt 7 w0 7) (bvAt 7 w0 0) (tyAt w1 6))
  | 36 => accept (false) (fld w1 0 6 == 0 && fld w1 10 10 == 0) (.imaxXi (headAt w0) (bit w0 27) (guardAt w1) (bvAt 7 w0 14) (bvAt 7 w0 7) (bvAt 7 w0 0) (tyAt w1 6))
  | 37 => accept (false) (fld w1 0 6 == 0 && fld w1 10 10 == 0) (.andXi (headAt w0) (bit w0 27) (guardAt w1) (bvAt 7 w0 14) (bvAt 7 w0 7) (bvAt 7 w0 0) (tyAt w1 6))
  | 38 => accept (false) (fld w1 0 6 == 0 && fld w1 10 10 == 0) (.orXi (headAt w0) (bit w0 27) (guardAt w1) (bvAt 7 w0 14) (bvAt 7 w0 7) (bvAt 7 w0 0) (tyAt w1 6))
  | 39 => accept (false) (fld w1 0 6 == 0 && fld w1 10 10 == 0) (.xorXi (headAt w0) (bit w0 27) (guardAt w1) (bvAt 7 w0 14) (bvAt 7 w0 7) (bvAt 7 w0 0) (tyAt w1 6))
  | 40 => accept (false) (fld w1 0 6 == 0 && fld w1 10 10 == 0) (.shlXi (headAt w0) (bit w0 27) (guardAt w1) (bvAt 7 w0 14) (bvAt 7 w0 7) (bvAt 7 w0 0) (tyAt w1 6))
  | 41 => accept (false) (fld w1 0 6 == 0 && fld w1 10 10 == 0) (.shrXi (headAt w0) (bit w0 27) (guardAt w1) (bvAt 7 w0 14) (bvAt 7 w0 7) (bvAt 7 w0 0) (tyAt w1 6))
  | 42 => accept (false) (fld w1 0 6 == 0 && fld w1 10 10 == 0) (.shraXi (headAt w0) (bit w0 27) (guardAt w1) (bvAt 7 w0 14) (bvAt 7 w0 7) (bvAt 7 w0 0) (tyAt w1 6))
  | 43 => accept (false) (fld w0 0 7 == 0 && fld w1 0 6 == 0 && fld w1 10 10 == 0) (.movXi (headAt w0) (bit w0 27) (guardAt w1) (bvAt 7 w0 14) (bvAt 7 w0 7) (tyAt w1 6))
  | 64 => accept (bit w0 27) (fld w1 0 20 == 0) (.braGuarded (headAt w0) (guardAt w1) (bvAt 21 w0 0))
  | 65 => accept (bit w0 27) (fld w1 0 20 == 0) (.callGuarded (headAt w0) (guardAt w1) (bvAt 21 w0 0))
  | 66 => accept (bit w0 27) (fld w0 0 7 == 0 && fld w0 14 7 == 0 && fld w1 0 20 == 0) (.brxGuarded (headAt w0) (guardAt w1) (bvAt 7 w0 7))
  | 67 => accept (bit w0 27) (fld w0 0 7 == 0 && fld w0 14 7 == 0 && fld w1 0 20 == 0) (.calxGuarded (headAt w0) (guardAt w1) (bvAt 7 w0 7))
  | _ => .error .reserved

/-- MAJ 0x31, by FN. -/
def decodeXf (w0 w1 : Nat) : Except Reject Instr :=
  match fld w1 20 8 with
  | 0 => accept (false) (fld w1 0 6 == 0 && fld w1 6 4 == 6) (.ffma (headAt w0) (bit w0 27) (guardAt w1) (bvAt 7 w0 14) (bvAt 7 w0 7) (bvAt 7 w0 0) (bvAt 7 w1 13) (bvAt 3 w1 10))
  | 1 => accept (false) (fld w1 0 6 == 0 && fld w1 13 7 == 0 && fld w1 6 4 == 6) (.faddXf (headAt w0) (bit w0 27) (guardAt w1) (bvAt 7 w0 14) (bvAt 7 w0 7) (bvAt 7 w0 0) (bvAt 3 w1 10))
  | 2 => accept (false) (fld w1 0 6 == 0 && fld w1 13 7 == 0 && fld w1 6 4 == 6) (.fmulXf (headAt w0) (bit w0 27) (guardAt w1) (bvAt 7 w0 14) (bvAt 7 w0 7) (bvAt 7 w0 0) (bvAt 3 w1 10))
  | 3 => accept (false) (fld w1 0 6 == 0 && fld w1 10 10 == 0 && fld w1 6 4 == 6) (.fminXf (headAt w0) (bit w0 27) (guardAt w1) (bvAt 7 w0 14) (bvAt 7 w0 7) (bvAt 7 w0 0))
  | 4 => accept (false) (fld w1 0 6 == 0 && fld w1 10 10 == 0 && fld w1 6 4 == 6) (.fmaxXf (headAt w0) (bit w0 27) (guardAt w1) (bvAt 7 w0 14) (bvAt 7 w0 7) (bvAt 7 w0 0))
  | 5 => accept (false) (fld w0 0 7 == 0 && fld w1 0 6 == 0 && fld w1 13 7 == 0 && fld w1 6 4 == 6) (.frnd (headAt w0) (bit w0 27) (guardAt w1) (bvAt 7 w0 14) (bvAt 7 w0 7) (bvAt 3 w1 10))
  | 6 => accept (false) (fld w0 0 7 == 0 && fld w1 0 6 == 0 && fld w1 10 10 == 0 && fld w1 6 4 == 6) (.frcp (headAt w0) (bit w0 27) (guardAt w1) (bvAt 7 w0 14) (bvAt 7 w0 7))
  | 7 => accept (false) (fld w0 0 7 == 0 && fld w1 0 6 == 0 && fld w1 10 10 == 0 && fld w1 6 4 == 6) (.frsq (headAt w0) (bit w0 27) (guardAt w1) (bvAt 7 w0 14) (bvAt 7 w0 7))
  | 8 => accept (false) (fld w0 0 7 == 0 && fld w1 0 6 == 0 && fld w1 10 10 == 0 && fld w1 6 4 == 6) (.fsqrt (headAt w0) (bit w0 27) (guardAt w1) (bvAt 7 w0 14) (bvAt 7 w0 7))
  | 9 => accept (false) (fld w0 0 7 == 0 && fld w1 0 6 == 0 && fld w1 10 10 == 0 && fld w1 6 4 == 6) (.fex2 (headAt w0) (bit w0 27) (guardAt w1) (bvAt 7 w0 14) (bvAt 7 w0 7))
  | 10 => accept (false) (fld w0 0 7 == 0 && fld w1 0 6 == 0 && fld w1 10 10 == 0 && fld w1 6 4 == 6) (.flg2 (headAt w0) (bit w0 27) (guardAt w1) (bvAt 7 w0 14) (bvAt 7 w0 7))
  | 11 => accept (false) (fld w0 0 7 == 0 && fld w1 0 6 == 0 && fld w1 10 10 == 0 && fld w1 6 4 == 6) (.fsin (headAt w0) (bit w0 27) (guardAt w1) (bvAt 7 w0 14) (bvAt 7 w0 7))
  | 12 => accept (false) (fld w0 0 7 == 0 && fld w1 0 6 == 0 && fld w1 10 10 == 0 && fld w1 6 4 == 6) (.fcos (headAt w0) (bit w0 27) (guardAt w1) (bvAt 7 w0 14) (bvAt 7 w0 7))
  | 13 => accept (false) (fld w1 0 6 == 0 && fld w1 13 7 == 0) (.hadd2 (headAt w0) (bit w0 27) (guardAt w1) (bvAt 7 w0 14) (bvAt 7 w0 7) (bvAt 7 w0 0) (tyAt w1 6) (bvAt 3 w1 10))
  | 14 => accept (false) (fld w1 0 6 == 0 && fld w1 13 7 == 0) (.hmul2 (headAt w0) (bit w0 27) (guardAt w1) (bvAt 7 w0 14) (bvAt 7 w0 7) (bvAt 7 w0 0) (tyAt w1 6) (bvAt 3 w1 10))
  | 15 => accept (false) (fld w1 0 6 == 0) (.hfma2 (headAt w0) (bit w0 27) (guardAt w1) (bvAt 7 w0 14) (bvAt 7 w0 7) (bvAt 7 w0 0) (bvAt 7 w1 13) (tyAt w1 6) (bvAt 3 w1 10))
  | 16 => accept (false) (fld w0 17 4 == 0 && fld w1 4 2 == 0 && fld w1 10 10 == 0) (.fcmpXf (headAt w0) (bit w0 27) (guardAt w1) (bvAt 3 w0 14) (bvAt 7 w0 7) (bvAt 7 w0 0) (tyAt w1 6) (bvAt 4 w1 0))
  | _ => .error .reserved

/-- MAJ 0x32, by FN. -/
def decodeXc (w0 w1 : Nat) : Except Reject Instr :=
  match fld w1 20 8 with
  | 0 => accept (false) (fld w0 0 7 == 0 && fld w1 5 1 == 0 && fld w1 13 7 == 0) (.cvt (headAt w0) (bit w0 27) (guardAt w1) (bvAt 7 w0 14) (bvAt 7 w0 7) (tyAt w1 6) (bvAt 3 w1 10) (tyAt w1 0) (bit w1 4))
  | 1 => accept (false) (fld w1 5 1 == 0 && fld w1 13 7 == 0 && fld w1 0 4 == 6) (.cvtp (headAt w0) (bit w0 27) (guardAt w1) (bvAt 7 w0 14) (bvAt 7 w0 7) (bvAt 7 w0 0) (tyAt w1 6) (bvAt 3 w1 10) (bit w1 4))
  | 2 => accept (false) (fld w1 5 1 == 0 && fld w1 13 7 == 0) (.cvtx (headAt w0) (bit w0 27) (guardAt w1) (bvAt 7 w0 14) (bvAt 7 w0 7) (bvAt 7 w0 0) (tyAt w1 6) (bvAt 3 w1 10) (tyAt w1 0) (bit w1 4))
  | 3 => accept (bit w0 27) (fld w0 6 1 == 0 && fld w1 0 5 == 0) (.qmx (headAt w0) (guardAt w1) (bvAt 7 w0 14) (bvAt 7 w0 7) (bvAt 6 w0 0) (bvAt 7 w1 13) (tyAt w1 6) (bvAt 3 w1 10) (bit w1 5))
  | 4 => accept (bit w0 27) (fld w0 0 7 == 0 && fld w1 4 2 == 0) (.dqmx (headAt w0) (guardAt w1) (bvAt 7 w0 14) (bvAt 7 w0 7) (bvAt 7 w1 13) (tyAt w1 6) (bvAt 3 w1 10) (tyAt w1 0))
  | _ => .error .reserved

/-- MAJ 0x33, by FN. -/
def decodeXm (w0 w1 : Nat) : Except Reject Instr :=
  match fld w1 20 8 with
  | 0 => accept (false) (true) (.ldg (headAt w0) (bit w0 27) (guardAt w1) (bvAt 7 w0 14) (bvAt 7 w0 7) (bvAt 3 w0 4) (bvAt 2 w0 2) (bvAt 2 w0 0) (bvAt 20 w1 0))
  | 1 => accept (bit w0 27) (true) (.stg (headAt w0) (guardAt w1) (bvAt 7 w0 14) (bvAt 7 w0 7) (bvAt 3 w0 4) (bvAt 2 w0 2) (bvAt 2 w0 0) (bvAt 20 w1 0))
  | 2 => accept (false) (fld w0 0 4 == 0) (.ldsXm (headAt w0) (bit w0 27) (guardAt w1) (bvAt 7 w0 14) (bvAt 7 w0 7) (bvAt 3 w0 4) (bvAt 20 w1 0))
  | 3 => accept (bit w0 27) (fld w0 0 4 == 0) (.stsXm (headAt w0) (guardAt w1) (bvAt 7 w0 14) (bvAt 7 w0 7) (bvAt 3 w0 4) (bvAt 20 w1 0))
  | 4 => accept (false) (fld w0 0 2 == 0) (.ldpXm (headAt w0) (bit w0 27) (guardAt w1) (bvAt 7 w0 14) (bvAt 7 w0 7) (bvAt 3 w0 4) (bvAt 2 w0 2) (bvAt 20 w1 0))
  | 5 => accept (bit w0 27) (fld w0 0 2 == 0) (.stpXm (headAt w0) (guardAt w1) (bvAt 7 w0 14) (bvAt 7 w0 7) (bvAt 3 w0 4) (bvAt 2 w0 2) (bvAt 20 w1 0))
  | 6 => accept (false) (fld w0 2 2 == 0) (.ldkXm (headAt w0) (bit w0 27) (guardAt w1) (bvAt 7 w0 14) (bvAt 7 w0 7) (bvAt 3 w0 4) (bvAt 2 w0 0) (bvAt 20 w1 0))
  | 7 => accept (bit w0 27) (fld w0 2 2 == 0) (.stkXm (headAt w0) (guardAt w1) (bvAt 7 w0 14) (bvAt 7 w0 7) (bvAt 3 w0 4) (bvAt 2 w0 0) (bvAt 20 w1 0))
  | 8 => accept (bit w0 27) (fld w0 0 2 == 0) (.ldr (headAt w0) (guardAt w1) (bvAt 7 w0 14) (bvAt 7 w0 7) (bvAt 3 w0 4) (bvAt 2 w0 2) (bvAt 20 w1 0))
  | 9 => accept (bit w0 27) (fld w0 0 2 == 0 && fld w1 3 17 == 0) (.stc (headAt w0) (guardAt w1) (bvAt 7 w0 14) (bvAt 7 w0 7) (bvAt 3 w0 4) (bvAt 2 w0 2) (bvAt 3 w1 0))
  | 10 => accept (bit w0 27) (fld w0 2 2 == 0 && fld w0 14 7 == 0 && fld w0 4 3 == 2) (.pfg (headAt w0) (guardAt w1) (bvAt 7 w0 7) (bvAt 2 w0 0) (bvAt 20 w1 0))
  | _ => .error .reserved

/-- MAJ 0x35, by FN. -/
def decodeXg (w0 w1 : Nat) : Except Reject Instr :=
  match fld w1 20 8 with
  | 0 => accept (bit w0 27) (fld w1 0 4 == 0 && fld w1 6 4 == 0) (.shfl (headAt w0) (guardAt w1) (bvAt 7 w0 14) (bvAt 7 w0 7) (bvAt 7 w0 0) (bvAt 7 w1 13) (bit w1 5) (bvAt 3 w1 10) (bit w1 4))
  | 1 => accept (bit w0 27) (fld w0 0 7 == 0 && fld w0 10 4 == 0 && fld w1 0 3 == 0 && fld w1 4 1 == 0 && fld w1 6 4 == 0) (.vote (headAt w0) (guardAt w1) (bvAt 7 w0 14) (bvAt 3 w0 7) (bvAt 7 w1 13) (bit w1 5) (bvAt 3 w1 10) (bit w1 3))
  | 2 => accept (bit w0 27) (fld w0 0 7 == 0 && fld w1 0 5 == 0 && fld w1 10 3 == 0) (.matchLanes (headAt w0) (guardAt w1) (bvAt 7 w0 14) (bvAt 7 w0 7) (bvAt 7 w1 13) (bit w1 5) (tyAt w1 6))
  | 3 => accept (bit w0 27) (fld w0 0 7 == 0 && fld w1 0 4 == 0) (.gred (headAt w0) (guardAt w1) (bvAt 7 w0 14) (bvAt 7 w0 7) (bvAt 7 w1 13) (bit w1 5) (bvAt 3 w1 10) (tyAt w1 6) (bit w1 4))
  | 4 => accept (bit w0 27) (fld w0 0 7 == 0 && fld w1 0 5 == 0) (.gscan (headAt w0) (guardAt w1) (bvAt 7 w0 14) (bvAt 7 w0 7) (bvAt 7 w1 13) (bit w1 5) (bvAt 3 w1 10) (tyAt w1 6))
  | 5 => accept (bit w0 27) (fld w0 0 7 == 0 && fld w1 0 5 == 0 && fld w1 6 4 == 7) (.gargx (headAt w0) (guardAt w1) (bvAt 7 w0 14) (bvAt 7 w0 7) (bvAt 7 w1 13) (bit w1 5) (bvAt 3 w1 10))
  | _ => .error .reserved

/-- MAJ 0x36, by FN. -/
def decodeXx (w0 w1 : Nat) : Except Reject Instr :=
  match fld w1 20 8 with
  | 0 => accept (bit w0 27) (fld w1 0 6 == 0 && fld w1 10 3 == 0) (.mma (headAt w0) (guardAt w1) (bvAt 7 w0 14) (bvAt 7 w0 7) (bvAt 7 w0 0) (bvAt 7 w1 13) (tyAt w1 6))
  | 1 => accept (bit w0 27) (fld w1 2 3 == 0 && fld w1 12 1 == 0) (.mmax (headAt w0) (guardAt w1) (bvAt 7 w0 14) (bvAt 7 w0 7) (bvAt 7 w0 0) (bvAt 7 w1 13) (tyAt w1 6) (bvAt 2 w1 10) (bvAt 2 w1 0) (bit w1 5))
  | 2 => accept (bit w0 27) (fld w0 0 7 == 0 && fld w1 2 4 == 0 && fld w1 10 10 == 0) (.mld (headAt w0) (guardAt w1) (bvAt 7 w0 14) (bvAt 7 w0 7) (tyAt w1 6) (bvAt 2 w1 0))
  | 3 => accept (bit w0 27) (fld w0 0 7 == 0 && fld w1 2 4 == 0 && fld w1 10 10 == 0 && fld w1 0 2 == 2) (.mst (headAt w0) (guardAt w1) (bvAt 7 w0 14) (bvAt 7 w0 7) (tyAt w1 6))
  | 4 => accept (bit w0 27) (fld w0 0 14 == 0 && fld w1 0 20 == 0) (.mzro (headAt w0) (guardAt w1) (bvAt 7 w0 14))
  | _ => .error .reserved

/-- MAJ 0x37, by FN. -/
def decodeXo (w0 w1 : Nat) : Except Reject Instr :=
  match fld w1 20 8 with
  | 0 => accept (bit w0 27) (fld w1 0 13 == 0 && fld w1 19 1 == 0) (.oadm (headAt w0) (guardAt w1) (bvAt 7 w0 14) (bvAt 7 w0 7) (bvAt 7 w0 0) (bvAt 6 w1 13))
  | 1 => accept (bit w0 27) (fld w1 0 13 == 0 && fld w1 19 1 == 0) (.osgd (headAt w0) (guardAt w1) (bvAt 7 w0 14) (bvAt 7 w0 7) (bvAt 7 w0 0) (bvAt 6 w1 13))
  | _ => .error .reserved

/-- MAJ 0x38, by FN. -/
def decodeXt (w0 w1 : Nat) : Except Reject Instr :=
  match fld w1 20 8 with
  | 0 => accept (bit w0 27) (fld w0 0 7 == 0 && fld w1 0 13 == 0 && fld w1 19 1 == 0) (.texs (headAt w0) (guardAt w1) (bvAt 7 w0 14) (bvAt 7 w0 7) (bvAt 6 w1 13))
  | 1 => accept (bit w0 27) (fld w1 0 13 == 0 && fld w1 19 1 == 0) (.texl (headAt w0) (guardAt w1) (bvAt 7 w0 14) (bvAt 7 w0 7) (bvAt 7 w0 0) (bvAt 6 w1 13))
  | 2 => accept (bit w0 27) (fld w0 0 7 == 0 && fld w1 2 11 == 0 && fld w1 19 1 == 0) (.texg (headAt w0) (guardAt w1) (bvAt 7 w0 14) (bvAt 7 w0 7) (bvAt 6 w1 13) (bvAt 2 w1 0))
  | _ => .error .reserved

/-- MAJ 0x39, by FN. -/
def decodeXy (w0 w1 : Nat) : Except Reject Instr :=
  match fld w1 20 8 with
  | 0 => accept (bit w0 27) (fld w1 3 17 == 0) (.rxbox (headAt w0) (guardAt w1) (bvAt 7 w0 14) (bvAt 7 w0 7) (bvAt 7 w0 0) (bvAt 3 w1 0))
  | 1 => accept (bit w0 27) (fld w1 3 17 == 0) (.rxtri (headAt w0) (guardAt w1) (bvAt 7 w0 14) (bvAt 7 w0 7) (bvAt 7 w0 0) (bvAt 3 w1 0))
  | _ => .error .reserved

/-- MAJ 0x34, by SPACE [23:22] and RET [21] (R81). -/
def decodeXa (w0 w1 : Nat) : Except Reject Instr :=
  match fld w1 22 2, fld w1 21 1 with
  | 0, 1 => accept (bit w0 27) (fld w1 0 6 == 0) (.atomg (headAt w0) (guardAt w1) (bvAt 7 w0 14) (bvAt 7 w0 7) (bvAt 7 w0 0) (bvAt 7 w1 13) (bvAt 4 w1 24) (bit w1 20) (bvAt 3 w1 10) (tyAt w1 6))
  | 2, 1 => accept (bit w0 27) (fld w1 0 6 == 0) (.atomp (headAt w0) (guardAt w1) (bvAt 7 w0 14) (bvAt 7 w0 7) (bvAt 7 w0 0) (bvAt 7 w1 13) (bvAt 4 w1 24) (bit w1 20) (bvAt 3 w1 10) (tyAt w1 6))
  | 1, 1 => accept (bit w0 27) (fld w1 0 6 == 0) (.atoms (headAt w0) (guardAt w1) (bvAt 7 w0 14) (bvAt 7 w0 7) (bvAt 7 w0 0) (bvAt 7 w1 13) (bvAt 4 w1 24) (bit w1 20) (bvAt 3 w1 10) (tyAt w1 6))
  | 0, 0 => accept (bit w0 27) (fld w0 14 7 == 0 && fld w1 0 6 == 0) (.redg (headAt w0) (guardAt w1) (bvAt 7 w0 7) (bvAt 7 w0 0) (bvAt 7 w1 13) (bvAt 4 w1 24) (bit w1 20) (bvAt 3 w1 10) (tyAt w1 6))
  | 2, 0 => accept (bit w0 27) (fld w0 14 7 == 0 && fld w1 0 6 == 0) (.redp (headAt w0) (guardAt w1) (bvAt 7 w0 7) (bvAt 7 w0 0) (bvAt 7 w1 13) (bvAt 4 w1 24) (bit w1 20) (bvAt 3 w1 10) (tyAt w1 6))
  | 1, 0 => accept (bit w0 27) (fld w0 14 7 == 0 && fld w1 0 6 == 0) (.reds (headAt w0) (guardAt w1) (bvAt 7 w0 7) (bvAt 7 w0 0) (bvAt 7 w1 13) (bvAt 4 w1 24) (bit w1 20) (bvAt 3 w1 10) (tyAt w1 6))
  | _, _ => .error .reserved

/-- L-set two-word majors (R77-R85). -/
def decodeL2 (w0 w1 : Nat) : Except Reject Instr :=
  match fld w0 21 6 with
  | 0x30 => decodeXi w0 w1
  | 0x31 => decodeXf w0 w1
  | 0x32 => decodeXc w0 w1
  | 0x33 => decodeXm w0 w1
  | 0x34 => decodeXa w0 w1
  | 0x35 => decodeXg w0 w1
  | 0x36 => decodeXx w0 w1
  | 0x37 => decodeXo w0 w1
  | 0x38 => decodeXt w0 w1
  | 0x39 => decodeXy w0 w1
  | 0x3F => accept (false) (fld w0 0 14 == 0) (.movi (headAt w0) (bit w0 27) (bvAt 7 w0 14) (bvAt 32 w1 0))
  | _ => .error .reserved

/-- U-set two-word majors (R88). -/
def decodeU2 (w0 w1 : Nat) : Except Reject Instr :=
  match fld w0 21 6 with
  | 0x30 => accept (bit w0 27) (fld w0 0 15 == 0) (.umovi (headAt w0) (bvAt 6 w0 15) (bvAt 32 w1 0))
  | 0x31 => accept (bit w0 27) (fld w0 1 8 == 0 && fld w0 15 6 == 0) (.ubra (headAt w0) (bvAt 6 w0 9) (bit w0 0) (bvAt 32 w1 0))
  | 0x32 => accept (bit w0 27) (fld w0 0 15 == 0) (.uloop (headAt w0) (bvAt 6 w0 15) (bvAt 32 w1 0))
  | 0x33 => accept (bit w0 27) (fld w0 0 9 == 0) (.cpy (headAt w0) (bvAt 6 w0 15) (bvAt 6 w0 9) (bvAt 32 w1 0))
  | 0x34 => accept (bit w0 27) (fld w0 0 9 == 0) (.cpyt (headAt w0) (bvAt 6 w0 15) (bvAt 6 w0 9) (bvAt 32 w1 0))
  | 0x35 => accept (bit w0 27) (fld w0 0 9 == 0) (.cpyg (headAt w0) (bvAt 6 w0 15) (bvAt 6 w0 9) (bvAt 32 w1 0))
  | 0x36 => accept (bit w0 27) (fld w0 0 9 == 0) (.cpyr (headAt w0) (bvAt 6 w0 15) (bvAt 6 w0 9) (bvAt 32 w1 0))
  | 0x37 => accept (bit w0 27) (fld w0 0 9 == 0) (.hgf (headAt w0) (bvAt 6 w0 15) (bvAt 6 w0 9) (bvAt 32 w1 0))
  | 0x38 => accept (bit w0 27) (fld w0 0 9 == 0) (.hgb (headAt w0) (bvAt 6 w0 15) (bvAt 6 w0 9) (bvAt 32 w1 0))
  | 0x39 => accept (bit w0 27) (fld w0 0 9 == 0) (.ared (headAt w0) (bvAt 6 w0 15) (bvAt 6 w0 9) (bvAt 32 w1 0))
  | 0x3A => accept (bit w0 27) (fld w0 0 9 == 0) (.rast (headAt w0) (bvAt 6 w0 15) (bvAt 6 w0 9) (bvAt 32 w1 0))
  | _ => .error .reserved

/-- MAJ 0x30 to 0x3F gives two words, every other one (R70). -/
def twoWords (w0 : Nat) : Bool := 0x30 ≤ fld w0 21 6

/-- The instruction of word 0 and, where its major gives two words, word 1. -/
def decodeWords (w0 w1 : Nat) : Except Reject Instr :=
  match twoWords w0, bit w0 31 with
  | false, false => decodeL1 w0
  | false, true => decodeU1 w0
  | true, false => decodeL2 w0 w1
  | true, true => decodeU2 w0 w1

/-- Four little-endian bytes as a number (R4). -/
def leWord (b0 b1 b2 b3 : Byte) : Nat := b0.toNat + b1.toNat * 2 ^ 8 + b2.toNat * 2 ^ 16 + b3.toNat * 2 ^ 24

/-- The instruction at the head of `bs` and the bytes after it. -/
def decode (bs : List Byte) : Except Reject (Instr × List Byte) :=
  match bs with
  | b0 :: b1 :: b2 :: b3 :: r =>
    let w0 := leWord b0 b1 b2 b3
    if twoWords w0 then
      match r with
      | c0 :: c1 :: c2 :: c3 :: r' => (decodeWords w0 (leWord c0 c1 c2 c3)).map (fun i => (i, r'))
      | _ => .error .short
    else (decodeWords w0 0).map (fun i => (i, r))
  | _ => .error .short

/-- `v` added at bit `lo`. -/
def pl (w v lo : Nat) : Nat := w + v * 2 ^ lo

/-- The words of an instruction, by the encoding tables (R69-R88); an event has none. -/
def encode : Instr → List Nat
  | .andLr h u d a b => [pl (pl (pl (pl (pl 0x00A00000 (h.code) 0) (ob u) 27) (d.toNat) 14) (a.toNat) 7) (b.toNat) 0]
  | .andLi h u d a i => [pl (pl (pl (pl (pl 0x02200000 (h.code) 0) (ob u) 27) (d.toNat) 14) (a.toNat) 7) (i.toNat) 0]
  | .andXi h u g d a b t => [pl (pl (pl (pl (pl 0x06000000 (h.code) 0) (ob u) 27) (d.toNat) 14) (a.toNat) 7) (b.toNat) 0, pl (pl 0x02500000 (g.code) 0) (t.code) 6]
  | .andn h u g d a b => [pl (pl (pl (pl (pl 0x06000000 (h.code) 0) (ob u) 27) (d.toNat) 14) (a.toNat) 7) (b.toNat) 0, pl 0x00F00040 (g.code) 0]
  | .ared h d a i => [pl (pl (pl 0x87200000 (h.code) 0) (d.toNat) 15) (a.toNat) 9, pl 0x00000000 (i.toNat) 0]
  | .atomg h g d a b c k x r t => [pl (pl (pl (pl 0x06800000 (h.code) 0) (d.toNat) 14) (a.toNat) 7) (b.toNat) 0, pl (pl (pl (pl (pl (pl 0x00200000 (g.code) 0) (k.toNat) 24) (ob x) 20) (c.toNat) 13) (r.toNat) 10) (t.code) 6]
  | .atomp h g d a b c k x r t => [pl (pl (pl (pl 0x06800000 (h.code) 0) (d.toNat) 14) (a.toNat) 7) (b.toNat) 0, pl (pl (pl (pl (pl (pl 0x00A00000 (g.code) 0) (k.toNat) 24) (ob x) 20) (c.toNat) 13) (r.toNat) 10) (t.code) 6]
  | .atoms h g d a b c k x r t => [pl (pl (pl (pl 0x06800000 (h.code) 0) (d.toNat) 14) (a.toNat) 7) (b.toNat) 0, pl (pl (pl (pl (pl (pl 0x00600000 (g.code) 0) (k.toNat) 24) (ob x) 20) (c.toNat) 13) (r.toNat) 10) (t.code) 6]
  | .bar h n r g q => [pl (pl (pl (pl (pl 0x04C00000 (h.code) 0) (n.toNat) 16) (ob r) 13) (g.toNat) 7) (ob q) 6]
  | .bara h n r g => [pl (pl (pl (pl 0x04C04000 (h.code) 0) (n.toNat) 16) (ob r) 13) (g.toNat) 7]
  | .barw h n => [pl (pl 0x04C08000 (h.code) 0) (n.toNat) 16]
  | .bfi h u g d a b c => [pl (pl (pl (pl (pl 0x06000000 (h.code) 0) (ob u) 27) (d.toNat) 14) (a.toNat) 7) (b.toNat) 0, pl (pl 0x00600040 (g.code) 0) (c.toNat) 13]
  | .bfx h u g d a b t => [pl (pl (pl (pl (pl 0x06000000 (h.code) 0) (ob u) 27) (d.toNat) 14) (a.toNat) 7) (b.toNat) 0, pl (pl 0x00500000 (g.code) 0) (t.code) 6]
  | .bpt h => [pl 0x04850000 (h.code) 0]
  | .bra h o => [pl (pl 0x04000000 (h.code) 0) (o.toNat) 0]
  | .braGuarded h g o => [pl (pl 0x06000000 (h.code) 0) (o.toNat) 0, pl 0x04000000 (g.code) 0]
  | .brev h u g d a => [pl (pl (pl (pl 0x06000000 (h.code) 0) (ob u) 27) (d.toNat) 14) (a.toNat) 7, pl 0x00900040 (g.code) 0]
  | .brx h a => [pl (pl 0x04400000 (h.code) 0) (a.toNat) 7]
  | .brxGuarded h g a => [pl (pl 0x06000000 (h.code) 0) (a.toNat) 7, pl 0x04200000 (g.code) 0]
  | .call h o => [pl (pl 0x04200000 (h.code) 0) (o.toNat) 0]
  | .callGuarded h g o => [pl (pl 0x06000000 (h.code) 0) (o.toNat) 0, pl 0x04100000 (g.code) 0]
  | .calx h a => [pl (pl 0x04600000 (h.code) 0) (a.toNat) 7]
  | .calxGuarded h g a => [pl (pl 0x06000000 (h.code) 0) (a.toNat) 7, pl 0x04300000 (g.code) 0]
  | .clk h d => [pl (pl 0x81C00000 (h.code) 0) (d.toNat) 15]
  | .clz h u g d a => [pl (pl (pl (pl 0x06000000 (h.code) 0) (ob u) 27) (d.toNat) 14) (a.toNat) 7, pl 0x00800040 (g.code) 0]
  | .cpy h d a i => [pl (pl (pl 0x86600000 (h.code) 0) (d.toNat) 15) (a.toNat) 9, pl 0x00000000 (i.toNat) 0]
  | .cpyg h d a i => [pl (pl (pl 0x86A00000 (h.code) 0) (d.toNat) 15) (a.toNat) 9, pl 0x00000000 (i.toNat) 0]
  | .cpyr h d a i => [pl (pl (pl 0x86C00000 (h.code) 0) (d.toNat) 15) (a.toNat) 9, pl 0x00000000 (i.toNat) 0]
  | .cpyt h d a i => [pl (pl (pl 0x86800000 (h.code) 0) (d.toNat) 15) (a.toNat) 9, pl 0x00000000 (i.toNat) 0]
  | .cvt h u g d a t m f x => [pl (pl (pl (pl 0x06400000 (h.code) 0) (ob u) 27) (d.toNat) 14) (a.toNat) 7, pl (pl (pl (pl (pl 0x00000000 (g.code) 0) (t.code) 6) (m.toNat) 10) (f.code) 0) (ob x) 4]
  | .cvtp h u g d a b t m x => [pl (pl (pl (pl (pl 0x06400000 (h.code) 0) (ob u) 27) (d.toNat) 14) (a.toNat) 7) (b.toNat) 0, pl (pl (pl (pl 0x00100006 (g.code) 0) (t.code) 6) (m.toNat) 10) (ob x) 4]
  | .cvtx h u g d a b t m f x => [pl (pl (pl (pl (pl 0x06400000 (h.code) 0) (ob u) 27) (d.toNat) 14) (a.toNat) 7) (b.toNat) 0, pl (pl (pl (pl (pl 0x00200000 (g.code) 0) (t.code) 6) (m.toNat) 10) (f.code) 0) (ob x) 4]
  | .dqmx h g d a c t m f => [pl (pl (pl 0x06400000 (h.code) 0) (d.toNat) 14) (a.toNat) 7, pl (pl (pl (pl (pl 0x00400000 (g.code) 0) (t.code) 6) (m.toNat) 10) (f.code) 0) (c.toNat) 13]
  | .eqry h d a => [pl (pl (pl 0x82200000 (h.code) 0) (d.toNat) 15) (a.toNat) 9]
  | .ewt h a => [pl (pl 0x82000000 (h.code) 0) (a.toNat) 9]
  | .exit h => [pl 0x04810000 (h.code) 0]
  | .faddLr h u d a b => [pl (pl (pl (pl (pl 0x01800000 (h.code) 0) (ob u) 27) (d.toNat) 14) (a.toNat) 7) (b.toNat) 0]
  | .faddXf h u g d a b m => [pl (pl (pl (pl (pl 0x06200000 (h.code) 0) (ob u) 27) (d.toNat) 14) (a.toNat) 7) (b.toNat) 0, pl (pl 0x00100180 (g.code) 0) (m.toNat) 10]
  | .fcmpLc h u p a b k => [pl (pl (pl (pl (pl (pl 0x03E00000 (h.code) 0) (ob u) 27) (p.toNat) 18) (k.toNat) 14) (a.toNat) 7) (b.toNat) 0]
  | .fcmpXf h u g p a b t k => [pl (pl (pl (pl (pl 0x06200000 (h.code) 0) (ob u) 27) (p.toNat) 14) (a.toNat) 7) (b.toNat) 0, pl (pl (pl 0x01000000 (g.code) 0) (t.code) 6) (k.toNat) 0]
  | .fcos h u g d a => [pl (pl (pl (pl 0x06200000 (h.code) 0) (ob u) 27) (d.toNat) 14) (a.toNat) 7, pl 0x00C00180 (g.code) 0]
  | .fex2 h u g d a => [pl (pl (pl (pl 0x06200000 (h.code) 0) (ob u) 27) (d.toNat) 14) (a.toNat) 7, pl 0x00900180 (g.code) 0]
  | .flg2 h u g d a => [pl (pl (pl (pl 0x06200000 (h.code) 0) (ob u) 27) (d.toNat) 14) (a.toNat) 7, pl 0x00A00180 (g.code) 0]
  | .frcp h u g d a => [pl (pl (pl (pl 0x06200000 (h.code) 0) (ob u) 27) (d.toNat) 14) (a.toNat) 7, pl 0x00600180 (g.code) 0]
  | .frsq h u g d a => [pl (pl (pl (pl 0x06200000 (h.code) 0) (ob u) 27) (d.toNat) 14) (a.toNat) 7, pl 0x00700180 (g.code) 0]
  | .fsin h u g d a => [pl (pl (pl (pl 0x06200000 (h.code) 0) (ob u) 27) (d.toNat) 14) (a.toNat) 7, pl 0x00B00180 (g.code) 0]
  | .fsqrt h u g d a => [pl (pl (pl (pl 0x06200000 (h.code) 0) (ob u) 27) (d.toNat) 14) (a.toNat) 7, pl 0x00800180 (g.code) 0]
  | .fenceAcq h => [pl 0x04A00000 (h.code) 0]
  | .fenceRel h => [pl 0x04A40000 (h.code) 0]
  | .fenceFull h => [pl 0x04A80000 (h.code) 0]
  | .fenceX h => [pl 0x04AC0000 (h.code) 0]
  | .ffma h u g d a b c m => [pl (pl (pl (pl (pl 0x06200000 (h.code) 0) (ob u) 27) (d.toNat) 14) (a.toNat) 7) (b.toNat) 0, pl (pl (pl 0x00000180 (g.code) 0) (m.toNat) 10) (c.toNat) 13]
  | .fmaxLr h u d a b => [pl (pl (pl (pl (pl 0x01E00000 (h.code) 0) (ob u) 27) (d.toNat) 14) (a.toNat) 7) (b.toNat) 0]
  | .fmaxXf h u g d a b => [pl (pl (pl (pl (pl 0x06200000 (h.code) 0) (ob u) 27) (d.toNat) 14) (a.toNat) 7) (b.toNat) 0, pl 0x00400180 (g.code) 0]
  | .fminLr h u d a b => [pl (pl (pl (pl (pl 0x01C00000 (h.code) 0) (ob u) 27) (d.toNat) 14) (a.toNat) 7) (b.toNat) 0]
  | .fminXf h u g d a b => [pl (pl (pl (pl (pl 0x06200000 (h.code) 0) (ob u) 27) (d.toNat) 14) (a.toNat) 7) (b.toNat) 0, pl 0x00300180 (g.code) 0]
  | .fmulLr h u d a b => [pl (pl (pl (pl (pl 0x01A00000 (h.code) 0) (ob u) 27) (d.toNat) 14) (a.toNat) 7) (b.toNat) 0]
  | .fmulXf h u g d a b m => [pl (pl (pl (pl (pl 0x06200000 (h.code) 0) (ob u) 27) (d.toNat) 14) (a.toNat) 7) (b.toNat) 0, pl (pl 0x00200180 (g.code) 0) (m.toNat) 10]
  | .frnd h u g d a m => [pl (pl (pl (pl 0x06200000 (h.code) 0) (ob u) 27) (d.toNat) 14) (a.toNat) 7, pl (pl 0x00500180 (g.code) 0) (m.toNat) 10]
  | .fshf h u g d a b c x => [pl (pl (pl (pl (pl 0x06000000 (h.code) 0) (ob u) 27) (d.toNat) 14) (a.toNat) 7) (b.toNat) 0, pl (pl (pl 0x00B00040 (g.code) 0) (ob x) 0) (c.toNat) 13]
  | .gargx h g d a c x m => [pl (pl (pl 0x06A00000 (h.code) 0) (d.toNat) 14) (a.toNat) 7, pl (pl (pl (pl 0x005001C0 (g.code) 0) (ob x) 5) (c.toNat) 13) (m.toNat) 10]
  | .gred h g d a c x m t w => [pl (pl (pl 0x06A00000 (h.code) 0) (d.toNat) 14) (a.toNat) 7, pl (pl (pl (pl (pl (pl 0x00300000 (g.code) 0) (ob x) 5) (c.toNat) 13) (m.toNat) 10) (t.code) 6) (ob w) 4]
  | .gscan h g d a c x m t => [pl (pl (pl 0x06A00000 (h.code) 0) (d.toNat) 14) (a.toNat) 7, pl (pl (pl (pl (pl 0x00400000 (g.code) 0) (ob x) 5) (c.toNat) 13) (m.toNat) 10) (t.code) 6]
  | .gwait h => [pl 0x82C00000 (h.code) 0]
  | .hadd2 h u g d a b t m => [pl (pl (pl (pl (pl 0x06200000 (h.code) 0) (ob u) 27) (d.toNat) 14) (a.toNat) 7) (b.toNat) 0, pl (pl (pl 0x00D00000 (g.code) 0) (t.code) 6) (m.toNat) 10]
  | .hfma2 h u g d a b c t m => [pl (pl (pl (pl (pl 0x06200000 (h.code) 0) (ob u) 27) (d.toNat) 14) (a.toNat) 7) (b.toNat) 0, pl (pl (pl (pl 0x00F00000 (g.code) 0) (t.code) 6) (m.toNat) 10) (c.toNat) 13]
  | .hmul2 h u g d a b t m => [pl (pl (pl (pl (pl 0x06200000 (h.code) 0) (ob u) 27) (d.toNat) 14) (a.toNat) 7) (b.toNat) 0, pl (pl (pl 0x00E00000 (g.code) 0) (t.code) 6) (m.toNat) 10]
  | .hgb h d a i => [pl (pl (pl 0x87000000 (h.code) 0) (d.toNat) 15) (a.toNat) 9, pl 0x00000000 (i.toNat) 0]
  | .hgf h d a i => [pl (pl (pl 0x86E00000 (h.code) 0) (d.toNat) 15) (a.toNat) 9, pl 0x00000000 (i.toNat) 0]
  | .iabs h u g d a x => [pl (pl (pl (pl 0x06000000 (h.code) 0) (ob u) 27) (d.toNat) 14) (a.toNat) 7, pl (pl 0x00300000 (g.code) 0) (ob x) 0]
  | .iaddLr h u d a b => [pl (pl (pl (pl (pl 0x00000000 (h.code) 0) (ob u) 27) (d.toNat) 14) (a.toNat) 7) (b.toNat) 0]
  | .iaddLi h u d a i => [pl (pl (pl (pl (pl 0x02000000 (h.code) 0) (ob u) 27) (d.toNat) 14) (a.toNat) 7) (i.toNat) 0]
  | .iaddXi h u g d a b t x => [pl (pl (pl (pl (pl 0x06000000 (h.code) 0) (ob u) 27) (d.toNat) 14) (a.toNat) 7) (b.toNat) 0, pl (pl (pl 0x02000000 (g.code) 0) (t.code) 6) (ob x) 0]
  | .imaxLr h u d a b => [pl (pl (pl (pl (pl 0x00800000 (h.code) 0) (ob u) 27) (d.toNat) 14) (a.toNat) 7) (b.toNat) 0]
  | .imaxXi h u g d a b t => [pl (pl (pl (pl (pl 0x06000000 (h.code) 0) (ob u) 27) (d.toNat) 14) (a.toNat) 7) (b.toNat) 0, pl (pl 0x02400000 (g.code) 0) (t.code) 6]
  | .iminLr h u d a b => [pl (pl (pl (pl (pl 0x00600000 (h.code) 0) (ob u) 27) (d.toNat) 14) (a.toNat) 7) (b.toNat) 0]
  | .iminXi h u g d a b t => [pl (pl (pl (pl (pl 0x06000000 (h.code) 0) (ob u) 27) (d.toNat) 14) (a.toNat) 7) (b.toNat) 0, pl (pl 0x02300000 (g.code) 0) (t.code) 6]
  | .imulLr h u d a b => [pl (pl (pl (pl (pl 0x00400000 (h.code) 0) (ob u) 27) (d.toNat) 14) (a.toNat) 7) (b.toNat) 0]
  | .imulXi h u g d a b t => [pl (pl (pl (pl (pl 0x06000000 (h.code) 0) (ob u) 27) (d.toNat) 14) (a.toNat) 7) (b.toNat) 0, pl (pl 0x02200000 (g.code) 0) (t.code) 6]
  | .isubLr h u d a b => [pl (pl (pl (pl (pl 0x00200000 (h.code) 0) (ob u) 27) (d.toNat) 14) (a.toNat) 7) (b.toNat) 0]
  | .isubXi h u g d a b t x => [pl (pl (pl (pl (pl 0x06000000 (h.code) 0) (ob u) 27) (d.toNat) 14) (a.toNat) 7) (b.toNat) 0, pl (pl (pl 0x02100000 (g.code) 0) (t.code) 6) (ob x) 0]
  | .iaddx h u g d a b ci co => [pl (pl (pl (pl (pl 0x06000000 (h.code) 0) (ob u) 27) (d.toNat) 14) (a.toNat) 7) (b.toNat) 0, pl (pl (pl 0x00C00040 (g.code) 0) (ci.toNat) 0) (co.toNat) 3]
  | .icmpLc h u p a b k => [pl (pl (pl (pl (pl (pl 0x03E00000 (h.code) 0) (ob u) 27) (p.toNat) 18) (k.toNat) 14) (a.toNat) 7) (b.toNat) 0]
  | .icmpXi h u g p a b t k => [pl (pl (pl (pl (pl 0x06000000 (h.code) 0) (ob u) 27) (p.toNat) 14) (a.toNat) 7) (b.toNat) 0, pl (pl (pl 0x01100000 (g.code) 0) (t.code) 6) (k.toNat) 0]
  | .idp4 h u g d a b c t => [pl (pl (pl (pl (pl 0x06000000 (h.code) 0) (ob u) 27) (d.toNat) 14) (a.toNat) 7) (b.toNat) 0, pl (pl (pl 0x00E00000 (g.code) 0) (t.code) 6) (c.toNat) 13]
  | .imad h u g d a b c t => [pl (pl (pl (pl (pl 0x06000000 (h.code) 0) (ob u) 27) (d.toNat) 14) (a.toNat) 7) (b.toNat) 0, pl (pl (pl 0x00100000 (g.code) 0) (t.code) 6) (c.toNat) 13]
  | .imadw h u g d a b c t => [pl (pl (pl (pl (pl 0x06000000 (h.code) 0) (ob u) 27) (d.toNat) 14) (a.toNat) 7) (b.toNat) 0, pl (pl (pl 0x00200000 (g.code) 0) (t.code) 6) (c.toNat) 13]
  | .imulh h u g d a b t => [pl (pl (pl (pl (pl 0x06000000 (h.code) 0) (ob u) 27) (d.toNat) 14) (a.toNat) 7) (b.toNat) 0, pl (pl 0x00000000 (g.code) 0) (t.code) 6]
  | .isel h u g d a b n p => [pl (pl (pl (pl (pl 0x06000000 (h.code) 0) (ob u) 27) (d.toNat) 14) (a.toNat) 7) (b.toNat) 0, pl (pl (pl 0x00400000 (g.code) 0) (ob n) 3) (p.toNat) 0]
  | .isync h => [pl 0x04840000 (h.code) 0]
  | .ldg h u g d a w r ch o => [pl (pl (pl (pl (pl (pl (pl 0x06600000 (h.code) 0) (ob u) 27) (w.toNat) 4) (r.toNat) 2) (ch.toNat) 0) (d.toNat) 14) (a.toNat) 7, pl (pl 0x00000000 (g.code) 0) (o.toNat) 0]
  | .ldkLm h u d a i => [pl (pl (pl (pl (pl 0x03800000 (h.code) 0) (ob u) 27) (d.toNat) 14) (a.toNat) 7) (i.toNat) 0]
  | .ldkXm h u g d a w ch o => [pl (pl (pl (pl (pl (pl 0x06600000 (h.code) 0) (ob u) 27) (w.toNat) 4) (ch.toNat) 0) (d.toNat) 14) (a.toNat) 7, pl (pl 0x00600000 (g.code) 0) (o.toNat) 0]
  | .ldpLm h u d a i => [pl (pl (pl (pl (pl 0x03400000 (h.code) 0) (ob u) 27) (d.toNat) 14) (a.toNat) 7) (i.toNat) 0]
  | .ldpXm h u g d a w r o => [pl (pl (pl (pl (pl (pl 0x06600000 (h.code) 0) (ob u) 27) (w.toNat) 4) (r.toNat) 2) (d.toNat) 14) (a.toNat) 7, pl (pl 0x00400000 (g.code) 0) (o.toNat) 0]
  | .ldsLm h u d a i => [pl (pl (pl (pl (pl 0x03000000 (h.code) 0) (ob u) 27) (d.toNat) 14) (a.toNat) 7) (i.toNat) 0]
  | .ldsXm h u g d a w o => [pl (pl (pl (pl (pl 0x06600000 (h.code) 0) (ob u) 27) (w.toNat) 4) (d.toNat) 14) (a.toNat) 7, pl (pl 0x00200000 (g.code) 0) (o.toNat) 0]
  | .ldr h g d a w r o => [pl (pl (pl (pl (pl 0x06600000 (h.code) 0) (w.toNat) 4) (r.toNat) 2) (d.toNat) 14) (a.toNat) 7, pl (pl 0x00800000 (g.code) 0) (o.toNat) 0]
  | .lea h u g d a b t x => [pl (pl (pl (pl (pl 0x06000000 (h.code) 0) (ob u) 27) (d.toNat) 14) (a.toNat) 7) (b.toNat) 0, pl (pl (pl 0x00D00000 (g.code) 0) (t.code) 6) (x.toNat) 0]
  | .lnxt h => [pl 0x82E00000 (h.code) 0]
  | .matchLanes h g d a c x t => [pl (pl (pl 0x06A00000 (h.code) 0) (d.toNat) 14) (a.toNat) 7, pl (pl (pl (pl 0x00200000 (g.code) 0) (ob x) 5) (c.toNat) 13) (t.code) 6]
  | .mld h g d a t x => [pl (pl (pl 0x06C00000 (h.code) 0) (d.toNat) 14) (a.toNat) 7, pl (pl (pl 0x00200000 (g.code) 0) (t.code) 6) (x.toNat) 0]
  | .mma h g d a b c t => [pl (pl (pl (pl 0x06C00000 (h.code) 0) (d.toNat) 14) (a.toNat) 7) (b.toNat) 0, pl (pl (pl 0x00000000 (g.code) 0) (t.code) 6) (c.toNat) 13]
  | .mmax h g d a b c t m n x => [pl (pl (pl (pl 0x06C00000 (h.code) 0) (d.toNat) 14) (a.toNat) 7) (b.toNat) 0, pl (pl (pl (pl (pl (pl 0x00100000 (g.code) 0) (t.code) 6) (c.toNat) 13) (m.toNat) 10) (n.toNat) 0) (ob x) 5]
  | .mst h g d a t => [pl (pl (pl 0x06C00000 (h.code) 0) (d.toNat) 14) (a.toNat) 7, pl (pl 0x00300002 (g.code) 0) (t.code) 6]
  | .mzro h g d => [pl (pl 0x06C00000 (h.code) 0) (d.toNat) 14, pl 0x00400000 (g.code) 0]
  | .movLr h u d a => [pl (pl (pl (pl 0x01600000 (h.code) 0) (ob u) 27) (d.toNat) 14) (a.toNat) 7]
  | .movXi h u g d a t => [pl (pl (pl (pl 0x06000000 (h.code) 0) (ob u) 27) (d.toNat) 14) (a.toNat) 7, pl (pl 0x02B00000 (g.code) 0) (t.code) 6]
  | .movg h u d a => [pl (pl (pl (pl 0x02E00000 (h.code) 0) (ob u) 27) (d.toNat) 14) (a.toNat) 7]
  | .movi h u d i => [pl (pl (pl 0x07E00000 (h.code) 0) (ob u) 27) (d.toNat) 14, pl 0x00000000 (i.toNat) 0]
  | .movs h u d a => [pl (pl (pl (pl 0x03C00000 (h.code) 0) (ob u) 27) (d.toNat) 14) (a.toNat) 7]
  | .nop h => [pl 0x04820000 (h.code) 0]
  | .oadm h g d a b c => [pl (pl (pl (pl 0x06E00000 (h.code) 0) (d.toNat) 14) (a.toNat) 7) (b.toNat) 0, pl (pl 0x00000000 (g.code) 0) (c.toNat) 13]
  | .osgd h g d a b c => [pl (pl (pl (pl 0x06E00000 (h.code) 0) (d.toNat) 14) (a.toNat) 7) (b.toNat) 0, pl (pl 0x00100000 (g.code) 0) (c.toNat) 13]
  | .orLr h u d a b => [pl (pl (pl (pl (pl 0x00C00000 (h.code) 0) (ob u) 27) (d.toNat) 14) (a.toNat) 7) (b.toNat) 0]
  | .orLi h u d a i => [pl (pl (pl (pl (pl 0x02400000 (h.code) 0) (ob u) 27) (d.toNat) 14) (a.toNat) 7) (i.toNat) 0]
  | .orXi h u g d a b t => [pl (pl (pl (pl (pl 0x06000000 (h.code) 0) (ob u) 27) (d.toNat) 14) (a.toNat) 7) (b.toNat) 0, pl (pl 0x02600000 (g.code) 0) (t.code) 6]
  | .pfg h g a ch o => [pl (pl (pl 0x06600020 (h.code) 0) (ch.toNat) 0) (a.toNat) 7, pl (pl 0x00A00000 (g.code) 0) (o.toNat) 0]
  | .phf h n => [pl (pl 0x04E08000 (h.code) 0) (n.toNat) 16]
  | .phw h n f => [pl (pl (pl 0x04E00000 (h.code) 0) (n.toNat) 16) (ob f) 14]
  | .plop h u g d a b x w => [pl (pl (pl (pl (pl 0x06000000 (h.code) 0) (ob u) 27) (d.toNat) 14) (a.toNat) 7) (b.toNat) 0, pl (pl (pl 0x01000000 (g.code) 0) (x.toNat) 0) (ob w) 10]
  | .popc h u g d a => [pl (pl (pl (pl 0x06000000 (h.code) 0) (ob u) 27) (d.toNat) 14) (a.toNat) 7, pl 0x00700040 (g.code) 0]
  | .pswz h u g d a b c => [pl (pl (pl (pl (pl 0x06000000 (h.code) 0) (ob u) 27) (d.toNat) 14) (a.toNat) 7) (b.toNat) 0, pl (pl 0x00A00040 (g.code) 0) (c.toNat) 13]
  | .qmx h g d a b c t m x => [pl (pl (pl (pl 0x06400000 (h.code) 0) (d.toNat) 14) (a.toNat) 7) (b.toNat) 0, pl (pl (pl (pl (pl 0x00300000 (g.code) 0) (t.code) 6) (m.toNat) 10) (ob x) 5) (c.toNat) 13]
  | .rast h d a i => [pl (pl (pl 0x87400000 (h.code) 0) (d.toNat) 15) (a.toNat) 9, pl 0x00000000 (i.toNat) 0]
  | .recv h v n y => [pl (pl (pl (pl 0x05200000 (h.code) 0) (n.toNat) 16) (v.toNat) 7) (y.toNat) 4]
  | .send h v n y => [pl (pl (pl (pl 0x05000000 (h.code) 0) (n.toNat) 16) (v.toNat) 7) (y.toNat) 4]
  | .redg h g a b c k x r t => [pl (pl (pl 0x06800000 (h.code) 0) (a.toNat) 7) (b.toNat) 0, pl (pl (pl (pl (pl (pl 0x00000000 (g.code) 0) (k.toNat) 24) (ob x) 20) (c.toNat) 13) (r.toNat) 10) (t.code) 6]
  | .redp h g a b c k x r t => [pl (pl (pl 0x06800000 (h.code) 0) (a.toNat) 7) (b.toNat) 0, pl (pl (pl (pl (pl (pl 0x00800000 (g.code) 0) (k.toNat) 24) (ob x) 20) (c.toNat) 13) (r.toNat) 10) (t.code) 6]
  | .reds h g a b c k x r t => [pl (pl (pl 0x06800000 (h.code) 0) (a.toNat) 7) (b.toNat) 0, pl (pl (pl (pl (pl (pl 0x00400000 (g.code) 0) (k.toNat) 24) (ob x) 20) (c.toNat) 13) (r.toNat) 10) (t.code) 6]
  | .ret h => [pl 0x04800000 (h.code) 0]
  | .rxbox h g d a b p => [pl (pl (pl (pl 0x07200000 (h.code) 0) (d.toNat) 14) (a.toNat) 7) (b.toNat) 0, pl (pl 0x00000000 (g.code) 0) (p.toNat) 0]
  | .rxtri h g d a b p => [pl (pl (pl (pl 0x07200000 (h.code) 0) (d.toNat) 14) (a.toNat) 7) (b.toNat) 0, pl (pl 0x00100000 (g.code) 0) (p.toNat) 0]
  | .sets h d a => [pl (pl (pl 0x83400000 (h.code) 0) (d.toNat) 15) (a.toNat) 9]
  | .shfl h g d a b c x m w => [pl (pl (pl (pl 0x06A00000 (h.code) 0) (d.toNat) 14) (a.toNat) 7) (b.toNat) 0, pl (pl (pl (pl (pl 0x00000000 (g.code) 0) (ob x) 5) (c.toNat) 13) (m.toNat) 10) (ob w) 4]
  | .shlLr h u d a b => [pl (pl (pl (pl (pl 0x01000000 (h.code) 0) (ob u) 27) (d.toNat) 14) (a.toNat) 7) (b.toNat) 0]
  | .shlLi h u d a i => [pl (pl (pl (pl (pl 0x02800000 (h.code) 0) (ob u) 27) (d.toNat) 14) (a.toNat) 7) (i.toNat) 0]
  | .shlXi h u g d a b t => [pl (pl (pl (pl (pl 0x06000000 (h.code) 0) (ob u) 27) (d.toNat) 14) (a.toNat) 7) (b.toNat) 0, pl (pl 0x02800000 (g.code) 0) (t.code) 6]
  | .shrLr h u d a b => [pl (pl (pl (pl (pl 0x01200000 (h.code) 0) (ob u) 27) (d.toNat) 14) (a.toNat) 7) (b.toNat) 0]
  | .shrLi h u d a i => [pl (pl (pl (pl (pl 0x02A00000 (h.code) 0) (ob u) 27) (d.toNat) 14) (a.toNat) 7) (i.toNat) 0]
  | .shrXi h u g d a b t => [pl (pl (pl (pl (pl 0x06000000 (h.code) 0) (ob u) 27) (d.toNat) 14) (a.toNat) 7) (b.toNat) 0, pl (pl 0x02900000 (g.code) 0) (t.code) 6]
  | .shraLr h u d a b => [pl (pl (pl (pl (pl 0x01400000 (h.code) 0) (ob u) 27) (d.toNat) 14) (a.toNat) 7) (b.toNat) 0]
  | .shraLi h u d a i => [pl (pl (pl (pl (pl 0x02C00000 (h.code) 0) (ob u) 27) (d.toNat) 14) (a.toNat) 7) (i.toNat) 0]
  | .shraXi h u g d a b t => [pl (pl (pl (pl (pl 0x06000000 (h.code) 0) (ob u) 27) (d.toNat) 14) (a.toNat) 7) (b.toNat) 0, pl (pl 0x02A00000 (g.code) 0) (t.code) 6]
  | .stc h g d a w r p => [pl (pl (pl (pl (pl 0x06600000 (h.code) 0) (w.toNat) 4) (r.toNat) 2) (d.toNat) 14) (a.toNat) 7, pl (pl 0x00900000 (g.code) 0) (p.toNat) 0]
  | .stg h g d a w r ch o => [pl (pl (pl (pl (pl (pl 0x06600000 (h.code) 0) (w.toNat) 4) (r.toNat) 2) (ch.toNat) 0) (d.toNat) 14) (a.toNat) 7, pl (pl 0x00100000 (g.code) 0) (o.toNat) 0]
  | .stkLm h d a i => [pl (pl (pl (pl 0x03A00000 (h.code) 0) (d.toNat) 14) (a.toNat) 7) (i.toNat) 0]
  | .stkXm h g d a w ch o => [pl (pl (pl (pl (pl 0x06600000 (h.code) 0) (w.toNat) 4) (ch.toNat) 0) (d.toNat) 14) (a.toNat) 7, pl (pl 0x00700000 (g.code) 0) (o.toNat) 0]
  | .stpLm h d a i => [pl (pl (pl (pl 0x03600000 (h.code) 0) (d.toNat) 14) (a.toNat) 7) (i.toNat) 0]
  | .stpXm h g d a w r o => [pl (pl (pl (pl (pl 0x06600000 (h.code) 0) (w.toNat) 4) (r.toNat) 2) (d.toNat) 14) (a.toNat) 7, pl (pl 0x00500000 (g.code) 0) (o.toNat) 0]
  | .stsLm h d a i => [pl (pl (pl (pl 0x03200000 (h.code) 0) (d.toNat) 14) (a.toNat) 7) (i.toNat) 0]
  | .stsXm h g d a w o => [pl (pl (pl (pl 0x06600000 (h.code) 0) (w.toNat) 4) (d.toNat) 14) (a.toNat) 7, pl (pl 0x00300000 (g.code) 0) (o.toNat) 0]
  | .texg h g d a c x => [pl (pl (pl 0x07000000 (h.code) 0) (d.toNat) 14) (a.toNat) 7, pl (pl (pl 0x00200000 (g.code) 0) (c.toNat) 13) (x.toNat) 0]
  | .texl h g d a b c => [pl (pl (pl (pl 0x07000000 (h.code) 0) (d.toNat) 14) (a.toNat) 7) (b.toNat) 0, pl (pl 0x00100000 (g.code) 0) (c.toNat) 13]
  | .texs h g d a c => [pl (pl (pl 0x07000000 (h.code) 0) (d.toNat) 14) (a.toNat) 7, pl (pl 0x00000000 (g.code) 0) (c.toNat) 13]
  | .time h d => [pl (pl 0x81E00000 (h.code) 0) (d.toNat) 15]
  | .tlbiPage h a => [pl (pl 0x83600000 (h.code) 0) (a.toNat) 9]
  | .tlbiCtx h a => [pl (pl 0x83600001 (h.code) 0) (a.toNat) 9]
  | .tlbiAll h => [pl 0x83600002 (h.code) 0]
  | .trap h x => [pl (pl 0x04860000 (h.code) 0) (x.toNat) 0]
  | .tspn h d a b => [pl (pl (pl (pl 0x83200000 (h.code) 0) (d.toNat) 15) (a.toNat) 9) (b.toNat) 3]
  | .tsus h a b => [pl (pl (pl 0x83000000 (h.code) 0) (a.toNat) 9) (b.toNat) 3]
  | .uadd h d a b => [pl (pl (pl (pl 0x80000000 (h.code) 0) (d.toNat) 15) (a.toNat) 9) (b.toNat) 3]
  | .usub h d a b => [pl (pl (pl (pl 0x80200000 (h.code) 0) (d.toNat) 15) (a.toNat) 9) (b.toNat) 3]
  | .umul h d a b => [pl (pl (pl (pl 0x80400000 (h.code) 0) (d.toNat) 15) (a.toNat) 9) (b.toNat) 3]
  | .uand h d a b => [pl (pl (pl (pl 0x80600000 (h.code) 0) (d.toNat) 15) (a.toNat) 9) (b.toNat) 3]
  | .uor h d a b => [pl (pl (pl (pl 0x80800000 (h.code) 0) (d.toNat) 15) (a.toNat) 9) (b.toNat) 3]
  | .uxor h d a b => [pl (pl (pl (pl 0x80A00000 (h.code) 0) (d.toNat) 15) (a.toNat) 9) (b.toNat) 3]
  | .ushl h d a b => [pl (pl (pl (pl 0x80C00000 (h.code) 0) (d.toNat) 15) (a.toNat) 9) (b.toNat) 3]
  | .ushr h d a b f => [pl (pl (pl (pl (pl 0x80E00000 (h.code) 0) (d.toNat) 15) (a.toNat) 9) (b.toNat) 3) (ob f) 0]
  | .ubra h a n i => [pl (pl (pl 0x86200000 (h.code) 0) (a.toNat) 9) (ob n) 0, pl 0x00000000 (i.toNat) 0]
  | .ucmp h d a b k => [pl (pl (pl (pl (pl 0x81000000 (h.code) 0) (d.toNat) 15) (a.toNat) 9) (b.toNat) 3) (k.toNat) 0]
  | .uldShared h d a b => [pl (pl (pl (pl 0x81800000 (h.code) 0) (d.toNat) 15) (a.toNat) 9) (b.toNat) 3]
  | .uldPad h d a b => [pl (pl (pl (pl 0x81800001 (h.code) 0) (d.toNat) 15) (a.toNat) 9) (b.toNat) 3]
  | .uldGlobal h d a b => [pl (pl (pl (pl 0x81800002 (h.code) 0) (d.toNat) 15) (a.toNat) 9) (b.toNat) 3]
  | .ustShared h d a b => [pl (pl (pl (pl 0x81A00000 (h.code) 0) (d.toNat) 15) (a.toNat) 9) (b.toNat) 3]
  | .ustPad h d a b => [pl (pl (pl (pl 0x81A00001 (h.code) 0) (d.toNat) 15) (a.toNat) 9) (b.toNat) 3]
  | .ustGlobal h d a b => [pl (pl (pl (pl 0x81A00002 (h.code) 0) (d.toNat) 15) (a.toNat) 9) (b.toNat) 3]
  | .uloop h d i => [pl (pl 0x86400000 (h.code) 0) (d.toNat) 15, pl 0x00000000 (i.toNat) 0]
  | .umov h d a => [pl (pl (pl 0x81400000 (h.code) 0) (d.toNat) 15) (a.toNat) 9]
  | .umovi h d i => [pl (pl 0x86000000 (h.code) 0) (d.toNat) 15, pl 0x00000000 (i.toNat) 0]
  | .umovv h d v => [pl (pl (pl 0x81600000 (h.code) 0) (d.toNat) 15) (v.toNat) 8]
  | .usel h d a b => [pl (pl (pl (pl 0x81200000 (h.code) 0) (d.toNat) 15) (a.toNat) 9) (b.toNat) 3]
  | .vote h g d a c x m n => [pl (pl (pl 0x06A00000 (h.code) 0) (d.toNat) 14) (a.toNat) 7, pl (pl (pl (pl (pl 0x00100000 (g.code) 0) (ob x) 5) (c.toNat) 13) (m.toNat) 10) (ob n) 3]
  | .wbak h d a => [pl (pl (pl 0x82A00000 (h.code) 0) (d.toNat) 15) (a.toNat) 9]
  | .wpin h d a => [pl (pl (pl 0x82400000 (h.code) 0) (d.toNat) 15) (a.toNat) 9]
  | .wpub h d a => [pl (pl (pl 0x82800000 (h.code) 0) (d.toNat) 15) (a.toNat) 9]
  | .wunp h a b => [pl (pl (pl 0x82600000 (h.code) 0) (a.toNat) 9) (b.toNat) 3]
  | .xorLr h u d a b => [pl (pl (pl (pl (pl 0x00E00000 (h.code) 0) (ob u) 27) (d.toNat) 14) (a.toNat) 7) (b.toNat) 0]
  | .xorLi h u d a i => [pl (pl (pl (pl (pl 0x02600000 (h.code) 0) (ob u) 27) (d.toNat) 14) (a.toNat) 7) (i.toNat) 0]
  | .xorXi h u g d a b t => [pl (pl (pl (pl (pl 0x06000000 (h.code) 0) (ob u) 27) (d.toNat) 14) (a.toNat) 7) (b.toNat) 0, pl (pl 0x02700000 (g.code) 0) (t.code) 6]
  | .yld h => [pl 0x04830000 (h.code) 0]
  | .powerUp .. => []
  | .bundleFormation .. => []
  | .fairnessTimer .. => []
  | .cinchWindowClose .. => []
  | .variableLatencyWriteback .. => []
  | .writeAcknowledge .. => []
  | .brambleCommit .. => []
  | .clusterPlacement .. => []
  | .bridleClusterPlacement .. => []
  | .teamRetire .. => []
  | .cardLineLanded .. => []
  | .pageWalkComplete .. => []
  | .atsTranslation .. => []
  | .lineMigration .. => []
  | .partitionWrite .. => []
  | .granuleMapWrite .. => []
  | .granuleRemapComplete .. => []
  | .mirrorSizeWrite .. => []
  | .hostPostedWrite .. => []
  | .hostRead .. => []
  | .cxlSnoop .. => []
  | .atsInvalidation .. => []
  | .roundEnd .. => []
  | .roundResume .. => []
  | .gridSyncMerge .. => []
  | .gridEndMerge .. => []
  | .cardStart .. => []
  | .aredMeet .. => []
  | .cardComplete .. => []
  | .cardFail .. => []
  | .channelMessageArrive .. => []
  | .doorbell .. => []
  | .skip .. => []
  | .haltClear .. => []
  | .queueEnable .. => []
  | .packetStart .. => []
  | .realtimePreempt .. => []
  | .taskPlacement .. => []
  | .binSwitch .. => []
  | .graphNodeComplete .. => []
  | .waitNodeExpiry .. => []
  | .frameBoundary .. => []
  | .budgetCharge .. => []
  | .issueAgeLimit .. => []
  | .poolMove .. => []
  | .poolMoveComplete .. => []
  | .nocGovernorSample .. => []
  | .hbmPowerDown .. => []
  | .hbmSelfRefresh .. => []
  | .hbmExit .. => []
  | .controlInterval .. => []
  | .admissionAgeing .. => []
  | .sensorSample .. => []
  | .t4Cutoff .. => []
  | .throttleRelease .. => []
  | .dieReenable .. => []
  | .hotspotMigration .. => []
  | .powerBudgetWrite .. => []
  | .occupancyThresholdWrite .. => []
  | .preemption .. => []
  | .timeSliceExpiry .. => []
  | .teamSaveComplete .. => []
  | .pgreplyRetry .. => []
  | .pgreplyDecline .. => []
  | .resumeContinue .. => []
  | .resumeSkip .. => []
  | .resumeEnd .. => []
  | .resumeKill .. => []
  | .replyHighWordLatch .. => []
  | .tqrdWrite .. => []
  | .tqerrRetry .. => []
  | .contextEnable .. => []
  | .contextDisable .. => []
  | .uncorrectableError .. => []
  | .lostSector .. => []
  | .correctedError .. => []
  | .coreRetire .. => []
  | .subbankSpare .. => []
  | .hbmRowRepair .. => []
  | .linkLaneSpare .. => []
  | .dieReinit .. => []
  | .dieReinitComplete .. => []
  | .lifetimeRecordWrite .. => []
  | .enmerFlitReceive .. => []
  | .enmerRemoteRequest .. => []
  | .peerTimeout .. => []
  | .peerMapWrite .. => []
  | .rdmaWrite .. => []
  | .ptpSync .. => []
  | .liveUpdate .. => []
  | .rollbackCounterAdvance .. => []
  | .getVersion .. => []
  | .getCapabilities .. => []
  | .negotiateAlgorithms .. => []
  | .getDigests .. => []
  | .getCertificate .. => []
  | .challenge .. => []
  | .getMeasurements .. => []
  | .keyExchange .. => []
  | .finish .. => []
  | .endSession .. => []
  | .pldmMonitor .. => []
  | .pldmFru .. => []
  | .pldmFirmwareUpdate .. => []
  | .lifetimeRecordRead .. => []
  | .registerWrite .. => []
  | .powerLoss .. => []
  | .hbmRowRepairComplete .. => []
  | .teamRestoreComplete .. => []

/-- The length of an instruction in words (R70); 0 for an event. -/
def Instr.words (i : Instr) : Nat := (encode i).length

/-- A word's four bytes, little-endian (R4). -/
def wordBytes (w : Nat) : List Byte :=
  [BitVec.ofNat 8 w, BitVec.ofNat 8 (w / 2 ^ 8), BitVec.ofNat 8 (w / 2 ^ 16), BitVec.ofNat 8 (w / 2 ^ 24)]

/-- An instruction's bytes as they stand in memory. -/
def encodeBytes (i : Instr) : List Byte := (encode i).flatMap wordBytes

/-- The instruction the decoder reads from a table word: bit 0 is the least significant bit of the first word, the second
word's bits count on from 32, and the bits above `nbits` are 0. -/
def decodeTableWord (nbits w : Nat) : Option Instr :=
  let v := w % 2 ^ nbits
  match decode (wordBytes v ++ wordBytes (v / 2 ^ 32)) with
  | .ok (i, _) => some i
  | .error _ => none

end Sys2Proof
end

