-- ==== Sys2Proof/Config.lean ====
section
/-! DEFINITION. What a part fixes and the free values the spec leaves open (opaque: nothing can be proved of them). -/
namespace Sys2Proof.Config

/-- Cores on the package and on a die (R17). -/
def cores : Nat := 480
def coresPerDie : Nat := 120
/-- Bytes of one die's local HBM, 144 GiB (R139). -/
def dieHbm : Nat := 0x2400000000
/-- Populated bytes of region 0b00 (R138). -/
def hbmBytes : Nat := 0x9000000000
/-- Stack slots of a context (R132). -/
def stackSlots : Nat := 30720

/-- Values the spec leaves open, one for each count of State.free (log 5): contents of a reply, a reading or a signature that
comes from outside and is not given as the event's data. -/
opaque freeWord : Nat → Word
/-- Values the spec leaves open that are the same at every reading, word by word of what they belong to (log 11): a signature, a
certificate chain, the FRU data, the bytes of a log entry. -/
opaque freeOf : Nat → Nat → Word

end Sys2Proof.Config
end

