-- ==== Sys2Proof/Machine/Float.lean ====
section
/-! DEFINITION. Number formats and rounding (R97-R108): values are exact dyadic numbers, and every result is rounded once. -/
namespace Sys2Proof.Machine

/-- The five sticky flags in the order of %fpflags (R55): NV 0, DZ 1, OF 2, UF 3, NX 4. -/
abbrev Flags := BitVec 5
def fNone : Flags := 0
def fNV : Flags := 1
def fDZ : Flags := 2
def fOF : Flags := 4
def fUF : Flags := 8
def fNX : Flags := 16

/-- A floating-point format (R97): mantissa bits, exponent bits, bias, the code of the largest finite value, the code of +∞ and
of the canonical NaN (R101). -/
structure Fmt where
  mb : Nat
  eb : Nat
  bias : Nat
  maxFin : Nat
  inf : Option Nat
  nan : Option Nat
  deriving DecidableEq, Repr

def fmtF32 : Fmt := ⟨23, 8, 127, 0x7F7FFFFF, some 0x7F800000, some 0x7FC00000⟩
def fmtF16 : Fmt := ⟨10, 5, 15, 0x7BFF, some 0x7C00, some 0x7E00⟩
def fmtBF16 : Fmt := ⟨7, 8, 127, 0x7F7F, some 0x7F80, some 0x7FC0⟩
def fmtE4M3 : Fmt := ⟨3, 4, 7, 0x7E, none, some 0x7F⟩
def fmtE5M2 : Fmt := ⟨2, 5, 15, 0x7B, some 0x7C, some 0x7E⟩
def fmtE3M2 : Fmt := ⟨2, 3, 3, 0x1F, none, none⟩
def fmtE2M3 : Fmt := ⟨3, 2, 1, 0x1F, none, none⟩
def fmtE2M1 : Fmt := ⟨1, 2, 1, 0x7, none, none⟩

/-- The format of a type code, where it is a floating-point one other than E8M0 (R75). -/
def fmtOf : Ty → Option Fmt
  | .f32 => some fmtF32 | .f16 => some fmtF16 | .bf16 => some fmtBF16 | .e4m3 => some fmtE4M3
  | .e5m2 => some fmtE5M2 | .e3m2 => some fmtE3M2 | .e2m3 => some fmtE2M3 | .e2m1 => some fmtE2M1
  | .i32 | .n32 | .i16 | .n16 | .i8 | .n8 | .e8m0 | .i64 => none

/-- Width of the format's code. -/
def Fmt.bits (f : Fmt) : Nat := 1 + f.eb + f.mb
def Fmt.signBit (f : Fmt) : Nat := 2 ^ (f.eb + f.mb)

/-- An exact value: (−1)^neg × n × 2^e, an infinity, or a NaN. A zero keeps its sign. -/
inductive Val where
  | nan
  | inf (neg : Bool)
  | fin (neg : Bool) (n : Nat) (e : Int)
  deriving DecidableEq, Repr

/-- The value of a code of `f` (R97, R98). -/
def Fmt.val (f : Fmt) (c : Nat) : Val :=
  let c := c % 2 ^ f.bits
  let neg := f.signBit ≤ c
  let mag := c % f.signBit
  let ef := mag / 2 ^ f.mb
  let m := mag % 2 ^ f.mb
  if f.maxFin < mag ∧ f.inf = some mag then .inf neg
  else if f.maxFin < mag then .nan
  else if ef = 0 then .fin neg m (1 - (f.bias : Int) - f.mb)
  else .fin neg (2 ^ f.mb + m) ((ef : Int) - f.bias - f.mb)

/-- Rounding modes of R76 and R99; `sr` carries the 16 random bits of R105. -/
inductive RMode where
  | rne | rz | ru | rd
  | sr (r : Nat)
  deriving DecidableEq, Repr

/-- The mode of field M, with the random bits an sr form draws (R76). -/
def RMode.ofM (m : BitVec 3) (r : Nat) : RMode :=
  match m.toNat with
  | 0 => .rne | 1 => .rz | 2 => .ru | 3 => .rd | _ => .sr r

/-- 1 + the index of the highest set bit; 0 for 0. -/
def bitLen (n : Nat) : Nat := if n = 0 then 0 else n.log2 + 1

/-- n × 2^e, or a little more where `sticky`, as a whole number of units 2^q: the number chosen by the mode, and whether it
differs from the exact one (R99, R106). Sr measures from the lower signed neighbour: a negative value keeps its magnitude k,
which is the upper one, where r is below the fraction measured from −(k + 1). A sticky value must have e < q. -/
def roundAt (md : RMode) (neg : Bool) (n : Nat) (e q : Int) (sticky : Bool) : Nat × Bool :=
  if q ≤ e then (n * 2 ^ (e - q).toNat, sticky)
  else
    let s := (q - e).toNat
    let k := n / 2 ^ s
    let rem := n % 2 ^ s
    let inexact := rem ≠ 0 || sticky
    let up := match md with
      | .rne => (2 ^ s < 2 * rem) || (2 * rem = 2 ^ s && (sticky || k % 2 = 1))
      | .rz => false
      | .ru => inexact && !neg
      | .rd => inexact && neg
      | .sr r => if rem = 0 then false
          else if neg then decide ((2 ^ s - rem) * 2 ^ 16 / 2 ^ s ≤ r) else decide (r < rem * 2 ^ 16 / 2 ^ s)
    (if up then k + 1 else k, inexact)

/-- The code of k × 2^q with k below 2^(mb+1), q no lower than the subnormal unit. -/
def Fmt.pack (f : Fmt) (neg : Bool) (k : Nat) (q : Int) : Nat :=
  (if neg then f.signBit else 0) +
    (if k < 2 ^ f.mb then k
     else ((q + f.mb + f.bias).toNat) * 2 ^ f.mb + (k - 2 ^ f.mb))

/-- What an overflow becomes (R99), or the largest finite value where the conversion saturates (R104, R110). -/
def Fmt.overflow (f : Fmt) (md : RMode) (sat neg : Bool) : Nat :=
  let toInf := match md with
    | .rne => true | .sr _ => true | .rz => false | .ru => !neg | .rd => neg
  (if neg then f.signBit else 0) +
    (match f.inf with
     | some i => if toInf && !sat then i else f.maxFin
     | none => f.maxFin)

/-- Rounds (−1)^neg × (n × 2^e, plus a little where sticky) to `f` with the flags of R102. -/
def Fmt.roundMag (f : Fmt) (md : RMode) (sat neg : Bool) (n : Nat) (e : Int) (sticky : Bool) : Nat × Flags :=
  if n = 0 && !sticky then (if neg then f.signBit else 0, fNone)
  else
    let emin : Int := 1 - (f.bias : Int)
    let top : Int := (bitLen n : Int) - 1 + e
    let qu := top - f.mb
    let q := max qu (emin - f.mb)
    let (k, inexact) := roundAt md neg n e q sticky
    let (ku, _) := roundAt md neg n e qu sticky
    let tiny := decide (qu < emin - f.mb) && decide (ku < 2 ^ (emin - qu).toNat)
    let (k2, q2) := if k = 2 ^ (f.mb + 1) then (2 ^ f.mb, q + 1) else (k, q)
    let c := f.pack false k2 q2
    if f.maxFin < c ∧ f.mb ≤ k2.log2 then (f.overflow md sat neg, fOF ||| fNX)
    else (f.pack neg k2 q2, (if inexact then fNX else 0) ||| (if inexact && tiny then fUF else 0))

/-- Rounds an exact value to `f` (R99, R101, R104): a NaN or infinity the format lacks becomes +0 with NV, or the largest
finite value. -/
def Fmt.round (f : Fmt) (md : RMode) (sat : Bool) : Val → Nat × Flags
  | .nan => match f.nan with
    | some c => (c, fNone)
    | none => (0, fNV)
  | .inf neg => ((if neg then f.signBit else 0) + f.inf.getD f.maxFin, fNone)
  | .fin neg n e => f.roundMag md sat neg n e false

/-- The canonical NaN of a format that has one (R101); 0 otherwise. -/
def Fmt.qnan (f : Fmt) : Nat := f.nan.getD 0

/-- Is the value a NaN. -/
def Val.isNan : Val → Bool
  | .nan => true
  | .inf _ | .fin .. => false
def Val.neg : Val → Val
  | .nan => .nan
  | .inf n => .inf (!n)
  | .fin n m e => .fin (!n) m e
def Val.isZero : Val → Bool
  | .fin _ 0 _ => true
  | .fin _ (_ + 1) _ | .nan | .inf _ => false
def Val.sign : Val → Bool
  | .nan => false
  | .inf n => n
  | .fin n _ _ => n

/-- The signed integer n of a finite value in units 2^q, q at most its exponent. -/
def signedAt (neg : Bool) (n : Nat) (e q : Int) : Int :=
  let m : Int := (n * 2 ^ (e - q).toNat : Nat)
  if neg then -m else m

/-- Exact sum (R99): ∞ − ∞ is NaN with NV; an exact zero of opposite signs is +0, or −0 when `rd`. -/
def Val.add (rd : Bool) : Val → Val → Val × Flags
  | .nan, _ => (.nan, fNone)
  | .inf _, .nan => (.nan, fNone)
  | .fin .., .nan => (.nan, fNone)
  | .inf a, .inf b => if a = b then (.inf a, fNone) else (.nan, fNV)
  | .inf a, .fin .. => (.inf a, fNone)
  | .fin .., .inf b => (.inf b, fNone)
  | .fin na a ea, .fin nb b eb =>
    let q := min ea eb
    let s := signedAt na a ea q + signedAt nb b eb q
    if s = 0 then (.fin (if na = nb then na else rd) 0 0, fNone)
    else (.fin (s < 0) s.natAbs q, fNone)

/-- Exact product: 0 × ∞ is NaN with NV. -/
def Val.mul : Val → Val → Val × Flags
  | .nan, _ => (.nan, fNone)
  | .inf _, .nan => (.nan, fNone)
  | .fin .., .nan => (.nan, fNone)
  | .inf a, .inf b => (.inf (a != b), fNone)
  | .inf a, .fin nb b _ => if b = 0 then (.nan, fNV) else (.inf (a != nb), fNone)
  | .fin na a _, .inf nb => if a = 0 then (.nan, fNV) else (.inf (na != nb), fNone)
  | .fin na a ea, .fin nb b eb => (.fin (na != nb) (a * b) (ea + eb), fNone)

/-- Exact a × b + c (R351): 0 × ∞ raises NV even when c is NaN. -/
def Val.fma (rd : Bool) (a b c : Val) : Val × Flags :=
  let (p, f) := a.mul b
  if f = fNV then (.nan, fNV)
  else p.add rd c

/-- a < b for values that are not NaN, −0 equal to +0. -/
def Val.lt : Val → Val → Bool
  | .nan, _ => false
  | .inf _, .nan => false
  | .fin .., .nan => false
  | .inf a, .inf b => a && !b
  | .inf a, .fin .. => a
  | .fin .., .inf b => !b
  | .fin na a ea, .fin nb b eb =>
    let q := min ea eb
    decide (signedAt na a ea q < signedAt nb b eb q)
/-- a = b for values that are not NaN, −0 equal to +0. -/
def Val.eq (a b : Val) : Bool := !a.isNan && !b.isNan && !a.lt b && !b.lt a

/-- Largest r with r² ≤ n, by bits from 2^k down. -/
def isqrtFrom (n : Nat) : Nat → Nat → Nat
  | 0, r => r
  | k + 1, r => let t := r + 2 ^ k; isqrtFrom n k (if t * t ≤ n then t else r)

/-- Result of one operation on a format: code and flags. -/
abbrev FRes := Nat × Flags

def withFlags (r : FRes) (f : Flags) : FRes := (r.1, r.2 ||| f)
/-- Rounds an exact result carrying its own flags; NV stands alone (R102). -/
def roundRes (f : Fmt) (md : RMode) (x : Val × Flags) : FRes :=
  if x.2 = fNV then (f.qnan, fNV) else withFlags (f.round md false x.1) x.2

def isRd : RMode → Bool
  | .rd => true
  | .rne | .rz | .ru | .sr _ => false

/-- a + b, rounded once (R345). -/
def Fmt.fadd (f : Fmt) (md : RMode) (a b : Nat) : FRes := roundRes f md ((f.val a).add (isRd md) (f.val b))
def Fmt.fmul (f : Fmt) (md : RMode) (a b : Nat) : FRes := roundRes f md ((f.val a).mul (f.val b))
def Fmt.ffma (f : Fmt) (md : RMode) (a b c : Nat) : FRes := roundRes f md (Val.fma (isRd md) (f.val a) (f.val b) (f.val c))

/-- Order for FMIN and FMAX: −0 below +0 (R103). -/
def fltZ (f : Fmt) (a b : Nat) : Bool :=
  let x := f.val a; let y := f.val b
  x.lt y || (x.isZero && y.isZero && x.sign && !y.sign)
/-- FMIN (R103). -/
def Fmt.fmin (f : Fmt) (a b : Nat) : Nat :=
  match (f.val a).isNan, (f.val b).isNan with
  | true, true => f.qnan
  | true, false => b
  | false, true => a
  | false, false => if fltZ f b a then b else a
/-- FMAX (R103). -/
def Fmt.fmax (f : Fmt) (a b : Nat) : Nat :=
  match (f.val a).isNan, (f.val b).isNan with
  | true, true => f.qnan
  | true, false => b
  | false, true => a
  | false, false => if fltZ f a b then b else a

/-- FCMP by condition code 10 to 15 (R103, R346): FEQ FNE FLT FLE FUN FORD; FLT and FLE raise NV on a NaN. -/
def Fmt.fcmp (f : Fmt) (cc a b : Nat) : Bool × Flags :=
  let x := f.val a; let y := f.val b
  let un := x.isNan || y.isNan
  match cc with
  | 10 => (x.eq y, fNone)
  | 11 => (!x.eq y, fNone)
  | 12 => (x.lt y, if un then fNV else fNone)
  | 13 => (!un && !y.lt x, if un then fNV else fNone)
  | 14 => (un, fNone)
  | _ => (!un, fNone)

/-- a / b rounded once; division by zero raises DZ (R102, R107). -/
def Fmt.fdiv (f : Fmt) (md : RMode) (a b : Nat) : FRes :=
  let infC (n : Bool) : Nat := (if n then f.signBit else 0) + f.inf.getD f.maxFin
  let zero (n : Bool) : Nat := if n then f.signBit else 0
  match f.val a, f.val b with
  | .nan, _ => (f.qnan, fNone)
  | .inf _, .nan => (f.qnan, fNone)
  | .fin .., .nan => (f.qnan, fNone)
  | .inf _, .inf _ => (f.qnan, fNV)
  | .inf x, .fin y _ _ => (infC (x != y), fNone)
  | .fin x _ _, .inf y => (zero (x != y), fNone)
  | .fin x n e, .fin y m e2 =>
    if m = 0 then (if n = 0 then (f.qnan, fNV) else (infC (x != y), fDZ))
    else if n = 0 then (zero (x != y), fNone)
    else
      let num := n * 2 ^ 160
      f.roundMag md false (x != y) (num / m) (e - e2 - 160) (num % m ≠ 0)

/-- Square root (R107). -/
def Fmt.fsqrt (f : Fmt) (md : RMode) (a : Nat) : FRes :=
  match f.val a with
  | .nan => (f.qnan, fNone)
  | .inf neg => if neg then (f.qnan, fNV) else (a % 2 ^ f.bits, fNone)
  | .fin neg n e =>
    if n = 0 then (a % 2 ^ f.bits, fNone)
    else if neg then (f.qnan, fNV)
    else
      let (n', e') := if e % 2 = 0 then (n, e) else (2 * n, e - 1)
      let m := n' * 2 ^ 120
      let r := isqrtFrom m 80 0
      f.roundMag md false false r (e' / 2 - 60) (r * r ≠ m)

def F32.one : Nat := 0x3F800000
/-- 1 / √x (R107). -/
def frsqF32 (a : Nat) : FRes :=
  match fmtF32.val a with
  | .nan => (fmtF32.qnan, fNone)
  | .inf neg => if neg then (fmtF32.qnan, fNV) else (0, fNone)
  | .fin neg n e =>
    if n = 0 then ((if neg then 0xFF800000 else 0x7F800000), fDZ)
    else if neg then (fmtF32.qnan, fNV)
    else
      let (n', e') := if e % 2 = 0 then (n, e) else (2 * n, e - 1)
      let m := 2 ^ 160 / n'
      let r := isqrtFrom m 90 0
      fmtF32.roundMag .rne false false r (-(e' / 2) - 80) (r * r * n' ≠ 2 ^ 160)

/-! Fixed-point series for the transcendental functions, 320 fraction bits (log 12). -/
/-- ln 2 × 2^320, rounded down. -/
def ln2Fix : Nat := 0xb17217f7d1cf79abc9e3b39803f2f6af40f343267298b62d8a0d175b8baafa2be7b876206debac98
/-- 2π × 2^320, rounded down. -/
def twoPiFix : Nat := 0x6487ed5110b4611a62633145c06e0e68948127044533e63a0105df531d89cd9128a5043cc71a026ef
def fixMul (a b : Nat) : Nat := a * b / 2 ^ 320
/-- Σ of y^k / k! from term `t` = y^k / k! on, `k` the last index reached. -/
def expSeries (y : Nat) : Nat → Nat → Nat → Nat
  | 0, _, _ => 0
  | fuel + 1, k, t => t + expSeries y fuel (k + 1) (fixMul t y / (k + 1))
/-- Σ of z^(2j+1) / (2j+1) from power `p` = z^(2j+1) on. -/
def atanhSeries (z2 : Nat) : Nat → Nat → Nat → Nat
  | 0, _, _ => 0
  | fuel + 1, j, p => p / (2 * j + 1) + atanhSeries z2 fuel (j + 1) (fixMul p z2)
/-- Alternating series t − t·y²/((k+1)(k+2)) + …, for sine (k = 1) and cosine (k = 0). -/
def trigSeries (y2 : Nat) : Nat → Nat → Nat → Int
  | 0, _, _ => 0
  | fuel + 1, k, t => (t : Int) - trigSeries y2 fuel (k + 2) (fixMul t y2 / ((k + 1) * (k + 2)))

/-- 2^x (R107, R348). -/
def fex2F32 (a : Nat) : FRes :=
  match fmtF32.val a with
  | .nan => (fmtF32.qnan, fNone)
  | .inf neg => ((if neg then 0 else 0x7F800000), fNone)
  | .fin neg n e =>
    if n = 0 then (F32.one, fNone)
    else if 9 < (bitLen n : Int) + e then
      (if neg then fmtF32.roundMag .rne false false 1 (-400) true
       else fmtF32.roundMag .rne false false 1 400 false)
    else
      let x := signedAt neg n e (-160)
      let i := x / 2 ^ 160
      let fr := (x % 2 ^ 160).toNat
      if fr = 0 then fmtF32.roundMag .rne false false 1 i false
      else
        let y := fixMul (fr * 2 ^ 160) ln2Fix
        fmtF32.roundMag .rne false false (expSeries y 75 0 (2 ^ 320) / 2 ^ 64) (i - 256) true

/-- log2 x (R107, R348). -/
def flg2F32 (a : Nat) : FRes :=
  match fmtF32.val a with
  | .nan => (fmtF32.qnan, fNone)
  | .inf neg => if neg then (fmtF32.qnan, fNV) else (0x7F800000, fNone)
  | .fin neg n e =>
    if n = 0 then (0xFF800000, fDZ)
    else if neg then (fmtF32.qnan, fNV)
    else
      let b := bitLen n - 1
      let k : Int := e + b
      if n = 2 ^ b then fmtF32.roundMag .rne false (k < 0) k.natAbs 0 false
      else
        let z := (n - 2 ^ b) * 2 ^ 320 / (n + 2 ^ b)
        let ln := 2 * atanhSeries (fixMul z z) 110 0 z
        let l : Int := k * 2 ^ 320 + (ln * 2 ^ 320 / ln2Fix : Nat)
        fmtF32.roundMag .rne false (l < 0) (l.natAbs / 2 ^ 64) (-256) true

/-- sin(2πr) or cos(2πr) for a nonzero r < 1/4, r in units 2^-320; 256 fraction bits of it. -/
def sinQ (r : Nat) : Nat := let y := fixMul r twoPiFix; (trigSeries (fixMul y y) 90 1 y).toNat / 2 ^ 24
def cosQ (r : Nat) : Nat := let y := fixMul r twoPiFix; (trigSeries (fixMul y y) 90 0 (2 ^ 320)).toNat / 2 ^ 24

/-- The fraction of |x| in units 2^-320. -/
def turnFrac (n : Nat) (e : Int) : Nat :=
  if 0 ≤ e then 0 else n * 2 ^ (320 + e).toNat % 2 ^ 320

/-- The value at quadrant `q` (0 to 3) and offset r: sine of 2π(q/4 + r/2^320), as sign, magnitude in units 2^-296, exactness. -/
def sinAt (q r : Nat) : Bool × Nat × Bool :=
  match q % 4, r with
  | 0, 0 => (false, 0, true)
  | 1, 0 => (false, 2 ^ 296, true)
  | 2, 0 => (true, 0, true)
  | _, 0 => (true, 2 ^ 296, true)
  | 0, r => (false, sinQ r, false)
  | 1, r => (false, cosQ r, false)
  | 2, r => (true, sinQ r, false)
  | _, r => (true, cosQ r, false)

/-- sin(2πx) (R107, R348): an exact zero has the sign of x. -/
def fsinF32 (a : Nat) : FRes :=
  match fmtF32.val a with
  | .nan => (fmtF32.qnan, fNone)
  | .inf _ => (fmtF32.qnan, fNV)
  | .fin neg n e =>
    let t := turnFrac n e
    let (s, m, exact) := sinAt (t / 2 ^ 318) (t % 2 ^ 318)
    if m = 0 && exact then ((if neg then 0x80000000 else 0), fNone)
    else fmtF32.roundMag .rne false (s != neg) m (-296) (!exact)

/-- cos(2πx) (R107, R348): an exact zero is +0. -/
def fcosF32 (a : Nat) : FRes :=
  match fmtF32.val a with
  | .nan => (fmtF32.qnan, fNone)
  | .inf _ => (fmtF32.qnan, fNV)
  | .fin _ n e =>
    let t := turnFrac n e
    let (s, m, exact) := sinAt (t / 2 ^ 318 + 1) (t % 2 ^ 318)
    if m = 0 && exact then (0, fNone)
    else fmtF32.roundMag .rne false s m (-296) (!exact)

/-- FRND: the F32 integral value chosen by the mode, no flag (R352). -/
def frndF32 (md : RMode) (a : Nat) : Nat :=
  match fmtF32.val a with
  | .nan => fmtF32.qnan
  | .inf neg => if neg then 0xFF800000 else 0x7F800000
  | .fin neg n e =>
    let (k, _) := roundAt md neg n e 0 false
    (fmtF32.roundMag .rne false neg k 0 false).1

/-- Mix32 (R105). -/
def mix32 (x : Nat) : Nat :=
  let x := Nat.xor x (x / 2 ^ 16)
  let x := x * 0x2C1B3C6D % 2 ^ 32
  let x := Nat.xor x (x / 2 ^ 15)
  let x := x * 0x297A2D39 % 2 ^ 32
  Nat.xor x (x / 2 ^ 15)

/-- The 16 random bits of one element: seed, element E, SEQ (R105). -/
def srBits (seed e seq : Nat) : Nat := mix32 (Nat.xor (Nat.xor seed e) (seq * 2 ^ 24 % 2 ^ 32)) % 2 ^ 16

/-! Conversions (R104). -/
/-- Width and signedness of an integer type (R75). -/
def intOf : Ty → Option (Nat × Bool)
  | .i32 => some (32, true) | .n32 => some (32, false) | .i16 => some (16, true) | .n16 => some (16, false)
  | .i8 => some (8, true) | .n8 => some (8, false) | .i64 => some (64, true)
  | .f32 | .f16 | .bf16 | .e4m3 | .e5m2 | .e3m2 | .e2m3 | .e2m1 | .e8m0 => none

/-- `w` bits of `x` as a signed or unsigned integer. -/
def toIntW (w : Nat) (signed : Bool) (x : Nat) : Int :=
  let y := x % 2 ^ w
  if signed && 2 ^ (w - 1) ≤ y then (y : Int) - 2 ^ w else y
def minW (w : Nat) (signed : Bool) : Int := if signed then -(2 ^ (w - 1)) else 0
def maxW (w : Nat) (signed : Bool) : Int := if signed then 2 ^ (w - 1) - 1 else 2 ^ w - 1
/-- An integer modulo 2^w. -/
def wrapW (w : Nat) (i : Int) : Nat := (i % 2 ^ w).toNat
def clampI (lo hi i : Int) : Int := if i < lo then lo else if hi < i then hi else i

/-- The exact value of a source (R98, R104): floats by format, integers exactly, E8M0 as 2^(e − 127). -/
def srcVal (t : Ty) (x : Nat) : Val :=
  match fmtOf t, intOf t with
  | some f, _ => f.val x
  | none, some (w, s) => let i := toIntW w s x; .fin (i < 0) i.natAbs 0
  | none, none => if x % 256 = 255 then .nan else .fin false 1 ((x % 256 : Nat) - 127)

/-- Any value → E8M0 (R104, R102). -/
def toE8M0 : Val → FRes
  | .nan => (0xFF, fNone)
  | .inf _ => (0xFF, fNV)
  | .fin _ n e =>
    if n = 0 then (0, fNone)
    else
      let l : Int := (bitLen n : Int) - 1 + e
      let nx := if n = 2 ^ (bitLen n - 1) then fNone else fNX
      if 128 ≤ l then (254, fOF ||| fNX)
      else if l < -127 then (0, fUF ||| fNX)
      else ((l + 127).toNat, nx)

/-- A float value → an integer type (R104). -/
def toIntTy (w : Nat) (signed : Bool) (md : RMode) : Val → FRes
  | .nan => (0, fNV)
  | .inf neg => (wrapW w (if neg then minW w signed else maxW w signed), fNV)
  | .fin neg n e =>
    let (k, nx) := roundAt md neg n e 0 false
    let i : Int := if neg then -(k : Int) else k
    if i < minW w signed then (wrapW w (minW w signed), fNV)
    else if maxW w signed < i then (wrapW w (maxW w signed), fNV)
    else (wrapW w i, if nx then fNX else fNone)

/-- A real value → any destination (R104): the rows whose source is a float. -/
def cvtVal (dst : Ty) (md : RMode) (sat : Bool) (v : Val) : FRes :=
  match fmtOf dst, intOf dst with
  | some f, _ => f.round md sat v
  | none, some (w, s) => toIntTy w s md v
  | none, none => toE8M0 v

/-- CVT (R104, R334): the code of the destination, `w` bits of it, and the flags. X[4] acts on the rows whose source is a float
and on integer to integer alone; integers and E8M0 round by M. DESIGN CHOICE (log 40): E8M0 to an integer type, for which R104
has no row, takes the row of a float source. -/
def cvt (dst src : Ty) (md : RMode) (sat : Bool) (x : Nat) : FRes :=
  match intOf src, intOf dst with
  | some (ws, ss), some (wd, sd) =>
    let i := toIntW ws ss x
    (wrapW wd (if sat then clampI (minW wd sd) (maxW wd sd) i else i), fNone)
  | _, _ => cvtVal dst md (sat && (fmtOf src).isSome) (srcVal src x)

/-- x × 2^k exactly. -/
def Val.scale (v : Val) (k : Int) : Val :=
  match v with
  | .nan => .nan
  | .inf n => .inf n
  | .fin neg n e => .fin neg n (e + k)

/-- CVTX (R104, R336): scale by the E8M0 byte, I8 an MXINT8 element, then the float rows. -/
def cvtx (dst src : Ty) (md : RMode) (sat : Bool) (x scale : Nat) : FRes :=
  let v := (srcVal src x).scale (if src = .i8 then -6 else 0)
  if scale % 256 = 255 then
    (match fmtOf dst with
     | some f => match f.nan with
       | some c => (c, fNone)
       | none => (0, fNV)
     | none => (0, fNV))
  else cvtVal dst md sat (v.scale ((scale % 256 : Nat) - 127))

/-- Width of a scalar of the type in a register (R98). -/
def tyBits : Ty → Nat
  | .i32 | .n32 | .f32 => 32
  | .i16 | .n16 | .f16 | .bf16 => 16
  | .i8 | .n8 | .e4m3 | .e5m2 | .e8m0 => 8
  | .e3m2 | .e2m3 => 6
  | .e2m1 => 4
  | .i64 => 64

/-- The 64-bit register image of a result code: zero-filled, sign-filled for I8 and I16 (R98). -/
def fillHigh (dst : Ty) (c : Nat) : Nat :=
  match dst with
  | .i8 => wrapW 32 (toIntW 8 true c)
  | .i16 => wrapW 32 (toIntW 16 true c)
  | .i32 | .n32 | .n16 | .n8 | .f32 | .f16 | .bf16 | .e4m3 | .e5m2 | .e3m2 | .e2m3 | .e2m1 | .e8m0 | .i64 => c

/-- F32 helpers of the engines and units that set no flag. -/
def addF32 (a b : Nat) : Nat := (fmtF32.fadd .rne a b).1
def mulF32 (a b : Nat) : Nat := (fmtF32.fmul .rne a b).1
def fmaF32 (a b c : Nat) : Nat := (fmtF32.ffma .rne a b c).1
def negF32 (a : Nat) : Nat := Nat.xor (a % 2 ^ 32) 0x80000000
def subF32 (a b : Nat) : Nat := addF32 a (negF32 b)

/-- OrdKey16, MaxKey and MinKey (R121). -/
def ordKey16 (h : Nat) : Nat :=
  let h := h % 2 ^ 16
  if (fmtF16.val h).isNan then 0xFFFF else if h < 0x8000 then h + 0x8000 else 0xFFFF - h
def maxKey (h i : Nat) : Nat := ordKey16 h * 2 ^ 16 + (0xFFFF - i)
def minKey (h i : Nat) : Nat := ordKey16 h * 2 ^ 16 + i

end Sys2Proof.Machine
end

