-- ==== Sys2Proof/Machine/Sparse.lean ====
section
/-! DEFINITION. Sparse maps in one canonical form: keys strictly rising, no entry equal to what an unlisted key reads as. -/
namespace Sys2Proof.Machine

/-- A sparse map: key and value pairs, keys strictly rising. -/
abbrev SMap (α : Type) := List (Nat × α)

/-- The value at `k`; an unlisted key reads as `d`. -/
def SMap.get {α : Type} (d : α) : SMap α → Nat → α
  | [], _ => d
  | (a, x) :: r, k => if k = a then x else SMap.get d r k

/-- The map with `k` listed as `v`, in its place among the keys. -/
def SMap.put {α : Type} : SMap α → Nat → α → SMap α
  | [], k, v => [(k, v)]
  | (a, x) :: r, k, v => if k = a then (a, v) :: r else if k < a then (k, v) :: (a, x) :: r else (a, x) :: SMap.put r k v

/-- The map with `k` unlisted. -/
def SMap.drop {α : Type} : SMap α → Nat → SMap α
  | [], _ => []
  | (a, x) :: r, k => if k = a then SMap.drop r k else (a, x) :: SMap.drop r k

/-- The map with `k` reading as `v`; writing the unlisted value removes the entry. -/
def SMap.set {α : Type} [DecidableEq α] (d : α) (m : SMap α) (k : Nat) (v : α) : SMap α := if v = d then SMap.drop m k else SMap.put m k v

/-- Keys strictly rising from above `lo`, and no value equal to `d`. -/
def SMap.wfFrom {α : Type} [DecidableEq α] (d : α) : Nat → SMap α → Bool
  | _, [] => true
  | lo, (a, x) :: r => decide (lo ≤ a) && decide (x ≠ d) && SMap.wfFrom d (a + 1) r

/-- The canonical form. -/
def SMap.wf {α : Type} [DecidableEq α] (d : α) (m : SMap α) : Bool := SMap.wfFrom d 0 m

/-- The `i`-th element replaced by its image; the list unchanged where there is none. -/
def updAt {α : Type} (l : List α) (i : Nat) (f : α → α) : List α :=
  match l, i with
  | [], _ => []
  | x :: r, 0 => f x :: r
  | x :: r, i + 1 => x :: updAt r i f

/-- The indices of `l` with their elements. -/
def enum {α : Type} (l : List α) : List (Nat × α) := go 0 l
where
  go (i : Nat) : List α → List (Nat × α)
    | [] => []
    | x :: r => (i, x) :: go (i + 1) r

/-- The first index from 0 to n − 1 that satisfies `p`. -/
def firstIdx (n : Nat) (p : Nat → Bool) : Option Nat := (List.range n).find? p

/-- The lanes of a mask, ascending. -/
def lanesOf (m : Mask) : List Nat := (List.range 32).filter m.has
/-- The mask of a list of lanes. -/
def maskOf (l : List Nat) : Mask := l.foldl (fun m i => m ||| BitVec.ofNat 32 (2 ^ i)) 0
/-- One lane's bit. -/
def laneBit (l : Nat) : Mask := BitVec.ofNat 32 (2 ^ l)

/-- The bytes of `n`, `k` of them, little-endian (R4). -/
def leBytes : Nat → Nat → List Byte
  | 0, _ => []
  | k + 1, n => BitVec.ofNat 8 n :: leBytes k (n / 256)
/-- Little-endian bytes as a number (R4). -/
def leNat : List Byte → Nat
  | [] => 0
  | b :: r => b.toNat + 256 * leNat r

end Sys2Proof.Machine
end

