-- ==== Sys2Proof/Machine/State.lean ====
section
/-! DEFINITION. The state of the part as plain data (R8-R309), one structure per unit, and the state after reset. -/
namespace Sys2Proof.Machine

/-- Sharing domains (R158), narrowest first. -/
inductive Dom where
  | core | die | pkg | sys
  deriving DecidableEq, Repr

/-- Where a byte lives (R130): team shared memory, pad by die, slice and offset, or a physical address with its page's domain,
whether mirrored (R140), whether it may migrate (R147), and its cache policy (R149). -/
inductive Loc where
  | shm (a : Nat)
  | pad (die slice off : Nat)
  | phys (pa : Nat) (shr : Dom) (mir mig : Bool) (cp : Nat)
  deriving DecidableEq, Repr

/-- Why a lane is parked (R35, R48, R272). -/
inductive Park where
  /-- a translation miss whose walk is in flight (R151): the address, whether it is a write or a fetch -/
  | walk (va : Nat) (w f : Bool)
  /-- a page request posted to the page service (R150) -/
  | page (vp : Nat)
  /-- an ATS miss (R152) -/
  | ats (vp : Nat)
  /-- an absent line of team shared memory (R134) -/
  | presence (line : Nat)
  /-- an absent line of the pad (R134) -/
  | padLine (key : Nat)
  /-- a channel (R407-R409) -/
  | chan (ch : Nat) (send : Bool)
  /-- a ticket at EWT, EQRY in bridle mode, or WBAK's pins (R272) -/
  | ticket (t : Nat)
  /-- a full ticket table (R217) -/
  | slot
  /-- the pins of a weight buffer (R443) -/
  | pins (pa : Nat)
  /-- a fence or release that has not completed (R166, R168) -/
  | fence
  /-- earlier stores of the group in its store queue -/
  | queue
  /-- GWAIT (R358) -/
  | gwait
  /-- a full task pool, or a suspended task (R429, R430) -/
  | task
  /-- a store of a late group that a speculative load overlaps (R191) -/
  | spec
  /-- the end of a bridle round (R203) -/
  | round
  /-- memory of a die that is being re-initialised, a hold of its map, or a channel asleep (R145, R262, R277): the address, whether its page is
  mirrored, and whether the access writes -/
  | hold (pa : Nat) (mir write : Bool)
  /-- TLBI (R427): the writes of groups, each with a store number, and the cards, that used removed entries; the walks, by die, context and page,
  that complete first; and the bridle grids with writes still to merge -/
  | tlbi (gs : List (Nat × Nat × Nat)) (cards : List Nat) (walks : List (Nat × Nat × Nat)) (grids : List Nat)
  deriving DecidableEq, Repr

/-- What a lane waiting at a barrier waits for (R184, R187, R188). -/
inductive BarWait where
  /-- held: its arrival of the open phase is already counted; it arrives in the next with this explicit count and SPEC, and then
  waits or goes on (R184); lanes of one arrival share the number `k` -/
  | held (cnt : Option Nat) (wait spec : Bool) (k : Nat)
  /-- its arrival's release is in progress -/
  | release
  /-- it waits for the open phase to complete, at a BAR with SPEC or not (R189) -/
  | phase (spec : Bool)
  /-- PHW for PHASE = h -/
  | phw (h : Bool)
  deriving DecidableEq, Repr

/-- Whether a lane is ready, and if not why (R24, R48). -/
inductive LaneSt where
  | ready
  | exited
  | parked (r : Park)
  /-- arrived at a rendezvous (R32), with its copy of the membership mask (R34) and the scope -/
  | arrived (m : Mask) (sc : Scope)
  | barred (b : Nat) (w : BarWait)
  deriving DecidableEq, Repr

/-- A reservation (R170): the line's physical address, and whether it is a CORE page's. -/
structure Resv where
  line : Nat
  core : Bool
  deriving DecidableEq, Repr

/-- A lane (R24, R30, R47, R105, R170): byte offset of its program counter in the code segment, call depth, SEQ, sticky
flags, bundle number, the page a decline answered, whether the rendezvous of the instruction at its address has completed, with its
own access still to be made (R134, R374), and what the checks of a TSUS at its address have found, FIRST of the record (R251). -/
structure Lane where
  pc : Nat
  depth : Nat
  st : LaneSt
  bundle : Nat
  resv : Option Resv
  seq : Nat
  fl : Flags
  declined : Option Nat
  met : Bool
  judged : Option Nat
  deriving DecidableEq, Repr

/-- One register or predicate write of one lane, or flags ORed into its %fpflags. -/
inductive Wr where
  | v (reg : Nat) (x : Word)
  | p (pr : Nat) (b : Bool)
  | f (x : Flags)
  deriving DecidableEq, Repr

/-- A variable-latency result not yet written (R92, R93): each lane's writes, and the writes to g-registers. -/
structure Pend where
  lanes : List (Nat × List Wr)
  gs : List (Nat × Word)
  deriving DecidableEq, Repr

/-- One lane's part of an atomic or STC that waits behind a release (R166): its place and width, operation (16 is STC), type, random
bits, operands, the register (of STC the predicate) that the result goes to, and the page-table entry that an STC marks dirty when it
succeeds (R149). -/
structure Rmw where
  gi : Nat
  lane : Nat
  loc : Loc
  n : Nat
  op : Nat
  ty : Ty
  bits : Option Nat
  b : Nat
  c : Nat
  reg : Option Nat
  pte : Option Nat
  deriving DecidableEq, Repr

/-- What an entry of a group's store queue does when it leaves it in order (R161, R166). -/
inductive SqAct where
  /-- a store of the bytes to the place, under a cache hint (R420) -/
  | store (loc : Loc) (bytes : List Byte) (ch : Nat)
  /-- a barrier arrival in one step of the lanes of some groups, each with its explicit count, SPEC, whether the lanes wait, and
  the instruction's address (R184); it stands in the queue of every one of the groups -/
  | arrive (b : Nat) (lanes : List (Nat × Mask × Option Nat)) (spec wait : Bool) (pc : Nat)
  /-- PHF of some groups (R188), likewise -/
  | phf (b : Nat) (gs : List Nat)
  /-- a FENCE's release side -/
  | fence
  /-- LNXT counted (R245) -/
  | lnxt
  /-- an atomic, reduction or STC, lane by lane -/
  | rmw (l : List Rmw)
  deriving DecidableEq, Repr

/-- A store-queue entry; a release leaves only when every earlier write has been acknowledged (R166). -/
structure Sq where
  rel : Bool
  sn : Nat
  act : SqAct
  deriving DecidableEq, Repr

/-- A FENCE that holds the group's later accesses until it completes (R167, R168), the member groups that complete together, and the lanes that wait for
that past it, at set or team scope (R349). -/
structure FenceWait where
  rel : Bool
  acq : Bool
  x : Bool
  dom : Dom
  sn : Nat
  gs : List Nat
  held : Mask
  deriving DecidableEq, Repr

/-- A 32-byte sector of a saddlebag or held version (R191): its place, the bytes and which of them are present. -/
structure Sector where
  loc : Loc
  bytes : List Byte
  mask : Mask
  deriving DecidableEq, Repr

/-- The checkpoint and buffers of a speculating group (R190, R191); `ptes` are the page-table entries that its stores went through
(R149). -/
structure Bram where
  bar : Nat
  lanes : List Lane
  p : SMap Mask
  g : SMap Word
  seed : Word
  shadows : List (Nat × List Word)
  sad : List Sector
  rset : List Sector
  stalled : Bool
  hit : Bool
  past : Bool
  fpctl : BitVec 5
  perm : Word
  pendV : SMap Mask
  pendP : SMap Mask
  pendG : SMap Mask
  wm : Dom
  ptes : List Nat
  deriving DecidableEq, Repr

/-- A partial of a bridle team at one location (R205). -/
structure Partial where
  loc : Loc
  op : Nat
  ty : Ty
  width : Nat
  val : Nat
  sr : Option (Nat × Nat)
  deriving DecidableEq, Repr

/-- A held version or partial of a bridle team, in the order they apply (R204, R205). -/
inductive Held where
  | bytes (s : Sector)
  | part (p : Partial)
  deriving DecidableEq, Repr

/-- The instruction that ended a bridle group's quantum (R201): its address, the group's member lanes and participants, the
issuing group, and whether its effect is complete. -/
structure Deferred where
  i : Instr
  pc : Nat
  lanes : Mask
  part : Mask
  lead : Nat
  done : Bool
  deriving DecidableEq, Repr

/-- A group (R47, R51; 02 R26-R29; 05 R105, R112; 07 R168; 08 R189-R195; 09 R199-R210; 11 R257; 13 R273, R274). `run` is the bundle of the current path that issued last, `slots` are the issue slots it has used since its team's halt latch was set,
and `yield` whether its YLD lets its quarter pass it over once (R446). -/
structure Group where
  role : Nat
  quarter : Nat
  vat : Nat
  slot : Nat
  v : SMap Word
  g : SMap Word
  p : SMap Mask
  fpctl : BitVec 5
  seed : Word
  permBase : Word
  lanes : List Lane
  nextBundle : Nat
  wm : Dom
  fence : Option FenceWait
  sn : Nat
  sq : List Sq
  pend : List Pend
  pendV : SMap Mask
  pendP : SMap Mask
  pendG : SMap Mask
  drain : Bool
  loopbuf : List (Nat × Word)
  path : Option Nat
  run : Option Nat
  issued : Nat
  cinch : Option Nat
  cinchPc : Nat
  age : Nat
  cntL : Nat
  cntU : Nat
  bram : Option Bram
  noSpec : Option Nat
  specRoll : Nat
  specCommit : Nat
  specStall : Nat
  specRem : Nat
  issues : Nat
  quantum : Nat
  turn : Bool
  ended : Option Deferred
  sad : List Sector
  unc : List Sector
  lnxt : Bool
  skid : Nat
  slots : Nat
  scode : Nat
  stopped : Bool
  fpx : Mask
  fpxPc : Nat
  retired : Bool
  yield : Bool
  deriving DecidableEq, Repr

/-- A named barrier (R182); the mask is 1,024 bits. -/
structure Barrier where
  phase : Bool
  latch : Bool
  expect : Nat
  arrived : Nat
  mask : Nat
  deriving DecidableEq, Repr

/-- State of a ticket slot (R174, R217, R218): the latest command's SEQ, whether its chain is in flight or failed, the widest domain that its
cards have written, and the physical ranges, start and length, of the write regions of its cards that have run. -/
structure Ticket where
  seq : Nat
  busy : Bool
  failed : Bool
  dom : Dom
  spans : List (Nat × Nat)
  deriving DecidableEq, Repr

/-- A lane-set entry of a trap record (R278). -/
structure Ent where
  ecode : Nat
  group : Nat
  ty : Nat
  mask : Mask
  sib : Mask
  epc : Nat
  eaddr : Nat
  deriving DecidableEq, Repr

/-- A halting trap: the team's halt latch and what its record will say (R273-R278). -/
structure Halt where
  kind : Nat
  code : Nat
  cause : Nat
  addr : Nat
  pc : Nat
  ticket : Nat
  aux : Nat
  low : Nat
  fpxn : Nat
  groups : List Nat
  ents : List Ent
  deriving DecidableEq, Repr

/-- A channel declaration of the kernel header (R66). -/
structure ChanDecl where
  id : Nat
  slots : Nat
  bytes : Nat
  deriving DecidableEq, Repr

/-- The kernel header's fields (R66). -/
structure Header where
  vregs : Nat
  gregs : Nat
  spans : Nat
  depth : Nat
  shadow : Nat
  shared : Nat
  groups : Nat
  setcode : Nat
  bridle : Bool
  bramble : Bool
  oc : Nat
  qlog : Nat
  roles : List Nat
  chans : List ChanDecl
  energy : Nat
  current : Nat
  codesz : Nat
  hdroff : Nat
  deriving DecidableEq, Repr

/-- What a launch gives every team of its grid (R236, R68): SB and K of the stack (R132), NB barriers, CHK, the parameter
pointer, %fpctl, %seed, start time, version area, priority, RESTART, and the energy and current it is charged (R263). -/
structure Launch where
  hdr : Header
  base : Nat
  bridle : Bool
  bramble : Bool
  q : Nat
  oc : Nat
  nb : Nat
  sb : Nat
  k : Nat
  chk : Bool
  param : Nat
  fpctl : Nat
  seed : Nat
  startTime : Nat
  prio : Nat
  restart : Bool
  verBase : Nat
  verSize : Nat
  frame0 : Nat
  energy : Nat
  current : Nat
  deriving DecidableEq, Repr

/-- A message of a channel (R407): channel, sending team and group, whether it has landed, its 32 lane slots, and the core that sent
it with its place among all messages sent (R14). -/
structure Msg where
  ch : Nat
  src : Nat
  gi : Nat
  landed : Bool
  slots : List (List Byte)
  node : Nat
  stamp : Nat
  deriving DecidableEq, Repr

/-- A SEND or RECV that waits for a free slot or a message, in issue order (R407, R408): its channel, group, lanes, first register,
registers, and address. -/
structure ChanWait where
  send : Bool
  ch : Nat
  gi : Nat
  lanes : Mask
  reg : Nat
  n : Nat
  pc : Nat
  deriving DecidableEq, Repr

/-- A team (02 R21-R23, R45-R49; 08 R181-R182; 10 R217; 13 R273-R276, R287, R290; 09 R201-R210). `shmCnt` holds, for a line of
team shared memory, the count of copies outstanding into it, that of a card that failed among them: the line is present where it is 0 (R134, R135).
`shmAt` and `barAt` are the starts of its ranges (R243), `first` the FIRST of a task's record, `back` the save block (die it was saved on, index, address) that it is being
restored from (R283, R285), and `pin` the cores it is to
be placed on when it has been saved, none for any (R267, R292), and `slices` the multiples of TSL since `since` that have been
judged (R287), `moved` the time of its last migration plus 1 (R267), and `joins` what cards of a bridle team have written to its shared pages and the
pad, by ticket, that has not joined its held versions (R203), and `skips` the lanes, group and lane, that RESUME SKIP has sent past their
instruction since it was saved (R280).
`merged` are the versions that stood at its LNXT (R206); `layer1` and `own` are the bytes, by address × 2 + space − 1, of its layer 1 that the
predecessor's end and its own grid's synchronisation have overwritten in memory (R206). -/
structure Team where
  tid : Nat
  ctx : Nat
  grid : Nat
  lin : Nat
  x : Nat
  y : Nat
  z : Nat
  gx : Nat
  gy : Nat
  gz : Nat
  cw : Nat
  ch : Nat
  core : Nat
  pcore : Nat
  task : Option Nat
  la : Launch
  groups : List Group
  bars : List Barrier
  shm : SMap Byte
  shmCnt : SMap Nat
  shmAt : Nat
  barAt : Nat
  tickets : List Ticket
  seq : Nat
  first : Nat
  msgs : List Msg
  chanq : List ChanWait
  halt : Option Halt
  round : Nat
  roundStep : Nat
  held : List Held
  merged : List Held
  layer1 : List (Nat × Byte)
  own : List (Nat × Byte)
  irrev : Bool
  reruns : Nat
  since : Nat
  back : Option (Nat × Nat × Nat)
  pin : List Nat
  slices : Nat
  moved : Nat
  joins : List (Nat × Sector)
  skips : List (Nat × Nat)
  deriving DecidableEq, Repr

/-- A 32-byte L1 sector (R141): physical sector number, domain tag, context, bytes, dirty mask, keep hint. -/
structure L1Sec where
  sec : Nat
  shr : Dom
  ctx : Nat
  bytes : List Byte
  dirty : Mask
  keep : Bool
  mir : Bool
  deriving DecidableEq, Repr

/-- A TLB entry (R149, R151): page base and size, physical base, attributes, and the entry's own address. -/
structure TlbEnt where
  ctx : Nat
  vbase : Nat
  size : Nat
  pbase : Nat
  shr : Dom
  mig : Bool
  mir : Bool
  ro : Bool
  u : Bool
  nx : Bool
  cp : Nat
  pte : Nat
  deriving DecidableEq, Repr

/-- A write the core has sent and its coherence point has not acknowledged (R166), with the groups that made it or read its
sectors meanwhile, each with its store number. -/
structure Flight where
  loc : Loc
  bytes : List Byte
  tid : Nat
  gi : Nat
  sn : Nat
  readers : List (Nat × Nat)
  deriving DecidableEq, Repr

/-- A core (R18, R141, R151, R179): `kept` is team shared memory that a suspended team's card still writes: start, length, card and contents
(R251); `formed` is 1 more than the clock count at which its bundle formers last ran (R25). The contention predictor of R18 changes
no result (R169) and is no field (log 38). -/
structure Core where
  l1 : List L1Sec
  tlb : List TlbEnt
  icache : List (Nat × List Byte)
  fly : List Flight
  kept : List (Nat × Nat × Nat × SMap Byte)
  formed : Nat
  deriving DecidableEq, Repr

/-- An L2 line's record (R147, R153): line number, contexts, dirty, holder, last requester and its run, and whether its fill has
evicted a line. -/
structure L2Line where
  line : Nat
  fctx : Nat
  dctx : Option Nat
  holder : Option Nat
  req : Nat
  count : Nat
  mig : Bool
  took : Bool
  deriving DecidableEq, Repr

/-- A walk in flight (R151): its context and address, whether it is for a write, a fetch, or an engine. -/
structure Walk where
  ctx : Nat
  va : Nat
  write : Bool
  fetch : Bool
  engine : Bool
  deriving DecidableEq, Repr

/-- A region of a job card (R214): space, base, length. -/
structure Region where
  space : Nat
  base : Nat
  len : Nat
  deriving DecidableEq, Repr

/-- How far a card is (R217-R221, R230): not started, or writing. -/
inductive CardSt where
  /-- held by an edge, a permit, a page, admission or a peer -/
  | waiting
  | running
  deriving DecidableEq, Repr

/-- One place a running card has yet to write (R134, R156): the place, the bytes, and the team whose shared memory it is. -/
structure Landing where
  loc : Loc
  tid : Nat
  bytes : List Byte
  deriving DecidableEq, Repr

/-- A job card and its successor in flight on a die (R214-R231), in order of arrival. It names its issuer's core, team, group, store
number and address, its ticket, its 16 words and descriptor, the successor's, and the teams that receive a box of each. `pres` and
`presNext` are the lines of team shared memory (team + 1, line) and of the pad (0, line) whose counts it still holds. `page` is the
page it waits for, `fail` the cause and address of its failure, `view` the bridle team's layer and held versions that it reads, `node` the graph node that started it (R255), and
`task` the record that waits for it (R251). `early` holds the 32-byte sectors of the pad (1) and of memory (2) that it has read already (R172), and `spans` the physical ranges of the
chain's write regions (R174). -/
structure Card where
  cid : Nat
  ctx : Nat
  core : Nat
  tid : Option Nat
  gi : Nat
  sn : Nat
  pc : Nat
  slot : Nat
  seq : Nat
  words : List Word
  desc : List Byte
  succ : Option (List Word × List Byte)
  mc : List Nat
  mcNext : List Nat
  pres : List (Nat × Nat)
  presNext : List (Nat × Nat)
  st : CardSt
  land : List Landing
  page : Option Nat
  fail : Option (Nat × Nat)
  view : Option (List (Nat × Byte) × List Held)
  node : Option (Nat × Nat)
  task : Option Nat
  since : Nat
  early : List (Nat × Nat × List Byte) := []
  spans : List (Nat × Nat) := []
  deriving DecidableEq, Repr

/-- A launch started by a packet or a graph node (R236-R246, R206): the fields that outlive the packet. `snaps` are the teams' versions at
their LNXT, `synced` whether they have merged, `layer` the layer 1 of teams still to be placed, and `held` the versions that retired teams
left. -/
structure Grid where
  gid : Nat
  ctx : Nat
  queue : Nat
  idx : Nat
  gx : Nat
  gy : Nat
  gz : Nat
  cw : Nat
  ch : Nat
  la : Launch
  start : Nat
  signal : Bool
  bfirst : Nat
  bcount : Nat
  placed : Nat
  retired : Nat
  snaps : List (Nat × List Held)
  synced : Bool
  layer : List (Nat × Byte)
  pred : Option Nat
  graph : Option (Nat × Nat)
  held : List (Nat × List Held)
  since : Nat
  killed : Bool
  deriving DecidableEq, Repr

/-- A started packet of a queue, for DONE in packet order (R238). -/
structure Started where
  idx : Nat
  complete : Bool
  signal : Bool
  deriving DecidableEq, Repr

/-- Where a task record stands (R247, R252). -/
inductive TaskSt where
  | queued
  | ticket
  | running (tid : Nat)
  deriving DecidableEq, Repr

/-- A task record held in the context's pool (R248-R252): its place in the pool, the die of its creator, the die and bin it is queued to, its priority, the
graph node it descends from, its bytes, when it was queued, the START of the packet that it descends from (R240), and the physical ranges that the chain of its
ticket has written, which its team drops when it starts (R251). -/
structure Task where
  id : Nat
  ctx : Nat
  index : Nat
  maker : Nat
  die : Nat
  bin : Nat
  prio : Nat
  graph : Option (Nat × Nat)
  bytes : List Byte
  st : TaskSt
  since : Nat
  start : Nat
  spans : List (Nat × Nat)
  deriving DecidableEq, Repr

/-- An active node of a graph (R255): whether it has begun its work, and the time or task count that it works with. -/
structure GNode where
  node : Nat
  begun : Bool
  due : Nat
  deriving DecidableEq, Repr

/-- A graph on a die's walker (R253-R256); `loc` is the address of its table, `rem` its remaining budget in 1/4,096 core-microseconds, and
`usAt` the microsecond to which it has been charged. -/
structure Graph where
  id : Nat
  ctx : Nat
  queue : Nat
  idx : Nat
  loc : Nat
  table : List Byte
  nodes : Nat
  start : Nat
  budget : Nat
  corecap : Nat
  rem : Int
  active : List GNode
  joins : SMap Nat
  loops : SMap Nat
  failed : Bool
  prio : Nat
  signal : Bool
  usAt : Nat
  deriving DecidableEq, Repr

/-- A move of a power block between pools, and the grid or task that it is made for (R259, R260). -/
structure PoolMove where
  block : Nat
  pool : Nat
  gid : Nat
  deriving DecidableEq, Repr

/-- Power state of a die (12 R258-R270): samples at or below DNTH in a row; the time of each block's last move plus 1; moves in
progress; the state of each HBM channel (0 active, 1 power-down, 2 self-refresh); overdraw of each block, and of the die at 32; the
item that has aged; T3 halt; T2 throttle; since when all sensors are below 98; the power registers in effect, as differences from
their reset values; whether work waited in this interval; when each HBM channel was last used, and the sleeping channels that an access of the device,
the host, a peer or a card has come to (R262). -/
structure Power where
  lowRun : Nat
  lastMove : SMap Nat
  moves : List PoolMove
  hbm : SMap Nat
  overdraw : SMap Nat
  aged : Option (Nat × Nat)
  halted : Bool
  throttled : Bool
  below : Option Nat
  eff : SMap Word
  waited : Bool
  used : SMap Nat
  wanted : List Nat
  deriving DecidableEq, Repr

/-- A compute die (R8-R17; 06 R143-R154; 10 R221; 11 R252-R256; 12; 13 R291-R293): time base and block clocks; L2 lines, forwarding
entries and lost sectors with their contexts; spared sub-banks; L2 TLB and walks; cards; the task bin served, its placements and
since when; graphs; power; whether it is being re-initialised or emptied for that; new map words not yet in force; channels held
for row repair; and the correction of its time still to be made, with the nanoseconds counted towards its next step; the
contexts whose pad stands in their image areas; and the frame and the control interval that its walker and its governor have come to
(R256, R263). -/
structure Die where
  time : Nat
  clk : SMap Nat
  l2 : List L2Line
  fwd : List Nat
  lost : List (Nat × Nat)
  spares : SMap Nat
  l2tlb : List TlbEnt
  walks : List Walk
  cards : List Card
  bin : Nat
  binMade : Nat
  binSince : Nat
  graphs : List Graph
  power : Power
  reinit : Bool
  emptying : Bool
  remap : List (Nat × Nat)
  rowHold : List Nat
  slew : Int
  slewAcc : Nat
  padOut : List Nat
  frameAt : Nat
  ctlAt : Nat
  deriving DecidableEq, Repr

/-- A notice of the trap queue (R279). -/
structure Notice where
  wher : Nat
  nkind : Nat
  code : Nat
  info : Nat
  deriving DecidableEq, Repr

/-- What a context holds beyond its descriptor (R279, R280, R285, R132, R198): latched high words; pages requested and unanswered, those
that a device access waits for, and those of them that the service declined;
notices not yet written; ranges of stack slots that bridle grids reserve (grid, first, count); and the queue last
served. -/
structure Ctx where
  resumeHi : Word
  pgreplyHi : Word
  asked : List Nat
  devAsked : List Nat
  refused : List Nat
  heldNotices : List Notice
  reserved : List (Nat × Nat × Nat)
  lastQueue : Nat
  deriving DecidableEq, Repr

/-- A saved team (R277, R281-R284): its state, its save block's index and address, whether it is halted by a trap or a sibling of such
a team, whether it is to be placed again, and its withdrawn ARED cards (R230). -/
structure Saved where
  team : Team
  block : Nat
  addr : Nat
  trapped : Bool
  sibling : Bool
  waiting : Bool
  ared : List Card
  deriving DecidableEq, Repr

/-- An Enmer port (R300). -/
structure Port where
  up : Bool
  key : Option Nat
  fails : Nat
  deriving DecidableEq, Repr

/-- The lifetime record's counters (R294) as this model keeps them: sequence number, powered time, corrected errors by unit,
events by kind, the log, newest first, and whether its signature holds. -/
structure Lifetime where
  seqn : Nat
  powerNs : Nat
  corr : SMap Nat
  temph : SMap Nat
  droop : SMap Nat
  events : SMap Nat
  linkrt : SMap Nat
  log : List (Nat × Nat)
  good : Bool
  deriving DecidableEq, Repr

/-- A firmware image in a NOR slot (R306, R307): its version, digest, the SHA-256 digest of the key that signed it, and whether the
signature verifies under that key. -/
structure Image where
  version : Nat
  digest : Nat
  key : Nat
  valid : Bool
  deriving DecidableEq, Repr

/-- Boot and trust state (R306-R309); `fused` is the SHA-256 digest of the firmware key in the fuses (R10). -/
structure Trust where
  slotA : Image
  slotB : Image
  running : Nat
  rollback : Nat
  recovery : Bool
  spdm : Nat
  spdmKeys : Nat
  fused : Nat
  deriving DecidableEq, Repr

/-- What moves next (log 4): an event of the table, the issue of one bundle, the head of a store queue, time, the loss of a
cached copy, the early fill of one (log 6), a card's reading of one sector of the pad or of memory (log 8), or a commanded power-down (R295). -/
inductive Move where
  | event (i : Instr)
  | issue (tid gi lane : Nat)
  | drain (tid gi : Nat)
  | elapse (die ns clocks : Nat)
  | evictL1 (core sec : Nat)
  | evictTlb (core : Nat) (ctx vbase : Nat)
  | evictTlb2 (die : Nat) (ctx vbase : Nat)
  | evictCode (core sec : Nat)
  | evictL2 (die line : Nat)
  | fillL1 (tid gi va : Nat)
  | readEarly (die cid sp sec : Nat)
  | powerDown
  deriving DecidableEq, Repr

/-- The issue in progress: team, group, bundle, address and length of the instruction. -/
structure Cur where
  tid : Nat
  gi : Nat
  lanes : Mask
  pc : Nat
  deriving DecidableEq, Repr

/-- The whole part: memory by physical address, the pad by die, slice and offset, the pad's counts (as a team's `shmCnt`), the
registers of BAR 0, contexts, cores, dies, resident and saved teams, grids, started packets by queue, task records; the next identity;
the die and the context last served; the part (R1: 0 P-A, 1 M30-A, 2 M24-A); the site of each logical core, those without one, the sites retired, the rows
repaired by channel, and the links whose spare lane is used; the interrupts sent; Enmer
ports; copies that peers hold (line, package); ATS translations; the last reply to host or management; boot and trust;
the lifetime record's copies and counts, and when it was last written by the clock (R295); warnings sent to the management controller
(R265); the corrected errors of cores in the last second, core and time (R292); ATS invalidations that have arrived and not completed,
PASID and the page of the host's memory that was in use (R297); the context of each queue pair, plus 1 (R304); the cores that are being cleared for a realtime grid's cluster (R244); power; the count of free values drawn; and what moves next. -/
structure State where
  mem : SMap Byte
  pad : SMap Byte
  padCnt : SMap Nat
  bar0 : SMap Word
  ctxs : SMap Ctx
  cores : SMap Core
  dies : List Die
  teams : List Team
  saved : List Saved
  grids : List Grid
  started : SMap (List Started)
  tasks : List Task
  nextId : Nat
  lastDie : Nat
  lastCtx : Nat
  part : Nat
  sites : List Nat
  unavail : List Nat
  badSites : List Nat
  rowFuses : SMap Nat
  laneSpares : List Nat
  irqs : List Nat
  ports : List Port
  readers : List (Nat × Nat)
  ats : List TlbEnt
  reply : List Byte
  trust : Trust
  lifeA : Lifetime
  lifeB : Lifetime
  live : Lifetime
  lifeAt : Nat
  mgmt : List Nat
  coreErrs : List (Nat × Nat)
  atsInv : List (Nat × Nat)
  qps : SMap Nat
  claims : SMap (List Nat)
  powered : Bool
  free : Nat
  agenda : List Move
  cur : Option Cur
  deriving DecidableEq, Repr

/-- Why the machine stops. -/
inductive Fault where
  /-- An instruction is executed with no issue in progress, which no step does. Raised by the shared issue. Safe: the spec has
  no such case. -/
  | noIssuer
  deriving DecidableEq, Repr

/-- Why a step has no meaning. -/
inductive Refusal where
  /-- The arm of an instruction this model has not reached, by its mnemonic. Safe. -/
  | notModelled (mnemonic : String)
  deriving DecidableEq, Repr

/-- A power die at reset. -/
def Power.reset : Power := ⟨0, [], [], [], [], none, false, false, none, [], false, [], []⟩
/-- A die at reset: caches, queues and walks empty, clocks 0 (log 1). -/
def Die.reset : Die := ⟨0, [], [], [], [], [], [], [], [], 0, 0, 0, [], Power.reset, false, false, [], [], 0, 0, [], 0, 0⟩
/-- A core with nothing cached. -/
def Core.empty : Core := ⟨[], [], [], [], [], 0⟩
/-- A context with nothing beyond its descriptor. -/
def Ctx.empty : Ctx := ⟨0, 0, [], [], [], [], [], 127⟩
/-- A lifetime record with every counter 0 (log 1). -/
def Lifetime.zero : Lifetime := ⟨0, 0, [], [], [], [], [], [], true⟩

/-- The machine after reset and boot (R4, R17, R306; logs 1, 2, 10): nothing in memory, every context and queue disabled. -/
def State.reset : State where
  mem := []
  pad := []
  padCnt := []
  bar0 := []
  ctxs := []
  cores := []
  dies := [Die.reset, Die.reset, Die.reset, Die.reset]
  teams := []
  saved := []
  grids := []
  started := []
  tasks := []
  nextId := 0
  lastDie := 3
  lastCtx := 1023
  part := 1
  sites := List.range 480 |>.map (fun c => c / 120 * 128 + c % 120)
  unavail := []
  badSites := []
  rowFuses := []
  laneSpares := []
  irqs := []
  ports := List.replicate 24 ⟨true, none, 0⟩
  readers := []
  ats := []
  reply := []
  trust := ⟨⟨0, 0, 0, true⟩, ⟨0, 0, 0, false⟩, 0, 0, false, 0, 0, 0⟩
  lifeA := Lifetime.zero
  lifeB := Lifetime.zero
  live := Lifetime.zero
  lifeAt := 0
  mgmt := []
  coreErrs := []
  atsInv := []
  qps := []
  claims := []
  powered := true
  free := 0
  agenda := []
  cur := none

end Sys2Proof.Machine
end

