-- ==== Sys2Proof/Machine/Regs.lean ====
section
/-! DEFINITION. Reading and writing registers: every general, uniform, predicate and system register through one operation. -/
namespace Sys2Proof.Machine

/-- Vector register `r` of lane `l`. -/
def Group.rv (g : Group) (l r : Nat) : Word := SMap.get 0 g.v (r * 32 + l)
/-- Write of vector register `r` of lane `l`. -/
def Group.wv (g : Group) (l r : Nat) (x : Word) : Group := { g with v := SMap.set 0 g.v (r * 32 + l) x }
/-- Uniform register `r`; g0 reads 0 (R51). -/
def Group.rg (g : Group) (r : Nat) : Word := if r = 0 then 0 else SMap.get 0 g.g r
/-- Write of uniform register `r`; g0 ignores it (R51). -/
def Group.wg (g : Group) (r : Nat) (x : Word) : Group := if r = 0 then g else { g with g := SMap.set 0 g.g r x }
/-- Predicate `p` of lane `l`; p7 reads true (R51). -/
def Group.rp (g : Group) (l p : Nat) : Bool := if p = 7 then true else (SMap.get 0 g.p p).getLsbD l
/-- A mask with bit `l` set to `b`. -/
def setBit (m : Mask) (l : Nat) (b : Bool) : Mask := if b then m ||| laneBit l else m &&& ~~~ laneBit l
/-- Write of predicate `p` of lane `l`; p7 ignores it (R51). -/
def Group.wp (g : Group) (l p : Nat) (b : Bool) : Group :=
  if p = 7 then g else { g with p := SMap.set 0 g.p p (setBit (SMap.get 0 g.p p) l b) }
/-- A pair of vector registers as 64 bits, the low word in the lower register (R52). -/
def Group.rv64 (g : Group) (l r : Nat) : Nat := (g.rv l r).toNat + 2 ^ 32 * (g.rv l (r + 1)).toNat
/-- A pair of uniform registers as 64 bits (R52). -/
def Group.rg64 (g : Group) (r : Nat) : Nat := (g.rg r).toNat + 2 ^ 32 * (g.rg (r + 1)).toNat
/-- The guard's value in a lane (R74). -/
def Group.guard (g : Group) (l : Nat) (k : Guard) : Bool := xor (g.rp l k.p.toNat) k.neg

/-- Lane `l` of the group. -/
def Group.lane (g : Group) (l : Nat) : Lane := (g.lanes[l]?).getD ⟨0, 0, .exited, 0, none, 0, 0, none, false, none⟩
/-- The group with lane `l` changed. -/
def Group.modLane (g : Group) (l : Nat) (f : Lane → Lane) : Group := { g with lanes := updAt g.lanes l f }
/-- The group with every lane of the mask changed. -/
def Group.modLanes (g : Group) (m : Mask) (f : Lane → Lane) : Group :=
  { g with lanes := (enum g.lanes).map (fun p => if m.has p.1 then f p.2 else p.2) }
/-- The lanes of the group that satisfy `p`. -/
def Group.mask (g : Group) (p : Lane → Bool) : Mask :=
  maskOf (((enum g.lanes).filter (fun q => p q.2)).map Prod.fst)
/-- %live (R23, R33): lanes that have not executed EXIT. -/
def Group.live (g : Group) : Mask := g.mask (fun l => decide (l.st ≠ .exited))
/-- Lanes that may issue (R24). -/
def Group.ready (g : Group) : Mask := g.mask (fun l => decide (l.st = .ready))
/-- Is the lane parked. -/
def LaneSt.isParked : LaneSt → Bool
  | .parked _ => true
  | _ => false
/-- Has the lane arrived at a rendezvous. -/
def LaneSt.isArrived : LaneSt → Bool
  | .arrived _ _ => true
  | _ => false
/-- Does the lane wait at a barrier or PHW. -/
def LaneSt.isBarred : LaneSt → Bool
  | .barred _ _ => true
  | _ => false

/-- One write of a lane. -/
def Wr.apply (l : Nat) (g : Group) : Wr → Group
  | .v k x => g.wv l k x
  | .p k b => g.wp l k b
  | .f x => g.modLane l (fun q => { q with fl := q.fl ||| x })
/-- A lane's writes, in order. -/
def Group.apply (g : Group) (l : Nat) (ws : List Wr) : Group := ws.foldl (Wr.apply l) g

/-- The team with the identity. -/
def State.team? (s : State) (tid : Nat) : Option Team := s.teams.find? (fun t => t.tid == tid)
/-- The state with that team changed. -/
def State.modTeam (s : State) (tid : Nat) (f : Team → Team) : State :=
  { s with teams := s.teams.map (fun t => if t.tid = tid then f t else t) }
/-- The team with group `gi` changed. -/
def Team.modGroup (t : Team) (gi : Nat) (f : Group → Group) : Team := { t with groups := updAt t.groups gi f }
/-- The state with group `gi` of the team changed. -/
def State.modGroup (s : State) (tid gi : Nat) (f : Group → Group) : State := s.modTeam tid (fun t => t.modGroup gi f)
/-- Group `gi` of the team. -/
def State.group? (s : State) (tid gi : Nat) : Option Group :=
  match s.team? tid with
  | some t => t.groups[gi]?
  | none => none

/-- Is the team halted, stopping, or still being restored: its lanes do not wake (R273, R281, R283). -/
def Team.idle (t : Team) : Bool := t.halt.isSome || t.back.isSome

/-- Core `k` (logical index of the package). -/
def State.core (s : State) (k : Nat) : Core := SMap.get Core.empty s.cores k
/-- The state with core `k` changed. -/
def State.modCore (s : State) (k : Nat) (f : Core → Core) : State :=
  { s with cores := SMap.set Core.empty s.cores k (f (s.core k)) }
/-- Die `d`. -/
def State.die (s : State) (d : Nat) : Die := (s.dies[d]?).getD Die.reset
/-- The state with die `d` changed. -/
def State.modDie (s : State) (d : Nat) (f : Die → Die) : State := { s with dies := updAt s.dies d f }
/-- What context `x` holds beyond its descriptor. -/
def State.ctx (s : State) (x : Nat) : Ctx := SMap.get Ctx.empty s.ctxs x
/-- The state with that changed. -/
def State.modCtx (s : State) (x : Nat) (f : Ctx → Ctx) : State :=
  { s with ctxs := SMap.set Ctx.empty s.ctxs x (f (s.ctx x)) }

/-- Bits `[lo + n − 1 : lo]` of a number. -/
def bitsAt (x lo n : Nat) : Nat := x / 2 ^ lo % 2 ^ n
/-- `x` with bits `[lo + n − 1 : lo]` replaced by `v`. -/
def setBits (x lo n v : Nat) : Nat := x - bitsAt x lo n * 2 ^ lo + v % 2 ^ n * 2 ^ lo

/-- Reset mask SHMi of partition 0 (R144): bits 7 + i + 7j up to 51. -/
def shmReset (i : Nat) : Nat := ((List.range 7).map (fun j => if 7 + i + 7 * j ≤ 51 then 2 ^ (7 + i + 7 * j) else 0)).sum
/-- Energy and current of the operating classes at reset (R258): budget, ceiling, default energy, default current. -/
def classReset (c : Nat) : Nat × Nat × Nat × Nat :=
  if c = 0 then (80000, 26000, 6000, 4000) else if c = 1 then (140000, 38000, 9000, 5600)
  else if c = 2 then (165000, 44000, 11000, 6400) else (195000, 50000, 13500, 7300)
/-- Card costs at reset (R269): energy, current. -/
def cardReset (k : Nat) : Nat × Nat :=
  if k ≤ 4 then (2000, 1500) else if k ≤ 6 then (3000, 2500) else if k = 7 then (20000, 8000) else (4000, 3000)
/-- Reset of the power registers of a die of a part (R1, R269), by offset. -/
def powerReset (part o : Nat) : Nat :=
  if o = 0 then (if part = 2 then 3400000 else 4300000) else if o = 4 then (if part = 2 then 800000 else 1000000) else if o = 0xC then 15 * 2 ^ 24 + 40 * 2 ^ 16 + 7 * 2 ^ 8 + 7
  else if 0x20 ≤ o ∧ o < 0x40 then
    let c := classReset ((o - 0x20) / 8); if o % 8 = 4 then c.2.1 else c.1
  else if 0x40 ≤ o ∧ o < 0x60 then
    let c := classReset ((o - 0x40) / 8); if o % 8 = 4 then c.2.2.2 else c.2.2.1
  else if 0x68 ≤ o ∧ o < 0xA8 then
    let c := cardReset ((o - 0x60) / 8); if o % 8 = 4 then c.2 else c.1
  else if 0x100 ≤ o ∧ o < 0x300 ∧ o % 16 = 12 then 1
  else 0
/-- The reset value of the 32-bit register word of a part at a BAR 0 offset (R299 for the layout; R144, R269, R285 for the values). -/
def barReset (part o : Nat) : Nat :=
  if 0x0070_0000 ≤ o ∧ o < 0x0072_0000 then
    if o % 128 = 0x30 then 100 * 2 ^ 20 + 128 else 0
  else if 0x0200_0000 ≤ o ∧ o < 0x0600_0000 then
    let r := o % 0x0100_0000
    if 0x0010_0000 ≤ r ∧ r < 0x0010_0038 then
      let i := (r - 0x0010_0000) / 8
      if r % 8 = 0 then shmReset i % 2 ^ 32 else shmReset i / 2 ^ 32
    else if r = 0x0010_0038 then 2 ^ 14
    else if 0x0050_0000 ≤ r ∧ r < 0x0050_0500 then powerReset part (r - 0x0050_0000)
    else 0
  else 0
/-- A system or queue register word, by BAR 0 offset; the map holds its difference from the reset value. -/
def State.bar (s : State) (o : Nat) : Nat := (SMap.get 0 s.bar0 o ^^^ BitVec.ofNat 32 (barReset s.part o)).toNat
/-- A change of a register word. -/
def State.setBar (s : State) (o v : Nat) : State :=
  { s with bar0 := SMap.set 0 s.bar0 o (BitVec.ofNat 32 v ^^^ BitVec.ofNat 32 (barReset s.part o)) }
/-- A 64-bit register. -/
def State.bar64 (s : State) (o : Nat) : Nat := s.bar o + 2 ^ 32 * s.bar (o + 4)
/-- A change of a 64-bit register. -/
def State.setBar64 (s : State) (o v : Nat) : State := (s.setBar o (v % 2 ^ 32)).setBar (o + 4) (v / 2 ^ 32)
/-- A counter register that saturates (R153, R269). -/
def State.addBar64 (s : State) (o n : Nat) : State := s.setBar64 o (min (s.bar64 o + n) (2 ^ 64 - 1))
/-- A 32-bit counter register that saturates. -/
def State.addBar (s : State) (o n : Nat) : State := s.setBar o (min (s.bar o + n) (2 ^ 32 - 1))

/-- Offset of a register of die `d` (R299). -/
def dieOff (d o : Nat) : Nat := 0x0200_0000 + 0x0100_0000 * d + o
/-- Offset of a field of the descriptor of context `x` (R285). -/
def ctxOff (x o : Nat) : Nat := 0x0070_0000 + 128 * x + o
/-- Offset of a register of queue `q` of context `x` (R234). -/
def queueOff (x q o : Nat) : Nat := 0x0100_0000 + 32 * (128 * x + q) + o
/-- Offset of a task register of context `x` (R247). -/
def taskOff (x o : Nat) : Nat := 0x0030_0000 + 64 * x + o
/-- Offset of a slice partition register (R144). -/
def partOff (d k o : Nat) : Nat := dieOff d (0x0010_0000 + 64 * k + o)
/-- Offset of a power register (R269). -/
def powOff (d o : Nat) : Nat := dieOff d (0x0050_0000 + o)

/-- Is the context enabled, privileged, in checked mode (R285). -/
def State.ctxEn (s : State) (x : Nat) : Bool := bitsAt (s.bar (ctxOff x 0x2C)) 26 1 == 1
def State.ctxPriv (s : State) (x : Nat) : Bool := bitsAt (s.bar (ctxOff x 0x2C)) 27 1 == 1
def State.ctxChk (s : State) (x : Nat) : Bool := bitsAt (s.bar (ctxOff x 0x2C)) 24 1 == 1
def State.ctxPart (s : State) (x : Nat) : Nat := bitsAt (s.bar (ctxOff x 0x2C)) 28 4
def State.ctxPasid (s : State) (x : Nat) : Nat := bitsAt (s.bar (ctxOff x 0x2C)) 0 20

/-- The die of a core (R17). -/
def dieOf (core : Nat) : Nat := core / Config.coresPerDie
/-- The package site of a logical core: 128 × die + node (R11, R17). -/
def State.site (s : State) (core : Nat) : Nat := (s.sites[core]?).getD 0
/-- The power block of a node (R15). -/
def blockOf (node : Nat) : Nat := 8 * (node / 16 / 2) + node % 16 / 2
/-- The pool of a block of a die (R259). -/
def State.pool (s : State) (d b : Nat) : Nat := bitsAt (s.bar (powOff d (0x10C + 16 * b))) 0 2

/-- A free value (log 5): the next one, and the state that has drawn it. -/
def State.draw (s : State) : Word × State := (Config.freeWord s.free, { s with free := s.free + 1 })

/-- The grid with the identity. -/
def State.grid? (s : State) (gid : Nat) : Option Grid := s.grids.find? (fun g => g.gid == gid)
/-- The state with that grid changed. -/
def State.modGrid (s : State) (gid : Nat) (f : Grid → Grid) : State :=
  { s with grids := s.grids.map (fun g => if g.gid = gid then f g else g) }

end Sys2Proof.Machine
end

