-- ==== Sys2Proof/Machine/Rmw.lean ====
section
/-! DEFINITION. What an atomic or reduction computes at its location (R315), and the folding of bridle partials (R205). -/
namespace Sys2Proof.Machine

/-- Access width in bytes (R315). -/
def atomWidth (op : Nat) (t : Ty) : Nat := if op = 11 then 2 else if t = .i64 then 8 else 4

/-- The exact sum of two codes rounded to a format. -/
def addRound (f : Fmt) (md : RMode) (sat : Bool) (a b : Val) : Nat := (f.round md sat (a.add false b).1).1

/-- HADD's rounding of an exact value (R315): `r` are the random bits of SR = 1. -/
def haddRound (t : Ty) (r : Option Nat) (v : Val) : Nat :=
  match fmtOf t, r with
  | some f, none => (f.round .rne false v).1
  | some f, some x => (f.round (.sr x) true v).1
  | none, _ => 0

/-- The value of a 16-bit location of type `t` (R315). -/
def halfVal (t : Ty) (x : Nat) : Val :=
  match fmtOf t with
  | some f => f.val x
  | none => .nan

/-- The new value of the location (R315); `r` are the random bits of HADD with SR = 1. -/
def atomNew (op : Nat) (t : Ty) (r : Option Nat) (old b c : Nat) : Nat :=
  let w := 8 * atomWidth op t
  let m := 2 ^ w
  let lt (x y : Nat) : Bool :=
    match intOf t with
    | some (k, true) => toIntW k true x < toIntW k true y
    | _ => x % m < y % m
  match op with
  | 0 => (old + b) % m
  | 1 => if lt b old then b else old
  | 2 => if lt old b then b else old
  | 3 => Nat.land old b
  | 4 => Nat.lor old b
  | 5 => Nat.xor old b
  | 6 => b
  | 7 => if old = c then b else old
  | 8 => if b ≤ old then 0 else old + 1
  | 9 => if old = 0 ∨ b < old then b else old - 1
  | 10 => addF32 old b
  | 11 => haddRound t r ((halfVal t old).add false (fmtF32.val b)).1
  | 12 => max old b
  | _ => min old b

/-- Identity of a fold; XCHG has none and takes its first operand (R205). -/
def foldId (op : Nat) (t : Ty) : Nat :=
  let w := 8 * atomWidth op t
  match op, intOf t with
  | 1, some (k, true) => 2 ^ (k - 1) - 1
  | 1, _ => 2 ^ w - 1
  | 2, some (k, true) => 2 ^ (k - 1)
  | 2, _ => 0
  | 3, _ => 2 ^ w - 1
  | 10, _ => 0x80000000
  | 11, _ => 0x80000000
  | 13, _ => 0xFFFFFFFF
  | _, _ => 0

/-- The folding of one operand into a partial (R205): HADD folds in F32. -/
def foldStep (op : Nat) (t : Ty) (p b : Nat) : Nat :=
  if op = 11 then addF32 p b else atomNew op t none p b 0

/-- The merge of a partial into the value it stands over (R205). -/
def foldMerge (op : Nat) (t : Ty) (r : Option Nat) (m p : Nat) : Nat :=
  if op = 11 then haddRound t r ((halfVal t m).add false (fmtF32.val p)).1 else atomNew op t none m p 0

end Sys2Proof.Machine
end

