-- ==== Sys2Proof/Machine/Memory.lean ====
section
/-! DEFINITION. Spaces, translation, caches and the path of a write (R130-R174): named operations over memory. -/
namespace Sys2Proof.Machine

/-! ## Places -/

/-- The space of a place: 0 team shared memory, 1 pad, 2 physical memory. -/
def Loc.sp : Loc → Nat
  | .shm _ => 0
  | .pad .. => 1
  | .phys .. => 2
/-- The key of a pad byte: die, slice, offset. -/
def padKey (d sl off : Nat) : Nat := (d * 128 + sl) * 2 ^ 24 + off
/-- The address of a place within its space. -/
def Loc.at : Loc → Nat
  | .shm a => a
  | .pad d sl off => padKey d sl off
  | .phys pa _ _ _ _ => pa
/-- The place `k` bytes on. -/
def Loc.plus (l : Loc) (k : Nat) : Loc :=
  match l with
  | .shm a => .shm (a + k)
  | .pad d sl off => .pad d sl (off + k)
  | .phys pa sh mi mg cp => .phys (pa + k) sh mi mg cp
/-- The sharing domain of an access to the place (R159). -/
def Loc.dom : Loc → Dom
  | .shm _ => .core
  | .pad .. => .die
  | .phys _ sh _ _ _ => sh
/-- Rank of a domain, CORE narrowest (R158). -/
def Dom.rank : Dom → Nat
  | .core => 0 | .die => 1 | .pkg => 2 | .sys => 3
/-- The wider of two domains (R164). -/
def Dom.wider (a b : Dom) : Dom := if a.rank < b.rank then b else a
/-- The domain of code SHR (R149, R158). -/
def Dom.ofCode (n : Nat) : Dom := if n = 0 then .core else if n = 1 then .die else if n = 2 then .pkg else .sys
/-- The number that stands for the address in the draw of a stochastic HADD (R105, R315). -/
def Loc.elem : Loc → Nat
  | .shm a => a / 2
  | .pad _ sl off => (2 ^ 31 + sl * 2 ^ 24 + off) / 2
  | .phys pa _ _ _ _ => pa / 2 % 2 ^ 32
/-- Is the place outside team shared memory and CORE pages, where a team writes held versions in bridle mode (R202). -/
def Loc.shared (l : Loc) : Bool := l.dom ≠ .core

/-- Is the host port open: it is closed in recovery (R306). -/
def State.hostOpen (s : State) : Bool := !s.trust.recovery

/-! ## Physical memory -/

/-- `n` bytes of physical memory at their coherence point. -/
def State.memBytes (s : State) (pa n : Nat) : List Byte := (List.range n).map (fun i => SMap.get 0 s.mem (pa + i))
/-- A little-endian number in physical memory. -/
def State.memNat (s : State) (pa n : Nat) : Nat := leNat (s.memBytes pa n)
/-- Bytes written at their coherence point. -/
def setBytes (m : SMap Byte) (a : Nat) : List Byte → SMap Byte
  | [] => m
  | b :: r => setBytes (SMap.set 0 m a b) (a + 1) r

/-- Home die of a physical address (R139). -/
def homeDie (pa : Nat) : Nat := if pa < 2 ^ 50 then pa / Config.dieHbm % 4 else pa / 2 ^ 11 % 4
/-- Stack of the package and channel of a local HBM address (R9, R139). -/
def hbmChannel (pa : Nat) : Nat × Nat :=
  let d := pa / Config.dieHbm
  let u := (pa - d * Config.dieHbm) / 2 ^ 8
  (3 * d + u % 3, u / 3 % 32)
/-- The 256-byte unit of a local HBM address within its channel (R139). -/
def hbmUnit (pa : Nat) : Nat := pa % Config.dieHbm / 2 ^ 8 / 96
/-- A channel of the package, numbered 32 × stack + channel (R9). -/
def channelOf (pa : Nat) : Nat := 32 * (hbmChannel pa).1 + (hbmChannel pa).2
/-- Partition that owns a granule of a die, and the one that caches regions 0b01 to 0b11 (R145, R146). -/
def State.granPart (s : State) (d g : Nat) : Nat := bitsAt (s.bar (dieOff d (0x0011_0000 + 4 * (g / 8)))) (4 * (g % 8)) 4
def State.xpart (s : State) (d : Nat) : Nat := bitsAt (s.bar (dieOff d 0x0011_0048)) 0 4
/-- Partition that owns a line (R145). -/
def State.linePart (s : State) (pa : Nat) : Nat :=
  if pa < 2 ^ 50 then s.granPart (homeDie pa) (pa % Config.dieHbm / 2 ^ 30) else s.xpart (homeDie pa)
/-- Mirror size of a die in bytes (R140, R146). -/
def State.mirSize (s : State) (d : Nat) : Nat := bitsAt (s.bar (dieOff d 0x0011_004C)) 0 7 * 2 ^ 30
/-- Where the mirror copy of a byte is held (R140). -/
def State.mirrorOf (s : State) (pa : Nat) : Nat :=
  let d := pa / Config.dieHbm
  d * Config.dieHbm + (Config.dieHbm - s.mirSize d) + pa % Config.dieHbm
/-- The channel that holds the mirror copy of a mirrorable address: that of the copy's own address under R139, rotated by 16 (R140). -/
def State.mirrorChannel (s : State) (pa : Nat) : Nat :=
  let c := hbmChannel (s.mirrorOf pa)
  32 * c.1 + (c.2 + 16) % 32

/-- Masks, constant and share of a slice partition (R144). -/
def State.shMask (s : State) (d k i : Nat) : Nat := s.bar64 (partOff d k (8 * i))
def State.shc (s : State) (d k : Nat) : Nat := bitsAt (s.bar (partOff d k 0x38)) 0 7
def State.padStep (s : State) (d k : Nat) : Nat := bitsAt (s.bar (partOff d k 0x38)) 8 3
def State.partEn (s : State) (d k : Nat) : Bool := bitsAt (s.bar (partOff d k 0x38)) 14 1 == 1
/-- The free index bits of a partition, ascending (R137). -/
def State.freeBits (s : State) (d k : Nat) : List Nat := (List.range 7).filter (fun i => decide (s.shMask d k i ≠ 0))
/-- Parity of a number's bits. -/
def parity (n : Nat) : Nat := ((List.range 52).filter (fun i => n.testBit i)).length % 2
/-- The slice that a partition's hash gives a line of a die (R143). -/
def State.sliceIn (s : State) (d k pa : Nat) : Nat :=
  Nat.xor (((List.range 7).map (fun i => parity (Nat.land (pa / 2 ^ 7 * 2 ^ 7) (s.shMask d k i)) * 2 ^ i)).sum) (s.shc d k)
/-- Home slice of a line (R143). -/
def State.homeSlice (s : State) (pa : Nat) : Nat := s.sliceIn (homeDie pa) (s.linePart pa) pa
/-- The home node of a line, 128 × die + slice. -/
def State.homeNode (s : State) (line : Nat) : Nat := 128 * homeDie (line * 128) + s.homeSlice (line * 128)
/-- Does a word of the granule map (or XPART) of a die, at an offset of its memory configuration, move the home of a line (R145). -/
def State.homeMoves (s : State) (d off v line : Nat) : Bool :=
  let pa := line * 128
  homeDie pa == d &&
  (if pa < 2 ^ 50 then
    let g := pa % Config.dieHbm / 2 ^ 30
    off == 4 * (g / 8) && s.sliceIn d (bitsAt v (4 * (g % 8)) 4) pa != s.homeSlice pa
  else off == 0x48 && s.sliceIn d (bitsAt v 0 4) pa != s.homeSlice pa)

/-- Where an address leads. -/
inductive Addr where
  /-- the places of the access, in ascending address, with their bytes -/
  | ok (ps : List (Loc × Nat))
  | park (r : Park)
  | fault (code addr : Nat)
  deriving DecidableEq, Repr

/-- Trap codes (R271). -/
def tILL : Nat := 0x01
def tPRIV : Nat := 0x02
def tALIGN : Nat := 0x03
def tMEMB : Nat := 0x04
def tRDVSPLIT : Nat := 0x05
def tROLE : Nat := 0x06
def tBOUNDS : Nat := 0x07
def tPROT : Nat := 0x08
def tXLAT : Nat := 0x09
def tFPX : Nat := 0x0A
def tPEND : Nat := 0x0B
def tUNIF : Nat := 0x0C
def tDEPTH : Nat := 0x0D
def tCARD : Nat := 0x0E
def tCHAN : Nat := 0x0F
def tBRIDLE : Nat := 0x10
def tDETCONF : Nat := 0x11
def tTRAP : Nat := 0x12
def tBPT : Nat := 0x13
def tMCHK : Nat := 0x14
def tWPIN : Nat := 0x15

/-- A pad address of a partition on a die (R137). -/
def State.padAddr (s : State) (d part a : Nat) : Addr :=
  let share := s.padStep d part * 131072
  let fb := s.freeBits d part
  if a / 2 ^ 31 % 2 = 1 then
    let sl := a / 2 ^ 24 % 128
    let off := a % 2 ^ 24
    if (List.range 7).any (fun i => !fb.contains i && (Nat.testBit sl i != Nat.testBit (s.shc d part) i)) then .fault tPROT a
    else if share ≤ off then .fault tBOUNDS a
    else .ok [(.pad d sl off, 0)]
  else
    let b := fb.length
    let x := a % 2 ^ 31
    if 2 ^ b * share ≤ x then .fault tBOUNDS a
    else
      let ln := x / 2 ^ 7 % 2 ^ b
      let sl := ((List.range 7).map (fun i => match fb.idxOf? i with
        | some k => if ln.testBit k then 2 ^ i else 0
        | none => if (s.shc d part).testBit i then 2 ^ i else 0)).sum
      .ok [(.pad d sl (x / 2 ^ (7 + b) * 128 + x % 128), 0)]

/-! ## Translation (R148-R152) -/

/-- What a walk finds (R150). -/
inductive Walked where
  | ok (e : TlbEnt)
  | absent
  | fail
  deriving DecidableEq, Repr

/-- Does the peer map name the package of a region 0b01 address, other than this one (R459). -/
def State.peerOk (s : State) (pa : Nat) : Bool :=
  let p := pa / 2 ^ 40 % 1024
  let self := s.bar 0x0090_0080
  (s.bar64 (0x0090_0000 + 8 * (p / 64))).testBit (p % 64) && !(bitsAt self 10 1 == 1 && bitsAt self 0 10 == p)

/-- Is the page's physical range one that R138, R140, R146 and R459 accept. -/
def State.paOk (s : State) (pa size : Nat) (mir : Bool) : Bool :=
  let reg := pa / 2 ^ 50
  if reg = 1 then s.peerOk pa && !mir
  else if reg ≠ 0 then !mir
  else
    let d := pa / Config.dieHbm
    let o := pa % Config.dieHbm
    let ms := s.mirSize d
    decide (pa + size ≤ Config.hbmBytes) && decide (o + size ≤ Config.dieHbm - ms) &&
      (!mir || decide (o + size ≤ ms)) && s.partEn d (s.granPart d (o / 2 ^ 30))

/-- One leaf entry as a translation (R149, R150); `size` is its level's page size. With `al` an entry of a 64 KiB page must lie at its
place in a block aligned to 64 KiB. -/
def State.leaf (s : State) (ctx va lv ea e : Nat) (al : Bool) : Walked :=
  let size := 2 ^ (12 + 9 * lv)
  let pfn := bitsAt e 12 40 * 2 ^ 12
  let c := bitsAt e 11 1
  let mir := bitsAt e 7 1 == 1
  if lv ≥ 3 ∨ (c = 1 ∧ lv ≠ 0) ∨ bitsAt e 3 2 = 3 ∨ pfn % size ≠ 0 ∨ (c = 1 ∧ al ∧ pfn % 2 ^ 16 ≠ va % 2 ^ 16 / 2 ^ 12 * 2 ^ 12) then .fail
  else if !s.paOk pfn size mir then .fail
  else .ok ⟨ctx, va / size * size, size, pfn, Dom.ofCode (bitsAt e 9 2),
    bitsAt e 8 1 == 1, mir, bitsAt e 6 1 == 1, bitsAt e 5 1 == 1, bitsAt e 63 1 == 1, bitsAt e 3 2, ea⟩

/-- A level 0 entry as a translation (R149, R150). -/
def State.leaf0 (s : State) (ctx va ea e : Nat) (al : Bool) : Walked :=
  if e % 2 = 0 then .absent
  else if bitsAt e 56 7 ≠ 0 ∨ bitsAt e 52 3 ≠ 0 then .fail
  else if bitsAt e 1 1 = 0 then .fail
  else s.leaf ctx va 0 ea e al
/-- Is the entry one of a 64 KiB page (R148). -/
def blockEntry (e : Nat) : Bool := e % 2 == 1 && bitsAt e 11 1 == 1
/-- Does the `k`-th entry of a 64 KiB block disagree with the first: not the `k`-th page after it, or other attributes; A and D apart (R148). -/
def blockApart (e0 e k : Nat) : Bool :=
  (blockEntry e0 || blockEntry e) && setBits (setBits e 2 1 0) 55 1 0 != setBits (setBits e0 2 1 0) 55 1 0 + k * 2 ^ 12
/-- The whole 64 KiB page of whose block the translation found is the `k`-th part; it names the block's first entry (R148, R151). -/
def Walked.block (k : Nat) : Walked → Walked
  | .ok e => .ok { e with vbase := e.vbase - k * 2 ^ 12, size := 2 ^ 16, pbase := e.pbase - k * 2 ^ 12, pte := e.pte - 8 * k }
  | .absent => .absent
  | .fail => .fail
/-- A translation `k` pages further into the block. -/
def Walked.shift (k : Nat) : Walked → Walked
  | .ok e => .ok { e with vbase := e.vbase + k * 2 ^ 12, pbase := e.pbase + k * 2 ^ 12 }
  | .absent => .absent
  | .fail => .fail

/-- The five-level walk (R148): from level `lv` with the table at `tab`. Where the entries of a 64 KiB block disagree the entry used, its own or the
block's first, is free (log 18); where they agree the page found is the block's 64 KiB. DESIGN CHOICE (log 41): R138 and R140 speak of entries that map, so the address of a table is never refused. -/
def State.walkFrom (s : State) (ctx va : Nat) : Nat → Nat → Walked
  | 0, tab =>
    let k := bitsAt va 12 4
    let ea := tab + 8 * bitsAt va 12 9
    let e := s.memNat ea 8
    let e0 := s.memNat (ea - 8 * k) 8
    if blockApart e0 e k && (Config.freeOf (2 ^ 78 + va / 2 ^ 12 * 1024 + ctx) s.free).getLsbD 0 then
      (s.leaf0 ctx (va - k * 2 ^ 12) (ea - 8 * k) e0 true).shift k
    else if blockEntry e && !blockApart e0 e k then (s.leaf0 ctx va ea e true).block k
    else s.leaf0 ctx va ea e false
  | lv + 1, tab =>
    let ea := tab + 8 * bitsAt va (12 + 9 * (lv + 1)) 9
    let e := s.memNat ea 8
    if e % 2 = 0 then .absent
    else if bitsAt e 56 7 ≠ 0 ∨ bitsAt e 52 3 ≠ 0 then .fail
    else if bitsAt e 1 1 = 1 then s.leaf ctx va (lv + 1) ea e true
    else if e ≠ 1 + bitsAt e 12 40 * 2 ^ 12 then .fail
    else s.walkFrom ctx va lv (bitsAt e 12 40 * 2 ^ 12)

/-- A context's root table: ROOT is aligned to 4 KiB (R285). -/
def State.root (s : State) (ctx : Nat) : Nat := s.bar64 (ctxOff ctx 0) / 2 ^ 12 * 2 ^ 12
/-- The walk of a page of a context (R148). -/
def State.walk (s : State) (ctx va : Nat) : Walked := s.walkFrom ctx (va % 2 ^ 57) 4 (s.root ctx)
/-- The addresses of the entries that a walk reads (R148). -/
def State.entriesFrom (s : State) (va : Nat) : Nat → Nat → List Nat
  | 0, tab => [tab + 8 * bitsAt va 12 9]
  | lv + 1, tab =>
    let ea := tab + 8 * bitsAt va (12 + 9 * (lv + 1)) 9
    let e := s.memNat ea 8
    if bitsAt e 0 2 = 1 then ea :: s.entriesFrom va lv (bitsAt e 12 40 * 2 ^ 12) else [ea]
/-- The entries that the walk of a page of a context reads. -/
def State.entries (s : State) (ctx va : Nat) : List Nat := s.entriesFrom (va % 2 ^ 57) 4 (s.root ctx)

/-- Does the entry translate the address. -/
def TlbEnt.covers (e : TlbEnt) (ctx va : Nat) : Bool := e.ctx == ctx && decide (e.vbase ≤ va) && decide (va < e.vbase + e.size)
/-- The address of the entry that maps an address under a translation: of a 64 KiB page, that of its own 4 KiB part (R148, R149). -/
def TlbEnt.pteAt (e : TlbEnt) (va : Nat) : Nat := if e.size = 2 ^ 16 then e.pte + 8 * ((va % 2 ^ 57 - e.vbase) / 2 ^ 12) else e.pte
/-- The translation a core holds: its own TLB, then its die's (R151). -/
def State.tlb (s : State) (core ctx va : Nat) : Option TlbEnt :=
  match (s.core core).tlb.find? (fun e => e.covers ctx (va % 2 ^ 57)) with
  | some e => some e
  | none => (s.die (dieOf core)).l2tlb.find? (fun e => e.covers ctx (va % 2 ^ 57))
/-- The domain of an access through an entry: the page's SHR, and SYS outside the package's own memory (R159). -/
def TlbEnt.dom (e : TlbEnt) : Dom := if e.pbase < 2 ^ 50 then e.shr else .sys
/-- The place of a virtual address under an entry; MIG counts on DIE and PKG pages alone (R147). -/
def TlbEnt.loc (e : TlbEnt) (va : Nat) : Loc :=
  .phys (e.pbase + (va % 2 ^ 57 - e.vbase)) e.dom e.mir (e.mig && (e.dom == .die || e.dom == .pkg)) e.cp

/-- Is a 64-bit address canonical (R131). -/
def canonical (va : Nat) : Bool := bitsAt va 57 7 == (if bitsAt va 56 1 = 1 then 127 else 0)

/-- The L2 record of a line on its home die (R153). -/
def State.l2Find (s : State) (line : Nat) : Option L2Line := (s.die (homeDie (line * 128))).l2.find? (fun r => r.line == line)

/-- Is a channel asleep or held for a row's repair (R262, R293). -/
def State.channelHeld (s : State) (ch : Nat) : Bool :=
  let d := s.die (ch / 96)
  d.rowHold.contains ch || SMap.get 0 d.power.hbm ch != 0
/-- The ports among which the hash of a line chooses: those that are up (R300). -/
def State.hashPorts (s : State) : List Nat := ((enum s.ports).filter (fun p => p.2.up)).map Prod.fst
/-- The port of every request for a line of a peer (R300): the hash itself is not given, and free. -/
def State.portOf (s : State) (line : Nat) : Option Nat :=
  (s.hashPorts)[(Config.freeOf (2 ^ 79) line).toNat % s.hashPorts.length]?
/-- Can a request for a line of a peer travel: its port has a key (R302). -/
def State.linkOpen (s : State) (line : Nat) : Bool := ((s.portOf line).bind (fun k => s.ports[k]?)).any (fun p => p.key.isSome)
/-- Does an access to the physical address wait: a die or granule or channel that is held, memory in a power state, or a peer with no
port to reach it (R145, R262, R272, R277, R293, R302). -/
def State.memHeld (s : State) (pa : Nat) : Bool :=
  let d := homeDie pa
  let di := s.die d
  di.reinit || di.remap.any (fun r => s.homeMoves d (r.1 - 0x0011_0000) r.2 (pa / 128)) ||
  (if pa < 2 ^ 50 then (s.l2Find (pa / 128)).isNone && s.channelHeld (channelOf pa)
   else pa / 2 ^ 50 == 1 && !s.linkOpen (pa / 128))
/-- Does a write wait: as an access, and for the channel of its mirror copy (R140, R262). -/
def State.writeHeld (s : State) (pa : Nat) (mir : Bool) : Bool := s.memHeld pa || (mir && s.channelHeld (s.mirrorChannel pa))
/-- Does a read wait: as an access, and where it turns to a mirror copy, for that copy's channel (R140, R262, R289). -/
def State.readHeld (s : State) (pa : Nat) (mir : Bool) : Bool :=
  s.memHeld pa || (mir && (s.die (homeDie pa)).lost.any (fun e => e.1 == pa / 32) && s.channelHeld (s.mirrorChannel pa))
/-- Does an access wait: a write, or a read. -/
def State.accHeld (s : State) (pa : Nat) (mir write : Bool) : Bool := if write then s.writeHeld pa mir else s.readHeld pa mir
/-- Does setting an entry's D bit, which is not set yet, wait for the memory that holds it (R149, R262, R302). -/
def State.dHeld (s : State) (pte : Nat) : Bool := (SMap.get 0 s.mem (pte + 6) &&& 0x80) == 0 && s.memHeld pte
/-- The entry of a walk that waits for memory (R262, R272, R293). -/
def State.walkWaits (s : State) (ctx va : Nat) : Option Nat := (s.entries ctx va).find? s.memHeld
/-- Does a walk wait for memory. -/
def State.walkHeld (s : State) (ctx va : Nat) : Bool := (s.walkWaits ctx va).isSome
/-- Does an access to a physical address need an HBM channel: that of its line where the L2 lacks it, and that of the mirror copy which it writes, or
reads for a lost primary (R140, R262). -/
def State.needs (s : State) (ch pa : Nat) (mir write : Bool) : Bool :=
  decide (pa < 2 ^ 50) && (((s.l2Find (pa / 128)).isNone && channelOf pa == ch) ||
    (mir && (write || (s.die (homeDie pa)).lost.any (fun e => e.1 == pa / 32)) && s.mirrorChannel pa == ch))

/-- Does a walk meet an entry whose data is lost (R289). -/
def State.walkLost (s : State) (ctx va : Nat) : Bool :=
  (s.entries ctx va).any (fun a => (s.die (homeDie a)).lost.any (fun e => e.1 == a / 32))

/-- The ATS translation of a host page (R152): entries by context, with the permissions. -/
def State.atsFind (s : State) (ctx io : Nat) : Option TlbEnt := s.ats.find? (fun e => e.covers ctx io)
/-- A place of region 0b10 behind its ATS translation. -/
def TlbEnt.host (e : TlbEnt) : Loc → Loc
  | .phys pa sh mi mg cp => .phys (2 ^ 51 + e.pbase + (pa % 2 ^ 50 - e.vbase)) sh mi mg cp
  | .shm a => .shm a
  | .pad d sl off => .pad d sl off

/-- What a lane holds once the host has refused the translation of an I/O address (R152). -/
def atsMark (io : Nat) : Nat := 2 ^ 52 + io / 2 ^ 12
/-- The outcome of translating one access of a lane (R150, R152): `dec` is the page a declined or failed walk has answered. -/
def State.translate (s : State) (core ctx va : Nat) (write fetch : Bool) (dec : Option Nat) : Addr :=
  if !canonical va then .fault tPROT va
  else
    let vp := va % 2 ^ 57 / 2 ^ 12
    match s.tlb core ctx va with
    | none =>
      if dec = some vp then
        if s.walkLost ctx va then .fault tMCHK va else
        match s.walk ctx va with
        | .ok _ => .park (.walk va write fetch)
        | .absent | .fail => .fault tXLAT va
      else .park (.walk va write fetch)
    | some e =>
      if (!e.u && !s.ctxPriv ctx) || (write && e.ro) || (fetch && e.nx) then .fault tPROT va
      else
        let l := e.loc va
        if l.at / 2 ^ 50 = 2 then
          match s.atsFind ctx (l.at % 2 ^ 50) with
          | none => if dec = some (atsMark (l.at % 2 ^ 50)) then .fault tXLAT va else .park (.ats (l.at % 2 ^ 50 / 2 ^ 12))
          | some a => if (write && a.ro) || (!write && !a.u) then .fault tPROT va
            else if s.memHeld (a.host l).at then .park (.hold (a.host l).at false write)
            else if write && s.dHeld (e.pteAt va) then .park (.hold (e.pteAt va) false true) else .ok [(a.host l, 0)]
        else if s.accHeld l.at e.mir write then .park (.hold l.at e.mir write)
        else if write && s.dHeld (e.pteAt va) then .park (.hold (e.pteAt va) false true)
        else .ok [(l, 0)]

/-- The address spaces of R130. -/
inductive Space where
  | stack | shared | pad | global
  deriving DecidableEq, Repr

/-- The pieces of an access of `n` bytes that starts at the one place found. -/
def Addr.sized (n : Nat) : Addr → Addr
  | .ok ps => .ok (ps.map (fun p => (p.1, n)))
  | .park r => .park r
  | .fault c a => .fault c a

/-- Joins the pieces of the words of a stack access, the first failure first. -/
def Addr.join : Addr → Addr → Addr
  | .ok a, .ok b => .ok (a ++ b)
  | .ok _, .park r => .park r
  | .ok _, .fault c x => .fault c x
  | .park _, .fault c x => .fault c x
  | .park r, .ok _ => .park r
  | .park r, .park _ => .park r
  | .fault c x, _ => .fault c x

/-- Presence of the lines the access touches (R134). -/
def Team.present (t : Team) (a : Nat) : Bool := SMap.get 0 t.shmCnt (a / 128) == 0
def State.padPresent (s : State) (l : Loc) : Bool := SMap.get 0 s.padCnt (l.at / 128) == 0

/-- The virtual address of byte `o` of a lane's stack (R132). -/
def stackVa (la : Launch) (slot lane o : Nat) : Nat := la.sb + slot * 32 * la.k + o / 4 * 128 + 4 * lane + o % 4

/-- The places of an access of `n` bytes at address `a` of a space by lane `lane` of group `g` (R130-R137, R150). A fault names
the virtual address of a stack byte, the space address otherwise (R278). -/
def State.resolve (s : State) (t : Team) (g : Group) (lane : Nat) (sp : Space) (a n : Nat) (write : Bool) : Addr :=
  let dec := (g.lane lane).declined
  if a % n ≠ 0 then .fault tALIGN (if sp = .stack then stackVa t.la g.slot lane a else a)
  else
    match sp with
    | .stack =>
      if t.la.k < a + n then .fault tBOUNDS (stackVa t.la g.slot lane a)
      else
        let one (o w : Nat) : Addr :=
          match s.translate t.pcore t.ctx (stackVa t.la g.slot lane o) write false dec with
          | .ok ps => .ok (ps.map (fun p => (match p.1 with
              | .phys pa _ mi _ cp => .phys pa .core mi false cp
              | l => l, w)))
          | .park r => .park r
          | .fault c x => .fault c x
        if n ≤ 4 then one a n
        else ((List.range (n / 4)).map (fun i => one (a + 4 * i) 4)).foldl Addr.join (.ok [])
    | .shared =>
      if t.la.hdr.shared < a + n then .fault tBOUNDS a
      else if !t.present a then .park (.presence (a / 128))
      else .ok [(.shm a, n)]
    | .pad =>
      match s.padAddr (dieOf t.pcore) (s.ctxPart t.ctx) a with
      | .ok ps => if ps.all (fun p => s.padPresent p.1) then .ok (ps.map (fun p => (p.1, n)))
        else .park (.padLine ((ps.map (fun p => p.1.at / 128)).headD 0))
      | .park r => .park r
      | .fault c x => .fault c x
    | .global => (s.translate t.pcore t.ctx a write false dec).sized n

/-! ## Charging L2 (R153, R154) -/

/-- Offset of a charging counter of context `x` (R154). -/
def l2Off (d x o : Nat) : Nat := dieOff d (0x0020_0000 + 64 * x + o)
/-- The slice that holds a line of a die's L2: its holder, else its home (R143, R147). -/
def State.l2Node (s : State) (r : L2Line) : Nat := r.holder.getD (s.homeNode r.line)
/-- Does an enabled partition of a die name a slice (R144). -/
def State.partSpans (s : State) (d k sl : Nat) : Bool :=
  s.partEn d k && (List.range 7).all (fun i => s.shMask d k i != 0 || (sl.testBit i == (s.shc d k).testBit i))
/-- Lines that a slice's L2 share holds: 16 ways less the pad's two for each step, of 512 sets (R2, R136). DESIGN CHOICE (log 38): R136
does not say which set a line falls in, so that a slice is full only as a whole; and it gives the pad of a partition alone, so that of
several enabled partitions that name one slice the largest pad share stands there. -/
def State.l2Room (s : State) (node : Nat) : Nat :=
  let d := node / 128
  (16 - 2 * (((List.range 16).filter (fun k => s.partSpans d k (node % 128))).map (s.padStep d)).foldl max 0) * 512
/-- The lines that stand in a slice, the latest fill first. -/
def State.l2In (s : State) (node : Nat) : List L2Line := (s.dies.flatMap (·.l2)).filter (fun r => s.l2Node r == node)
/-- A change of a line's record. -/
def State.modLine (s : State) (line : Nat) (f : L2Line → L2Line) : State :=
  s.modDie (homeDie (line * 128)) (fun x => { x with l2 := x.l2.map (fun r => if r.line = line then f r else r) })
/-- An access comes to an HBM channel: one that is asleep is to wake (R262). -/
def Power.wake (ch : Nat) (p : Power) : Power :=
  if SMap.get 0 p.hbm ch = 0 ∨ p.wanted.contains ch then p else { p with wanted := ch :: p.wanted }
/-- An access that waits notes the channels asleep that it needs (R262). -/
def State.want (s : State) (pa : Nat) (mir write : Bool) : State :=
  [channelOf pa, s.mirrorChannel pa].foldl (fun s ch => if s.needs ch pa mir write then s.modDie (ch / 96) (fun x => { x with power := x.power.wake ch }) else s) s
/-- An HBM channel is used now (R262). -/
def State.useCh (s : State) (ch : Nat) : State :=
  s.modDie (ch / 96) (fun x => { x with power := { (x.power.wake ch) with used := SMap.set 0 x.power.used ch x.time } })
/-- An access uses the channel of its line (R262). -/
def State.useChannel (s : State) (pa : Nat) : State := if 2 ^ 50 ≤ pa then s else s.useCh (channelOf pa)
/-- An access reaches a home: where the L2 does not hold the line, it uses its channel (R262). -/
def State.useLine (s : State) (pa : Nat) : State := if (s.l2Find (pa / 128)).isSome then s else s.useChannel pa
/-- A channel of HBM is used by a mirror copy's access (R140, R262). -/
def State.useMirror (s : State) (pa : Nat) : State := s.useCh (s.mirrorChannel pa)
/-- The reads of a walk use their channels (R148, R262). -/
def State.walkUse (s : State) (ctx va : Nat) : State := (s.entries ctx va).foldl State.useLine s
/-- A migrated line is home again (R147). -/
def State.homeL2 (s : State) (line : Nat) : State :=
  (s.modDie (homeDie (line * 128)) (fun x => { x with fwd := x.fwd.filter (fun k => k != line) })).modLine line (fun r => { r with holder := none })
/-- A line leaves the L2 (R153): where it is dirty its channel is written, and the context whose fill evicts it, if a fill does, and the one
that last made it dirty are charged on its home die. -/
def State.loseL2 (s : State) (fill : Option Nat) (y : L2Line) : State :=
  let d := homeDie (y.line * 128)
  let s := s.modDie d (fun x => { x with l2 := x.l2.filter (fun z => z.line != y.line) })
  match y.dctx with
  | none => s
  | some c =>
    let s := s.useChannel (y.line * 128)
    match fill with
    | none => s
    | some f =>
      let s := s.addBar64 (l2Off d c 0x10) 128
      if f = c then s else (s.addBar64 (l2Off d c 0x18) 1).addBar64 (l2Off d f 0x20) 1
/-- The oldest lines of a slice leave it until fewer than `room` stand there, at most `n` steps (R136, R153); whether one was evicted. One that
had migrated returns home, and nothing is charged: its home slice makes room for it first (R147). -/
def State.freeL2 : Nat → Nat → Nat → Option Nat → State → State × Bool
  | 0, _, _, _, s => (s, false)
  | n + 1, node, room, fill, s =>
    let ls := s.l2In node
    if ls.length < room then (s, false)
    else match ls.getLast? with
      | none => (s, false)
      | some y =>
        if y.holder.isSome then
          let home := s.homeNode y.line
          State.freeL2 n node room fill ((State.freeL2 n home (s.l2Room home) none s).1.homeL2 y.line)
        else ((State.freeL2 n node room fill (s.loseL2 fill y)).1, true)
/-- The lines of the L2s of the package. -/
def State.l2Count (s : State) : Nat := (s.dies.map (·.l2.length)).sum
/-- A full slice makes room for a line (R153), for a fill or one that comes; whether a line was evicted. No slice holds fewer than 2,048. -/
def State.roomL2 (s : State) (node : Nat) (fill : Option Nat) : State × Bool :=
  if s.l2Count < 2048 then (s, false) else State.freeL2 (2 * s.l2Count) node (s.l2Room node) fill s
/-- A slice of a die keeps no more lines than its L2 share holds (R136). -/
def State.fitL2 (s : State) (d : Nat) : State :=
  if s.l2Count < 2048 then s
  else (List.range 128).foldl (fun s sl => (State.freeL2 (2 * s.l2Count) (128 * d + sl) (s.l2Room (128 * d + sl) + 1) none s).1) s
/-- A line leaves the slice that holds it (R147, R153): a migrated line returns home, where there is room for it. -/
def State.dropL2 (s : State) (fill : Option Nat) (y : L2Line) : State :=
  if y.holder.isSome then (s.roomL2 (s.homeNode y.line) none).1.homeL2 y.line else s.loseL2 fill y
/-- An L2 request for a line by a context from a node of the package (128 × die + node) (R147, R153). Lines of cache policy 2 are
not allocated (R149). -/
def State.l2Touch (s : State) (ctx node pa : Nat) (mig : Bool) (cp : Nat) (write : Bool) : State :=
  if cp = 2 then s.useChannel pa
  else
    let line := pa / 128
    let d := homeDie pa
    match s.l2Find line with
    | none =>
      let (s, took) := s.roomL2 (s.homeNode line) (some ctx)
      ((s.useChannel pa).modDie d (fun x => { x with l2 := ⟨line, ctx, if write then some ctx else none, none, node, 1, mig, took⟩ :: x.l2 })).addBar64
        (l2Off d ctx 0x00) 128
    | some r =>
      let s' := s.modLine line (fun r => { r with
        dctx := if write then some ctx else r.dctx
        req := node
        count := if r.req = node then r.count + 1 else 1
        mig := mig })
      if r.fctx = ctx then s' else s'.addBar64 (l2Off d ctx 0x08) 1

/-! ## Writes at the coherence point -/

/-- The reservations on a line that a write to it loses (R171): all of them, or those of lanes on one core for a CORE line. DESIGN
CHOICE (log 42): a store to a CORE page on one core keeps the reservations of other cores' lanes, to which R160 promises nothing. -/
def State.loseResv (s : State) (line : Nat) (core? : Option Nat) : State :=
  { s with teams := s.teams.map (fun t =>
      if core?.isSome && core? ≠ some t.pcore then t
      else { t with groups := t.groups.map (fun g =>
        if g.lanes.any (fun l => decide (l.resv.isSome) && decide (l.resv.map Resv.line = some line))
        then { g with lanes := g.lanes.map (fun l => if l.resv.map Resv.line = some line then { l with resv := none } else l) }
        else g) }) }

/-- Does a read set hold any of the bytes (R193). -/
def Bram.reads (sp a n : Nat) (b : Bram) : Bool :=
  b.rset.any (fun e => e.loc.sp == sp && decide (e.loc.at < a + n) && decide (a < e.loc.at + 32))
/-- Does a read set hold a sector of the physical line (R193). -/
def Bram.readsLine (line : Nat) (b : Bram) : Bool := b.reads 2 (line * 128) 128
/-- Does a read set hold a sector of the physical line on a CORE page, which no commit reads again (R194). -/
def Bram.readsCore (line : Nat) (b : Bram) : Bool :=
  b.rset.any (fun e => e.loc.dom == .core && e.loc.sp == 2 && decide (e.loc.at / 128 = line))
/-- Does the loss of a line of the core's L1 roll the group back (R193, trigger 2): once its phase has completed, what is wider than CORE is
read again at its commit instead (R194). -/
def Bram.feels (line : Nat) (b : Bram) : Bool := if b.past then b.readsCore line else b.readsLine line
/-- Mark for rollback the speculating groups whose team, number and buffers satisfy `p`; the end of the step rolls them back (R193). -/
def State.markBram (s : State) (p : Team → Nat → Bram → Bool) : State :=
  { s with teams := s.teams.map (fun t => if (enum t.groups).any (fun q => q.2.bram.any (p t q.1))
      then { t with groups := (enum t.groups).map (fun q => { q.2 with bram := q.2.bram.map (fun b => if p t q.1 b then { b with hit := true } else b) }) }
      else t) }
/-- Has a group of the team a live lane that is not counted in the open phase of a barrier (R193): it is late there. -/
def Team.late (t : Team) (gi b : Nat) : Bool :=
  match t.groups[gi]?, t.bars[b]? with
  | some g, some r => g.live &&& ~~~ BitVec.ofNat 32 (r.mask / 2 ^ (32 * gi)) != 0
  | _, _ => false
/-- Trigger 1 of R193: a group of the team that is late, or a card of its, has performed a write of the bytes. -/
def State.trigger1 (s : State) (tid gi sp a n : Nat) : State := s.markBram (fun t _ b => t.tid == tid && t.late gi b.bar && b.reads sp a n)
/-- Trigger 2 of R193: a line of a core's L1 that holds a sector of a read set is updated by an agent other than the speculating group:
here by group `own` of a team. -/
def State.trigger2 (s : State) (core line : Nat) (own : Nat × Nat) : State :=
  s.markBram (fun t gi b => t.pcore == core && (t.tid, gi) != own && b.readsLine line)

/-- The 32-byte sectors that lie whole in a range. -/
def wholeSectors (pa n : Nat) : List Nat := (List.range (n / 32 + 1)).filterMap (fun i =>
  let q := (pa + 31) / 32 + i
  if 32 * q + 32 ≤ pa + n then some q else none)
/-- Sectors that a write replaces whole are lost no more (R291). -/
def State.unlose (s : State) (secs : List Nat) : State :=
  if s.dies.any (fun d => d.lost.any (fun p => secs.contains p.1)) then
    { s with dies := s.dies.map (fun d => { d with lost := d.lost.filter (fun p => !secs.contains p.1) }) }
  else s
/-- Peers' read copies of a line are invalidated (R301). -/
def State.dropReaders (s : State) (line : Nat) : State :=
  if s.readers = [] then s else { s with readers := s.readers.filter (fun p => p.1 != line) }
/-- Bytes put at their home: memory, the mirror copy (R140), lost sectors they replace whole (R291); peers' read copies are invalidated
(R301), and the channels are used (R262). DESIGN CHOICE (log 35): one write of all 32 bytes replaces a sector whole, several writes that cover it
together do not, save the write-back of a sector that is all dirty. -/
def State.putPhys (s : State) (pa : Nat) (mir : Bool) (bs : List Byte) : State :=
  let m := setBytes s.mem pa bs
  let s' := ({ s with mem := if mir then setBytes m (s.mirrorOf pa) bs else m }.unlose (wholeSectors pa bs.length)).dropReaders (pa / 128)
  (if mir then s'.useMirror pa else s').useLine pa
/-- A write of bytes performed at its home, which loses the reservations on its line (R171). -/
def State.landPhys (s : State) (pa : Nat) (mir : Bool) (bs : List Byte) : State :=
  (s.putPhys pa mir bs).loseResv (pa / 128) none

/-- A write of bytes performed at its place outside team shared memory and CORE lines. -/
def State.land (s : State) (l : Loc) (bs : List Byte) : State :=
  match l with
  | .shm _ => s
  | .pad .. => { s with pad := setBytes s.pad l.at bs }
  | .phys pa _ mir _ _ => s.landPhys pa mir bs

/-! ## L1 (R141, R142) -/

/-- The distinct lines of a list of sectors. -/
def l1Lines (l : List L1Sec) : List Nat := (l.map (fun x => x.sec / 4)).eraseDups
/-- The core's copy of a sector. -/
def Core.find (c : Core) (sec : Nat) : Option L1Sec := c.l1.find? (fun x => x.sec == sec)
/-- Write back the dirty bytes of a sector; no reservation is lost by it (R171). DESIGN CHOICE (log 42): bytes that the team has not
written are not written back, so that an inbound write to them stands (R177). -/
def State.writeBack (k : Nat) (s : State) (x : L1Sec) : State :=
  if x.dirty = 0 then s
  else
    let s := s.l2Touch x.ctx (s.site k) (x.sec * 32) false 0 true
    let s := (lanesOf x.dirty).foldl (fun s i => s.putPhys (x.sec * 32 + i) x.mir ((x.bytes[i]?).toList)) s
    if x.dirty = 0xFFFFFFFF then s.unlose [x.sec] else s
/-- Does the write-back of a sector wait for its memory, or for a port to its peer (R262, R272, R293, R302): such a sector stays in the L1. -/
def State.secStuck (s : State) (x : L1Sec) : Bool := x.dirty != 0 && s.writeHeld (x.sec * 32) x.mir
/-- A sector of those that satisfy `p` whose write-back waits. -/
def State.stuckIn (s : State) (k : Nat) (p : L1Sec → Bool) : Option L1Sec := (s.core k).l1.find? (fun x => p x && s.secStuck x)
/-- A write-back that waits notes the channels asleep that it needs (R262). -/
def State.wantSec (s : State) (x : L1Sec) : State := s.want (x.sec * 32) x.mir true
/-- The write-backs of the sectors that satisfy `p` note the channels that they wait for. -/
def State.wantIn (s : State) (k : Nat) (p : L1Sec → Bool) : State :=
  ((s.core k).l1.filter (fun x => p x && s.secStuck x)).foldl State.wantSec s
/-- Drop the sectors that satisfy `p` from a core's L1, writing back what is dirty. -/
def State.dropL1 (s : State) (k : Nat) (p : L1Sec → Bool) : State :=
  let q (x : L1Sec) : Bool := p x && !s.secStuck x
  let s' := ((s.core k).l1.filter q).foldl (State.writeBack k) s
  s'.modCore k (fun c => { c with l1 := c.l1.filter (fun x => !q x) })
/-- Lines of a core's L1 that hold a sector of those that satisfy `p` are invalidated by an agent: trigger 2 of R193. -/
def State.loseL1 (s : State) (k : Nat) (p : L1Sec → Bool) : State :=
  let ls := l1Lines ((s.core k).l1.filter p)
  if ls = [] then s
  else (s.dropL1 k p).markBram (fun t _ b => t.pcore == k && ls.any (fun n => b.feels n))
/-- Write back the sectors that satisfy `p`; they stay, clean (R168, FENCE.X). -/
def State.cleanL1 (s : State) (k : Nat) (p : L1Sec → Bool) : State :=
  let q (x : L1Sec) : Bool := p x && !s.secStuck x
  let s' := ((s.core k).l1.filter q).foldl (State.writeBack k) s
  s'.modCore k (fun c => { c with l1 := c.l1.map (fun x => if q x then { x with dirty := 0 } else x) })
/-- The lines that keep protects: at most a quarter of the L1 (R142). -/
def keptLines (l : List L1Sec) : List Nat := l1Lines (l.filter (·.keep))
/-- Does an access with a hint protect its line: keep, while the quarter has room (R142). -/
def keeps (l : List L1Sec) (ch sec : Nat) : Bool :=
  ch == 2 && ((keptLines l).contains (sec / 4) || decide ((keptLines l).length < 256))
/-- The line to evict when more than 1,024 are held: the least recent but the one just allocated, and none of `held`, whose write-back waits; a
line without keep evicts none that is protected (R142). -/
def l1Victim (l : List L1Sec) (keep : Bool) (line : Nat) (held : List Nat) : Option Nat :=
  if (l1Lines l).length ≤ 1024 then none
  else
    let prot := if keep then [] else keptLines l
    ((l1Lines l).reverse).find? (fun n => n != line && !prot.contains n && !held.contains n)
/-- Evict what no longer fits, for a line just allocated with or without keep (R142). DESIGN CHOICE (log 38): a line whose write-back waits is passed
over, and an L1 all of whose lines wait holds the new one besides. -/
def State.trimL1 (s : State) (k : Nat) (keep : Bool) (line : Nat) : State :=
  let l := (s.core k).l1
  if (l1Lines l).length ≤ 1024 then s
  else match l1Victim l keep line (l1Lines (l.filter s.secStuck)) with
    | none => s.wantIn k (fun _ => true)
    | some n => s.dropL1 k (fun x => x.sec / 4 == n)
/-- Allocate a sector under a cache hint (R142). -/
def State.allocL1 (s : State) (k : Nat) (x : L1Sec) (ch : Nat) : State :=
  if ch = 3 then s
  else
    let x := { x with keep := keeps (s.core k).l1 ch x.sec }
    (s.modCore k (fun c => { c with l1 := if ch = 1 then c.l1 ++ [x] else x :: c.l1 })).trimL1 k x.keep (x.sec / 4)
/-- A load or prefetch of a sector that the core holds (R142): normal and keep make it the most recent, and keep protects it. -/
def State.hitL1 (s : State) (k : Nat) (x : L1Sec) (ch : Nat) : State :=
  if ch = 1 ∨ ch = 3 then s
  else s.modCore k (fun c => { c with l1 := { x with keep := x.keep || keeps c.l1 ch x.sec } :: c.l1.filter (fun y => y.sec != x.sec) })

/-- Bytes laid over a sector's bytes from offset `o`. -/
def overAt (base : List Byte) (o : Nat) (bs : List Byte) : List Byte :=
  (enum base).map (fun p => if o ≤ p.1 ∧ p.1 < o + bs.length then (bs[p.1 - o]?).getD p.2 else p.2)

/-- Update a sector the core holds, for a group's write; an absent one is not allocated (R141). -/
def State.updL1 (s : State) (own : Nat × Nat) (k pa : Nat) (bs : List Byte) : State :=
  let s := if (s.core k).l1.any (fun x => x.sec / 4 == pa / 128) then s.trigger2 k (pa / 128) own else s
  if ((s.core k).find (pa / 32)).isSome then
    s.modCore k (fun c => { c with l1 := c.l1.map (fun x =>
      if x.sec = pa / 32 then { x with bytes := overAt x.bytes (pa % 32) bs } else x) })
  else s

/-! ## Reading -/

/-- One byte of a list of writes laid over a byte of a space, in order. -/
def overByte (sp a : Nat) (b : Byte) (l : Loc) (bs : List Byte) : Byte :=
  if l.sp = sp ∧ l.at ≤ a ∧ a < l.at + bs.length then (bs[a - l.at]?).getD b else b

/-- A byte of a space at its coherence point: a team's shared memory, the pad or physical memory. -/
def State.homeByte (s : State) (t : Team) (sp a : Nat) : Byte :=
  if sp = 0 then SMap.get 0 t.shm a else if sp = 1 then SMap.get 0 s.pad a else SMap.get 0 s.mem a

/-- A byte as the groups of a core see it: its L1 copy, or the home byte under the core's writes in flight (R161). -/
def State.coreByte (s : State) (t : Team) (k : Nat) (l : Loc) (a : Nat) : Byte :=
  let home := (s.core k).fly.foldl (fun b w => overByte l.sp a b w.loc w.bytes) (s.homeByte t l.sp a)
  match l with
  | .phys _ _ _ _ cp =>
    if cp = 0 then
      match (s.core k).find (a / 32) with
      | some x => (x.bytes[a % 32]?).getD home
      | none => home
    else home
  | .shm _ => home
  | .pad .. => home

/-- A byte as one group sees it: its own stores still queued on top (R157, R161). -/
def State.groupByte (s : State) (t : Team) (g : Group) (l : Loc) (a : Nat) : Byte :=
  g.sq.foldl (fun b e => match e.act with
    | .store w bs _ => overByte l.sp a b w bs
    | _ => b) (s.coreByte t t.pcore l a)

/-- Apply one held version or partial to a byte function (R204, R205). -/
def Held.over (sp : Nat) (f : Nat → Byte) : Held → Nat → Byte
  | .bytes x, a => if x.loc.sp = sp ∧ x.loc.at ≤ a ∧ a < x.loc.at + 32 ∧ x.mask.has (a - x.loc.at)
      then (x.bytes[a - x.loc.at]?).getD (f a) else f a
  | .part p, a => if p.loc.sp = sp ∧ p.loc.at ≤ a ∧ a < p.loc.at + p.width then
      let old := leNat ((List.range p.width).map (fun i => f (p.loc.at + i)))
      let r := p.sr.map (fun q => srBits q.1 p.loc.elem q.2)
      ((leBytes p.width (foldMerge p.op p.ty r old p.val))[a - p.loc.at]?).getD (f a)
    else f a

/-- Layer 1 of a bridle team's view (R204, R206): memory, but for bytes that a merge has written since. -/
def State.layer (s : State) (t : Team) (sp a : Nat) : Byte :=
  match (t.layer1 ++ t.own).find? (fun p => p.1 == a * 2 + (sp - 1)) with
  | some p => p.2
  | none => s.homeByte t sp a

/-- A team's view (R204): layer 1, then its held versions and partials in order. -/
def State.teamView (s : State) (t : Team) (sp : Nat) : Nat → Byte :=
  (t.merged ++ t.held).foldl (fun f h => h.over sp f) (s.layer t sp)

/-- Sectors with byte masks laid over a byte. -/
def overSectors (sp a : Nat) (b : Byte) (l : List Sector) : Byte :=
  l.foldl (fun b x => if x.loc.sp = sp ∧ x.loc.at ≤ a ∧ a < x.loc.at + 32 ∧ x.mask.has (a - x.loc.at)
    then (x.bytes[a - x.loc.at]?).getD b else b) b

/-- Is the access one that bridle mode keeps apart (R202). -/
def bridled (t : Team) (l : Loc) : Bool := t.la.bridle && l.shared

/-- The byte an access reads (R161, R191, R202). -/
def State.readByte (s : State) (t : Team) (g : Group) (l : Loc) (a : Nat) : Byte :=
  let b := if bridled t l then overSectors l.sp a (overSectors l.sp a (s.teamView t l.sp a) g.unc) g.sad
    else s.groupByte t g l a
  match g.bram with
  | some br => overSectors l.sp a b br.sad
  | none => b

/-- The bytes of one piece. -/
def State.readLoc (s : State) (t : Team) (g : Group) (l : Loc) (n : Nat) : List Byte :=
  (List.range n).map (fun i => s.readByte t g l (l.at + i))

/-- The bytes of an access. -/
def State.readPieces (s : State) (t : Team) (g : Group) (ps : List (Loc × Nat)) : List Byte :=
  ps.flatMap (fun p => s.readLoc t g p.1 p.2)

/-- The place of the 32-byte sector that holds a place. -/
def Loc.sector (l : Loc) : Loc :=
  match l with
  | .shm a => .shm (a / 32 * 32)
  | .pad d sl off => .pad d sl (off / 32 * 32)
  | .phys pa sh mi mg cp => .phys (pa / 32 * 32) sh mi mg cp

/-- Does a saddlebag cover all the bytes. -/
def covered (sad : List Sector) (l : Loc) (n : Nat) : Bool :=
  (List.range n).all (fun i => sad.any (fun x => x.loc.sp == l.sp && decide (x.loc.at = l.sector.at) && x.mask.has (l.at + i - x.loc.at)))

/-- The read set with the sector of a speculative load that takes a byte from memory (R191). -/
def Bram.record (b : Bram) (l : Loc) (n : Nat) (sec : List Byte) : Bram :=
  if covered b.sad l n then b
  else if b.rset.any (fun x => x.loc.sp == l.sp && decide (x.loc.at = l.sector.at)) then b
  else { b with rset := b.rset ++ [⟨l.sector, sec, 0xFFFFFFFF⟩] }

/-- What reading one place does besides returning its bytes: the L1 copy and the L2 charge of a miss (R141, R153), the readers of
writes in flight (R166), the read set (R191) and the watermark (R168). -/
def State.touchRead (s : State) (tid gi : Nat) (l : Loc) (n ch : Nat) : State :=
  match s.team? tid with
  | none => s
  | some t =>
    match t.groups[gi]? with
    | none => s
    | some g =>
      let sec := l.sector
      let fresh := (List.range 32).map (fun i => s.coreByte t t.pcore sec (sec.at + i))
      let s := match g.bram with
        | none => s
        | some b =>
          let seen := (List.range 32).map (fun i => s.groupByte t g sec (sec.at + i))
          s.modGroup tid gi (fun g => { g with bram := some { (b.record l n seen) with wm := b.wm.wider l.dom } })
      let s := s.modGroup tid gi (fun g => { g with wm := g.wm.wider l.dom })
      if bridled t l then
        match l with
        | .phys pa _ _ mg cp => s.l2Touch t.ctx (s.site t.pcore) pa mg cp false
        | .shm _ => s
        | .pad .. => s
      else
        let s := if l.sp != 0 && (s.core t.pcore).fly.any (fun w => w.loc.sp == l.sp && decide (w.loc.at / 32 = l.at / 32)) then
            s.modCore t.pcore (fun c => { c with fly := c.fly.map (fun w =>
              if w.loc.sp = l.sp ∧ w.loc.at / 32 = l.at / 32 ∧ !w.readers.contains (tid, gi)
              then { w with readers := (tid, gi) :: w.readers } else w) })
          else s
        match l with
        | .phys pa sh mi mg cp =>
          if cp = 0 then
            match (s.core t.pcore).find (pa / 32) with
            | some x => s.hitL1 t.pcore x ch
            | none => (s.l2Touch t.ctx (s.site t.pcore) pa mg cp false).allocL1 t.pcore ⟨pa / 32, sh, t.ctx, fresh, 0, false, mi⟩ ch
          else s.l2Touch t.ctx (s.site t.pcore) pa mg cp false
        | .shm _ => s
        | .pad .. => s

/-- All the pieces of a read. -/
def State.touchPieces (s : State) (tid gi : Nat) (ps : List (Loc × Nat)) (ch : Nat) : State :=
  ps.foldl (fun s p => s.touchRead tid gi p.1 p.2 ch) s

/-! ## Lost data (R289, R291) -/

/-- Does an access touch a sector held lost whose page has no mirror copy (R289, R291). -/
def State.lostIn (s : State) (ps : List (Loc × Nat)) : Bool :=
  ps.any (fun p => match p.1 with
    | .phys pa _ mir _ _ => !mir && (s.die (homeDie pa)).lost.any (fun e => e.1 == pa / 32)
    | .shm _ => false
    | .pad .. => false)
/-- A read of a lost sector of a mirrored page rewrites it from the mirror copy (R289). -/
def State.fromMirror (s : State) (ps : List (Loc × Nat)) : State :=
  ps.foldl (fun s p => match p.1 with
    | .phys pa _ true _ _ =>
      if (s.die (homeDie pa)).lost.any (fun e => e.1 == pa / 32) then
        let b := pa / 32 * 32
        (({ s with mem := setBytes s.mem b (s.memBytes (s.mirrorOf b) 32) }).modDie (homeDie pa)
          (fun d => { d with lost := d.lost.filter (fun e => e.1 != pa / 32) })).useMirror pa
      else s
    | _ => s) s

/-! ## Writing -/

/-- The first store through an entry sets its D bit, and a walk its A bit, at SYS (R149). -/
def State.setD (s : State) (pte : Nat) : State :=
  let s' : State := { s with mem := SMap.set 0 s.mem (pte + 6) (SMap.get 0 s.mem (pte + 6) ||| 0x80) }
  if (SMap.get 0 s.mem (pte + 6) &&& 0x80) = 0 then s'.useLine pte else s'
def State.setA (s : State) (pte : Nat) : State :=
  { s with mem := SMap.set 0 s.mem pte (SMap.get 0 s.mem pte ||| 0x04) }
/-- Set D for a write to a virtual address: at once, or at the commit of a group that speculates (R149, R194). -/
def State.markDirty (s : State) (core ctx va tid gi : Nat) : State :=
  match s.tlb core ctx va with
  | some e =>
    if ((s.group? tid gi).bind (·.bram)).isSome then
      s.modGroup tid gi (fun g => { g with bram := g.bram.map (fun b => { b with ptes := b.ptes.filter (· != e.pteAt va) ++ [e.pteAt va] }) })
    else s.setD (e.pteAt va)
  | none => s

/-- A sector list with bytes merged in; a new sector goes last (R191). -/
def mergeSector (l : List Sector) (p : Loc) (bs : List Byte) : List Sector :=
  let o := p.at - p.sector.at
  let m : Mask := maskOf ((List.range bs.length).map (fun i => o + i))
  if l.any (fun x => x.loc.sp == p.sp && decide (x.loc.at = p.sector.at)) then
    l.map (fun x => if x.loc.sp = p.sp ∧ x.loc.at = p.sector.at
      then { x with bytes := overAt x.bytes o bs, mask := x.mask ||| m } else x)
  else l ++ [⟨p.sector, overAt (List.replicate 32 0) o bs, m⟩]

/-- A store performed within the core (R141, R161): team shared memory at once, a cached CORE page in L1, everything else sent
towards its coherence point with the core's copy updated. The hint `ch` places a CORE sector (R142, R420): stream leaves a sector that the core holds
where it is and allocates another least recent, and keep protects it. DESIGN CHOICE (log 38): no-allocate, which R142 words for a fill, acts as
normal, since the store of a CORE page stands in the L1 alone (R141). -/
def State.perform (s : State) (tid gi sn : Nat) (l : Loc) (bs : List Byte) (ch : Nat := 0) : State :=
  match s.team? tid with
  | none => s
  | some t =>
    let s := s.trigger1 tid gi l.sp l.at bs.length
    match l with
    | .shm a => s.modTeam tid (fun t => { t with shm := setBytes t.shm a bs })
    | .pad .. => s.modCore t.pcore (fun c => { c with fly := c.fly ++ [⟨l, bs, tid, gi, sn, []⟩] })
    | .phys pa sh mi mg cp =>
      if sh = .core ∧ cp = 0 then
        let sec := pa / 32
        let old := (List.range 32).map (fun i => s.coreByte t t.pcore l (sec * 32 + i))
        let m : Mask := maskOf ((List.range bs.length).map (fun i => pa % 32 + i))
        let d := ((s.core t.pcore).find sec).map (·.dirty) |>.getD 0
        let held := ((s.core t.pcore).find sec).isSome
        let kp := ((s.core t.pcore).find sec).any (·.keep) || keeps (s.core t.pcore).l1 ch sec
        let s := if held then s else s.l2Touch t.ctx (s.site t.pcore) pa mg cp false
        let x : L1Sec := ⟨sec, .core, t.ctx, overAt old (pa % 32) bs, d ||| m, kp, mi⟩
        let s := s.modCore t.pcore (fun c => { c with
          l1 := if ch = 1 then (if held then c.l1.map (fun y => if y.sec = sec then x else y) else c.l1 ++ [x])
            else x :: c.l1.filter (fun y => y.sec != sec) })
        ((s.trigger2 t.pcore (pa / 128) (tid, gi)).trimL1 t.pcore kp (pa / 128)).loseResv (pa / 128) (some t.pcore)
      else
        let s := s.l2Touch t.ctx (s.site t.pcore) pa mg cp true
        (s.modCore t.pcore (fun c => { c with fly := c.fly ++ [⟨l, bs, tid, gi, sn, []⟩] })).updL1 (tid, gi) t.pcore pa bs

/-- Has the group an atomic or STC in its queue, and one whose result is still to come. -/
def Group.owesRmw (g : Group) : Bool := g.sq.any (fun e => match e.act with
  | .rmw _ => true
  | _ => false)
def Group.owesResult (g : Group) : Bool := g.sq.any (fun e => match e.act with
  | .rmw ks => ks.any (·.reg.isSome)
  | _ => false)
/-- Has a lane an STC in its group's queue: a store after it finds the reservation spent (R166, R170). -/
def Group.owesStc (g : Group) (l : Nat) : Bool :=
  g.sq.any (fun e => match e.act with
    | .rmw ks => ks.any (fun k => k.lane == l && k.op == 16)
    | _ => false)
/-- A lane's own store loses its reservation on the line (R171). -/
def loseOwn (l : Loc) (ln : Lane) : Lane :=
  match l with
  | .phys pa _ _ _ _ => if ln.resv.map Resv.line = some (pa / 128) then { ln with resv := none } else ln
  | .shm _ => ln
  | .pad .. => ln

/-- A store of a lane at its issue: to the saddlebag while speculating (R191); in bridle mode to the core in turn order or to the
saddlebag and then a held version (R202); otherwise into the group's store queue (R161). A store to another package or the host
is irrevocable (R290). -/
def State.store (s : State) (tid gi lane : Nat) (rel : Bool) (l : Loc) (bs : List Byte) (ch : Nat := 0) : State :=
  match s.team? tid with
  | none => s
  | some t =>
    let s := s.modGroup tid gi (fun g => { (if g.owesStc lane || g.bram.isSome then g else g.modLane lane (loseOwn l)) with wm := g.wm.wider l.dom })
    let s := if l.sp = 2 && decide (2 ^ 50 ≤ l.at) then s.modTeam tid (fun t => { t with irrev := true }) else s
    match (t.groups[gi]?).bind (·.bram) with
    | some _ => s.modGroup tid gi (fun g => { g with bram := g.bram.map (fun b => { b with sad := mergeSector b.sad l bs, wm := b.wm.wider l.dom }) })
    | none =>
      if t.la.bridle then
        if bridled t l then
          s.modGroup tid gi (fun g =>
            let sad := mergeSector g.sad l bs
            if sad.length ≤ 64 then { g with sad := sad } else { g with unc := mergeSector g.unc l bs })
        else s.perform tid gi 0 l bs ch
      else s.modGroup tid gi (fun g => { g with sq := g.sq ++ [⟨rel, g.sn, .store l bs ch⟩], sn := g.sn + 1 })

/-- The stores of the pieces of one access, the bytes in ascending address. -/
def State.storePieces (s : State) (tid gi lane : Nat) (rel : Bool) (ps : List (Loc × Nat)) (bs : List Byte) (ch : Nat := 0) : State :=
  match ps with
  | [] => s
  | p :: r => State.storePieces (s.store tid gi lane rel p.1 (bs.take p.2) ch) tid gi lane rel r (bs.drop p.2) ch

/-- Does a store wait for its memory at its turn (R262, R272, R293): a CORE page's for a sector that the core lacks, another's as a write. -/
def State.storeHeld (s : State) (core : Nat) (l : Loc) : Bool :=
  match l with
  | .phys pa sh mi _ cp => if sh = .core ∧ cp = 0 then ((s.core core).find (pa / 32)).isNone && s.readHeld pa mi else s.writeHeld pa mi
  | .shm _ => false
  | .pad .. => false
/-- May a write in flight land: none of the same core to its line stands before it (R157). -/
def flyFree (fly : List Flight) (k : Nat) : Bool :=
  match fly[k]? with
  | none => false
  | some w => (fly.take k).all (fun x => !(x.loc.sp == w.loc.sp && decide (x.loc.at / 128 = w.loc.at / 128)))

/-- The coherence point acknowledges a core's k-th write in flight (R166). -/
def State.ack (s : State) (core k : Nat) : State :=
  match (s.core core).fly[k]? with
  | none => s
  | some w => (s.modCore core (fun c => { c with fly := c.fly.eraseIdx k })).land w.loc w.bytes

/-- Land the core's writes in flight to a line, in order: they come before an atomic to it (R157, R169). -/
def State.landLine (s : State) (core : Nat) (l : Loc) : State :=
  let p (w : Flight) : Bool := w.loc.sp == l.sp && decide (w.loc.at / 128 = l.at / 128)
  let ws := (s.core core).fly.filter p
  if ws = [] then s
  else ws.foldl (fun s w => s.land w.loc w.bytes) (s.modCore core (fun c => { c with fly := c.fly.filter (fun w => !p w) }))

/-- Has the group a write in flight, or one it has read (R166). -/
def State.unacked (s : State) (tid gi : Nat) : Bool :=
  match s.team? tid with
  | none => false
  | some t => (s.core t.pcore).fly.any (fun w => (decide (w.tid = tid) && decide (w.gi = gi)) || w.readers.contains (tid, gi))

/-- The bytes of a place at its coherence point, for an atomic, LDR or STC of a core (R169, R170). -/
def State.pointBytes (s : State) (t : Team) (l : Loc) (n : Nat) : List Byte :=
  (List.range n).map (fun i => match l with
    | .phys _ sh _ _ cp => if sh = .core ∧ cp = 0 then s.coreByte t t.pcore l (l.at + i) else s.homeByte t 2 (l.at + i)
    | _ => s.homeByte t l.sp (l.at + i))

/-- A write performed at the coherence point by an atomic or STC of a team (R169, R170). -/
def State.pointWrite (s : State) (tid gi : Nat) (l : Loc) (bs : List Byte) : State :=
  match s.team? tid with
  | none => s
  | some t =>
    match l with
    | .shm _ => s.perform tid gi 0 l bs
    | .pad .. => (s.trigger1 tid gi 1 l.at bs.length).land l bs
    | .phys pa sh _ mg cp =>
      if sh = .core ∧ cp = 0 then s.perform tid gi 0 l bs
      else (((s.trigger1 tid gi 2 pa bs.length).l2Touch t.ctx (s.site t.pcore) pa mg cp true).land l bs).updL1 (tid, gi) t.pcore pa bs

/-- Invalidate every line of a core's L1 tagged wider than CORE (R167). -/
def State.invalidate (s : State) (core : Nat) : State := s.loseL1 core (fun x => decide (x.shr ≠ .core))

/-- An acquire of a domain by a group (R167): a group's reads have returned, since they bind at issue (log 6). -/
def State.acquire (s : State) (core : Nat) (d : Dom) : State := if d = .core then s else s.invalidate core

end Sys2Proof.Machine
end

