-- ==== Sys2Proof/WellFormed.lean ====
section
/-! DEFINITION. Which instruction words are legal by themselves: the checks of R72 order 2 that need no declaration. What
depends on the kernel's declarations is checked at issue (Machine/Operands.lean). -/
namespace Sys2Proof

/-- Is the type one of the list. -/
def Ty.isOf (t : Ty) (l : List Ty) : Bool := l.contains t
/-- Is the register number a multiple of `n` (R52). -/
def aln {k : Nat} (r : BitVec k) (n : Nat) : Bool := r.toNat % n == 0
/-- Registers of a value of the type: a pair for I64 (R75). -/
def tyLen (t : Ty) : Nat := if t = .i64 then 2 else 1
/-- Registers of a width code W (R80). -/
def wLen (w : BitVec 3) : Nat := if w = 3 then 2 else if w = 4 then 4 else 1
/-- Registers of a BY code (R406). -/
def byLen (y : BitVec 3) : Nat := if y = 1 then 2 else if y = 2 then 4 else 1
/-- Source registers of each operand of CVTP (R335). -/
def cvtpLen (t : Ty) : Nat := if t.isOf [.f16, .bf16, .i16, .n16] then 1 else if t = .e2m1 then 4 else 2
/-- Source registers of QMX (R111). -/
def mxLen (t : Ty) : Nat := if t = .e2m1 then 32 else 16
/-- Destination registers of DQMX (R338). -/
def dqLen (t f : Ty) : Nat := if f = .f32 then mxLen t else mxLen t / 2
/-- The (OP, T) pairs of the atomics (R81). -/
def atomTy (k : BitVec 4) (t : Ty) : Bool :=
  match k.toNat with
  | 0 => t.isOf [.i32, .n32, .i64] | 1 => t.isOf [.i32, .n32, .i64] | 2 => t.isOf [.i32, .n32, .i64]
  | 3 => t.isOf [.n32, .i64] | 4 => t.isOf [.n32, .i64] | 5 => t.isOf [.n32, .i64] | 6 => t.isOf [.n32, .i64]
  | 7 => t.isOf [.n32, .i64] | 8 => t == .n32 | 9 => t == .n32 | 10 => t == .f32 | 11 => t.isOf [.f16, .bf16]
  | 12 => t == .n32 | 13 => t == .n32 | _ => false

/-- Every code, alignment and scope the word alone decides is legal (R72 order 2, R73-R88 and the entries' #ILL lists). -/
def wellFormed : Instr → Bool
  | .andLr _ _ _ _ _ => true
  | .andLi _ _ _ _ _ => true
  | .andXi _ _ _ _ _ _ t => t.isOf [.i32, .n32]
  | .andn _ _ _ _ _ _ => true
  | .ared h _ _ _ => h.scope != .lane
  | .atomg _ _ d a b c k x r t => atomTy k t && (k == 7 || c == 0) && (k == 11 || !x) && r.toNat < 4 && aln a 2 && aln d (tyLen t) && aln b (tyLen t) && aln c (tyLen t)
  | .atomp _ _ _ _ _ c k x r t => atomTy k t && (k == 7 || c == 0) && (k == 11 || !x) && t != .i64 && r.toNat < 4
  | .atoms _ _ _ _ _ c k x r t => atomTy k t && (k == 7 || c == 0) && (k == 11 || !x) && t != .i64 && r.toNat < 4
  | .bar _ _ r g _ => r || g == 0
  | .bara _ _ r g => r || g == 0
  | .barw _ _ => true
  | .bfi _ _ _ _ _ _ _ => true
  | .bfx _ _ _ _ _ _ t => t.isOf [.i32, .n32]
  | .bpt _ => true
  | .bra _ _ => true
  | .braGuarded _ _ _ => true
  | .brev _ _ _ _ _ => true
  | .brx _ _ => true
  | .brxGuarded _ _ _ => true
  | .call _ _ => true
  | .callGuarded _ _ _ => true
  | .calx _ _ => true
  | .calxGuarded _ _ _ => true
  | .clk h d => h.scope != .lane && aln d 2
  | .clz _ _ _ _ _ => true
  | .cpy h _ _ _ => h.scope != .lane
  | .cpyg h _ _ _ => h.scope != .lane
  | .cpyr h _ _ _ => h.scope != .lane
  | .cpyt h _ _ _ => h.scope != .lane
  | .cvt _ _ _ d a t m f _ => m.toNat < 5 && aln a (tyLen f) && aln d (tyLen t)
  | .cvtp _ _ _ _ a b t m _ => m.toNat < 5 && !t.isOf [.i32, .n32, .f32, .e8m0, .i64] && aln a (cvtpLen t) && aln b (cvtpLen t)
  | .cvtx _ _ _ _ _ _ t m f _ => m.toNat < 5 && !t.isOf [.e8m0, .i64] && !f.isOf [.e8m0, .i64]
  | .dqmx _ _ d a _ t m f => m.toNat < 5 && t.isOf [.e4m3, .e5m2, .e3m2, .e2m3, .e2m1, .i8] && f.isOf [.f32, .f16, .bf16] && aln a 4 && aln d (dqLen t f)
  | .eqry h _ _ => h.scope != .lane
  | .ewt h _ => h.scope != .lane
  | .exit _ => true
  | .faddLr _ _ _ _ _ => true
  | .faddXf _ _ _ _ _ _ m => m.toNat < 4
  | .fcmpLc _ _ _ _ _ k => 10 ≤ k.toNat
  | .fcmpXf _ _ _ _ _ _ t k => t.isOf [.f32, .f16, .bf16] && 10 ≤ k.toNat
  | .fcos _ _ _ _ _ => true
  | .fex2 _ _ _ _ _ => true
  | .flg2 _ _ _ _ _ => true
  | .frcp _ _ _ _ _ => true
  | .frsq _ _ _ _ _ => true
  | .fsin _ _ _ _ _ => true
  | .fsqrt _ _ _ _ _ => true
  | .fenceAcq _ => true
  | .fenceRel _ => true
  | .fenceFull _ => true
  | .fenceX _ => true
  | .ffma _ _ _ _ _ _ _ m => m.toNat < 4
  | .fmaxLr _ _ _ _ _ => true
  | .fmaxXf _ _ _ _ _ _ => true
  | .fminLr _ _ _ _ _ => true
  | .fminXf _ _ _ _ _ _ => true
  | .fmulLr _ _ _ _ _ => true
  | .fmulXf _ _ _ _ _ _ m => m.toNat < 4
  | .frnd _ _ _ _ _ m => m.toNat < 4
  | .fshf _ _ _ _ _ _ _ _ => true
  | .gargx h _ _ _ c x m => (if x then h.scope == .group else c == 0) && m.toNat < 2
  | .gred h _ d a c x m t w => (if x then h.scope == .group else c == 0) && (if w then h.scope == .set && a.toNat < 16 && d.toNat < 16 else true) && m.toNat < 6 && t.isOf [.i32, .n32, .f32] && (t != .f32 || m.toNat < 3)
  | .gscan h _ _ _ c x m t => (if x then h.scope == .group else c == 0) && m.toNat < 3 && t.isOf [.i32, .n32, .f32]
  | .gwait h => h.scope != .lane
  | .hadd2 _ _ _ _ _ _ t m => t.isOf [.f16, .bf16] && m.toNat < 4
  | .hfma2 _ _ _ _ _ _ _ t m => t.isOf [.f16, .bf16] && m.toNat < 4
  | .hmul2 _ _ _ _ _ _ t m => t.isOf [.f16, .bf16] && m.toNat < 4
  | .hgb h _ _ _ => h.scope != .lane
  | .hgf h _ _ _ => h.scope != .lane
  | .iabs _ _ _ _ _ _ => true
  | .iaddLr _ _ _ _ _ => true
  | .iaddLi _ _ _ _ _ => true
  | .iaddXi _ _ _ _ _ _ t _ => t.isOf [.i32, .n32, .i16, .n16]
  | .imaxLr _ _ _ _ _ => true
  | .imaxXi _ _ _ _ _ _ t => t.isOf [.i32, .n32, .i16, .n16]
  | .iminLr _ _ _ _ _ => true
  | .iminXi _ _ _ _ _ _ t => t.isOf [.i32, .n32, .i16, .n16]
  | .imulLr _ _ _ _ _ => true
  | .imulXi _ _ _ _ _ _ t => t.isOf [.i32, .n32]
  | .isubLr _ _ _ _ _ => true
  | .isubXi _ _ _ _ _ _ t _ => t.isOf [.i32, .n32, .i16, .n16]
  | .iaddx _ _ _ _ _ _ _ _ => true
  | .icmpLc _ _ _ _ _ k => k.toNat < 10
  | .icmpXi _ _ _ _ a b t k => t.isOf [.i32, .n32, .i64] && k.toNat < 10 && aln a (tyLen t) && aln b (tyLen t)
  | .idp4 _ _ _ _ _ _ _ t => t.isOf [.i8, .n8]
  | .imad _ _ _ _ _ _ _ t => t.isOf [.i32, .n32]
  | .imadw _ _ _ d _ _ c t => t.isOf [.i32, .n32] && aln d 2 && aln c 2
  | .imulh _ _ _ _ _ _ t => t.isOf [.i32, .n32]
  | .isel _ _ _ _ _ _ _ _ => true
  | .isync _ => true
  | .ldg _ u _ d a w r _ _ => w.toNat < 7 && r.toNat < 2 && aln a 2 && aln d (wLen w) && !(u && r == 1)
  | .ldkLm _ _ _ _ _ => true
  | .ldkXm _ _ _ d _ w _ _ => w.toNat < 7 && aln d (wLen w)
  | .ldpLm _ _ _ _ _ => true
  | .ldpXm _ u _ d _ w r _ => w.toNat < 7 && r.toNat < 2 && aln d (wLen w) && !(u && r == 1)
  | .ldsLm _ _ _ _ _ => true
  | .ldsXm _ _ _ d _ w _ => w.toNat < 7 && aln d (wLen w)
  | .ldr _ _ d a w r _ => (w == 2 || w == 3) && r.toNat < 2 && aln a 2 && aln d (wLen w)
  | .lea _ _ _ d a _ t _ => t.isOf [.i32, .n32] && aln d 2 && aln a 2
  | .lnxt h => h.scope != .lane
  | .matchLanes h _ _ a c x t => (if x then h.scope == .group else c == 0) && t.isOf [.i32, .i64] && aln a (tyLen t)
  | .mld h _ d _ t x => x != 3 && (if x == 2 then t == .f32 && aln d 8 else t.isOf [.f16, .bf16, .e4m3, .e5m2, .e3m2, .e2m3, .e2m1, .i8]) && (if h.scope == .set && x == 1 then d.toNat < 16 && t.isOf [.f16, .bf16] else x == 2 || aln d 4)
  | .mma h _ d a b c t => t.isOf [.f16, .bf16, .e4m3, .e5m2, .e3m2, .e2m3, .e2m1, .i8] && aln d 8 && aln a 4 && aln c 8 && (if h.scope == .set then t.isOf [.f16, .bf16] && b.toNat < 16 else aln b 4)
  | .mmax h _ d a b c t _ _ _ => t.isOf [.e4m3, .e5m2, .e3m2, .e2m3, .e2m1, .i8] && h.scope != .set && aln d 8 && aln a 4 && aln b 4 && aln c 2
  | .mst _ _ d _ t => t.isOf [.f32, .f16, .bf16] && aln d 8
  | .mzro _ _ d => aln d 8
  | .movLr _ _ _ _ => true
  | .movXi _ _ _ _ _ t => t.isOf [.i32, .n32]
  | .movg _ _ _ _ => true
  | .movi _ _ _ _ => true
  | .movs _ _ _ a => a.toNat < 22 || 64 ≤ a.toNat
  | .nop _ => true
  | .oadm _ _ d a _ _ => aln d 2 && aln a 2 && d != a
  | .osgd _ _ d a _ _ => aln d 2 && a != d && a.toNat != d.toNat + 1
  | .orLr _ _ _ _ _ => true
  | .orLi _ _ _ _ _ => true
  | .orXi _ _ _ _ _ _ t => t.isOf [.i32, .n32]
  | .pfg _ _ a _ _ => aln a 2
  | .phf h _ => h.scope != .lane
  | .phw _ _ _ => true
  | .plop _ _ _ _ _ _ _ _ => true
  | .popc _ _ _ _ _ => true
  | .pswz _ _ _ _ _ _ _ => true
  | .qmx _ _ d a b c t m x => m.toNat < 5 && t.isOf [.e4m3, .e5m2, .e3m2, .e2m3, .e2m1, .i8] && aln a (mxLen t) && aln d 4 && !(d.toNat ≤ c.toNat && c.toNat < d.toNat + 4) && (x || b == 0)
  | .rast h _ _ _ => h.scope != .lane
  | .recv _ v _ y => y.toNat < 3 && aln v (byLen y)
  | .send _ v _ y => y.toNat < 3 && aln v (byLen y)
  | .redg _ _ a b c k x r t => atomTy k t && (k == 7 || c == 0) && (k == 11 || !x) && (r == 0 || r == 2) && aln a 2 && aln b (tyLen t) && aln c (tyLen t)
  | .redp _ _ _ _ c k x r t => atomTy k t && (k == 7 || c == 0) && (k == 11 || !x) && t != .i64 && (r == 0 || r == 2)
  | .reds _ _ _ _ c k x r t => atomTy k t && (k == 7 || c == 0) && (k == 11 || !x) && t != .i64 && (r == 0 || r == 2)
  | .ret _ => true
  | .rxbox _ _ d a b _ => aln a 8 && aln b 8 && aln d 2
  | .rxtri _ _ d a b _ => aln a 8 && aln b 4 && aln d 4
  | .sets h d _ => h.scope != .lane && (d.toNat == 15 || d.toNat == 16 || d.toNat == 17)
  | .shfl h _ d a _ c x m w => (if x then h.scope == .group else c == 0) && (if w then h.scope == .set && a.toNat < 16 && d.toNat < 16 else true) && m.toNat < 4
  | .shlLr _ _ _ _ _ => true
  | .shlLi _ _ _ _ i => i.toNat < 32
  | .shlXi _ _ _ _ _ _ t => t.isOf [.i32, .n32]
  | .shrLr _ _ _ _ _ => true
  | .shrLi _ _ _ _ i => i.toNat < 32
  | .shrXi _ _ _ _ _ _ t => t.isOf [.i32, .n32]
  | .shraLr _ _ _ _ _ => true
  | .shraLi _ _ _ _ i => i.toNat < 32
  | .shraXi _ _ _ _ _ _ t => t.isOf [.i32, .n32]
  | .stc _ _ d a w r _ => (w == 2 || w == 3) && r.toNat < 2 && aln a 2 && aln d (wLen w)
  | .stg _ _ d a w r _ _ => w.toNat < 5 && r.toNat < 2 && aln a 2 && aln d (wLen w)
  | .stkLm _ _ _ _ => true
  | .stkXm _ _ d _ w _ _ => w.toNat < 5 && aln d (wLen w)
  | .stpLm _ _ _ _ => true
  | .stpXm _ _ d _ w r _ => w.toNat < 5 && r.toNat < 2 && aln d (wLen w)
  | .stsLm _ _ _ _ => true
  | .stsXm _ _ d _ w _ => w.toNat < 5 && aln d (wLen w)
  | .texg _ _ d a _ _ => aln a 2 && aln d 4
  | .texl _ _ d a _ _ => aln a 2 && aln d 4
  | .texs _ _ d a _ => aln a 2 && aln d 4
  | .time h d => h.scope != .lane && aln d 2
  | .tlbiPage h a => h.scope != .lane && aln a 2
  | .tlbiCtx h _ => h.scope != .lane
  | .tlbiAll h => h.scope != .lane
  | .trap _ _ => true
  | .tspn h _ _ _ => h.scope != .lane
  | .tsus h _ _ => h.scope != .lane
  | .uadd h _ _ _ => h.scope != .lane
  | .usub h _ _ _ => h.scope != .lane
  | .umul h _ _ _ => h.scope != .lane
  | .uand h _ _ _ => h.scope != .lane
  | .uor h _ _ _ => h.scope != .lane
  | .uxor h _ _ _ => h.scope != .lane
  | .ushl h _ _ _ => h.scope != .lane
  | .ushr h _ _ _ _ => h.scope != .lane
  | .ubra h _ _ _ => h.scope != .lane
  | .ucmp h _ _ _ _ => h.scope != .lane
  | .uldShared h _ _ _ => h.scope != .lane
  | .uldPad h _ _ _ => h.scope != .lane
  | .uldGlobal h _ a _ => h.scope != .lane && aln a 2
  | .ustShared h _ _ _ => h.scope != .lane
  | .ustPad h _ _ _ => h.scope != .lane
  | .ustGlobal h _ a _ => h.scope != .lane && aln a 2
  | .uloop h d _ => h.scope != .lane && d != 0
  | .umov h _ _ => h.scope != .lane
  | .umovi h _ _ => h.scope != .lane
  | .umovv h _ _ => h.scope != .lane
  | .usel h _ _ _ => h.scope != .lane
  | .vote h _ d _ c x m _ => (if x then h.scope == .group else c == 0) && m.toNat < 3 && (m == 2 || d.toNat < 8)
  | .wbak h d a => h.scope != .lane && aln a 2 && aln d 2 && d != 0
  | .wpin h d a => h.scope != .lane && aln a 2 && aln d 4 && d != 0
  | .wpub h _ a => h.scope != .lane && aln a 2
  | .wunp h a _ => h.scope != .lane && aln a 2
  | .xorLr _ _ _ _ _ => true
  | .xorLi _ _ _ _ _ => true
  | .xorXi _ _ _ _ _ _ t => t.isOf [.i32, .n32]
  | .yld _ => true
  | .powerUp .. => true
  | .bundleFormation .. => true
  | .fairnessTimer .. => true
  | .cinchWindowClose .. => true
  | .variableLatencyWriteback .. => true
  | .writeAcknowledge .. => true
  | .brambleCommit .. => true
  | .clusterPlacement .. => true
  | .bridleClusterPlacement .. => true
  | .teamRetire .. => true
  | .cardLineLanded .. => true
  | .pageWalkComplete .. => true
  | .atsTranslation .. => true
  | .lineMigration .. => true
  | .partitionWrite .. => true
  | .granuleMapWrite .. => true
  | .granuleRemapComplete .. => true
  | .mirrorSizeWrite .. => true
  | .hostPostedWrite .. => true
  | .hostRead .. => true
  | .cxlSnoop .. => true
  | .atsInvalidation .. => true
  | .roundEnd .. => true
  | .roundResume .. => true
  | .gridSyncMerge .. => true
  | .gridEndMerge .. => true
  | .cardStart .. => true
  | .aredMeet .. => true
  | .cardComplete .. => true
  | .cardFail .. => true
  | .channelMessageArrive .. => true
  | .doorbell .. => true
  | .skip .. => true
  | .haltClear .. => true
  | .queueEnable .. => true
  | .packetStart .. => true
  | .realtimePreempt .. => true
  | .taskPlacement .. => true
  | .binSwitch .. => true
  | .graphNodeComplete .. => true
  | .waitNodeExpiry .. => true
  | .frameBoundary .. => true
  | .budgetCharge .. => true
  | .issueAgeLimit .. => true
  | .poolMove .. => true
  | .poolMoveComplete .. => true
  | .nocGovernorSample .. => true
  | .hbmPowerDown .. => true
  | .hbmSelfRefresh .. => true
  | .hbmExit .. => true
  | .controlInterval .. => true
  | .admissionAgeing .. => true
  | .sensorSample .. => true
  | .t4Cutoff .. => true
  | .throttleRelease .. => true
  | .dieReenable .. => true
  | .hotspotMigration .. => true
  | .powerBudgetWrite .. => true
  | .occupancyThresholdWrite .. => true
  | .preemption .. => true
  | .timeSliceExpiry .. => true
  | .teamSaveComplete .. => true
  | .pgreplyRetry .. => true
  | .pgreplyDecline .. => true
  | .resumeContinue .. => true
  | .resumeSkip .. => true
  | .resumeEnd .. => true
  | .resumeKill .. => true
  | .replyHighWordLatch .. => true
  | .tqrdWrite .. => true
  | .tqerrRetry .. => true
  | .contextEnable .. => true
  | .contextDisable .. => true
  | .uncorrectableError .. => true
  | .lostSector .. => true
  | .correctedError .. => true
  | .coreRetire .. => true
  | .subbankSpare .. => true
  | .hbmRowRepair .. => true
  | .linkLaneSpare .. => true
  | .dieReinit .. => true
  | .dieReinitComplete .. => true
  | .lifetimeRecordWrite .. => true
  | .enmerFlitReceive .. => true
  | .enmerRemoteRequest .. => true
  | .peerTimeout .. => true
  | .peerMapWrite .. => true
  | .rdmaWrite .. => true
  | .ptpSync .. => true
  | .liveUpdate .. => true
  | .rollbackCounterAdvance .. => true
  | .getVersion .. => true
  | .getCapabilities .. => true
  | .negotiateAlgorithms .. => true
  | .getDigests .. => true
  | .getCertificate .. => true
  | .challenge .. => true
  | .getMeasurements .. => true
  | .keyExchange .. => true
  | .finish .. => true
  | .endSession .. => true
  | .pldmMonitor .. => true
  | .pldmFru .. => true
  | .pldmFirmwareUpdate .. => true
  | .lifetimeRecordRead .. => true
  | .registerWrite .. => true
  | .powerLoss .. => true
  | .hbmRowRepairComplete .. => true
  | .teamRestoreComplete .. => true

end Sys2Proof
end

