-- ==== Sys2Proof/Machine/Operands.lean ====
section
/-! DEFINITION. The operands of every instruction as one table, what the kernel's declarations allow of them (R31, R42, R51,
R52), and each instruction's class at issue. -/
namespace Sys2Proof.Machine

/-- The registers an instruction names: (first, count). -/
structure Uses where
  rv : List (Nat × Nat)
  wv : List (Nat × Nat)
  rp : List Nat
  wp : List Nat
  rg : List (Nat × Nat)
  wg : List (Nat × Nat)
  sp : List (Nat × Nat)
  deriving DecidableEq, Repr

def Uses.none : Uses := ⟨[], [], [], [], [], [], []⟩

/-- The classes of an instruction at issue. -/
structure Traits where
  varLat : Bool
  matrix : Bool
  engine : Bool
  priv : Bool
  stalls : Bool
  mem : Bool
  ends : Bool
  deriving DecidableEq, Repr

/-- The comparand C of an atomic: a source of CAS alone (R314, R315). -/
def comparand (k : BitVec 4) (c : BitVec 7) (n : Nat) : List (Nat × Nat) := if k = 7 then [(c.toNat, n)] else []
/-- The registers each instruction names (R51, R52), by its entry: vector sources and destinations, predicates other than
the guard, g-registers, span registers; a length 0 of a span block is 4/S. -/
def uses : Instr → Uses
  | .andLr _ _ d a b => ⟨[(a.toNat, 1), (b.toNat, 1)], [(d.toNat, 1)], [], [], [], [], []⟩
  | .andLi _ _ d a _ => ⟨[(a.toNat, 1)], [(d.toNat, 1)], [], [], [], [], []⟩
  | .andXi _ _ _ d a b _ => ⟨[(a.toNat, 1), (b.toNat, 1)], [(d.toNat, 1)], [], [], [], [], []⟩
  | .andn _ _ _ d a b => ⟨[(a.toNat, 1), (b.toNat, 1)], [(d.toNat, 1)], [], [], [], [], []⟩
  | .ared _ d a _ => ⟨[], [], [], [], [(a.toNat, 1)], [(d.toNat, 1)], []⟩
  | .atomg _ _ d a b c k _ _ t => ⟨[(a.toNat, 2), (b.toNat, tyLen t)] ++ comparand k c (tyLen t), [(d.toNat, tyLen t)], [], [], [], [], []⟩
  | .atomp _ _ d a b c k _ _ _ => ⟨[(a.toNat, 1), (b.toNat, 1)] ++ comparand k c 1, [(d.toNat, 1)], [], [], [], [], []⟩
  | .atoms _ _ d a b c k _ _ _ => ⟨[(a.toNat, 1), (b.toNat, 1)] ++ comparand k c 1, [(d.toNat, 1)], [], [], [], [], []⟩
  | .bar _ _ r g _ => ⟨[], [], [], [], (if r then [(g.toNat, 1)] else []), [], []⟩
  | .bara _ _ r g => ⟨[], [], [], [], (if r then [(g.toNat, 1)] else []), [], []⟩
  | .barw _ _ => Uses.none
  | .bfi _ _ _ d a b c => ⟨[(a.toNat, 1), (b.toNat, 1), (c.toNat, 1)], [(d.toNat, 1)], [], [], [], [], []⟩
  | .bfx _ _ _ d a b _ => ⟨[(a.toNat, 1), (b.toNat, 1)], [(d.toNat, 1)], [], [], [], [], []⟩
  | .bpt _ => Uses.none
  | .bra _ _ => Uses.none
  | .braGuarded _ _ _ => Uses.none
  | .brev _ _ _ d a => ⟨[(a.toNat, 1)], [(d.toNat, 1)], [], [], [], [], []⟩
  | .brx _ a => ⟨[(a.toNat, 1)], [], [], [], [], [], []⟩
  | .brxGuarded _ _ a => ⟨[(a.toNat, 1)], [], [], [], [], [], []⟩
  | .call _ _ => Uses.none
  | .callGuarded _ _ _ => Uses.none
  | .calx _ a => ⟨[(a.toNat, 1)], [], [], [], [], [], []⟩
  | .calxGuarded _ _ a => ⟨[(a.toNat, 1)], [], [], [], [], [], []⟩
  | .clk _ d => ⟨[], [], [], [], [], [(d.toNat, 2)], []⟩
  | .clz _ _ _ d a => ⟨[(a.toNat, 1)], [(d.toNat, 1)], [], [], [], [], []⟩
  | .cpy _ d a _ => ⟨[], [], [], [], [(a.toNat, 1)], [(d.toNat, 1)], []⟩
  | .cpyg _ d a _ => ⟨[], [], [], [], [(a.toNat, 1)], [(d.toNat, 1)], []⟩
  | .cpyr _ d a _ => ⟨[], [], [], [], [(a.toNat, 1)], [(d.toNat, 1)], []⟩
  | .cpyt _ d a _ => ⟨[], [], [], [], [(a.toNat, 1)], [(d.toNat, 1)], []⟩
  | .cvt _ _ _ d a t _ f _ => ⟨[(a.toNat, tyLen f)], [(d.toNat, tyLen t)], [], [], [], [], []⟩
  | .cvtp _ _ _ d a b t _ _ => ⟨[(a.toNat, cvtpLen t), (b.toNat, cvtpLen t)], [(d.toNat, 1)], [], [], [], [], []⟩
  | .cvtx _ _ _ d a b _ _ _ _ => ⟨[(a.toNat, 1), (b.toNat, 1)], [(d.toNat, 1)], [], [], [], [], []⟩
  | .dqmx _ _ d a c t _ f => ⟨[(a.toNat, 4), (c.toNat, 1)], [(d.toNat, dqLen t f)], [], [], [], [], []⟩
  | .eqry _ d a => ⟨[], [], [], [], [(a.toNat, 1)], [(d.toNat, 1)], []⟩
  | .ewt _ a => ⟨[], [], [], [], [(a.toNat, 1)], [], []⟩
  | .exit _ => Uses.none
  | .faddLr _ _ d a b => ⟨[(a.toNat, 1), (b.toNat, 1)], [(d.toNat, 1)], [], [], [], [], []⟩
  | .faddXf _ _ _ d a b _ => ⟨[(a.toNat, 1), (b.toNat, 1)], [(d.toNat, 1)], [], [], [], [], []⟩
  | .fcmpLc _ _ p a b _ => ⟨[(a.toNat, 1), (b.toNat, 1)], [], [], [p.toNat], [], [], []⟩
  | .fcmpXf _ _ _ p a b _ _ => ⟨[(a.toNat, 1), (b.toNat, 1)], [], [], [p.toNat], [], [], []⟩
  | .fcos _ _ _ d a => ⟨[(a.toNat, 1)], [(d.toNat, 1)], [], [], [], [], []⟩
  | .fex2 _ _ _ d a => ⟨[(a.toNat, 1)], [(d.toNat, 1)], [], [], [], [], []⟩
  | .flg2 _ _ _ d a => ⟨[(a.toNat, 1)], [(d.toNat, 1)], [], [], [], [], []⟩
  | .frcp _ _ _ d a => ⟨[(a.toNat, 1)], [(d.toNat, 1)], [], [], [], [], []⟩
  | .frsq _ _ _ d a => ⟨[(a.toNat, 1)], [(d.toNat, 1)], [], [], [], [], []⟩
  | .fsin _ _ _ d a => ⟨[(a.toNat, 1)], [(d.toNat, 1)], [], [], [], [], []⟩
  | .fsqrt _ _ _ d a => ⟨[(a.toNat, 1)], [(d.toNat, 1)], [], [], [], [], []⟩
  | .fenceAcq _ => Uses.none
  | .fenceRel _ => Uses.none
  | .fenceFull _ => Uses.none
  | .fenceX _ => Uses.none
  | .ffma _ _ _ d a b c _ => ⟨[(a.toNat, 1), (b.toNat, 1), (c.toNat, 1)], [(d.toNat, 1)], [], [], [], [], []⟩
  | .fmaxLr _ _ d a b => ⟨[(a.toNat, 1), (b.toNat, 1)], [(d.toNat, 1)], [], [], [], [], []⟩
  | .fmaxXf _ _ _ d a b => ⟨[(a.toNat, 1), (b.toNat, 1)], [(d.toNat, 1)], [], [], [], [], []⟩
  | .fminLr _ _ d a b => ⟨[(a.toNat, 1), (b.toNat, 1)], [(d.toNat, 1)], [], [], [], [], []⟩
  | .fminXf _ _ _ d a b => ⟨[(a.toNat, 1), (b.toNat, 1)], [(d.toNat, 1)], [], [], [], [], []⟩
  | .fmulLr _ _ d a b => ⟨[(a.toNat, 1), (b.toNat, 1)], [(d.toNat, 1)], [], [], [], [], []⟩
  | .fmulXf _ _ _ d a b _ => ⟨[(a.toNat, 1), (b.toNat, 1)], [(d.toNat, 1)], [], [], [], [], []⟩
  | .frnd _ _ _ d a _ => ⟨[(a.toNat, 1)], [(d.toNat, 1)], [], [], [], [], []⟩
  | .fshf _ _ _ d a b c _ => ⟨[(a.toNat, 1), (b.toNat, 1), (c.toNat, 1)], [(d.toNat, 1)], [], [], [], [], []⟩
  | .gargx _ _ d a c x _ => ⟨[(a.toNat, 1)] ++ (if x then [(c.toNat, 1)] else []), [(d.toNat, 1)], [], [], [], [], []⟩
  | .gred _ _ d a c x _ _ w => ⟨(if w then [] else [(a.toNat, 1)]) ++ (if x then [(c.toNat, 1)] else []), (if w then [] else [(d.toNat, 1)]), [], [], [], [], (if w then [(a.toNat, 1)] else []) ++ (if w then [(d.toNat, 1)] else [])⟩
  | .gscan _ _ d a c x _ _ => ⟨[(a.toNat, 1)] ++ (if x then [(c.toNat, 1)] else []), [(d.toNat, 1)], [], [], [], [], []⟩
  | .gwait _ => Uses.none
  | .hadd2 _ _ _ d a b _ _ => ⟨[(a.toNat, 1), (b.toNat, 1)], [(d.toNat, 1)], [], [], [], [], []⟩
  | .hfma2 _ _ _ d a b c _ _ => ⟨[(a.toNat, 1), (b.toNat, 1), (c.toNat, 1)], [(d.toNat, 1)], [], [], [], [], []⟩
  | .hmul2 _ _ _ d a b _ _ => ⟨[(a.toNat, 1), (b.toNat, 1)], [(d.toNat, 1)], [], [], [], [], []⟩
  | .hgb _ d a _ => ⟨[], [], [], [], [(a.toNat, 1)], [(d.toNat, 1)], []⟩
  | .hgf _ d a _ => ⟨[], [], [], [], [(a.toNat, 1)], [(d.toNat, 1)], []⟩
  | .iabs _ _ _ d a _ => ⟨[(a.toNat, 1)], [(d.toNat, 1)], [], [], [], [], []⟩
  | .iaddLr _ _ d a b => ⟨[(a.toNat, 1), (b.toNat, 1)], [(d.toNat, 1)], [], [], [], [], []⟩
  | .iaddLi _ _ d a _ => ⟨[(a.toNat, 1)], [(d.toNat, 1)], [], [], [], [], []⟩
  | .iaddXi _ _ _ d a b _ _ => ⟨[(a.toNat, 1), (b.toNat, 1)], [(d.toNat, 1)], [], [], [], [], []⟩
  | .imaxLr _ _ d a b => ⟨[(a.toNat, 1), (b.toNat, 1)], [(d.toNat, 1)], [], [], [], [], []⟩
  | .imaxXi _ _ _ d a b _ => ⟨[(a.toNat, 1), (b.toNat, 1)], [(d.toNat, 1)], [], [], [], [], []⟩
  | .iminLr _ _ d a b => ⟨[(a.toNat, 1), (b.toNat, 1)], [(d.toNat, 1)], [], [], [], [], []⟩
  | .iminXi _ _ _ d a b _ => ⟨[(a.toNat, 1), (b.toNat, 1)], [(d.toNat, 1)], [], [], [], [], []⟩
  | .imulLr _ _ d a b => ⟨[(a.toNat, 1), (b.toNat, 1)], [(d.toNat, 1)], [], [], [], [], []⟩
  | .imulXi _ _ _ d a b _ => ⟨[(a.toNat, 1), (b.toNat, 1)], [(d.toNat, 1)], [], [], [], [], []⟩
  | .isubLr _ _ d a b => ⟨[(a.toNat, 1), (b.toNat, 1)], [(d.toNat, 1)], [], [], [], [], []⟩
  | .isubXi _ _ _ d a b _ _ => ⟨[(a.toNat, 1), (b.toNat, 1)], [(d.toNat, 1)], [], [], [], [], []⟩
  | .iaddx _ _ _ d a b ci co => ⟨[(a.toNat, 1), (b.toNat, 1)], [(d.toNat, 1)], [ci.toNat], [co.toNat], [], [], []⟩
  | .icmpLc _ _ p a b _ => ⟨[(a.toNat, 1), (b.toNat, 1)], [], [], [p.toNat], [], [], []⟩
  | .icmpXi _ _ _ p a b t _ => ⟨[(a.toNat, tyLen t), (b.toNat, tyLen t)], [], [], [p.toNat], [], [], []⟩
  | .idp4 _ _ _ d a b c _ => ⟨[(a.toNat, 1), (b.toNat, 1), (c.toNat, 1)], [(d.toNat, 1)], [], [], [], [], []⟩
  | .imad _ _ _ d a b c _ => ⟨[(a.toNat, 1), (b.toNat, 1), (c.toNat, 1)], [(d.toNat, 1)], [], [], [], [], []⟩
  | .imadw _ _ _ d a b c _ => ⟨[(a.toNat, 1), (b.toNat, 1), (c.toNat, 2)], [(d.toNat, 2)], [], [], [], [], []⟩
  | .imulh _ _ _ d a b _ => ⟨[(a.toNat, 1), (b.toNat, 1)], [(d.toNat, 1)], [], [], [], [], []⟩
  | .isel _ _ _ d a b _ p => ⟨[(a.toNat, 1), (b.toNat, 1)], [(d.toNat, 1)], [p.toNat], [], [], [], []⟩
  | .isync _ => Uses.none
  | .ldg _ _ _ d a w _ _ _ => ⟨[(a.toNat, 2)], [(d.toNat, wLen w)], [], [], [], [], []⟩
  | .ldkLm _ _ d a _ => ⟨[(a.toNat, 1)], [(d.toNat, 1)], [], [], [], [], []⟩
  | .ldkXm _ _ _ d a w _ _ => ⟨[(a.toNat, 1)], [(d.toNat, wLen w)], [], [], [], [], []⟩
  | .ldpLm _ _ d a _ => ⟨[(a.toNat, 1)], [(d.toNat, 1)], [], [], [], [], []⟩
  | .ldpXm _ _ _ d a w _ _ => ⟨[(a.toNat, 1)], [(d.toNat, wLen w)], [], [], [], [], []⟩
  | .ldsLm _ _ d a _ => ⟨[(a.toNat, 1)], [(d.toNat, 1)], [], [], [], [], []⟩
  | .ldsXm _ _ _ d a w _ => ⟨[(a.toNat, 1)], [(d.toNat, wLen w)], [], [], [], [], []⟩
  | .ldr _ _ d a w _ _ => ⟨[(a.toNat, 2)], [(d.toNat, wLen w)], [], [], [], [], []⟩
  | .lea _ _ _ d a b _ _ => ⟨[(a.toNat, 2), (b.toNat, 1)], [(d.toNat, 2)], [], [], [], [], []⟩
  | .lnxt _ => Uses.none
  | .matchLanes _ _ d a c x t => ⟨[(a.toNat, tyLen t)] ++ (if x then [(c.toNat, 1)] else []), [(d.toNat, 1)], [], [], [], [], []⟩
  | .mld h _ d a _ x => ⟨[(a.toNat, 1)], (if h.scope == .set && x == 1 then [] else [(d.toNat, if x == 2 then 8 else 4)]), [], [], [], [], (if h.scope == .set && x == 1 then [(d.toNat, 0)] else [])⟩
  | .mma h _ d a b c _ => ⟨[(a.toNat, 4), (c.toNat, 8)] ++ (if h.scope == .set then [] else [(b.toNat, 4)]), [(d.toNat, 8)], [], [], [], [], (if h.scope == .set then [(b.toNat, 0)] else [])⟩
  | .mmax _ _ d a b c _ _ _ _ => ⟨[(a.toNat, 4), (b.toNat, 4), (c.toNat, 2), (d.toNat, 8)], [(d.toNat, 8)], [], [], [], [], []⟩
  | .mst _ _ d a _ => ⟨[(a.toNat, 1), (d.toNat, 8)], [], [], [], [], [], []⟩
  | .mzro _ _ d => ⟨[], [(d.toNat, 8)], [], [], [], [], []⟩
  | .movLr _ _ d a => ⟨[(a.toNat, 1)], [(d.toNat, 1)], [], [], [], [], []⟩
  | .movXi _ _ _ d a _ => ⟨[(a.toNat, 1)], [(d.toNat, 1)], [], [], [], [], []⟩
  | .movg _ _ d a => ⟨[], [(d.toNat, 1)], [], [], [(a.toNat, 1)], [], []⟩
  | .movi _ _ d _ => ⟨[], [(d.toNat, 1)], [], [], [], [], []⟩
  | .movs _ _ d _ => ⟨[], [(d.toNat, 1)], [], [], [], [], []⟩
  | .nop _ => Uses.none
  | .oadm _ _ d a b c => ⟨[(d.toNat, 1), (a.toNat, 2), (b.toNat, 1)], [(d.toNat, 2), (a.toNat, 2)], [], [], [(c.toNat, 6)], [], []⟩
  | .osgd _ _ d a b c => ⟨[(d.toNat, 1), (a.toNat, 1), (b.toNat, 1)], [(d.toNat, 2), (a.toNat, 1)], [], [], [(c.toNat, 3)], [], []⟩
  | .orLr _ _ d a b => ⟨[(a.toNat, 1), (b.toNat, 1)], [(d.toNat, 1)], [], [], [], [], []⟩
  | .orLi _ _ d a _ => ⟨[(a.toNat, 1)], [(d.toNat, 1)], [], [], [], [], []⟩
  | .orXi _ _ _ d a b _ => ⟨[(a.toNat, 1), (b.toNat, 1)], [(d.toNat, 1)], [], [], [], [], []⟩
  | .pfg _ _ a _ _ => ⟨[(a.toNat, 2)], [], [], [], [], [], []⟩
  | .phf _ _ => Uses.none
  | .phw _ _ _ => Uses.none
  | .plop _ _ _ d a b _ w => ⟨[], [], [a.toNat, b.toNat] ++ (if w then [d.toNat] else []), [d.toNat], [], [], []⟩
  | .popc _ _ _ d a => ⟨[(a.toNat, 1)], [(d.toNat, 1)], [], [], [], [], []⟩
  | .pswz _ _ _ d a b c => ⟨[(a.toNat, 1), (b.toNat, 1), (c.toNat, 1)], [(d.toNat, 1)], [], [], [], [], []⟩
  | .qmx _ _ d a b c t _ x => ⟨[(a.toNat, mxLen t), (c.toNat, 1)], [(d.toNat, 4), (c.toNat, 1)], [], [], (if x then [(b.toNat, 1)] else []), [], []⟩
  | .rast _ d a _ => ⟨[], [], [], [], [(a.toNat, 1)], [(d.toNat, 1)], []⟩
  | .recv _ v _ y => ⟨[], [(v.toNat, byLen y)], [], [], [], [], []⟩
  | .send _ v _ y => ⟨[(v.toNat, byLen y)], [], [], [], [], [], []⟩
  | .redg _ _ a b c k _ _ t => ⟨[(a.toNat, 2), (b.toNat, tyLen t)] ++ comparand k c (tyLen t), [], [], [], [], [], []⟩
  | .redp _ _ a b c k _ _ _ => ⟨[(a.toNat, 1), (b.toNat, 1)] ++ comparand k c 1, [], [], [], [], [], []⟩
  | .reds _ _ a b c k _ _ _ => ⟨[(a.toNat, 1), (b.toNat, 1)] ++ comparand k c 1, [], [], [], [], [], []⟩
  | .ret _ => Uses.none
  | .rxbox _ _ d a b p => ⟨[(a.toNat, 8), (b.toNat, 8)], [(d.toNat, 2)], [], [p.toNat], [], [], []⟩
  | .rxtri _ _ d a b p => ⟨[(a.toNat, 8), (b.toNat, 12)], [(d.toNat, 4)], [], [p.toNat], [], [], []⟩
  | .sets _ _ a => ⟨[], [], [], [], [(a.toNat, 1)], [], []⟩
  | .shfl _ _ d a b c x _ w => ⟨(if w then [] else [(a.toNat, 1)]) ++ [(b.toNat, 1)] ++ (if x then [(c.toNat, 1)] else []), (if w then [] else [(d.toNat, 1)]), [], [], [], [], (if w then [(a.toNat, 1)] else []) ++ (if w then [(d.toNat, 1)] else [])⟩
  | .shlLr _ _ d a b => ⟨[(a.toNat, 1), (b.toNat, 1)], [(d.toNat, 1)], [], [], [], [], []⟩
  | .shlLi _ _ d a _ => ⟨[(a.toNat, 1)], [(d.toNat, 1)], [], [], [], [], []⟩
  | .shlXi _ _ _ d a b _ => ⟨[(a.toNat, 1), (b.toNat, 1)], [(d.toNat, 1)], [], [], [], [], []⟩
  | .shrLr _ _ d a b => ⟨[(a.toNat, 1), (b.toNat, 1)], [(d.toNat, 1)], [], [], [], [], []⟩
  | .shrLi _ _ d a _ => ⟨[(a.toNat, 1)], [(d.toNat, 1)], [], [], [], [], []⟩
  | .shrXi _ _ _ d a b _ => ⟨[(a.toNat, 1), (b.toNat, 1)], [(d.toNat, 1)], [], [], [], [], []⟩
  | .shraLr _ _ d a b => ⟨[(a.toNat, 1), (b.toNat, 1)], [(d.toNat, 1)], [], [], [], [], []⟩
  | .shraLi _ _ d a _ => ⟨[(a.toNat, 1)], [(d.toNat, 1)], [], [], [], [], []⟩
  | .shraXi _ _ _ d a b _ => ⟨[(a.toNat, 1), (b.toNat, 1)], [(d.toNat, 1)], [], [], [], [], []⟩
  | .stc _ _ d a w _ p => ⟨[(a.toNat, 2), (d.toNat, wLen w)], [], [], [p.toNat], [], [], []⟩
  | .stg _ _ d a w _ _ _ => ⟨[(a.toNat, 2), (d.toNat, wLen w)], [], [], [], [], [], []⟩
  | .stkLm _ d a _ => ⟨[(a.toNat, 1), (d.toNat, 1)], [], [], [], [], [], []⟩
  | .stkXm _ _ d a w _ _ => ⟨[(a.toNat, 1), (d.toNat, wLen w)], [], [], [], [], [], []⟩
  | .stpLm _ d a _ => ⟨[(a.toNat, 1), (d.toNat, 1)], [], [], [], [], [], []⟩
  | .stpXm _ _ d a w _ _ => ⟨[(a.toNat, 1), (d.toNat, wLen w)], [], [], [], [], [], []⟩
  | .stsLm _ d a _ => ⟨[(a.toNat, 1), (d.toNat, 1)], [], [], [], [], [], []⟩
  | .stsXm _ _ d a w _ => ⟨[(a.toNat, 1), (d.toNat, wLen w)], [], [], [], [], [], []⟩
  | .texg _ _ d a c _ => ⟨[(a.toNat, 2)], [(d.toNat, 4)], [], [], [(c.toNat, 1)], [], []⟩
  | .texl _ _ d a b c => ⟨[(a.toNat, 2), (b.toNat, 1)], [(d.toNat, 4)], [], [], [(c.toNat, 1)], [], []⟩
  | .texs _ _ d a c => ⟨[(a.toNat, 2)], [(d.toNat, 4)], [], [], [(c.toNat, 1)], [], []⟩
  | .time _ d => ⟨[], [], [], [], [], [(d.toNat, 2)], []⟩
  | .tlbiPage _ a => ⟨[], [], [], [], [(a.toNat, 2)], [], []⟩
  | .tlbiCtx _ a => ⟨[], [], [], [], [(a.toNat, 1)], [], []⟩
  | .tlbiAll _ => Uses.none
  | .trap _ _ => Uses.none
  | .tspn _ d a b => ⟨[], [], [], [], [(a.toNat, 1), (b.toNat, 1)], [(d.toNat, 1)], []⟩
  | .tsus _ a b => ⟨[], [], [], [], [(a.toNat, 1), (b.toNat, 1)], [], []⟩
  | .uadd _ d a b => ⟨[], [], [], [], [(a.toNat, 1), (b.toNat, 1)], [(d.toNat, 1)], []⟩
  | .usub _ d a b => ⟨[], [], [], [], [(a.toNat, 1), (b.toNat, 1)], [(d.toNat, 1)], []⟩
  | .umul _ d a b => ⟨[], [], [], [], [(a.toNat, 1), (b.toNat, 1)], [(d.toNat, 1)], []⟩
  | .uand _ d a b => ⟨[], [], [], [], [(a.toNat, 1), (b.toNat, 1)], [(d.toNat, 1)], []⟩
  | .uor _ d a b => ⟨[], [], [], [], [(a.toNat, 1), (b.toNat, 1)], [(d.toNat, 1)], []⟩
  | .uxor _ d a b => ⟨[], [], [], [], [(a.toNat, 1), (b.toNat, 1)], [(d.toNat, 1)], []⟩
  | .ushl _ d a b => ⟨[], [], [], [], [(a.toNat, 1), (b.toNat, 1)], [(d.toNat, 1)], []⟩
  | .ushr _ d a b _ => ⟨[], [], [], [], [(a.toNat, 1), (b.toNat, 1)], [(d.toNat, 1)], []⟩
  | .ubra _ a _ _ => ⟨[], [], [], [], [(a.toNat, 1)], [], []⟩
  | .ucmp _ d a b _ => ⟨[], [], [], [], [(a.toNat, 1), (b.toNat, 1)], [(d.toNat, 1)], []⟩
  | .uldShared _ d a b => ⟨[], [], [], [], [(a.toNat, 1), (b.toNat, 1)], [(d.toNat, 1)], []⟩
  | .uldPad _ d a b => ⟨[], [], [], [], [(a.toNat, 1), (b.toNat, 1)], [(d.toNat, 1)], []⟩
  | .uldGlobal _ d a b => ⟨[], [], [], [], [(a.toNat, 2), (b.toNat, 1)], [(d.toNat, 1)], []⟩
  | .ustShared _ d a b => ⟨[], [], [], [], [(a.toNat, 1), (b.toNat, 1), (d.toNat, 1)], [], []⟩
  | .ustPad _ d a b => ⟨[], [], [], [], [(a.toNat, 1), (b.toNat, 1), (d.toNat, 1)], [], []⟩
  | .ustGlobal _ d a b => ⟨[], [], [], [], [(a.toNat, 2), (b.toNat, 1), (d.toNat, 1)], [], []⟩
  | .uloop _ d _ => ⟨[], [], [], [], [(d.toNat, 1)], [(d.toNat, 1)], []⟩
  | .umov _ d a => ⟨[], [], [], [], [(a.toNat, 1)], [(d.toNat, 1)], []⟩
  | .umovi _ d _ => ⟨[], [], [], [], [], [(d.toNat, 1)], []⟩
  | .umovv _ d v => ⟨[(v.toNat, 1)], [], [], [], [], [(d.toNat, 1)], []⟩
  | .usel _ d a b => ⟨[], [], [], [], [(a.toNat, 1), (b.toNat, 1), (d.toNat, 1)], [(d.toNat, 1)], []⟩
  | .vote _ _ d a c x m _ => ⟨(if x then [(c.toNat, 1)] else []), (if m == 2 then [(d.toNat, 1)] else []), [a.toNat], (if m == 2 then [] else [d.toNat]), [], [], []⟩
  | .wbak _ d a => ⟨[], [], [], [], [(a.toNat, 2)], [(d.toNat, 2)], []⟩
  | .wpin _ d a => ⟨[], [], [], [], [(a.toNat, 2)], [(d.toNat, 4)], []⟩
  | .wpub _ d a => ⟨[], [], [], [], [(a.toNat, 2)], [(d.toNat, 1)], []⟩
  | .wunp _ a b => ⟨[], [], [], [], [(a.toNat, 2), (b.toNat, 1)], [], []⟩
  | .xorLr _ _ d a b => ⟨[(a.toNat, 1), (b.toNat, 1)], [(d.toNat, 1)], [], [], [], [], []⟩
  | .xorLi _ _ d a _ => ⟨[(a.toNat, 1)], [(d.toNat, 1)], [], [], [], [], []⟩
  | .xorXi _ _ _ d a b _ => ⟨[(a.toNat, 1), (b.toNat, 1)], [(d.toNat, 1)], [], [], [], [], []⟩
  | .yld _ => Uses.none
  | .powerUp .. => Uses.none
  | .bundleFormation .. => Uses.none
  | .fairnessTimer .. => Uses.none
  | .cinchWindowClose .. => Uses.none
  | .variableLatencyWriteback .. => Uses.none
  | .writeAcknowledge .. => Uses.none
  | .brambleCommit .. => Uses.none
  | .clusterPlacement .. => Uses.none
  | .bridleClusterPlacement .. => Uses.none
  | .teamRetire .. => Uses.none
  | .cardLineLanded .. => Uses.none
  | .pageWalkComplete .. => Uses.none
  | .atsTranslation .. => Uses.none
  | .lineMigration .. => Uses.none
  | .partitionWrite .. => Uses.none
  | .granuleMapWrite .. => Uses.none
  | .granuleRemapComplete .. => Uses.none
  | .mirrorSizeWrite .. => Uses.none
  | .hostPostedWrite .. => Uses.none
  | .hostRead .. => Uses.none
  | .cxlSnoop .. => Uses.none
  | .atsInvalidation .. => Uses.none
  | .roundEnd .. => Uses.none
  | .roundResume .. => Uses.none
  | .gridSyncMerge .. => Uses.none
  | .gridEndMerge .. => Uses.none
  | .cardStart .. => Uses.none
  | .aredMeet .. => Uses.none
  | .cardComplete .. => Uses.none
  | .cardFail .. => Uses.none
  | .channelMessageArrive .. => Uses.none
  | .doorbell .. => Uses.none
  | .skip .. => Uses.none
  | .haltClear .. => Uses.none
  | .queueEnable .. => Uses.none
  | .packetStart .. => Uses.none
  | .realtimePreempt .. => Uses.none
  | .taskPlacement .. => Uses.none
  | .binSwitch .. => Uses.none
  | .graphNodeComplete .. => Uses.none
  | .waitNodeExpiry .. => Uses.none
  | .frameBoundary .. => Uses.none
  | .budgetCharge .. => Uses.none
  | .issueAgeLimit .. => Uses.none
  | .poolMove .. => Uses.none
  | .poolMoveComplete .. => Uses.none
  | .nocGovernorSample .. => Uses.none
  | .hbmPowerDown .. => Uses.none
  | .hbmSelfRefresh .. => Uses.none
  | .hbmExit .. => Uses.none
  | .controlInterval .. => Uses.none
  | .admissionAgeing .. => Uses.none
  | .sensorSample .. => Uses.none
  | .t4Cutoff .. => Uses.none
  | .throttleRelease .. => Uses.none
  | .dieReenable .. => Uses.none
  | .hotspotMigration .. => Uses.none
  | .powerBudgetWrite .. => Uses.none
  | .occupancyThresholdWrite .. => Uses.none
  | .preemption .. => Uses.none
  | .timeSliceExpiry .. => Uses.none
  | .teamSaveComplete .. => Uses.none
  | .pgreplyRetry .. => Uses.none
  | .pgreplyDecline .. => Uses.none
  | .resumeContinue .. => Uses.none
  | .resumeSkip .. => Uses.none
  | .resumeEnd .. => Uses.none
  | .resumeKill .. => Uses.none
  | .replyHighWordLatch .. => Uses.none
  | .tqrdWrite .. => Uses.none
  | .tqerrRetry .. => Uses.none
  | .contextEnable .. => Uses.none
  | .contextDisable .. => Uses.none
  | .uncorrectableError .. => Uses.none
  | .lostSector .. => Uses.none
  | .correctedError .. => Uses.none
  | .coreRetire .. => Uses.none
  | .subbankSpare .. => Uses.none
  | .hbmRowRepair .. => Uses.none
  | .linkLaneSpare .. => Uses.none
  | .dieReinit .. => Uses.none
  | .dieReinitComplete .. => Uses.none
  | .lifetimeRecordWrite .. => Uses.none
  | .enmerFlitReceive .. => Uses.none
  | .enmerRemoteRequest .. => Uses.none
  | .peerTimeout .. => Uses.none
  | .peerMapWrite .. => Uses.none
  | .rdmaWrite .. => Uses.none
  | .ptpSync .. => Uses.none
  | .liveUpdate .. => Uses.none
  | .rollbackCounterAdvance .. => Uses.none
  | .getVersion .. => Uses.none
  | .getCapabilities .. => Uses.none
  | .negotiateAlgorithms .. => Uses.none
  | .getDigests .. => Uses.none
  | .getCertificate .. => Uses.none
  | .challenge .. => Uses.none
  | .getMeasurements .. => Uses.none
  | .keyExchange .. => Uses.none
  | .finish .. => Uses.none
  | .endSession .. => Uses.none
  | .pldmMonitor .. => Uses.none
  | .pldmFru .. => Uses.none
  | .pldmFirmwareUpdate .. => Uses.none
  | .lifetimeRecordRead .. => Uses.none
  | .registerWrite .. => Uses.none
  | .powerLoss .. => Uses.none
  | .hbmRowRepairComplete .. => Uses.none
  | .teamRestoreComplete .. => Uses.none

/-- The classes of an instruction at issue: variable-latency results (R92), role lists (R44), privilege (R72), what bramble
speculation stalls (R192), what a fence or acquire holds (R167), what ends a bridle quantum (R201). -/
def traits : Instr → Traits
  | .andLr .. => ⟨false, false, false, false, false, false, false⟩
  | .andLi .. => ⟨false, false, false, false, false, false, false⟩
  | .andXi .. => ⟨false, false, false, false, false, false, false⟩
  | .andn .. => ⟨false, false, false, false, false, false, false⟩
  | .ared .. => ⟨false, false, true, false, true, true, true⟩
  | .atomg .. => ⟨true, false, false, false, true, true, true⟩
  | .atomp .. => ⟨true, false, false, false, true, true, true⟩
  | .atoms .. => ⟨true, false, false, false, true, true, true⟩
  | .bar .. => ⟨false, false, false, false, true, false, true⟩
  | .bara .. => ⟨false, false, false, false, true, false, true⟩
  | .barw .. => ⟨false, false, false, false, true, false, true⟩
  | .bfi .. => ⟨false, false, false, false, false, false, false⟩
  | .bfx .. => ⟨false, false, false, false, false, false, false⟩
  | .bpt .. => ⟨false, false, false, false, true, false, false⟩
  | .bra .. => ⟨false, false, false, false, false, false, false⟩
  | .braGuarded .. => ⟨false, false, false, false, false, false, false⟩
  | .brev .. => ⟨false, false, false, false, false, false, false⟩
  | .brx .. => ⟨false, false, false, false, false, false, false⟩
  | .brxGuarded .. => ⟨false, false, false, false, false, false, false⟩
  | .call .. => ⟨false, false, false, false, false, false, false⟩
  | .callGuarded .. => ⟨false, false, false, false, false, false, false⟩
  | .calx .. => ⟨false, false, false, false, false, false, false⟩
  | .calxGuarded .. => ⟨false, false, false, false, false, false, false⟩
  | .clk .. => ⟨false, false, false, false, false, false, false⟩
  | .clz .. => ⟨false, false, false, false, false, false, false⟩
  | .cpy .. => ⟨false, false, true, false, true, true, true⟩
  | .cpyg .. => ⟨false, false, true, false, true, true, true⟩
  | .cpyr .. => ⟨false, false, true, false, true, true, true⟩
  | .cpyt .. => ⟨false, false, true, false, true, true, true⟩
  | .cvt .. => ⟨false, false, false, false, false, false, false⟩
  | .cvtp .. => ⟨false, false, false, false, false, false, false⟩
  | .cvtx .. => ⟨false, false, false, false, false, false, false⟩
  | .dqmx .. => ⟨true, false, false, false, false, false, false⟩
  | .eqry .. => ⟨true, false, false, false, true, false, false⟩
  | .ewt .. => ⟨false, false, false, false, true, false, true⟩
  | .exit .. => ⟨false, false, false, false, true, false, false⟩
  | .faddLr .. => ⟨false, false, false, false, false, false, false⟩
  | .faddXf .. => ⟨false, false, false, false, false, false, false⟩
  | .fcmpLc .. => ⟨false, false, false, false, false, false, false⟩
  | .fcmpXf .. => ⟨false, false, false, false, false, false, false⟩
  | .fcos .. => ⟨true, false, false, false, false, false, false⟩
  | .fex2 .. => ⟨true, false, false, false, false, false, false⟩
  | .flg2 .. => ⟨true, false, false, false, false, false, false⟩
  | .frcp .. => ⟨true, false, false, false, false, false, false⟩
  | .frsq .. => ⟨true, false, false, false, false, false, false⟩
  | .fsin .. => ⟨true, false, false, false, false, false, false⟩
  | .fsqrt .. => ⟨true, false, false, false, false, false, false⟩
  | .fenceAcq .. => ⟨false, false, false, false, true, true, true⟩
  | .fenceRel .. => ⟨false, false, false, false, true, true, true⟩
  | .fenceFull .. => ⟨false, false, false, false, true, true, true⟩
  | .fenceX .. => ⟨false, false, false, false, true, true, true⟩
  | .ffma .. => ⟨false, false, false, false, false, false, false⟩
  | .fmaxLr .. => ⟨false, false, false, false, false, false, false⟩
  | .fmaxXf .. => ⟨false, false, false, false, false, false, false⟩
  | .fminLr .. => ⟨false, false, false, false, false, false, false⟩
  | .fminXf .. => ⟨false, false, false, false, false, false, false⟩
  | .fmulLr .. => ⟨false, false, false, false, false, false, false⟩
  | .fmulXf .. => ⟨false, false, false, false, false, false, false⟩
  | .frnd .. => ⟨false, false, false, false, false, false, false⟩
  | .fshf .. => ⟨false, false, false, false, false, false, false⟩
  | .gargx .. => ⟨true, false, false, false, false, false, false⟩
  | .gred .. => ⟨true, false, false, false, false, false, false⟩
  | .gscan .. => ⟨true, false, false, false, false, false, false⟩
  | .gwait .. => ⟨false, false, false, false, true, false, false⟩
  | .hadd2 .. => ⟨false, false, false, false, false, false, false⟩
  | .hfma2 .. => ⟨false, false, false, false, false, false, false⟩
  | .hmul2 .. => ⟨false, false, false, false, false, false, false⟩
  | .hgb .. => ⟨false, false, true, false, true, true, true⟩
  | .hgf .. => ⟨false, false, true, false, true, true, true⟩
  | .iabs .. => ⟨false, false, false, false, false, false, false⟩
  | .iaddLr .. => ⟨false, false, false, false, false, false, false⟩
  | .iaddLi .. => ⟨false, false, false, false, false, false, false⟩
  | .iaddXi .. => ⟨false, false, false, false, false, false, false⟩
  | .imaxLr .. => ⟨false, false, false, false, false, false, false⟩
  | .imaxXi .. => ⟨false, false, false, false, false, false, false⟩
  | .iminLr .. => ⟨false, false, false, false, false, false, false⟩
  | .iminXi .. => ⟨false, false, false, false, false, false, false⟩
  | .imulLr .. => ⟨false, false, false, false, false, false, false⟩
  | .imulXi .. => ⟨false, false, false, false, false, false, false⟩
  | .isubLr .. => ⟨false, false, false, false, false, false, false⟩
  | .isubXi .. => ⟨false, false, false, false, false, false, false⟩
  | .iaddx .. => ⟨false, false, false, false, false, false, false⟩
  | .icmpLc .. => ⟨false, false, false, false, false, false, false⟩
  | .icmpXi .. => ⟨false, false, false, false, false, false, false⟩
  | .idp4 .. => ⟨false, false, false, false, false, false, false⟩
  | .imad .. => ⟨false, false, false, false, false, false, false⟩
  | .imadw .. => ⟨false, false, false, false, false, false, false⟩
  | .imulh .. => ⟨false, false, false, false, false, false, false⟩
  | .isel .. => ⟨false, false, false, false, false, false, false⟩
  | .isync .. => ⟨false, false, false, false, true, false, false⟩
  | .ldg .. => ⟨true, false, false, false, false, true, false⟩
  | .ldkLm .. => ⟨true, false, false, false, false, true, false⟩
  | .ldkXm .. => ⟨true, false, false, false, false, true, false⟩
  | .ldpLm .. => ⟨true, false, false, false, false, true, false⟩
  | .ldpXm .. => ⟨true, false, false, false, false, true, false⟩
  | .ldsLm .. => ⟨true, false, false, false, false, true, false⟩
  | .ldsXm .. => ⟨true, false, false, false, false, true, false⟩
  | .ldr .. => ⟨true, false, false, false, true, true, false⟩
  | .lea .. => ⟨false, false, false, false, false, false, false⟩
  | .lnxt .. => ⟨false, false, false, false, true, false, false⟩
  | .matchLanes .. => ⟨true, false, false, false, false, false, false⟩
  | .mld .. => ⟨true, true, false, false, false, true, false⟩
  | .mma .. => ⟨true, true, false, false, false, false, false⟩
  | .mmax .. => ⟨true, true, false, false, false, false, false⟩
  | .mst .. => ⟨false, true, false, false, false, true, false⟩
  | .mzro .. => ⟨false, true, false, false, false, false, false⟩
  | .movLr .. => ⟨false, false, false, false, false, false, false⟩
  | .movXi .. => ⟨false, false, false, false, false, false, false⟩
  | .movg .. => ⟨false, false, false, false, false, false, false⟩
  | .movi .. => ⟨false, false, false, false, false, false, false⟩
  | .movs .. => ⟨false, false, false, false, false, false, false⟩
  | .nop .. => ⟨false, false, false, false, false, false, false⟩
  | .oadm .. => ⟨true, false, false, false, false, false, false⟩
  | .osgd .. => ⟨false, false, false, false, false, false, false⟩
  | .orLr .. => ⟨false, false, false, false, false, false, false⟩
  | .orLi .. => ⟨false, false, false, false, false, false, false⟩
  | .orXi .. => ⟨false, false, false, false, false, false, false⟩
  | .pfg .. => ⟨false, false, false, false, false, false, false⟩
  | .phf .. => ⟨false, false, false, false, true, false, true⟩
  | .phw .. => ⟨false, false, false, false, true, false, true⟩
  | .plop .. => ⟨false, false, false, false, false, false, false⟩
  | .popc .. => ⟨false, false, false, false, false, false, false⟩
  | .pswz .. => ⟨false, false, false, false, false, false, false⟩
  | .qmx .. => ⟨true, false, false, false, false, false, false⟩
  | .rast .. => ⟨false, false, true, false, true, true, true⟩
  | .recv .. => ⟨false, false, false, false, true, true, true⟩
  | .send .. => ⟨false, false, false, false, true, true, true⟩
  | .redg .. => ⟨false, false, false, false, true, true, true⟩
  | .redp .. => ⟨false, false, false, false, true, true, true⟩
  | .reds .. => ⟨false, false, false, false, true, true, true⟩
  | .ret .. => ⟨false, false, false, false, false, false, false⟩
  | .rxbox .. => ⟨true, false, false, false, false, false, false⟩
  | .rxtri .. => ⟨true, false, false, false, false, false, false⟩
  | .sets .. => ⟨false, false, false, false, false, false, false⟩
  | .shfl .. => ⟨true, false, false, false, false, false, false⟩
  | .shlLr .. => ⟨false, false, false, false, false, false, false⟩
  | .shlLi .. => ⟨false, false, false, false, false, false, false⟩
  | .shlXi .. => ⟨false, false, false, false, false, false, false⟩
  | .shrLr .. => ⟨false, false, false, false, false, false, false⟩
  | .shrLi .. => ⟨false, false, false, false, false, false, false⟩
  | .shrXi .. => ⟨false, false, false, false, false, false, false⟩
  | .shraLr .. => ⟨false, false, false, false, false, false, false⟩
  | .shraLi .. => ⟨false, false, false, false, false, false, false⟩
  | .shraXi .. => ⟨false, false, false, false, false, false, false⟩
  | .stc .. => ⟨true, false, false, false, true, true, false⟩
  | .stg .. => ⟨false, false, false, false, false, true, false⟩
  | .stkLm .. => ⟨false, false, false, false, false, true, false⟩
  | .stkXm .. => ⟨false, false, false, false, false, true, false⟩
  | .stpLm .. => ⟨false, false, false, false, false, true, false⟩
  | .stpXm .. => ⟨false, false, false, false, false, true, false⟩
  | .stsLm .. => ⟨false, false, false, false, false, true, false⟩
  | .stsXm .. => ⟨false, false, false, false, false, true, false⟩
  | .texg .. => ⟨true, false, false, false, true, true, false⟩
  | .texl .. => ⟨true, false, false, false, true, true, false⟩
  | .texs .. => ⟨true, false, false, false, true, true, false⟩
  | .time .. => ⟨false, false, false, false, false, false, false⟩
  | .tlbiPage .. => ⟨false, false, false, true, true, false, false⟩
  | .tlbiCtx .. => ⟨false, false, false, true, true, false, false⟩
  | .tlbiAll .. => ⟨false, false, false, true, true, false, false⟩
  | .trap .. => ⟨false, false, false, false, true, false, false⟩
  | .tspn .. => ⟨false, false, false, false, true, true, false⟩
  | .tsus .. => ⟨false, false, false, false, true, true, false⟩
  | .uadd .. => ⟨false, false, false, false, false, false, false⟩
  | .usub .. => ⟨false, false, false, false, false, false, false⟩
  | .umul .. => ⟨false, false, false, false, false, false, false⟩
  | .uand .. => ⟨false, false, false, false, false, false, false⟩
  | .uor .. => ⟨false, false, false, false, false, false, false⟩
  | .uxor .. => ⟨false, false, false, false, false, false, false⟩
  | .ushl .. => ⟨false, false, false, false, false, false, false⟩
  | .ushr .. => ⟨false, false, false, false, false, false, false⟩
  | .ubra .. => ⟨false, false, false, false, false, false, false⟩
  | .ucmp .. => ⟨false, false, false, false, false, false, false⟩
  | .uldShared .. => ⟨true, false, false, false, false, true, false⟩
  | .uldPad .. => ⟨true, false, false, false, false, true, false⟩
  | .uldGlobal .. => ⟨true, false, false, false, false, true, false⟩
  | .ustShared .. => ⟨false, false, false, false, false, true, false⟩
  | .ustPad .. => ⟨false, false, false, false, false, true, false⟩
  | .ustGlobal .. => ⟨false, false, false, false, false, true, false⟩
  | .uloop .. => ⟨false, false, false, false, false, false, false⟩
  | .umov .. => ⟨false, false, false, false, false, false, false⟩
  | .umovi .. => ⟨false, false, false, false, false, false, false⟩
  | .umovv .. => ⟨false, false, false, false, false, false, false⟩
  | .usel .. => ⟨false, false, false, false, false, false, false⟩
  | .vote .. => ⟨true, false, false, false, false, false, false⟩
  | .wbak .. => ⟨true, false, false, false, true, true, false⟩
  | .wpin .. => ⟨true, false, false, false, true, true, false⟩
  | .wpub .. => ⟨false, false, false, false, true, true, false⟩
  | .wunp .. => ⟨false, false, false, false, true, true, false⟩
  | .xorLr .. => ⟨false, false, false, false, false, false, false⟩
  | .xorLi .. => ⟨false, false, false, false, false, false, false⟩
  | .xorXi .. => ⟨false, false, false, false, false, false, false⟩
  | .yld .. => ⟨false, false, false, false, false, false, false⟩
  | .powerUp .. => ⟨false, false, false, false, false, false, false⟩
  | .bundleFormation .. => ⟨false, false, false, false, false, false, false⟩
  | .fairnessTimer .. => ⟨false, false, false, false, false, false, false⟩
  | .cinchWindowClose .. => ⟨false, false, false, false, false, false, false⟩
  | .variableLatencyWriteback .. => ⟨false, false, false, false, false, false, false⟩
  | .writeAcknowledge .. => ⟨false, false, false, false, false, false, false⟩
  | .brambleCommit .. => ⟨false, false, false, false, false, false, false⟩
  | .clusterPlacement .. => ⟨false, false, false, false, false, false, false⟩
  | .bridleClusterPlacement .. => ⟨false, false, false, false, false, false, false⟩
  | .teamRetire .. => ⟨false, false, false, false, false, false, false⟩
  | .cardLineLanded .. => ⟨false, false, false, false, false, false, false⟩
  | .pageWalkComplete .. => ⟨false, false, false, false, false, false, false⟩
  | .atsTranslation .. => ⟨false, false, false, false, false, false, false⟩
  | .lineMigration .. => ⟨false, false, false, false, false, false, false⟩
  | .partitionWrite .. => ⟨false, false, false, false, false, false, false⟩
  | .granuleMapWrite .. => ⟨false, false, false, false, false, false, false⟩
  | .granuleRemapComplete .. => ⟨false, false, false, false, false, false, false⟩
  | .mirrorSizeWrite .. => ⟨false, false, false, false, false, false, false⟩
  | .hostPostedWrite .. => ⟨false, false, false, false, false, false, false⟩
  | .hostRead .. => ⟨false, false, false, false, false, false, false⟩
  | .cxlSnoop .. => ⟨false, false, false, false, false, false, false⟩
  | .atsInvalidation .. => ⟨false, false, false, false, false, false, false⟩
  | .roundEnd .. => ⟨false, false, false, false, false, false, false⟩
  | .roundResume .. => ⟨false, false, false, false, false, false, false⟩
  | .gridSyncMerge .. => ⟨false, false, false, false, false, false, false⟩
  | .gridEndMerge .. => ⟨false, false, false, false, false, false, false⟩
  | .cardStart .. => ⟨false, false, false, false, false, false, false⟩
  | .aredMeet .. => ⟨false, false, false, false, false, false, false⟩
  | .cardComplete .. => ⟨false, false, false, false, false, false, false⟩
  | .cardFail .. => ⟨false, false, false, false, false, false, false⟩
  | .channelMessageArrive .. => ⟨false, false, false, false, false, false, false⟩
  | .doorbell .. => ⟨false, false, false, false, false, false, false⟩
  | .skip .. => ⟨false, false, false, false, false, false, false⟩
  | .haltClear .. => ⟨false, false, false, false, false, false, false⟩
  | .queueEnable .. => ⟨false, false, false, false, false, false, false⟩
  | .packetStart .. => ⟨false, false, false, false, false, false, false⟩
  | .realtimePreempt .. => ⟨false, false, false, false, false, false, false⟩
  | .taskPlacement .. => ⟨false, false, false, false, false, false, false⟩
  | .binSwitch .. => ⟨false, false, false, false, false, false, false⟩
  | .graphNodeComplete .. => ⟨false, false, false, false, false, false, false⟩
  | .waitNodeExpiry .. => ⟨false, false, false, false, false, false, false⟩
  | .frameBoundary .. => ⟨false, false, false, false, false, false, false⟩
  | .budgetCharge .. => ⟨false, false, false, false, false, false, false⟩
  | .issueAgeLimit .. => ⟨false, false, false, false, false, false, false⟩
  | .poolMove .. => ⟨false, false, false, false, false, false, false⟩
  | .poolMoveComplete .. => ⟨false, false, false, false, false, false, false⟩
  | .nocGovernorSample .. => ⟨false, false, false, false, false, false, false⟩
  | .hbmPowerDown .. => ⟨false, false, false, false, false, false, false⟩
  | .hbmSelfRefresh .. => ⟨false, false, false, false, false, false, false⟩
  | .hbmExit .. => ⟨false, false, false, false, false, false, false⟩
  | .controlInterval .. => ⟨false, false, false, false, false, false, false⟩
  | .admissionAgeing .. => ⟨false, false, false, false, false, false, false⟩
  | .sensorSample .. => ⟨false, false, false, false, false, false, false⟩
  | .t4Cutoff .. => ⟨false, false, false, false, false, false, false⟩
  | .throttleRelease .. => ⟨false, false, false, false, false, false, false⟩
  | .dieReenable .. => ⟨false, false, false, false, false, false, false⟩
  | .hotspotMigration .. => ⟨false, false, false, false, false, false, false⟩
  | .powerBudgetWrite .. => ⟨false, false, false, false, false, false, false⟩
  | .occupancyThresholdWrite .. => ⟨false, false, false, false, false, false, false⟩
  | .preemption .. => ⟨false, false, false, false, false, false, false⟩
  | .timeSliceExpiry .. => ⟨false, false, false, false, false, false, false⟩
  | .teamSaveComplete .. => ⟨false, false, false, false, false, false, false⟩
  | .pgreplyRetry .. => ⟨false, false, false, false, false, false, false⟩
  | .pgreplyDecline .. => ⟨false, false, false, false, false, false, false⟩
  | .resumeContinue .. => ⟨false, false, false, false, false, false, false⟩
  | .resumeSkip .. => ⟨false, false, false, false, false, false, false⟩
  | .resumeEnd .. => ⟨false, false, false, false, false, false, false⟩
  | .resumeKill .. => ⟨false, false, false, false, false, false, false⟩
  | .replyHighWordLatch .. => ⟨false, false, false, false, false, false, false⟩
  | .tqrdWrite .. => ⟨false, false, false, false, false, false, false⟩
  | .tqerrRetry .. => ⟨false, false, false, false, false, false, false⟩
  | .contextEnable .. => ⟨false, false, false, false, false, false, false⟩
  | .contextDisable .. => ⟨false, false, false, false, false, false, false⟩
  | .uncorrectableError .. => ⟨false, false, false, false, false, false, false⟩
  | .lostSector .. => ⟨false, false, false, false, false, false, false⟩
  | .correctedError .. => ⟨false, false, false, false, false, false, false⟩
  | .coreRetire .. => ⟨false, false, false, false, false, false, false⟩
  | .subbankSpare .. => ⟨false, false, false, false, false, false, false⟩
  | .hbmRowRepair .. => ⟨false, false, false, false, false, false, false⟩
  | .linkLaneSpare .. => ⟨false, false, false, false, false, false, false⟩
  | .dieReinit .. => ⟨false, false, false, false, false, false, false⟩
  | .dieReinitComplete .. => ⟨false, false, false, false, false, false, false⟩
  | .lifetimeRecordWrite .. => ⟨false, false, false, false, false, false, false⟩
  | .enmerFlitReceive .. => ⟨false, false, false, false, false, false, false⟩
  | .enmerRemoteRequest .. => ⟨false, false, false, false, false, false, false⟩
  | .peerTimeout .. => ⟨false, false, false, false, false, false, false⟩
  | .peerMapWrite .. => ⟨false, false, false, false, false, false, false⟩
  | .rdmaWrite .. => ⟨false, false, false, false, false, false, false⟩
  | .ptpSync .. => ⟨false, false, false, false, false, false, false⟩
  | .liveUpdate .. => ⟨false, false, false, false, false, false, false⟩
  | .rollbackCounterAdvance .. => ⟨false, false, false, false, false, false, false⟩
  | .getVersion .. => ⟨false, false, false, false, false, false, false⟩
  | .getCapabilities .. => ⟨false, false, false, false, false, false, false⟩
  | .negotiateAlgorithms .. => ⟨false, false, false, false, false, false, false⟩
  | .getDigests .. => ⟨false, false, false, false, false, false, false⟩
  | .getCertificate .. => ⟨false, false, false, false, false, false, false⟩
  | .challenge .. => ⟨false, false, false, false, false, false, false⟩
  | .getMeasurements .. => ⟨false, false, false, false, false, false, false⟩
  | .keyExchange .. => ⟨false, false, false, false, false, false, false⟩
  | .finish .. => ⟨false, false, false, false, false, false, false⟩
  | .endSession .. => ⟨false, false, false, false, false, false, false⟩
  | .pldmMonitor .. => ⟨false, false, false, false, false, false, false⟩
  | .pldmFru .. => ⟨false, false, false, false, false, false, false⟩
  | .pldmFirmwareUpdate .. => ⟨false, false, false, false, false, false, false⟩
  | .lifetimeRecordRead .. => ⟨false, false, false, false, false, false, false⟩
  | .registerWrite .. => ⟨false, false, false, false, false, false, false⟩
  | .powerLoss .. => ⟨false, false, false, false, false, false, false⟩
  | .hbmRowRepairComplete .. => ⟨false, false, false, false, false, false, false⟩
  | .teamRestoreComplete .. => ⟨false, false, false, false, false, false, false⟩

/-- SW and SCOPE of an instruction; an event has neither. -/
def headOf : Instr → Head
  | .andLr h .. => h
  | .andLi h .. => h
  | .andXi h .. => h
  | .andn h .. => h
  | .ared h .. => h
  | .atomg h .. => h
  | .atomp h .. => h
  | .atoms h .. => h
  | .bar h .. => h
  | .bara h .. => h
  | .barw h .. => h
  | .bfi h .. => h
  | .bfx h .. => h
  | .bpt h => h
  | .bra h .. => h
  | .braGuarded h .. => h
  | .brev h .. => h
  | .brx h .. => h
  | .brxGuarded h .. => h
  | .call h .. => h
  | .callGuarded h .. => h
  | .calx h .. => h
  | .calxGuarded h .. => h
  | .clk h .. => h
  | .clz h .. => h
  | .cpy h .. => h
  | .cpyg h .. => h
  | .cpyr h .. => h
  | .cpyt h .. => h
  | .cvt h .. => h
  | .cvtp h .. => h
  | .cvtx h .. => h
  | .dqmx h .. => h
  | .eqry h .. => h
  | .ewt h .. => h
  | .exit h => h
  | .faddLr h .. => h
  | .faddXf h .. => h
  | .fcmpLc h .. => h
  | .fcmpXf h .. => h
  | .fcos h .. => h
  | .fex2 h .. => h
  | .flg2 h .. => h
  | .frcp h .. => h
  | .frsq h .. => h
  | .fsin h .. => h
  | .fsqrt h .. => h
  | .fenceAcq h => h
  | .fenceRel h => h
  | .fenceFull h => h
  | .fenceX h => h
  | .ffma h .. => h
  | .fmaxLr h .. => h
  | .fmaxXf h .. => h
  | .fminLr h .. => h
  | .fminXf h .. => h
  | .fmulLr h .. => h
  | .fmulXf h .. => h
  | .frnd h .. => h
  | .fshf h .. => h
  | .gargx h .. => h
  | .gred h .. => h
  | .gscan h .. => h
  | .gwait h => h
  | .hadd2 h .. => h
  | .hfma2 h .. => h
  | .hmul2 h .. => h
  | .hgb h .. => h
  | .hgf h .. => h
  | .iabs h .. => h
  | .iaddLr h .. => h
  | .iaddLi h .. => h
  | .iaddXi h .. => h
  | .imaxLr h .. => h
  | .imaxXi h .. => h
  | .iminLr h .. => h
  | .iminXi h .. => h
  | .imulLr h .. => h
  | .imulXi h .. => h
  | .isubLr h .. => h
  | .isubXi h .. => h
  | .iaddx h .. => h
  | .icmpLc h .. => h
  | .icmpXi h .. => h
  | .idp4 h .. => h
  | .imad h .. => h
  | .imadw h .. => h
  | .imulh h .. => h
  | .isel h .. => h
  | .isync h => h
  | .ldg h .. => h
  | .ldkLm h .. => h
  | .ldkXm h .. => h
  | .ldpLm h .. => h
  | .ldpXm h .. => h
  | .ldsLm h .. => h
  | .ldsXm h .. => h
  | .ldr h .. => h
  | .lea h .. => h
  | .lnxt h => h
  | .matchLanes h .. => h
  | .mld h .. => h
  | .mma h .. => h
  | .mmax h .. => h
  | .mst h .. => h
  | .mzro h .. => h
  | .movLr h .. => h
  | .movXi h .. => h
  | .movg h .. => h
  | .movi h .. => h
  | .movs h .. => h
  | .nop h => h
  | .oadm h .. => h
  | .osgd h .. => h
  | .orLr h .. => h
  | .orLi h .. => h
  | .orXi h .. => h
  | .pfg h .. => h
  | .phf h .. => h
  | .phw h .. => h
  | .plop h .. => h
  | .popc h .. => h
  | .pswz h .. => h
  | .qmx h .. => h
  | .rast h .. => h
  | .recv h .. => h
  | .send h .. => h
  | .redg h .. => h
  | .redp h .. => h
  | .reds h .. => h
  | .ret h => h
  | .rxbox h .. => h
  | .rxtri h .. => h
  | .sets h .. => h
  | .shfl h .. => h
  | .shlLr h .. => h
  | .shlLi h .. => h
  | .shlXi h .. => h
  | .shrLr h .. => h
  | .shrLi h .. => h
  | .shrXi h .. => h
  | .shraLr h .. => h
  | .shraLi h .. => h
  | .shraXi h .. => h
  | .stc h .. => h
  | .stg h .. => h
  | .stkLm h .. => h
  | .stkXm h .. => h
  | .stpLm h .. => h
  | .stpXm h .. => h
  | .stsLm h .. => h
  | .stsXm h .. => h
  | .texg h .. => h
  | .texl h .. => h
  | .texs h .. => h
  | .time h .. => h
  | .tlbiPage h .. => h
  | .tlbiCtx h .. => h
  | .tlbiAll h => h
  | .trap h .. => h
  | .tspn h .. => h
  | .tsus h .. => h
  | .uadd h .. => h
  | .usub h .. => h
  | .umul h .. => h
  | .uand h .. => h
  | .uor h .. => h
  | .uxor h .. => h
  | .ushl h .. => h
  | .ushr h .. => h
  | .ubra h .. => h
  | .ucmp h .. => h
  | .uldShared h .. => h
  | .uldPad h .. => h
  | .uldGlobal h .. => h
  | .ustShared h .. => h
  | .ustPad h .. => h
  | .ustGlobal h .. => h
  | .uloop h .. => h
  | .umov h .. => h
  | .umovi h .. => h
  | .umovv h .. => h
  | .usel h .. => h
  | .vote h .. => h
  | .wbak h .. => h
  | .wpin h .. => h
  | .wpub h .. => h
  | .wunp h .. => h
  | .xorLr h .. => h
  | .xorLi h .. => h
  | .xorXi h .. => h
  | .yld h => h
  | .powerUp .. => ⟨false, .lane⟩
  | .bundleFormation .. => ⟨false, .lane⟩
  | .fairnessTimer .. => ⟨false, .lane⟩
  | .cinchWindowClose .. => ⟨false, .lane⟩
  | .variableLatencyWriteback .. => ⟨false, .lane⟩
  | .writeAcknowledge .. => ⟨false, .lane⟩
  | .brambleCommit .. => ⟨false, .lane⟩
  | .clusterPlacement .. => ⟨false, .lane⟩
  | .bridleClusterPlacement .. => ⟨false, .lane⟩
  | .teamRetire .. => ⟨false, .lane⟩
  | .cardLineLanded .. => ⟨false, .lane⟩
  | .pageWalkComplete .. => ⟨false, .lane⟩
  | .atsTranslation .. => ⟨false, .lane⟩
  | .lineMigration .. => ⟨false, .lane⟩
  | .partitionWrite .. => ⟨false, .lane⟩
  | .granuleMapWrite .. => ⟨false, .lane⟩
  | .granuleRemapComplete .. => ⟨false, .lane⟩
  | .mirrorSizeWrite .. => ⟨false, .lane⟩
  | .hostPostedWrite .. => ⟨false, .lane⟩
  | .hostRead .. => ⟨false, .lane⟩
  | .cxlSnoop .. => ⟨false, .lane⟩
  | .atsInvalidation .. => ⟨false, .lane⟩
  | .roundEnd .. => ⟨false, .lane⟩
  | .roundResume .. => ⟨false, .lane⟩
  | .gridSyncMerge .. => ⟨false, .lane⟩
  | .gridEndMerge .. => ⟨false, .lane⟩
  | .cardStart .. => ⟨false, .lane⟩
  | .aredMeet .. => ⟨false, .lane⟩
  | .cardComplete .. => ⟨false, .lane⟩
  | .cardFail .. => ⟨false, .lane⟩
  | .channelMessageArrive .. => ⟨false, .lane⟩
  | .doorbell .. => ⟨false, .lane⟩
  | .skip .. => ⟨false, .lane⟩
  | .haltClear .. => ⟨false, .lane⟩
  | .queueEnable .. => ⟨false, .lane⟩
  | .packetStart .. => ⟨false, .lane⟩
  | .realtimePreempt .. => ⟨false, .lane⟩
  | .taskPlacement .. => ⟨false, .lane⟩
  | .binSwitch .. => ⟨false, .lane⟩
  | .graphNodeComplete .. => ⟨false, .lane⟩
  | .waitNodeExpiry .. => ⟨false, .lane⟩
  | .frameBoundary .. => ⟨false, .lane⟩
  | .budgetCharge .. => ⟨false, .lane⟩
  | .issueAgeLimit .. => ⟨false, .lane⟩
  | .poolMove .. => ⟨false, .lane⟩
  | .poolMoveComplete .. => ⟨false, .lane⟩
  | .nocGovernorSample .. => ⟨false, .lane⟩
  | .hbmPowerDown .. => ⟨false, .lane⟩
  | .hbmSelfRefresh .. => ⟨false, .lane⟩
  | .hbmExit .. => ⟨false, .lane⟩
  | .controlInterval .. => ⟨false, .lane⟩
  | .admissionAgeing .. => ⟨false, .lane⟩
  | .sensorSample .. => ⟨false, .lane⟩
  | .t4Cutoff .. => ⟨false, .lane⟩
  | .throttleRelease .. => ⟨false, .lane⟩
  | .dieReenable .. => ⟨false, .lane⟩
  | .hotspotMigration .. => ⟨false, .lane⟩
  | .powerBudgetWrite .. => ⟨false, .lane⟩
  | .occupancyThresholdWrite .. => ⟨false, .lane⟩
  | .preemption .. => ⟨false, .lane⟩
  | .timeSliceExpiry .. => ⟨false, .lane⟩
  | .teamSaveComplete .. => ⟨false, .lane⟩
  | .pgreplyRetry .. => ⟨false, .lane⟩
  | .pgreplyDecline .. => ⟨false, .lane⟩
  | .resumeContinue .. => ⟨false, .lane⟩
  | .resumeSkip .. => ⟨false, .lane⟩
  | .resumeEnd .. => ⟨false, .lane⟩
  | .resumeKill .. => ⟨false, .lane⟩
  | .replyHighWordLatch .. => ⟨false, .lane⟩
  | .tqrdWrite .. => ⟨false, .lane⟩
  | .tqerrRetry .. => ⟨false, .lane⟩
  | .contextEnable .. => ⟨false, .lane⟩
  | .contextDisable .. => ⟨false, .lane⟩
  | .uncorrectableError .. => ⟨false, .lane⟩
  | .lostSector .. => ⟨false, .lane⟩
  | .correctedError .. => ⟨false, .lane⟩
  | .coreRetire .. => ⟨false, .lane⟩
  | .subbankSpare .. => ⟨false, .lane⟩
  | .hbmRowRepair .. => ⟨false, .lane⟩
  | .linkLaneSpare .. => ⟨false, .lane⟩
  | .dieReinit .. => ⟨false, .lane⟩
  | .dieReinitComplete .. => ⟨false, .lane⟩
  | .lifetimeRecordWrite .. => ⟨false, .lane⟩
  | .enmerFlitReceive .. => ⟨false, .lane⟩
  | .enmerRemoteRequest .. => ⟨false, .lane⟩
  | .peerTimeout .. => ⟨false, .lane⟩
  | .peerMapWrite .. => ⟨false, .lane⟩
  | .rdmaWrite .. => ⟨false, .lane⟩
  | .ptpSync .. => ⟨false, .lane⟩
  | .liveUpdate .. => ⟨false, .lane⟩
  | .rollbackCounterAdvance .. => ⟨false, .lane⟩
  | .getVersion .. => ⟨false, .lane⟩
  | .getCapabilities .. => ⟨false, .lane⟩
  | .negotiateAlgorithms .. => ⟨false, .lane⟩
  | .getDigests .. => ⟨false, .lane⟩
  | .getCertificate .. => ⟨false, .lane⟩
  | .challenge .. => ⟨false, .lane⟩
  | .getMeasurements .. => ⟨false, .lane⟩
  | .keyExchange .. => ⟨false, .lane⟩
  | .finish .. => ⟨false, .lane⟩
  | .endSession .. => ⟨false, .lane⟩
  | .pldmMonitor .. => ⟨false, .lane⟩
  | .pldmFru .. => ⟨false, .lane⟩
  | .pldmFirmwareUpdate .. => ⟨false, .lane⟩
  | .lifetimeRecordRead .. => ⟨false, .lane⟩
  | .registerWrite .. => ⟨false, .lane⟩
  | .powerLoss .. => ⟨false, .lane⟩
  | .hbmRowRepairComplete .. => ⟨false, .lane⟩
  | .teamRestoreComplete .. => ⟨false, .lane⟩

/-- UNI of an instruction (R69, R90). -/
def uniOf : Instr → Bool
  | .andLr _ u .. => u
  | .andLi _ u .. => u
  | .andXi _ u .. => u
  | .andn _ u .. => u
  | .ared .. => false
  | .atomg .. => false
  | .atomp .. => false
  | .atoms .. => false
  | .bar .. => false
  | .bara .. => false
  | .barw .. => false
  | .bfi _ u .. => u
  | .bfx _ u .. => u
  | .bpt .. => false
  | .bra .. => false
  | .braGuarded .. => false
  | .brev _ u .. => u
  | .brx .. => false
  | .brxGuarded .. => false
  | .call .. => false
  | .callGuarded .. => false
  | .calx .. => false
  | .calxGuarded .. => false
  | .clk .. => false
  | .clz _ u .. => u
  | .cpy .. => false
  | .cpyg .. => false
  | .cpyr .. => false
  | .cpyt .. => false
  | .cvt _ u .. => u
  | .cvtp _ u .. => u
  | .cvtx _ u .. => u
  | .dqmx .. => false
  | .eqry .. => false
  | .ewt .. => false
  | .exit .. => false
  | .faddLr _ u .. => u
  | .faddXf _ u .. => u
  | .fcmpLc _ u .. => u
  | .fcmpXf _ u .. => u
  | .fcos _ u .. => u
  | .fex2 _ u .. => u
  | .flg2 _ u .. => u
  | .frcp _ u .. => u
  | .frsq _ u .. => u
  | .fsin _ u .. => u
  | .fsqrt _ u .. => u
  | .fenceAcq .. => false
  | .fenceRel .. => false
  | .fenceFull .. => false
  | .fenceX .. => false
  | .ffma _ u .. => u
  | .fmaxLr _ u .. => u
  | .fmaxXf _ u .. => u
  | .fminLr _ u .. => u
  | .fminXf _ u .. => u
  | .fmulLr _ u .. => u
  | .fmulXf _ u .. => u
  | .frnd _ u .. => u
  | .fshf _ u .. => u
  | .gargx .. => false
  | .gred .. => false
  | .gscan .. => false
  | .gwait .. => false
  | .hadd2 _ u .. => u
  | .hfma2 _ u .. => u
  | .hmul2 _ u .. => u
  | .hgb .. => false
  | .hgf .. => false
  | .iabs _ u .. => u
  | .iaddLr _ u .. => u
  | .iaddLi _ u .. => u
  | .iaddXi _ u .. => u
  | .imaxLr _ u .. => u
  | .imaxXi _ u .. => u
  | .iminLr _ u .. => u
  | .iminXi _ u .. => u
  | .imulLr _ u .. => u
  | .imulXi _ u .. => u
  | .isubLr _ u .. => u
  | .isubXi _ u .. => u
  | .iaddx _ u .. => u
  | .icmpLc _ u .. => u
  | .icmpXi _ u .. => u
  | .idp4 _ u .. => u
  | .imad _ u .. => u
  | .imadw _ u .. => u
  | .imulh _ u .. => u
  | .isel _ u .. => u
  | .isync .. => false
  | .ldg _ u .. => u
  | .ldkLm _ u .. => u
  | .ldkXm _ u .. => u
  | .ldpLm _ u .. => u
  | .ldpXm _ u .. => u
  | .ldsLm _ u .. => u
  | .ldsXm _ u .. => u
  | .ldr .. => false
  | .lea _ u .. => u
  | .lnxt .. => false
  | .matchLanes .. => false
  | .mld .. => false
  | .mma .. => false
  | .mmax .. => false
  | .mst .. => false
  | .mzro .. => false
  | .movLr _ u .. => u
  | .movXi _ u .. => u
  | .movg _ u .. => u
  | .movi _ u .. => u
  | .movs _ u .. => u
  | .nop .. => false
  | .oadm .. => false
  | .osgd .. => false
  | .orLr _ u .. => u
  | .orLi _ u .. => u
  | .orXi _ u .. => u
  | .pfg .. => false
  | .phf .. => false
  | .phw .. => false
  | .plop _ u .. => u
  | .popc _ u .. => u
  | .pswz _ u .. => u
  | .qmx .. => false
  | .rast .. => false
  | .recv .. => false
  | .send .. => false
  | .redg .. => false
  | .redp .. => false
  | .reds .. => false
  | .ret .. => false
  | .rxbox .. => false
  | .rxtri .. => false
  | .sets .. => false
  | .shfl .. => false
  | .shlLr _ u .. => u
  | .shlLi _ u .. => u
  | .shlXi _ u .. => u
  | .shrLr _ u .. => u
  | .shrLi _ u .. => u
  | .shrXi _ u .. => u
  | .shraLr _ u .. => u
  | .shraLi _ u .. => u
  | .shraXi _ u .. => u
  | .stc .. => false
  | .stg .. => false
  | .stkLm .. => false
  | .stkXm .. => false
  | .stpLm .. => false
  | .stpXm .. => false
  | .stsLm .. => false
  | .stsXm .. => false
  | .texg .. => false
  | .texl .. => false
  | .texs .. => false
  | .time .. => false
  | .tlbiPage .. => false
  | .tlbiCtx .. => false
  | .tlbiAll .. => false
  | .trap .. => false
  | .tspn .. => false
  | .tsus .. => false
  | .uadd .. => false
  | .usub .. => false
  | .umul .. => false
  | .uand .. => false
  | .uor .. => false
  | .uxor .. => false
  | .ushl .. => false
  | .ushr .. => false
  | .ubra .. => false
  | .ucmp .. => false
  | .uldShared .. => false
  | .uldPad .. => false
  | .uldGlobal .. => false
  | .ustShared .. => false
  | .ustPad .. => false
  | .ustGlobal .. => false
  | .uloop .. => false
  | .umov .. => false
  | .umovi .. => false
  | .umovv .. => false
  | .usel .. => false
  | .vote .. => false
  | .wbak .. => false
  | .wpin .. => false
  | .wpub .. => false
  | .wunp .. => false
  | .xorLr _ u .. => u
  | .xorLi _ u .. => u
  | .xorXi _ u .. => u
  | .yld .. => false
  | .powerUp .. => false
  | .bundleFormation .. => false
  | .fairnessTimer .. => false
  | .cinchWindowClose .. => false
  | .variableLatencyWriteback .. => false
  | .writeAcknowledge .. => false
  | .brambleCommit .. => false
  | .clusterPlacement .. => false
  | .bridleClusterPlacement .. => false
  | .teamRetire .. => false
  | .cardLineLanded .. => false
  | .pageWalkComplete .. => false
  | .atsTranslation .. => false
  | .lineMigration .. => false
  | .partitionWrite .. => false
  | .granuleMapWrite .. => false
  | .granuleRemapComplete .. => false
  | .mirrorSizeWrite .. => false
  | .hostPostedWrite .. => false
  | .hostRead .. => false
  | .cxlSnoop .. => false
  | .atsInvalidation .. => false
  | .roundEnd .. => false
  | .roundResume .. => false
  | .gridSyncMerge .. => false
  | .gridEndMerge .. => false
  | .cardStart .. => false
  | .aredMeet .. => false
  | .cardComplete .. => false
  | .cardFail .. => false
  | .channelMessageArrive .. => false
  | .doorbell .. => false
  | .skip .. => false
  | .haltClear .. => false
  | .queueEnable .. => false
  | .packetStart .. => false
  | .realtimePreempt .. => false
  | .taskPlacement .. => false
  | .binSwitch .. => false
  | .graphNodeComplete .. => false
  | .waitNodeExpiry .. => false
  | .frameBoundary .. => false
  | .budgetCharge .. => false
  | .issueAgeLimit .. => false
  | .poolMove .. => false
  | .poolMoveComplete .. => false
  | .nocGovernorSample .. => false
  | .hbmPowerDown .. => false
  | .hbmSelfRefresh .. => false
  | .hbmExit .. => false
  | .controlInterval .. => false
  | .admissionAgeing .. => false
  | .sensorSample .. => false
  | .t4Cutoff .. => false
  | .throttleRelease .. => false
  | .dieReenable .. => false
  | .hotspotMigration .. => false
  | .powerBudgetWrite .. => false
  | .occupancyThresholdWrite .. => false
  | .preemption .. => false
  | .timeSliceExpiry .. => false
  | .teamSaveComplete .. => false
  | .pgreplyRetry .. => false
  | .pgreplyDecline .. => false
  | .resumeContinue .. => false
  | .resumeSkip .. => false
  | .resumeEnd .. => false
  | .resumeKill .. => false
  | .replyHighWordLatch .. => false
  | .tqrdWrite .. => false
  | .tqerrRetry .. => false
  | .contextEnable .. => false
  | .contextDisable .. => false
  | .uncorrectableError .. => false
  | .lostSector .. => false
  | .correctedError .. => false
  | .coreRetire .. => false
  | .subbankSpare .. => false
  | .hbmRowRepair .. => false
  | .linkLaneSpare .. => false
  | .dieReinit .. => false
  | .dieReinitComplete .. => false
  | .lifetimeRecordWrite .. => false
  | .enmerFlitReceive .. => false
  | .enmerRemoteRequest .. => false
  | .peerTimeout .. => false
  | .peerMapWrite .. => false
  | .rdmaWrite .. => false
  | .ptpSync .. => false
  | .liveUpdate .. => false
  | .rollbackCounterAdvance .. => false
  | .getVersion .. => false
  | .getCapabilities .. => false
  | .negotiateAlgorithms .. => false
  | .getDigests .. => false
  | .getCertificate .. => false
  | .challenge .. => false
  | .getMeasurements .. => false
  | .keyExchange .. => false
  | .finish .. => false
  | .endSession .. => false
  | .pldmMonitor .. => false
  | .pldmFru .. => false
  | .pldmFirmwareUpdate .. => false
  | .lifetimeRecordRead .. => false
  | .registerWrite .. => false
  | .powerLoss .. => false
  | .hbmRowRepairComplete .. => false
  | .teamRestoreComplete .. => false

/-- The guard PG, p7 where the instruction has none (R74). -/
def guardOf : Instr → Guard
  | .andLr .. => ⟨false, 7⟩
  | .andLi .. => ⟨false, 7⟩
  | .andXi _ _ g .. => g
  | .andn _ _ g .. => g
  | .ared .. => ⟨false, 7⟩
  | .atomg _ g .. => g
  | .atomp _ g .. => g
  | .atoms _ g .. => g
  | .bar .. => ⟨false, 7⟩
  | .bara .. => ⟨false, 7⟩
  | .barw .. => ⟨false, 7⟩
  | .bfi _ _ g .. => g
  | .bfx _ _ g .. => g
  | .bpt .. => ⟨false, 7⟩
  | .bra .. => ⟨false, 7⟩
  | .braGuarded _ g .. => g
  | .brev _ _ g .. => g
  | .brx .. => ⟨false, 7⟩
  | .brxGuarded _ g .. => g
  | .call .. => ⟨false, 7⟩
  | .callGuarded _ g .. => g
  | .calx .. => ⟨false, 7⟩
  | .calxGuarded _ g .. => g
  | .clk .. => ⟨false, 7⟩
  | .clz _ _ g .. => g
  | .cpy .. => ⟨false, 7⟩
  | .cpyg .. => ⟨false, 7⟩
  | .cpyr .. => ⟨false, 7⟩
  | .cpyt .. => ⟨false, 7⟩
  | .cvt _ _ g .. => g
  | .cvtp _ _ g .. => g
  | .cvtx _ _ g .. => g
  | .dqmx _ g .. => g
  | .eqry .. => ⟨false, 7⟩
  | .ewt .. => ⟨false, 7⟩
  | .exit .. => ⟨false, 7⟩
  | .faddLr .. => ⟨false, 7⟩
  | .faddXf _ _ g .. => g
  | .fcmpLc .. => ⟨false, 7⟩
  | .fcmpXf _ _ g .. => g
  | .fcos _ _ g .. => g
  | .fex2 _ _ g .. => g
  | .flg2 _ _ g .. => g
  | .frcp _ _ g .. => g
  | .frsq _ _ g .. => g
  | .fsin _ _ g .. => g
  | .fsqrt _ _ g .. => g
  | .fenceAcq .. => ⟨false, 7⟩
  | .fenceRel .. => ⟨false, 7⟩
  | .fenceFull .. => ⟨false, 7⟩
  | .fenceX .. => ⟨false, 7⟩
  | .ffma _ _ g .. => g
  | .fmaxLr .. => ⟨false, 7⟩
  | .fmaxXf _ _ g .. => g
  | .fminLr .. => ⟨false, 7⟩
  | .fminXf _ _ g .. => g
  | .fmulLr .. => ⟨false, 7⟩
  | .fmulXf _ _ g .. => g
  | .frnd _ _ g .. => g
  | .fshf _ _ g .. => g
  | .gargx _ g .. => g
  | .gred _ g .. => g
  | .gscan _ g .. => g
  | .gwait .. => ⟨false, 7⟩
  | .hadd2 _ _ g .. => g
  | .hfma2 _ _ g .. => g
  | .hmul2 _ _ g .. => g
  | .hgb .. => ⟨false, 7⟩
  | .hgf .. => ⟨false, 7⟩
  | .iabs _ _ g .. => g
  | .iaddLr .. => ⟨false, 7⟩
  | .iaddLi .. => ⟨false, 7⟩
  | .iaddXi _ _ g .. => g
  | .imaxLr .. => ⟨false, 7⟩
  | .imaxXi _ _ g .. => g
  | .iminLr .. => ⟨false, 7⟩
  | .iminXi _ _ g .. => g
  | .imulLr .. => ⟨false, 7⟩
  | .imulXi _ _ g .. => g
  | .isubLr .. => ⟨false, 7⟩
  | .isubXi _ _ g .. => g
  | .iaddx _ _ g .. => g
  | .icmpLc .. => ⟨false, 7⟩
  | .icmpXi _ _ g .. => g
  | .idp4 _ _ g .. => g
  | .imad _ _ g .. => g
  | .imadw _ _ g .. => g
  | .imulh _ _ g .. => g
  | .isel _ _ g .. => g
  | .isync .. => ⟨false, 7⟩
  | .ldg _ _ g .. => g
  | .ldkLm .. => ⟨false, 7⟩
  | .ldkXm _ _ g .. => g
  | .ldpLm .. => ⟨false, 7⟩
  | .ldpXm _ _ g .. => g
  | .ldsLm .. => ⟨false, 7⟩
  | .ldsXm _ _ g .. => g
  | .ldr _ g .. => g
  | .lea _ _ g .. => g
  | .lnxt .. => ⟨false, 7⟩
  | .matchLanes _ g .. => g
  | .mld _ g .. => g
  | .mma _ g .. => g
  | .mmax _ g .. => g
  | .mst _ g .. => g
  | .mzro _ g .. => g
  | .movLr .. => ⟨false, 7⟩
  | .movXi _ _ g .. => g
  | .movg .. => ⟨false, 7⟩
  | .movi .. => ⟨false, 7⟩
  | .movs .. => ⟨false, 7⟩
  | .nop .. => ⟨false, 7⟩
  | .oadm _ g .. => g
  | .osgd _ g .. => g
  | .orLr .. => ⟨false, 7⟩
  | .orLi .. => ⟨false, 7⟩
  | .orXi _ _ g .. => g
  | .pfg _ g .. => g
  | .phf .. => ⟨false, 7⟩
  | .phw .. => ⟨false, 7⟩
  | .plop _ _ g .. => g
  | .popc _ _ g .. => g
  | .pswz _ _ g .. => g
  | .qmx _ g .. => g
  | .rast .. => ⟨false, 7⟩
  | .recv .. => ⟨false, 7⟩
  | .send .. => ⟨false, 7⟩
  | .redg _ g .. => g
  | .redp _ g .. => g
  | .reds _ g .. => g
  | .ret .. => ⟨false, 7⟩
  | .rxbox _ g .. => g
  | .rxtri _ g .. => g
  | .sets .. => ⟨false, 7⟩
  | .shfl _ g .. => g
  | .shlLr .. => ⟨false, 7⟩
  | .shlLi .. => ⟨false, 7⟩
  | .shlXi _ _ g .. => g
  | .shrLr .. => ⟨false, 7⟩
  | .shrLi .. => ⟨false, 7⟩
  | .shrXi _ _ g .. => g
  | .shraLr .. => ⟨false, 7⟩
  | .shraLi .. => ⟨false, 7⟩
  | .shraXi _ _ g .. => g
  | .stc _ g .. => g
  | .stg _ g .. => g
  | .stkLm .. => ⟨false, 7⟩
  | .stkXm _ g .. => g
  | .stpLm .. => ⟨false, 7⟩
  | .stpXm _ g .. => g
  | .stsLm .. => ⟨false, 7⟩
  | .stsXm _ g .. => g
  | .texg _ g .. => g
  | .texl _ g .. => g
  | .texs _ g .. => g
  | .time .. => ⟨false, 7⟩
  | .tlbiPage .. => ⟨false, 7⟩
  | .tlbiCtx .. => ⟨false, 7⟩
  | .tlbiAll .. => ⟨false, 7⟩
  | .trap .. => ⟨false, 7⟩
  | .tspn .. => ⟨false, 7⟩
  | .tsus .. => ⟨false, 7⟩
  | .uadd .. => ⟨false, 7⟩
  | .usub .. => ⟨false, 7⟩
  | .umul .. => ⟨false, 7⟩
  | .uand .. => ⟨false, 7⟩
  | .uor .. => ⟨false, 7⟩
  | .uxor .. => ⟨false, 7⟩
  | .ushl .. => ⟨false, 7⟩
  | .ushr .. => ⟨false, 7⟩
  | .ubra .. => ⟨false, 7⟩
  | .ucmp .. => ⟨false, 7⟩
  | .uldShared .. => ⟨false, 7⟩
  | .uldPad .. => ⟨false, 7⟩
  | .uldGlobal .. => ⟨false, 7⟩
  | .ustShared .. => ⟨false, 7⟩
  | .ustPad .. => ⟨false, 7⟩
  | .ustGlobal .. => ⟨false, 7⟩
  | .uloop .. => ⟨false, 7⟩
  | .umov .. => ⟨false, 7⟩
  | .umovi .. => ⟨false, 7⟩
  | .umovv .. => ⟨false, 7⟩
  | .usel .. => ⟨false, 7⟩
  | .vote _ g .. => g
  | .wbak .. => ⟨false, 7⟩
  | .wpin .. => ⟨false, 7⟩
  | .wpub .. => ⟨false, 7⟩
  | .wunp .. => ⟨false, 7⟩
  | .xorLr .. => ⟨false, 7⟩
  | .xorLi .. => ⟨false, 7⟩
  | .xorXi _ _ g .. => g
  | .yld .. => ⟨false, 7⟩
  | .powerUp .. => ⟨false, 7⟩
  | .bundleFormation .. => ⟨false, 7⟩
  | .fairnessTimer .. => ⟨false, 7⟩
  | .cinchWindowClose .. => ⟨false, 7⟩
  | .variableLatencyWriteback .. => ⟨false, 7⟩
  | .writeAcknowledge .. => ⟨false, 7⟩
  | .brambleCommit .. => ⟨false, 7⟩
  | .clusterPlacement .. => ⟨false, 7⟩
  | .bridleClusterPlacement .. => ⟨false, 7⟩
  | .teamRetire .. => ⟨false, 7⟩
  | .cardLineLanded .. => ⟨false, 7⟩
  | .pageWalkComplete .. => ⟨false, 7⟩
  | .atsTranslation .. => ⟨false, 7⟩
  | .lineMigration .. => ⟨false, 7⟩
  | .partitionWrite .. => ⟨false, 7⟩
  | .granuleMapWrite .. => ⟨false, 7⟩
  | .granuleRemapComplete .. => ⟨false, 7⟩
  | .mirrorSizeWrite .. => ⟨false, 7⟩
  | .hostPostedWrite .. => ⟨false, 7⟩
  | .hostRead .. => ⟨false, 7⟩
  | .cxlSnoop .. => ⟨false, 7⟩
  | .atsInvalidation .. => ⟨false, 7⟩
  | .roundEnd .. => ⟨false, 7⟩
  | .roundResume .. => ⟨false, 7⟩
  | .gridSyncMerge .. => ⟨false, 7⟩
  | .gridEndMerge .. => ⟨false, 7⟩
  | .cardStart .. => ⟨false, 7⟩
  | .aredMeet .. => ⟨false, 7⟩
  | .cardComplete .. => ⟨false, 7⟩
  | .cardFail .. => ⟨false, 7⟩
  | .channelMessageArrive .. => ⟨false, 7⟩
  | .doorbell .. => ⟨false, 7⟩
  | .skip .. => ⟨false, 7⟩
  | .haltClear .. => ⟨false, 7⟩
  | .queueEnable .. => ⟨false, 7⟩
  | .packetStart .. => ⟨false, 7⟩
  | .realtimePreempt .. => ⟨false, 7⟩
  | .taskPlacement .. => ⟨false, 7⟩
  | .binSwitch .. => ⟨false, 7⟩
  | .graphNodeComplete .. => ⟨false, 7⟩
  | .waitNodeExpiry .. => ⟨false, 7⟩
  | .frameBoundary .. => ⟨false, 7⟩
  | .budgetCharge .. => ⟨false, 7⟩
  | .issueAgeLimit .. => ⟨false, 7⟩
  | .poolMove .. => ⟨false, 7⟩
  | .poolMoveComplete .. => ⟨false, 7⟩
  | .nocGovernorSample .. => ⟨false, 7⟩
  | .hbmPowerDown .. => ⟨false, 7⟩
  | .hbmSelfRefresh .. => ⟨false, 7⟩
  | .hbmExit .. => ⟨false, 7⟩
  | .controlInterval .. => ⟨false, 7⟩
  | .admissionAgeing .. => ⟨false, 7⟩
  | .sensorSample .. => ⟨false, 7⟩
  | .t4Cutoff .. => ⟨false, 7⟩
  | .throttleRelease .. => ⟨false, 7⟩
  | .dieReenable .. => ⟨false, 7⟩
  | .hotspotMigration .. => ⟨false, 7⟩
  | .powerBudgetWrite .. => ⟨false, 7⟩
  | .occupancyThresholdWrite .. => ⟨false, 7⟩
  | .preemption .. => ⟨false, 7⟩
  | .timeSliceExpiry .. => ⟨false, 7⟩
  | .teamSaveComplete .. => ⟨false, 7⟩
  | .pgreplyRetry .. => ⟨false, 7⟩
  | .pgreplyDecline .. => ⟨false, 7⟩
  | .resumeContinue .. => ⟨false, 7⟩
  | .resumeSkip .. => ⟨false, 7⟩
  | .resumeEnd .. => ⟨false, 7⟩
  | .resumeKill .. => ⟨false, 7⟩
  | .replyHighWordLatch .. => ⟨false, 7⟩
  | .tqrdWrite .. => ⟨false, 7⟩
  | .tqerrRetry .. => ⟨false, 7⟩
  | .contextEnable .. => ⟨false, 7⟩
  | .contextDisable .. => ⟨false, 7⟩
  | .uncorrectableError .. => ⟨false, 7⟩
  | .lostSector .. => ⟨false, 7⟩
  | .correctedError .. => ⟨false, 7⟩
  | .coreRetire .. => ⟨false, 7⟩
  | .subbankSpare .. => ⟨false, 7⟩
  | .hbmRowRepair .. => ⟨false, 7⟩
  | .linkLaneSpare .. => ⟨false, 7⟩
  | .dieReinit .. => ⟨false, 7⟩
  | .dieReinitComplete .. => ⟨false, 7⟩
  | .lifetimeRecordWrite .. => ⟨false, 7⟩
  | .enmerFlitReceive .. => ⟨false, 7⟩
  | .enmerRemoteRequest .. => ⟨false, 7⟩
  | .peerTimeout .. => ⟨false, 7⟩
  | .peerMapWrite .. => ⟨false, 7⟩
  | .rdmaWrite .. => ⟨false, 7⟩
  | .ptpSync .. => ⟨false, 7⟩
  | .liveUpdate .. => ⟨false, 7⟩
  | .rollbackCounterAdvance .. => ⟨false, 7⟩
  | .getVersion .. => ⟨false, 7⟩
  | .getCapabilities .. => ⟨false, 7⟩
  | .negotiateAlgorithms .. => ⟨false, 7⟩
  | .getDigests .. => ⟨false, 7⟩
  | .getCertificate .. => ⟨false, 7⟩
  | .challenge .. => ⟨false, 7⟩
  | .getMeasurements .. => ⟨false, 7⟩
  | .keyExchange .. => ⟨false, 7⟩
  | .finish .. => ⟨false, 7⟩
  | .endSession .. => ⟨false, 7⟩
  | .pldmMonitor .. => ⟨false, 7⟩
  | .pldmFru .. => ⟨false, 7⟩
  | .pldmFirmwareUpdate .. => ⟨false, 7⟩
  | .lifetimeRecordRead .. => ⟨false, 7⟩
  | .registerWrite .. => ⟨false, 7⟩
  | .powerLoss .. => ⟨false, 7⟩
  | .hbmRowRepairComplete .. => ⟨false, 7⟩
  | .teamRestoreComplete .. => ⟨false, 7⟩

/-- Set size S of a code (R41); 0 for no sets. -/
def setSize (c : Nat) : Nat := if c = 1 then 2 else if c = 2 then 4 else 0

/-- F, the first reserved vector register (R31). -/
def Header.free (k : Header) : Nat := k.vregs - (if k.spans = 0 then 0 else 16) - k.depth

/-- Are all the named registers within the declarations (R31, R42, R51, R52). -/
def declOk (k : Header) (i : Instr) : Bool :=
  let u := uses i
  let s := setSize k.setcode
  u.rv.all (fun r => r.1 + r.2 ≤ k.free) && u.wv.all (fun r => r.1 + r.2 ≤ k.free) &&
  u.rg.all (fun r => r.1 + r.2 ≤ k.gregs) && u.wg.all (fun r => r.1 + r.2 ≤ k.gregs) &&
  u.sp.all (fun r => decide (0 < s) && decide (r.1 + (if r.2 = 0 then 4 / s else r.2) ≤ k.spans)) &&
  ((headOf i).scope != .set || decide (0 < s))

/-- The barrier id of a barrier instruction (R181). -/
def barId : Instr → Option Nat
  | .bar _ n _ _ _ => some n.toNat
  | .bara _ n _ _ => some n.toNat
  | .barw _ n => some n.toNat
  | .phw _ n _ => some n.toNat
  | .phf _ n => some n.toNat
  | _ => none

/-- TSUS needs a one-group team (R251, R430). -/
def groupsOk (k : Header) : Instr → Bool
  | .tsus .. => k.groups == 1
  | _ => true

/-- The checks of R72 order 2: #ILL when they fail. -/
def legal (k : Header) (nb : Nat) (i : Instr) : Bool :=
  wellFormed i && declOk k i && (match barId i with | some b => decide (b < nb) | none => true) && groupsOk k i

/-- The special register a MOVS reads. -/
def movsIdx : Instr → Option Nat
  | .movs _ _ _ a => some a.toNat
  | _ => none

/-- Privileged use (R72 order 3). -/
def isPriv (i : Instr) : Bool :=
  (traits i).priv || (match movsIdx i with | some a => decide (64 ≤ a) | none => false)

/-- Roles that forbid the instruction (R44). -/
def roleForbids (role : Nat) (i : Instr) : Bool :=
  ((role == 1 || role == 3) && (traits i).matrix) || ((role == 2 || role == 3) && (traits i).engine)

/-- The registers of the (first, count) list. -/
def regsOf (l : List (Nat × Nat)) : List Nat := l.flatMap (fun r => (List.range r.2).map (fun k => r.1 + k))

/-- The membership-mask register of a collective with X[5] = 1 (R34, R82). -/
def maskReg : Instr → Option Nat
  | .shfl _ _ _ _ _ c x _ _ => if x then some c.toNat else none
  | .vote _ _ _ _ c x _ _ => if x then some c.toNat else none
  | .matchLanes _ _ _ _ c x _ => if x then some c.toNat else none
  | .gred _ _ _ _ c x _ _ _ => if x then some c.toNat else none
  | .gscan _ _ _ _ c x _ _ => if x then some c.toNat else none
  | .gargx _ _ _ _ c x _ => if x then some c.toNat else none
  | _ => none

/-- Is the rounding stochastic, so that it draws on SEQ (R105). DESIGN CHOICE (log 40): M = 4 counts also in a conversion to E8M0, where M is ignored
(R334). -/
def usesSr : Instr → Bool
  | .cvt _ _ _ _ _ _ m _ _ => m == 4
  | .cvtp _ _ _ _ _ _ _ m _ => m == 4
  | .cvtx _ _ _ _ _ _ _ m _ _ => m == 4
  | .qmx _ _ _ _ _ _ _ m _ => m == 4
  | .dqmx _ _ _ _ _ _ m _ => m == 4
  | .atomg _ _ _ _ _ _ _ x _ _ => x
  | .atoms _ _ _ _ _ _ _ x _ _ => x
  | .atomp _ _ _ _ _ _ _ x _ _ => x
  | .redg _ _ _ _ _ _ x _ _ => x
  | .reds _ _ _ _ _ _ x _ _ => x
  | .redp _ _ _ _ _ _ x _ _ => x
  | _ => false

end Sys2Proof.Machine
end

