-- ==== Sys2Proof/Machine/Ops.lean ====
section
/-! DEFINITION. The shared issue of an instruction: decode checks, rendezvous, checked mode, guard, lane outcomes, results,
and the taking of a trap (R24-R40, R70-R96, R102, R189-R196, R199-R202, R271-R276). -/
namespace Sys2Proof.Machine

/-! ## What an instruction's body sees and answers -/

/-- One issue: team, issuing group, address, length, members of every group, and the participants (R36). -/
structure Site where
  i : Instr
  tid : Nat
  gi : Nat
  pc : Nat
  len : Nat
  mem : List (Nat × Mask)
  part : List (Nat × Mask)
  deriving DecidableEq, Repr

/-- What a lane meets before it performs. -/
inductive Chk where
  | ok
  | park (r : Park)
  | fault (code addr : Nat)
  deriving DecidableEq, Repr

/-- A trap: code, cause, address, and the ticket or TRAP code (R278). -/
structure Trap where
  code : Nat
  cause : Nat := 0
  addr : Nat := 0
  ticket : Nat := 0
  deriving DecidableEq, Repr

/-- What the whole instruction meets before any lane does. -/
inductive Pre where
  | go
  | trap (t : Trap)
  | wait (r : Park)
  deriving DecidableEq, Repr

/-- Results of one lane: its writes and its flags. -/
structure LRes where
  gi : Nat
  lane : Nat
  ws : List Wr
  fl : Flags
  deriving DecidableEq, Repr

/-- Results of an instruction: by lane; to a g-register of every member group; lanes that go on elsewhere; lanes that wait
afterwards. -/
structure Res where
  lanes : List LRes := []
  gs : List (Nat × Word) := []
  jump : List (Nat × Nat × Nat) := []
  wait : List (Nat × Nat × LaneSt) := []
  deriving DecidableEq, Repr

/-- The parts of an instruction's meaning. `prep` may always happen; `pre` and `lane` only look; `run` performs for the
participants of the site. `whole`: a lane's fault stops the whole issue (R321). `defer`: in bridle mode this issue ends the
quantum though its class does not (R201). -/
structure Body where
  prep : State → Site → State := fun s _ => s
  pre : State → Site → Pre := fun _ _ => .go
  lane : State → Site → Nat → Nat → Chk := fun _ _ _ _ => .ok
  run : State → Site → State × Res
  whole : Bool := false
  defer : State → Site → Bool := fun _ _ => false
  note : State → Site → Option Nat := fun _ _ => none

/-- The scope of the issue. -/
def Site.scope (x : Site) : Scope := (headOf x.i).scope
/-- The lanes of the participants, ascending in (group, lane). -/
def Site.lanes (x : Site) : List (Nat × Nat) := x.part.flatMap (fun p => (lanesOf p.2).map (fun l => (p.1, l)))
/-- The lanes of the members. -/
def Site.members (x : Site) : List (Nat × Nat) := x.mem.flatMap (fun p => (lanesOf p.2).map (fun l => (p.1, l)))
/-- The participants among one group's members. -/
def Site.partOf (x : Site) (gi : Nat) : Mask := ((x.part.find? (fun q => q.1 == gi)).map Prod.snd).getD 0
/-- The issuing group. -/
def Site.group (x : Site) (s : State) : Option Group := s.group? x.tid x.gi

/-! ## Bramble rollback (R193) -/

/-- Restores the 32 lanes of one shadowed register. -/
def Group.unshadow (g : Group) (p : Nat × List Word) : Group :=
  (enum p.2).foldl (fun g q => g.wv q.1 p.1 q.2) g

/-- What a lane of the checkpoint waits for after a rollback of a speculation past barrier `b` (R193): at the barrier as it stood, or, where the
phase has completed, past it; at another barrier what it waits for by now, past it where that has come. -/
def ckptSt (b : Nat) (waiting : Bool) (now old : LaneSt) : LaneSt :=
  match old with
  | .barred k _ => if k = b ∧ waiting then old else if now.isBarred then now else .ready
  | _ => old
/-- A lane of the checkpoint, with the reservation and page answer it has now; one whose PHW has ended meanwhile is past it (R188). -/
def ckptLane (b : Nat) (waiting : Bool) (now old : Lane) : Lane :=
  let ended : Bool := match old.st with
    | .barred _ (.phw _) => !now.st.isBarred
    | _ => false
  { old with st := ckptSt b waiting now.st old.st, pc := if ended then old.pc + 4 else old.pc, resv := now.resv, declined := now.declined }

/-- Rolls a speculating group back (R193): to waiting at the barrier, or, after a completion, to the address after it. -/
def Group.rollback (g : Group) (waiting : Bool) : Group :=
  match g.bram with
  | none => g
  | some b =>
    let g' := b.shadows.foldl Group.unshadow g
    { g' with
      bram := none
      lanes := (g.lanes.zip b.lanes).map (fun q => ckptLane b.bar waiting q.1 q.2)
      p := b.p
      g := b.g
      seed := b.seed
      fpctl := b.fpctl
      permBase := b.perm
      pendV := b.pendV
      pendP := b.pendP
      pendG := b.pendG
      pend := []
      drain := false
      specRoll := min (g.specRoll + 1) 0xFFF
      noSpec := if waiting then some b.bar else none }

/-- Rolls a speculating group back as it stands (R193, R194): to waiting, or, where its phase has completed, past the barrier. -/
def Group.rollbackNow (g : Group) : Group :=
  match g.bram with
  | some b => g.rollback (!b.past)
  | none => g
/-- Rolls back every speculating group of a team (R196, R284). -/
def Team.rollbackAll (t : Team) : Team := { t with groups := t.groups.map Group.rollbackNow }

/-! ## Pending results (R92-R96) -/

/-- Writes one pending result into its registers. -/
def Group.deliverOne (g : Group) (p : Pend) : Group :=
  let g := p.lanes.foldl (fun g q => g.apply q.1 q.2) g
  p.gs.foldl (fun g q => g.wg q.1 q.2) g
/-- Writes every pending result, oldest first (R96). -/
def Group.deliver (g : Group) : Group := { (g.pend.foldl Group.deliverOne g) with pend := [], drain := false }

/-- The vector registers behind the span registers an instruction writes (R42). -/
def spanWrites (k : Header) (i : Instr) : List Nat :=
  let base := k.vregs - 16
  match i with
  | .shfl _ _ d _ _ _ _ _ w => if w then [base + d.toNat] else []
  | .gred _ _ d _ _ _ _ _ w => if w then [base + d.toNat] else []
  | .mld h _ d _ _ x => if h.scope = .set ∧ x = 1 then (List.range (4 / setSize k.setcode)).map (fun j => base + d.toNat + j) else []
  | _ => []
/-- Those behind the span registers it reads. -/
def spanReads (k : Header) (i : Instr) : List Nat :=
  let base := k.vregs - 16
  match i with
  | .shfl _ _ _ a _ _ _ _ w => if w then [base + a.toNat] else []
  | .gred _ _ _ a _ _ _ _ w => if w then [base + a.toNat] else []
  | .mma h _ _ _ b _ _ => if h.scope = .set then (List.range (4 / setSize k.setcode)).map (fun j => base + b.toNat + j) else []
  | _ => []

/-- Does a tracking map hold any of the registers for any of the lanes. -/
def pendHit (m : SMap Mask) (rs : List Nat) (l : Mask) : Bool := rs.any (fun r => decide (SMap.get 0 m r &&& l ≠ 0))
/-- Is the guard's predicate a register read (p7 is no register). -/
def guardRegs (i : Instr) : List Nat := if (guardOf i).p.toNat = 7 then [] else [(guardOf i).p.toNat]

/-- The two lanes of every row of which one is in the mask (R117). -/
def rowsOf (m : Mask) : Mask := maskOf ((List.range 32).filter (fun l => m.has (l / 2 * 2) || m.has (l / 2 * 2 + 1)))
/-- The vector registers that an issue reads in a group, with the member lanes that read them (R95): every source in every member, but for UMOVV,
which reads the lowest lane of the first member group (R439), the unread registers of RXBOX and RXTRI (R412), the scales of MMAX outside E2M1 in
the odd lanes (R116), the source of QMX outside E2M1 in a row none of whose lanes participates (R404), A and B of MMA and MMAX in such a row (R117,
R384; at set scope B is read as it stands, R118), and the scale of DQMX in a lane that does not participate (R339). -/
def Site.readsV (x : Site) (k : Header) (gi : Nat) (m part : Mask) : List (List Nat × Mask) :=
  let all : List (List Nat × Mask) := [(regsOf (uses x.i).rv ++ spanReads k x.i, m)]
  match x.i with
  | .umovv .. => match x.members with
    | q :: _ => if q.1 = gi then [(regsOf (uses x.i).rv, laneBit q.2)] else []
    | [] => []
  | .rxbox _ _ _ a b _ => [(regsOf [(a.toNat, 8), (b.toNat, 6)], m)]
  | .rxtri _ _ _ a b _ => [(regsOf [(a.toNat, 8), (b.toNat, 9)], m)]
  | .mma h _ _ a b c _ => [(regsOf [(a.toNat, 4)], m &&& rowsOf part), (regsOf [(c.toNat, 8)], m),
      if h.scope = .set then (spanReads k x.i, m) else (regsOf [(b.toNat, 4)], m &&& rowsOf part)]
  | .mmax _ _ d a b c t _ _ _ => [(regsOf [(a.toNat, 4), (b.toNat, 4)], m &&& rowsOf part), (regsOf [(d.toNat, 8)], m),
      (regsOf [(c.toNat, 2)], if t = .e2m1 then m else m &&& 0x55555555)]
  | .dqmx _ _ _ a c _ _ _ => [(regsOf [(a.toNat, 4)], m), (regsOf [(c.toNat, 1)], part)]
  | .qmx _ _ _ a _ c t _ _ => if t = .e2m1 then all else [(regsOf [(a.toNat, mxLen t)], m &&& rowsOf part), (regsOf [(c.toNat, 1)], m)]
  | _ => all
/-- Does a group's copy of the g-registers feed the issue: every member's, but for a U-set instruction the lowest member group's alone (R218,
R431). -/
def Site.readsG (x : Site) (gi : Nat) : Bool := gi == x.gi || !((encode x.i).head?).any (bit · 31)
/-- #PEND (R95): a member lane reads a pending register, or a participant would write one. DESIGN CHOICE
(log 43): an ignored destination (p7 of VOTE, STC or RX, g0 of ULD) is tracked as any other, for operands but not for the guard. -/
def pendTrap (k : Header) (x : Site) (gi : Nat) (g : Group) (mem part : Mask) : Bool :=
  let u := uses x.i
  (x.readsV k gi mem part).any (fun r => pendHit g.pendV r.1 r.2) || pendHit g.pendP (u.rp ++ guardRegs x.i) mem ||
  (x.readsG gi && pendHit g.pendG (regsOf u.rg) mem) ||
  pendHit g.pendV (regsOf u.wv ++ spanWrites k x.i) part || pendHit g.pendP u.wp part || pendHit g.pendG (regsOf u.wg) part

/-- Adds lanes to a tracking map. -/
def pendAdd (m : SMap Mask) (rs : List Nat) (l : Mask) : SMap Mask :=
  rs.foldl (fun m r => SMap.set 0 m r (SMap.get 0 m r ||| l)) m
/-- Removes lanes from a tracking map. -/
def pendClear (m : SMap Mask) (l : Mask) : SMap Mask :=
  (m.map (fun p => (p.1, p.2 &&& ~~~l))).filter (fun p => decide (p.2 ≠ 0))
/-- Removes lanes of some registers from a tracking map. -/
def pendDrop (m : SMap Mask) (rs : List Nat) (l : Mask) : SMap Mask :=
  rs.foldl (fun m r => SMap.set 0 m r (SMap.get 0 m r &&& ~~~l)) m

/-- #UNIF (R91): a register source differs between the participants. -/
def unifTrap (s : State) (x : Site) : Bool :=
  let u := uses x.i
  match x.lanes with
  | [] => false
  | q0 :: r =>
    match s.group? x.tid q0.1 with
    | none => false
    | some g0 => r.any (fun q => match s.group? x.tid q.1 with
      | none => false
      | some g => (regsOf u.rv).any (fun k => g.rv q.2 k != g0.rv q0.2 k) || u.rp.any (fun k => g.rp q.2 k != g0.rp q0.2 k) ||
          (regsOf u.rg).any (fun k => g.rg k != g0.rg k))

/-! ## Taking a trap (R273-R278) -/

/-- The order of R72 among the faults of execution. -/
def faultRank (code : Nat) : Nat :=
  if code = tALIGN then 0 else if code = tBOUNDS then 1 else if code = tPROT then 2 else if code = tXLAT then 3 else 4

/-- A group marked by a trap: its secondary code if it is not the primary (R274), the lanes of an #FPX (R276), and stopped. -/
def Group.trapped (g : Group) (secondary : Bool) (code : Nat) (fpx : Mask) (pc : Nat) : Group :=
  { g with
    scode := if secondary then code else g.scode
    stopped := true
    fpx := g.fpx ||| fpx
    fpxPc := if fpx = 0 then g.fpxPc else pc }

/-- Takes a trap in the groups `gs` of a team (R273, R274): the first sets the team's halt latch and becomes the primary, with
every speculating group rolled back (R196) and, in bridle mode, every group stopped (R211), a pre-emption under way being absorbed; a
later one is the secondary code of its groups. -/
def State.raise (s : State) (tid : Nat) (gs : List Nat) (pc low : Nat) (t : Trap) (ents : List Ent) (fpx : List (Nat × Mask)) : State :=
  s.modTeam tid (fun tm =>
    let mark (sec : Bool) (tm : Team) : Team :=
      { tm with groups := (enum tm.groups).map (fun p =>
          if gs.contains p.1 then p.2.trapped sec t.code ((fpx.find? (fun q => q.1 == p.1)).map Prod.snd |>.getD 0) pc else p.2) }
    let first : Bool := match tm.halt with
      | none => true
      | some h => h.kind != 0
    if first then
      let tm := mark false tm.rollbackAll
      { tm with
        halt := some ⟨0, t.code, t.cause, t.addr, pc, t.ticket, 0, low, 0, gs, ents⟩
        groups := tm.groups.map (fun g => if tm.la.bridle then { g with stopped := true } else g) }
    else { mark true tm with halt := tm.halt.map (fun h => { h with ents := h.ents ++ ents }) })

/-- One entry of the record. -/
def ent (code g ty : Nat) (m sib : Mask) (pc addr : Nat) : Ent := ⟨code, g, ty, m, sib, pc, addr⟩

/-- The entries of a trap of a whole issue (R40, R275). -/
def wholeEnts (x : Site) (code addr : Nat) : List Ent :=
  x.mem.map (fun p => ent code p.1 (match x.scope with | .lane | .group => 1 | .set | .team => 3) p.2 0 x.pc addr)

/-- An instruction issued in a skid counts although it traps (R273). -/
def State.skidded (s : State) (tid : Nat) (gs : List Nat) : State :=
  if (s.team? tid).any (·.halt.isSome) then gs.foldl (fun s j => s.modGroup tid j (fun g => { g with skid := g.skid + 1 })) s else s
/-- A trap of the whole instruction: nothing performed, one fragment (R275) or every member group (R40). -/
def State.trapWhole (s : State) (x : Site) (t : Trap) : State :=
  let low := match x.members with
    | q :: _ => 32 * q.1 + q.2
    | [] => 32 * x.gi
  let gs := x.mem.map Prod.fst
  (s.skidded x.tid gs).raise x.tid gs x.pc low t (wholeEnts x t.code t.addr) []

/-- Groups lanes by outcome: (code, address) with the lanes, in first-met order. -/
def fragments (l : List (Nat × Nat × Nat)) : List (Nat × Nat × Mask) :=
  l.foldl (fun acc q => if acc.any (fun f => f.1 == q.2.1 && f.2.1 == q.2.2)
    then acc.map (fun f => if f.1 = q.2.1 ∧ f.2.1 = q.2.2 then (f.1, f.2.1, f.2.2 ||| laneBit q.1) else f)
    else acc ++ [(q.2.1, q.2.2, laneBit q.1)]) []

/-- The fragment entries of a bundle's lane outcomes (code 0: completed), each with the union of its siblings (R275). -/
def fragEnts (gi pc : Nat) (l : List (Nat × Nat × Nat)) : List Ent :=
  let fs := fragments l
  fs.map (fun f => ent f.1 gi 1 f.2.2 ((fs.filter (fun h => !(h == f))).foldl (fun m h => m ||| h.2.2) 0) pc f.2.1)

/-- The fault reported first: by the order of R72, then the lowest lane. -/
def firstFault (l : List (Nat × Nat × Nat)) : Option (Nat × Nat × Nat) :=
  (l.filter (fun q => decide (q.2.1 ≠ 0))).foldl (fun b q => match b with
    | none => some q
    | some p => if faultRank q.2.1 < faultRank p.2.1 then some q else some p) none

/-! ## Rendezvous (R32-R39) -/

/-- The groups of the unit an instruction issues over. -/
def unitGroups (t : Team) (gi : Nat) (sc : Scope) : List Nat :=
  let n := t.groups.length
  match sc with
  | .lane | .group => [gi]
  | .set =>
    let z := setSize t.la.hdr.setcode
    if z = 0 then [gi] else (List.range n).filter (fun j => j / z == gi / z)
  | .team => List.range n

/-- Member lanes of one group (R33): live, and named by the mask at group scope. -/
def memberMask (g : Group) (sc : Scope) (m : Mask) : Mask := if sc = .group then g.live &&& m else g.live
/-- Lanes of a group arrived at an address. -/
def arrivedAt (g : Group) (pc : Nat) : Mask := g.mask (fun l => l.st.isArrived && l.pc == pc)
/-- Have all the members arrived at the address; at set or team scope a group that speculates stalls before it instead (R192). -/
def allArrived (t : Team) (gs : List Nat) (sc : Scope) (m : Mask) (pc : Nat) : Bool :=
  gs.all (fun j => match t.groups[j]? with
    | some g => memberMask g sc m &&& ~~~ arrivedAt g pc == 0 && (g.bram.isNone || sc == .group || memberMask g sc m == 0)
    | none => true)

/-- Is the rendezvous of an arrived lane blocked (R39). -/
def blocked (t : Team) (gi : Nat) (l : Lane) : Bool :=
  match l.st with
  | .arrived m sc => (unitGroups t gi sc).any (fun j => match t.groups[j]? with
    | some g => decide (g.mask (fun k => k.st.isArrived && k.pc != l.pc) &&& memberMask g sc m ≠ 0)
    | none => false)
  | _ => false

/-- Does #RDVSPLIT hold in a unit of groups (R39). -/
def splitIn (t : Team) (gs : List Nat) : Bool :=
  let ls := gs.flatMap (fun j => match t.groups[j]? with
    | some g => (g.lanes.filter (fun l => decide (l.st ≠ .exited))).map (fun l => (j, l))
    | none => [])
  match ls with
  | [] => false
  | q :: _ => ls.all (fun p => p.2.st.isArrived) && ls.any (fun p => p.2.pc != q.2.pc) && ls.all (fun p => blocked t p.1 p.2)

/-- The addresses held in a unit with the lanes arrived there, by group (R39, TYPE 2 of R278). -/
def splitEnts (t : Team) (gs : List Nat) : List Ent :=
  gs.flatMap (fun j => match t.groups[j]? with
    | some g =>
      let pcs := ((g.lanes.filter (fun l => l.st.isArrived)).map (·.pc)).eraseDups
      pcs.map (fun pc => ent tRDVSPLIT j 2 (arrivedAt g pc) 0 pc 0)
    | none => [])

/-- Raises #RDVSPLIT where it holds: in the group, its set or the team, by the lowest-indexed group concerned (R39). No trap is raised
while a group of the unit speculates (R192). -/
def State.splitCheck (s : State) (tid gi : Nat) : State :=
  match s.team? tid with
  | none => s
  | some t =>
    let us := [[gi], unitGroups t gi .set, unitGroups t gi .team]
    let calm (gs : List Nat) : Bool := gs.all (fun j => ((t.groups[j]?).bind (·.bram)).isNone)
    match us.find? (fun gs => splitIn t gs && calm gs) with
    | none => s
    | some gs =>
      let j := (gs.find? (fun j => match t.groups[j]? with
        | some g => decide (g.live ≠ 0)
        | none => false)).getD gi
      let es := splitEnts t gs
      s.raise tid [j] ((es.head?.map (·.epc)).getD 0) (32 * j) { code := tRDVSPLIT } es []

/-- What the rendezvous of an issue attempt gives. -/
inductive Gather where
  | go (s : State) (x : Site)
  | stop (s : State)

/-- The mask copies of the arriving lanes against the first (R34): the offending lanes. -/
def maskOffend (g : Group) (r pc : Nat) (ls : Mask) : Mask × Mask :=
  let first := match (enum g.lanes).find? (fun p => p.2.st.isArrived && p.2.pc == pc) with
    | some (_, { st := .arrived m _, .. }) => m
    | _ => match lanesOf ls with
      | l :: _ => g.rv l r
      | [] => 0
  (first, maskOf ((lanesOf ls).filter (fun l => g.rv l r != first || !first.has l)))

/-- The mask of the arriving lanes and the lanes that offend against it: every lane, where the instruction names no mask (R33, R34). -/
def maskChk (i : Instr) (c : Cur) (g : Group) : Mask × Mask :=
  match maskReg i with
  | some r => maskOffend g r c.pc c.lanes
  | none => (0xFFFFFFFF, 0)
/-- Lanes of a group arrive with a mask at an instruction of a scope. -/
def Group.arrive (m : Mask) (sc : Scope) (ls : Mask) (g : Group) : Group := g.modLanes ls (fun l => { l with st := .arrived m sc })
/-- The member lanes of the unit's groups that have any. -/
def membersOf (t : Team) (gs : List Nat) (sc : Scope) (m : Mask) : List (Nat × Mask) :=
  (gs.map (fun j => (j, match t.groups[j]? with
    | some g => memberMask g sc m
    | none => 0))).filter (fun p => decide (p.2 ≠ 0))

/-- A speculating group stalls (R192). -/
def State.stallGroup (s : State) (tid gi : Nat) : State :=
  s.modGroup tid gi (fun g => { g with bram := g.bram.map (fun b => { b with stalled := true }) })
/-- #MEMB at the arrival of lanes whose masks offend (R34): the others arrive, and the trap names the offenders; a speculating group stalls
instead (R192). -/
def State.trapMask (s : State) (c : Cur) (g : Group) (m off : Mask) (sc : Scope) : State :=
  match g.bram with
  | some _ => s.stallGroup c.tid c.gi
  | none => (s.modGroup c.tid c.gi (Group.arrive m sc (c.lanes &&& ~~~off))).raise c.tid [c.gi] c.pc (32 * c.gi + (lanesOf off).headD 0)
      { code := tMEMB } [ent tMEMB c.gi 1 off 0 c.pc 0] []
/-- Every ready lane of a group at the address of the issue attempt, which its bundle may leave out (R32). -/
def Cur.widen (c : Cur) (g : Group) : Cur := { c with lanes := c.lanes ||| g.mask (fun l => decide (l.st = .ready) && l.pc == c.pc) }
/-- The lanes of the issue attempt whose rendezvous at this instruction has completed, with their access still to be made (R134, R374). -/
def Cur.metLanes (c : Cur) (g : Group) : Mask := c.lanes &&& g.mask (·.met)

/-- The lanes of the issue attempt arrive, with those that stand at its address; when every member has arrived the instruction issues over
all of them, in the lowest-indexed member group (R32-R37, R431). -/
def gather (i : Instr) (s : State) (c : Cur) (t : Team) (g : Group) : Gather :=
  let sc := (headOf i).scope
  let len := 4 * i.words
  if sc = .lane then .go s ⟨i, c.tid, c.gi, c.pc, len, [(c.gi, c.lanes)], []⟩
  else if c.metLanes g ≠ 0 then .go s ⟨i, c.tid, c.gi, c.pc, len, [(c.gi, c.metLanes g)], []⟩
  else
    let c := c.widen g
    let (m, off) := maskChk i c g
    if off ≠ 0 then .stop (s.trapMask c g m off sc)
    else
      let s' := s.modGroup c.tid c.gi (Group.arrive m sc c.lanes)
      let t' := t.modGroup c.gi (Group.arrive m sc c.lanes)
      let gs := unitGroups t' c.gi sc
      if allArrived t' gs sc m c.pc then
        let mem := membersOf t' gs sc m
        .go s' ⟨i, c.tid, (mem.head?.map Prod.fst).getD c.gi, c.pc, len, mem, []⟩
      else .stop (s'.splitCheck c.tid c.gi)

/-! ## Results -/

/-- Copies registers of a speculating group into its shadows before their first write (R190). -/
def Group.shadow (g : Group) (rs : List Nat) : Group :=
  match g.bram with
  | none => g
  | some b =>
    let new := (rs.filter (fun r => !b.shadows.any (fun p => p.1 == r))).eraseDups
    { g with bram := some { b with shadows := b.shadows ++ new.map (fun r => (r, (List.range 32).map (fun l => g.rv l r))) } }

/-- The vector registers an instruction writes, span registers through their backing. -/
def writtenV (k : Header) (i : Instr) : List Nat := regsOf (uses i).wv ++ spanWrites k i

/-- The destinations of a variable-latency instruction become pending in its participants (R92, R95). -/
def Group.track (g : Group) (k : Header) (i : Instr) (part : Mask) : Group :=
  let u := uses i
  if (traits i).varLat then
    { g with
      pendV := pendAdd g.pendV (regsOf u.wv ++ spanWrites k i) part
      pendP := pendAdd g.pendP u.wp part
      pendG := pendAdd g.pendG (regsOf u.wg) part }
  else g
/-- They are pending no more: the instruction has not issued after all. -/
def Group.untrack (g : Group) (k : Header) (i : Instr) (part : Mask) : Group :=
  let u := uses i
  { g with
    pendV := pendDrop g.pendV (regsOf u.wv ++ spanWrites k i) part
    pendP := pendDrop g.pendP u.wp part
    pendG := pendDrop g.pendG (regsOf u.wg) part }
/-- The results of one group, flags with them (R392, R414): written at once, or later where they are variable-latency (R92); in bridle mode a later
instruction waits for them, so they are written at once (R95). -/
def Group.results (g : Group) (k : Header) (bridle : Bool) (i : Instr) (gi : Nat) (r : Res) : Group :=
  let ls := (r.lanes.filter (fun q => q.gi == gi))
  let g := g.shadow (writtenV k i)
  let g := ls.foldl (fun g q => g.modLane q.lane (fun l => { l with
    seq := if usesSr i then (l.seq + 1) % 256 else l.seq })) g
  let p : Pend := ⟨ls.map (fun q => (q.lane, if q.fl = 0 then q.ws else q.ws ++ [.f q.fl])), r.gs⟩
  if (traits i).varLat && !bridle then { g with pend := g.pend ++ [p] } else g.deliverOne p

/-- Where a lane goes next: its jump, or the next address. -/
def nextPc (x : Site) (r : Res) (gi l : Nat) : Nat :=
  match r.jump.find? (fun q => q.1 == gi && q.2.1 == l) with
  | some q => q.2.2
  | none => x.pc + x.len
/-- What a lane is after the issue: ready, or waiting as the instruction left it. -/
def nextSt (r : Res) (gi l : Nat) : LaneSt :=
  match r.wait.find? (fun q => q.1 == gi && q.2.1 == l) with
  | some q => q.2.2
  | none => .ready

/-- The lanes that issued move on; those of one next address stay one bundle, and the part with the lowest address is the current
path (R25, R28, R37). DESIGN CHOICE (log 44): its count of 32 bundles goes on from the path that split (R28 counts from the time a path
became current). -/
def Group.advance (g : Group) (x : Site) (r : Res) (gi : Nat) (ls : Mask) : Group :=
  let pcs := ((lanesOf ls).map (nextPc x r gi)).eraseDups
  let id (pc : Nat) : Nat := g.nextBundle + (pcs.idxOf? pc).getD 0
  { g with
    nextBundle := g.nextBundle + pcs.length
    path := some ((pcs.min?).getD x.pc)
    run := pcs.min?.map id
    lanes := (enum g.lanes).map (fun p =>
      if ls.has p.1 ∧ p.2.st ≠ .exited then
        let pc := nextPc x r gi p.1
        { p.2 with pc := pc, st := nextSt r gi p.1, bundle := id pc, declined := none, met := false, judged := none }
      else p.2) }

/-- Is the instruction an STC, whose issue closes its path's cinch window (R29). -/
def isStc : Instr → Bool
  | .stc .. => true
  | _ => false
/-- The group's counts at an issue (R28, R29, R199-R201, R257), the drain after a switch marker (R94), and the end of a bridle
quantum of `q` instructions at its q-th issue or at the exit of the last live lane (R201). -/
def Group.tick (g : Group) (x : Site) (gi : Nat) (mem : Mask) (skid : Bool) (q : Option Nat) : Group :=
  let sw := (headOf x.i).sw
  let last := match q with
    | some n => g.ended.isNone && (decide (n ≤ g.quantum + 1) || g.live == 0)
    | none => false
  { g with
    ended := if last then some ⟨x.i, x.pc, mem, 0, gi, true⟩ else g.ended
    issued := g.issued + 1
    cinch := if isStc x.i then none else g.cinch.bind (fun n => if n ≤ 1 then none else some (n - 1))
    cntL := 0
    cntU := 0
    issues := g.issues + 1
    quantum := g.quantum + 1
    turn := true
    skid := if skid then g.skid + 1 else g.skid
    drain := if sw then decide (g.pend ≠ []) || g.owesResult else g.drain
    pendV := if sw then pendClear g.pendV mem else g.pendV
    pendP := if sw then pendClear g.pendP mem else g.pendP
    pendG := if sw then pendClear g.pendG mem else g.pendG }

/-- Park lanes of a group (R35, R48): they keep their address and become a bundle of their own. -/
def Group.park (g : Group) (ls : Mask) (r : Park) : Group :=
  { (g.modLanes ls (fun l => { l with st := .parked r, bundle := g.nextBundle })) with nextBundle := g.nextBundle + 1 }

/-- Park lanes of an issue that has completed for the others (R134, R151, R374): at a scope wider than the lane their rendezvous is over, and each
makes its access alone. -/
def Group.parkMet (g : Group) (wide : Bool) (ls : Mask) (r : Park) : Group :=
  if wide then (g.park ls r).modLanes ls (fun l => { l with met := true }) else g.park ls r

/-- Lanes that wait keep what the instruction's checks have found, which are not made again (R251). -/
def Group.judge (g : Group) (ls : Mask) : Option Nat → Group
  | none => g
  | some n => g.modLanes ls (fun l => { l with judged := some n })

/-- Applies `f` to every group of a list with its lanes. -/
def State.eachGroup (s : State) (tid : Nat) (gs : List (Nat × Mask)) (f : Nat → Mask → Group → Group) : State :=
  gs.foldl (fun s p => s.modGroup tid p.1 (f p.1 p.2)) s

/-- Spreads the one result of a UNI issue over the participants (R91). -/
def spread (x : Site) (uni : Bool) (r : Res) : Res :=
  if uni then
    match r.lanes with
    | q :: _ => { r with lanes := x.lanes.map (fun p => ⟨p.1, p.2, q.ws, q.fl⟩) }
    | [] => r
  else r

/-- The site of a UNI issue: the lowest participant alone (R91). -/
def Site.lead (x : Site) (uni : Bool) : Site :=
  if uni then { x with part := match x.lanes with
    | q :: _ => [(q.1, laneBit q.2)]
    | [] => [] }
  else x

/-- Lanes of the results that raised a flag enabled in their group's %fpctl (R102). -/
def fpxLanes (s : State) (tid : Nat) (r : Res) : List (Nat × Nat) :=
  (r.lanes.filter (fun q => match s.group? tid q.gi with
    | some g => decide (q.fl &&& g.fpctl ≠ 0)
    | none => false)).map (fun q => (q.gi, q.lane))

/-- The lanes of one group in a list. -/
def lanesIn (gi : Nat) (l : List (Nat × Nat)) : Mask := maskOf ((l.filter (fun q => q.1 == gi)).map Prod.snd)

/-- The issue completes for the lanes of `mem` (R37, R92-R94): results, next addresses, counts. -/
def State.finish (s : State) (x : Site) (r : Res) : State :=
  match s.team? x.tid with
  | none => s
  | some t =>
    s.eachGroup x.tid x.mem (fun gi m g =>
      ((((g.results t.la.hdr t.la.bridle x.i gi r).track t.la.hdr x.i (x.partOf gi)).advance x r gi m).tick x gi m t.halt.isSome
        (if t.la.bridle then some t.la.q else none)))

/-- The lanes of `z` complete an issue whose others fault: the address that faults is the lowest, and the current path (R28, R275). -/
def State.splitOff (s : State) (x z : Site) (r : Res) : State :=
  (s.finish z r).eachGroup x.tid x.mem (fun _ _ g => { g with path := some x.pc, run := none })
/-- A trap of the participants of an issue that performs nothing (R275): at lane scope they are one fragment, and the guard-false lanes,
which complete, its sibling; at a wider scope the whole membership is one. -/
def State.trapPart (s : State) (x : Site) (t : Trap) (low : Nat) (fpx : List (Nat × Mask)) : State :=
  let gs := x.mem.map Prod.fst
  if x.scope ≠ .lane then (s.skidded x.tid gs).raise x.tid gs x.pc low t (wholeEnts x t.code t.addr) fpx
  else
    let p := x.partOf x.gi
    let m := (x.mem.head?.map Prod.snd).getD 0
    let es := fragEnts x.gi x.pc ((lanesOf m).map (fun l => if p.has l then (l, t.code, t.addr) else (l, 0, 0)))
    let z : Site := { x with mem := x.mem.map (fun q => (q.1, q.2 &&& ~~~p)), part := [] }
    (s.splitOff x z {}).raise x.tid gs x.pc low t es fpx

/-- #FPX (R102, R276): the flags are ORed in, nothing else is written. -/
def State.trapFpx (s : State) (x : Site) (r : Res) (ls : List (Nat × Nat)) : State :=
  let s := s.eachGroup x.tid x.mem (fun gi _ g => (r.lanes.filter (fun q => q.gi == gi)).foldl
    (fun g q => g.modLane q.lane (fun l => { l with fl := l.fl ||| q.fl })) g)
  let low := (ls.map (fun q => 32 * q.1 + q.2)).headD 0
  s.trapPart x { code := tFPX } low ((x.mem.map Prod.fst).map (fun j => (j, lanesIn j ls)))

/-! ## Bramble limits and stalls (R192) -/

/-- Does the instruction's class stall a speculating group (R192). -/
def stallClass (i : Instr) : Bool :=
  (traits i).stalls || decide ((headOf i).scope = .set) || decide ((headOf i).scope = .team) ||
  (match i with
   | .ldg _ _ _ _ _ _ r _ _ => r == 1
   | .ldpXm _ _ _ _ _ _ r _ => r == 1
   | .stg _ _ _ _ _ r _ _ => r == 1
   | .stpXm _ _ _ _ _ r _ => r == 1
   | _ => false)
/-- Is a speculating group over a limit of R192. -/
def Bram.over (b : Bram) (n : Nat) : Bool :=
  decide (64 < b.sad.length) || decide (128 < b.rset.length) || decide (n < b.shadows.length)

/-! ## Performing -/

/-- The cause that a lane's fault reports: a use of R209 by one lane is one of shared memory. -/
def laneCause (code : Nat) : Nat := if code = tBRIDLE then 2 else 0
/-- How an issue would end. -/
inductive End where
  /-- the new state: completed, parked or waiting -/
  | done (s : State)
  /-- a trap's state -/
  | trap (s : State)

/-- The state of an end. -/
def End.state : End → State
  | .done s => s
  | .trap s => s

/-- The lane outcomes of an issue, in (group, lane) order. -/
def outcomes (b : Body) (s : State) (x : Site) : List (Nat × Nat × Chk) := x.lanes.map (fun q => (q.1, q.2, b.lane s x q.1 q.2))

/-- The lanes among the outcomes that fault, with code and address. -/
def faultsOf (os : List (Nat × Nat × Chk)) : List (Nat × Nat × Nat × Nat) := os.filterMap (fun q => match q.2.2 with
  | .fault c a => some (q.1, q.2.1, c, a)
  | _ => none)
/-- Those that would wait, and for what. -/
def parksOf (os : List (Nat × Nat × Chk)) : List (Nat × Nat × Park) := os.filterMap (fun q => match q.2.2 with
  | .park r => some (q.1, q.2.1, r)
  | _ => none)

/-- Does the issue end a bridle quantum with its effect still to come (R201). -/
def defers (b : Body) (s : State) (x : Site) (t : Team) : Bool := t.la.bridle && ((traits x.i).ends || b.defer s x)

/-- Is the instruction an LDR, whose cinch window keeps its path over the wait for the round's end (R29). -/
def isLdr : Instr → Bool
  | .ldr .. => true
  | _ => false
/-- A bridle issue whose effect waits for the round end (R201): issued and counted, its lanes past it and waiting, so that its path gives up its issue
slots (R28). -/
def State.deferIt (s : State) (x : Site) : State :=
  (s.finish x {}).eachGroup x.tid x.mem (fun gi m g =>
    { g with ended := some ⟨x.i, x.pc, m, x.partOf gi, x.gi, false⟩
             issued := if isLdr x.i then g.issued else 32
             lanes := g.lanes.map (fun l => if l.st = .ready then { l with st := .parked .round } else l) })

/-- The lanes of `x` without the given ones. -/
def dropLanes (l : List (Nat × Mask)) (d : List (Nat × Nat)) : List (Nat × Mask) :=
  l.map (fun p => (p.1, p.2 &&& ~~~ lanesIn p.1 d))

/-- Performs an instruction whose members are gathered and whose participants are known: the body's own checks, the lane
outcomes, #FPX, the results (R72 order 7, R102, R275). A lane that waits parks alone, and the others complete and go on (R134, R151, R374). In bridle mode a lane that would wait holds the whole issue, so that
the issue is counted once whatever the caches hold (R199, R200, R213). -/
def perform (b : Body) (s : State) (x : Site) (t : Team) : End :=
  let uni := uniOf x.i
  let y := x.lead uni
  match b.pre s y with
  | .trap tr =>
    if x.scope = .lane ∧ x.part ≠ x.mem ∧ x.lanes ≠ [] then .trap (s.trapPart x tr ((x.lanes.map (fun q => 32 * q.1 + q.2)).headD 0) [])
    else .trap (s.trapWhole x tr)
  | .wait r => .done (s.eachGroup x.tid x.mem (fun _ m g => (g.park m r).judge m (b.note s y)))
  | .go =>
    let os := outcomes b s y
    let fs := faultsOf os
    let ps := parksOf os
    let wide := decide (x.scope ≠ .lane)
    let parkAll (s : State) : State := ps.foldl (fun s q => s.modGroup x.tid q.1 (fun g => g.parkMet wide (laneBit q.2.1) q.2.2)) s
    match if t.la.bridle then ps else [] with
    | q :: _ => .done (s.eachGroup x.tid x.mem (fun _ m g => g.park m q.2.2))
    | [] =>
    match fs with
    | f0 :: _ =>
      let best := (firstFault (fs.map (fun f => (32 * f.1 + f.2.1, f.2.2.1, f.2.2.2)))).getD (32 * f0.1 + f0.2.1, f0.2.2.1, f0.2.2.2)
      let tr : Trap := { code := best.2.1, addr := best.2.2, cause := laneCause best.2.1 }
      if uni || wide then .trap (s.trapPart x tr best.1 [])
      else
        -- lane scope: fragments (R275); a branch moves no lane (R321)
        let gi := x.gi
        let m := (x.mem.head?.map Prod.snd).getD 0
        let out (l : Nat) : Option (Nat × Nat × Nat) :=
          match os.find? (fun q => q.2.1 == l) with
          | some (_, _, .fault c a) => some (l, c, a)
          | some (_, _, .park _) => none
          | some (_, _, .ok) => some (l, 0, 0)
          | none => some (l, 0, 0)
        let es := fragEnts gi x.pc ((lanesOf m).filterMap out)
        if b.whole then .trap ((s.skidded x.tid [gi]).raise x.tid [gi] x.pc best.1 tr es [])
        else
          let bad := fs.map (fun f => (f.1, f.2.1)) ++ ps.map (fun p => (p.1, p.2.1))
          let z := { x with mem := dropLanes x.mem bad, part := dropLanes x.part bad }
          if defers b s z t && z.lanes ≠ [] then
            -- in bridle mode the others' effect waits for the round end (R201, R203)
            .trap (((s.deferIt z).eachGroup x.tid x.mem (fun _ _ g => { g with path := some x.pc, run := none })).raise x.tid [gi] x.pc best.1 tr es [])
          else
            let (s1, r) := b.run s z
            .trap (((parkAll s1).splitOff x z r).raise x.tid [gi] x.pc best.1 tr es [])
    | [] =>
      if !ps.isEmpty && uni then
        -- the one access waits: nothing is performed (R91)
        .done (ps.foldl (fun s q => s.eachGroup x.tid x.part (fun _ m g => g.park m q.2.2)) s)
      else
        let bad := ps.map (fun p => (p.1, p.2.1))
        let z := { x with mem := dropLanes x.mem bad, part := dropLanes x.part bad }
        if defers b s z t then .done ((parkAll s).deferIt z)
        else
          let (s1, r0) := b.run s (z.lead uni)
          let r := spread z uni r0
          match fpxLanes s x.tid (if uni then r0 else r) with
          | [] => .done (State.finish (parkAll s1) z r)
          | l0 :: ls => .trap (s.trapFpx x r (l0 :: ls))

/-- The participants (R36): the members whose guard is true. -/
def participants (s : State) (i : Instr) (x : Site) : List (Nat × Mask) :=
  x.mem.map (fun p => (p.1, match s.group? x.tid p.1 with
    | some g => maskOf ((lanesOf p.2).filter (fun l => g.guard l (guardOf i)))
    | none => 0))

/-- Is the instruction one whose rows must agree (R36, R117, R404). -/
def rowRule : Instr → Bool
  | .mma .. => true
  | .mmax .. => true
  | .qmx _ _ _ _ _ _ t _ _ => t != .e2m1
  | _ => false
/-- Lanes 2r and 2r + 1 both participate or neither (R117). -/
def rowsAgree (m : Mask) : Bool := (List.range 16).all (fun r => m.has (2 * r) == m.has (2 * r + 1))

/-- Does a member group speculate. -/
def speculates (x : Site) (t : Team) : Bool :=
  x.mem.any (fun p => match t.groups[p.1]? with
    | some g => g.bram.isSome
    | none => false)
/-- The member groups of an issue stall before it, its lanes ready (R192). -/
def State.stallAt (s : State) (x : Site) : State :=
  s.eachGroup x.tid x.mem (fun _ m g => { (g.modLanes m (fun l => { l with st := .ready })) with
    bram := g.bram.map (fun b => { b with stalled := true }) })
/-- Performs for a group that is not speculating, or, for one that is (`sp`), either in full or with a stall before it (R192). -/
def performOrStall (b : Body) (sp : Bool) (s : State) (x : Site) (t : Team) : State :=
  if sp then
    let stall := s.stallAt x
    match perform b s x t with
      | .trap _ => stall
      | .done s' =>
        if x.mem.any (fun p => match s'.group? x.tid p.1 with
          | some g => match g.bram with
            | some b => b.over t.la.hdr.shadow
            | none => false
          | none => false) then stall else s'
  else (perform b s x t).state

/-- Is the team in checked mode (R95). -/
def checked (s : State) (t : Team) : Bool := t.la.chk || s.ctxChk t.ctx

/-- Does some member group, with its members, satisfy `f`. -/
def Site.anyMem (x : Site) (t : Team) (f : Nat → Group → Mask → Bool) : Bool :=
  x.mem.any (fun p => match t.groups[p.1]? with
    | some g => f p.1 g p.2
    | none => false)
/-- Does the group's fence hold the instruction: its accesses wait for every fence, its engine commands for FENCE.X alone (R167, R168). -/
def Group.fenceHolds (g : Group) (i : Instr) : Bool :=
  match g.fence with
  | some f => (traits i).mem && (f.x || !(traits i).engine)
  | none => false
/-- What stands between the rendezvous and the effect: a trap of R72 orders 5 and 6 or of R36, or a fence of the group (R167). -/
def hindrance (i : Instr) (s : State) (x : Site) (t : Team) : Pre :=
  if rowRule i && x.part.any (fun p => !rowsAgree p.2) then .trap { code := tMEMB }
  else if checked s t && x.anyMem t (fun j g m => pendTrap t.la.hdr x j g m (x.partOf j)) then .trap { code := tPEND }
  else if checked s t && uniOf i && unifTrap s x then .trap { code := tUNIF }
  else if x.anyMem t (fun _ g _ => g.fenceHolds i) then .wait .fence
  else .go
/-- The issue over its gathered members: what hinders it, or its effect; a speculating group stalls before a trap (R192). -/
def afterGather (i : Instr) (b : Body) (s : State) (x : Site) (t : Team) : State :=
  let x := { x with part := participants s i x }
  match hindrance i s x t with
  | .trap tr => if speculates x t then s.stallAt x
    else if tr.code = tUNIF then s.trapPart x tr ((x.lanes.map (fun q => 32 * q.1 + q.2)).headD 0) [] else s.trapWhole x tr
  | .wait r => s.eachGroup x.tid x.mem (fun _ m g => g.park m r)
  | .go => performOrStall b (speculates x t) (b.prep s x) x ((b.prep s x).team? x.tid |>.getD t)

/-- The groups whose role an instruction checks: its own, or every group of its unit that has live lanes (R44). -/
def roleGroups (t : Team) (gi : Nat) (sc : Scope) : List Nat :=
  match sc with
  | .lane | .group => [gi]
  | .set | .team => (membersOf t (unitGroups t gi sc) sc 0xFFFFFFFF).map Prod.fst
/-- The decode checks of R72 orders 2 to 4 in the issuing group: the trap code, if any. -/
def screen (i : Instr) (s : State) (t : Team) (gi : Nat) : Option Nat :=
  if !legal t.la.hdr t.la.nb i then some tILL
  else if isPriv i && !s.ctxPriv t.ctx then some tPRIV
  else if (roleGroups t gi (headOf i).scope).any (fun j => match t.groups[j]? with
      | some g => roleForbids g.role i
      | none => false) then some tROLE
  else none

/-- A trap of the lanes of an issue attempt before any rendezvous; a speculating group stalls instead (R72, R192). -/
def State.trapEarly (s : State) (c : Cur) (g : Group) (t : Trap) : State :=
  match g.bram with
  | some _ => s.stallGroup c.tid c.gi
  | none => (s.skidded c.tid [c.gi]).raise c.tid [c.gi] c.pc (32 * c.gi + (lanesOf c.lanes).headD 0) t [ent t.code c.gi 1 c.lanes 0 c.pc t.addr] []
/-- A trap of the decode checks: #ROLE at set or team scope is of the whole instruction, every member group with it (R40, R44). -/
def State.trapScreen (s : State) (i : Instr) (c : Cur) (t : Team) (g : Group) (code : Nat) : State :=
  let sc := (headOf i).scope
  if code = tROLE && (sc == .set || sc == .team) && g.bram.isNone then
    s.trapWhole ⟨i, c.tid, c.gi, c.pc, 4 * i.words, membersOf t (unitGroups t c.gi sc) sc 0xFFFFFFFF, []⟩ { code := code }
  else s.trapEarly c g { code := code }

/-- One issue attempt of the instruction by the lanes of `cur`. -/
def issueAt (i : Instr) (b : Body) (s : State) (c : Cur) (t : Team) (g : Group) : State :=
  match screen i s t c.gi with
  | some code => s.trapScreen i c t g code
  | none =>
    if g.bram.isSome && stallClass i then s.stallGroup c.tid c.gi
    else match gather i s c t g with
      | .stop s' => s'
      | .go s' x => afterGather i b s' x ((s'.team? c.tid).getD t)

/-- The issuer: the current issue with its team and group. -/
def State.issuer (s : State) : Option (Cur × Team × Group) :=
  match s.cur with
  | none => none
  | some c => match s.team? c.tid with
    | none => none
    | some t => match t.groups[c.gi]? with
      | none => none
      | some g => some (c, t, g)

/-- The issue of an instruction: with no issuer the machine stops by name, which no step does. -/
def issue (i : Instr) (b : Body) (s : State) : Host.Outcome State Fault Refusal :=
  match s.issuer with
  | none => .fault .noIssuer
  | some (c, t, g) => .next (issueAt i b s c t g)

/-! ## Bodies of one shape -/

/-- What each participant in turn does to the state, and its register writes. -/
def State.lanesDo (s : State) (x : Site) (f : State → Group → Nat → Nat → State × List Wr) : State × List LRes :=
  x.lanes.foldl (fun (acc : State × List LRes) q =>
    match acc.1.group? x.tid q.1 with
    | none => acc
    | some g =>
      let r := f acc.1 g q.1 q.2
      (r.1, acc.2 ++ [⟨q.1, q.2, r.2, 0⟩])) (s, [])
/-- What each participant in turn does to the state. -/
def State.lanesEach (s : State) (x : Site) (f : State → Group → Nat → Nat → State) : State :=
  x.lanes.foldl (fun s q => match s.group? x.tid q.1 with
    | none => s
    | some g => f s g q.1 q.2) s

/-- A body that works lane by lane on registers: each participant's writes and flags. -/
def laneBody (f : Group → Nat → List Wr × Flags) : Body :=
  { run := fun s x => (s, match s.team? x.tid with
      | none => {}
      | some t => { lanes := x.lanes.map (fun q => match t.groups[q.1]? with
          | some g => let r := f g q.2; ⟨q.1, q.2, r.1, r.2⟩
          | none => ⟨q.1, q.2, [], 0⟩) }) }
/-- One vector register written from a group's registers. -/
def aluBody (d : Nat) (f : Group → Nat → Word) : Body := laneBody (fun g l => ([.v d (f g l)], 0))
/-- One vector register and flags. -/
def fpBody (d : Nat) (f : Group → Nat → Nat × Flags) : Body :=
  laneBody (fun g l => let r := f g l; ([.v d (BitVec.ofNat 32 r.1)], r.2))
/-- A pair of vector registers from a 64-bit value. -/
def wr64 (d x : Nat) : List Wr := [.v d (BitVec.ofNat 32 x), .v (d + 1) (BitVec.ofNat 32 (x / 2 ^ 32))]
/-- A body that writes g-registers from the issuing group's (R431). -/
def uniBody (f : State → Team → Group → List (Nat × Word)) : Body :=
  { run := fun s x => (s, match s.team? x.tid with
      | none => {}
      | some t => match t.groups[x.gi]? with
        | some g => { gs := f s t g }
        | none => {}) }
/-- A body that changes nothing (R393). -/
def nopBody : Body := { run := fun s _ => (s, {}) }
/-- A body that traps with the instruction's own trap. -/
def trapBody (t : Trap) : Body := { pre := fun _ _ => .trap t, run := fun s _ => (s, {}) }

end Sys2Proof.Machine
end

