-- ==== Sys2Proof/Machine/Order.lean ====
section
/-! DEFINITION. What moves between instructions: store queues, barrier phases, fences, speculation's commit, and the end of waits
(R48, R49, R161-R168, R181-R196, R272). -/
namespace Sys2Proof.Machine

/-! ## Barriers (R181-R188) -/

/-- Bits of a group's lanes in a barrier's arrival mask (R182). -/
def laneBits (gi : Nat) (m : Mask) : Nat := m.toNat * 2 ^ (32 * gi)
/-- The lanes of a group counted in the open phase. -/
def Barrier.lanes (b : Barrier) (gi : Nat) : Mask := BitVec.ofNat 32 (b.mask / 2 ^ (32 * gi))
/-- Number of lanes in a mask. -/
def popMask (m : Mask) : Nat := (lanesOf m).length

/-- Counts the lanes of one group (R184): none on a disagreeing explicit count. -/
def Barrier.count (b : Barrier) (gi : Nat) (m : Mask) (cnt : Option Nat) : Option Barrier :=
  let add (b : Barrier) : Barrier := { b with arrived := b.arrived + popMask m, mask := Nat.lor b.mask (laneBits gi m) }
  match cnt with
  | none => some (add b)
  | some e => if !b.latch then some (add { b with latch := true, expect := e })
    else if b.expect = e then some (add b) else none

/-- Does the open phase complete (R185): the latched count is reached, or every live lane is counted. -/
def Barrier.complete (b : Barrier) (t : Team) : Bool :=
  (b.latch && decide (b.expect ≤ b.arrived)) || (enum t.groups).all (fun p => p.2.live &&& ~~~ b.lanes p.1 == 0)

/-- The barrier after a completion (R185). -/
def Barrier.flip (b : Barrier) : Barrier := ⟨!b.phase, false, 0, 0, 0⟩

/-- The domain of a barrier's acquire by a group (R164): its watermark, taken over its speculative accesses too (R194). -/
def Group.specDom (g : Group) : Dom := match g.bram with
  | none => g.wm
  | some b => g.wm.wider b.wm
/-- Does the group speculate past barrier `b` (R189). -/
def Group.pastBar (b : Nat) (g : Group) : Bool := g.bram.any (·.bar == b)

/-- A list of numbers in ascending order. -/
def sortNat : List Nat → List Nat
  | [] => []
  | a :: r => let l := sortNat r; l.takeWhile (fun b => decide (b < a)) ++ a :: l.dropWhile (fun b => decide (b < a))
/-- The number of the arrival at barrier `b` in which a lane is held. -/
def Lane.heldNo (b : Nat) (l : Lane) : Option Nat :=
  match l.st with
  | .barred x (.held _ _ _ k) => if x = b then some k else none
  | _ => none
/-- An arrival that was held: its lanes with their explicit counts, SPEC, whether they wait, and the instruction's address (R184). -/
structure HeldArr where
  lanes : List (Nat × Mask × Option Nat)
  spec : Bool
  wait : Bool
  pc : Nat
  deriving DecidableEq, Repr
/-- The arrival with number `k` held at barrier `b`. -/
def Team.heldArr (t : Team) (b k : Nat) : HeldArr :=
  let of (l : Lane) : Option (Option Nat × Bool × Bool × Nat) := match l.st with
    | .barred x (.held c w sp n) => if x = b ∧ n = k then some (c, w, sp, l.pc) else none
    | _ => none
  let ls := (enum t.groups).filterMap (fun p => (p.2.lanes.findSome? of).map (fun h => (p.1, p.2.mask (fun l => l.heldNo b == some k), h)))
  match ls with
  | [] => ⟨[], false, false, 0⟩
  | q :: _ => ⟨ls.map (fun p => (p.1, p.2.1, p.2.2.1)), q.2.2.2.2.1, q.2.2.2.1, q.2.2.2.2.2 - 4⟩
/-- The arrivals held at barrier `b`, in the order they were made. -/
def Team.heldArrs (t : Team) (b : Nat) : List HeldArr :=
  (sortNat (t.groups.flatMap (fun g => g.lanes.filterMap (Lane.heldNo b))).eraseDups).map (t.heldArr b)
/-- A group at the completion of barrier `b` (R185, R194): waiting lanes become ready; held lanes go on to arrive in the new phase; a
speculating group may commit. -/
def Group.atComplete (b : Nat) (g : Group) : Group :=
  { g with
    bram := g.bram.map (fun r => if r.bar = b then { r with past := true } else r)
    noSpec := if g.noSpec = some b then none else g.noSpec
    lanes := g.lanes.map (fun l => match l.st with
      | .barred k (.phase _) => if k = b then { l with st := .ready } else l
      | .barred k (.held _ w _ _) => if k = b then { l with st := if w then .barred b .release else .ready } else l
      | _ => l) }
/-- Has the group a lane that waits for the open phase of barrier `b`. -/
def Group.waitsAt (b : Nat) (g : Group) : Bool := g.lanes.any (fun l => l.st == .barred b (.phase false) || l.st == .barred b (.phase true))
/-- An entry joins the queue of every group of a list. -/
def State.enqueue (s : State) (tid : Nat) (gs : List Nat) (rel : Bool) (a : SqAct) : State :=
  gs.foldl (fun s j => s.modGroup tid j (fun g => { g with sq := g.sq ++ [⟨rel, g.sn, a⟩], sn := g.sn + 1 })) s

/-- Bramble trigger 3 (R193): an acquire by a group of the team marks the groups that speculate past a barrier it is late at. -/
def State.trigger3 (s : State) (tid gi : Nat) : State := s.markBram (fun t _ b => t.tid == tid && !b.past && t.late gi b.bar)
/-- The same of several groups. -/
def State.trigger3s (s : State) (tid : Nat) (gs : List Nat) : State := gs.foldl (fun s j => s.trigger3 tid j) s

/-- Completes the open phase of a barrier (R185), an acquire for every group that waited (R176) or speculates past it (R194 step 1), and a trigger for
groups that speculate past another (R193). -/
def State.completeOnce (s : State) (tid b : Nat) : State :=
  match s.team? tid with
  | none => s
  | some t =>
    let ws := ((enum t.groups).filter (fun p => p.2.waitsAt b || p.2.pastBar b)).map Prod.fst
    let d := t.groups.foldl (fun d g => if g.waitsAt b || g.pastBar b then d.wider g.specDom else d) .core
    let s := s.modTeam tid (fun t => { t with bars := updAt t.bars b Barrier.flip, groups := t.groups.map (Group.atComplete b) })
    if t.la.bridle then s
    else
      let s := (t.heldArrs b).foldl (fun s h => s.enqueue tid (h.lanes.map Prod.fst) true (.arrive b h.lanes h.spec h.wait h.pc)) s
      (s.acquire t.pcore d).trigger3s tid ws

/-- Counts arrivals whose release has completed, group by group (R184): on an explicit count that differs from the latched one the
group's lanes are not counted and #MEMB is raised at the instruction's address. Exited lanes are in no arrival (R342). -/
def State.countLanes (s : State) (tid b : Nat) (ls : List (Nat × Mask × Option Nat)) (spec wait : Bool) (pc : Nat) : State :=
  ls.foldl (fun s q =>
    match (s.team? tid).bind (fun t => t.bars[b]?) with
    | none => s
    | some r =>
      match s.group? tid q.1 with
      | none => s
      | some g =>
        let m := q.2.1 &&& g.live
        if m = 0 then s else
        match r.count q.1 m q.2.2 with
        | some r' => (s.modTeam tid (fun t => { t with bars := updAt t.bars b (fun _ => r') })).modGroup tid q.1 (fun g =>
            if wait then g.modLanes m (fun l => if l.st = .barred b .release then { l with st := .barred b (.phase spec) } else l) else g)
        | none =>
          let s := if wait then s.modGroup tid q.1 (fun g => g.modLanes m (fun l => { l with st := .ready, pc := pc })) else s
          s.raise tid [q.1] pc (32 * q.1 + (lanesOf m).headD 0) { code := tMEMB } [ent tMEMB q.1 1 m 0 pc 0] []) s

/-- Completes a phase; in bridle mode held arrivals are counted at once in the new one, which may complete in turn (R184, R203). -/
def State.completeBar (s : State) (tid b : Nat) : State :=
  match s.team? tid with
  | none => s
  | some t =>
    let s' := s.completeOnce tid b
    let hs := t.heldArrs b
    if !t.la.bridle || hs == [] then s'
    else
      let s2 := hs.foldl (fun s h => s.countLanes tid b h.lanes false h.wait h.pc) s'
      match s2.team? tid with
      | some t2 => match t2.bars[b]? with
        | some r => if r.complete t2 then s2.completeOnce tid b else s2
        | none => s2
      | none => s2

/-- Completes the barriers of a team whose test holds (R185): after an arrival, an exit or a group's retirement. -/
def State.testBars (s : State) (tid : Nat) : State :=
  match s.team? tid with
  | none => s
  | some t => (List.range t.bars.length).foldl (fun s b => match s.team? tid with
    | some t => match t.bars[b]? with
      | some r => if r.arrived ≠ 0 && r.complete t then s.completeBar tid b else s
      | none => s
    | none => s) s

/-- The checkpoint of a group that enters speculation past barrier `b` (R189, R190). -/
def Group.speculate (g : Group) (b : Nat) : Group :=
  let g := g.deliver
  { g with
    bram := some ⟨b, g.lanes, g.p, g.g, g.seed, [], [], [], false, false, false, g.fpctl, g.permBase, g.pendV, g.pendP, g.pendG, .core, []⟩
    lanes := g.lanes.map (fun l => if l.st = .barred b (.phase true) then { l with st := .ready } else l) }

/-- May a group speculate past barrier `b` (R189): a lane waits there at a BAR with SPEC, every live lane is counted in the open phase, none
is parked, its queued atomics are done, and it has not rolled back in this phase. -/
def canSpeculate (t : Team) (r : Barrier) (b gi : Nat) (g : Group) : Bool :=
  t.la.bramble && t.la.hdr.bramble && !t.la.bridle && t.halt.isNone && g.bram.isNone && g.noSpec != some b && g.live != 0 &&
  g.live &&& ~~~ r.lanes gi == 0 && g.lanes.all (fun l => !l.st.isParked) && !g.owesRmw && g.lanes.any (fun l => l.st == .barred b (.phase true))

/-- Counts an arrival whose release has completed (R184), and tests completion. -/
def State.arriveNow (s : State) (tid b : Nat) (ls : List (Nat × Mask × Option Nat)) (spec wait : Bool) (pc : Nat) : State :=
  (s.countLanes tid b ls spec wait pc).testBars tid
/-- The barrier past which a group may speculate now. -/
def Team.specBar (t : Team) (gi : Nat) (g : Group) : Option Nat :=
  if t.la.bramble then (List.range t.bars.length).find? (fun b => match t.bars[b]? with
    | some r => canSpeculate t r b gi g
    | none => false)
  else none
/-- Groups whose every live lane is counted while the phase stays open enter speculation (R189). -/
def Team.enterSpec (t : Team) : Team :=
  { t with groups := (enum t.groups).map (fun p => match t.specBar p.1 p.2 with
      | some b => p.2.speculate b
      | none => p.2) }

/-! ## Store queues (R161, R166) -/

/-- Has the group nothing that a release must wait for but its own head entry. -/
def State.clear (s : State) (tid gi : Nat) : Bool := !s.unacked tid gi
/-- Does the head of a group's queue hold this act. -/
def headIs (t : Team) (a : SqAct) (gi : Nat) : Bool :=
  match t.groups[gi]? with
  | some g => match g.sq with
    | e :: _ => e.act == a
    | [] => false
  | none => false
/-- Removes the head of a group's queue. -/
def State.popSq (s : State) (tid gi : Nat) : State := s.modGroup tid gi (fun g => { g with sq := g.sq.tail })

/-- The translation that a core holds of a physical address of a context. -/
def State.entryOf (s : State) (core ctx pa : Nat) : Option TlbEnt :=
  ((s.core core).tlb ++ (s.die (dieOf core)).l2tlb).find? (fun e => e.ctx == ctx && decide (e.pbase ≤ pa) && decide (pa < e.pbase + e.size))
/-- The virtual address of a physical one, where the core knows it. -/
def State.vaOf (s : State) (core ctx pa : Nat) : Nat := match s.entryOf core ctx pa with
  | some e => e.vbase + (pa - e.pbase)
  | none => pa
/-- #MCHK at a lane's own instruction. -/
def State.mchkLane (s : State) (tid gi lane va : Nat) : State :=
  match s.group? tid gi with
  | none => s
  | some g =>
    let l := g.lane lane
    if l.st = .exited ∨ g.stopped ∨ 32 ≤ lane then s
    else s.raise tid [gi] l.pc (32 * gi + lane) { code := tMCHK, addr := va } [ent tMCHK gi 1 (laneBit lane) 0 l.pc va] []
/-- One lane's queued atomic or STC at its turn (R166, R169, R170): its effect at its place, and the writes of its result. An atomic that finds its
sector lost since its issue is not performed: a mirrored page's is read from the copy, and else its team gets #MCHK (R289, R291), DESIGN CHOICE
(log 25) at the lane's address then. -/
def State.rmwLane (s : State) (tid : Nat) (k : Rmw) : State × List Wr :=
  match s.team? tid with
  | none => (s, [])
  | some t =>
    let s := s.landLine t.pcore k.loc
    if k.op ≠ 16 && s.lostIn [(k.loc, k.n)] then (s.mchkLane tid k.gi k.lane (s.vaOf t.pcore t.ctx k.loc.at), [])
    else
    let s := if k.op = 16 then s else s.fromMirror [(k.loc, k.n)]
    if k.op = 16 then
      let ok := ((s.group? tid k.gi).bind (fun g => (g.lane k.lane).resv)).map Resv.line == some (k.loc.at / 128)
      let s := if ok then ((k.pte.map s.setD).getD s).pointWrite tid k.gi k.loc (leBytes k.n k.b) else s
      (s.modGroup tid k.gi (fun g => g.modLane k.lane (fun l => { l with resv := none })), k.reg.elim [] (fun p => [.p p ok]))
    else
      let old := leNat (s.pointBytes t k.loc k.n)
      (s.pointWrite tid k.gi k.loc (leBytes k.n (atomNew k.op k.ty k.bits old k.b k.c)),
        k.reg.elim [] (fun d => if k.n = 8 then [.v d (BitVec.ofNat 32 old), .v (d + 1) (BitVec.ofNat 32 (old / 2 ^ 32))] else [.v d (BitVec.ofNat 32 old)]))
/-- A queued atomic or STC, lane by lane; its results come to the lanes still live (R93, R342). -/
def State.rmwAll (s : State) (tid gi : Nat) (ks : List Rmw) : State :=
  let r := ks.foldl (fun (acc : State × List (Nat × List Wr)) k =>
    let q := acc.1.rmwLane tid k
    (q.1, acc.2 ++ [(k.lane, q.2)])) (s, [])
  r.1.modGroup tid gi (fun g =>
    let ws := r.2.filter (fun p => g.live.has p.1 && !p.2.isEmpty)
    if ws = [] then g else { g with pend := g.pend ++ [⟨ws, []⟩] })

/-- Does a lane's queued atomic or STC wait for its memory, or for that of an entry whose D bit it sets (R149, R262). -/
def State.rmwHeld (s : State) (core : Nat) (k : Rmw) : Bool := s.storeHeld core k.loc || k.pte.any s.dHeld
/-- The head entry of a group's store queue leaves it, where it may (R161, R166), but in bridle mode, where the round end takes it: a store is performed; a release only after the
acknowledgement of every write the group made or observed; a wide arrival when every group's queue has come to it. What memory holds back waits (R262,
R272). -/
def State.drainHead (s : State) (tid gi : Nat) : Option State :=
  match s.team? tid with
  | none => none
  | some t =>
    match t.groups[gi]? with
    | none => none
    | some g =>
      match g.sq with
      | [] => none
      | e :: _ =>
        if t.la.bridle || (e.rel && s.unacked tid gi) then none
        else
          match e.act with
          | .store l bs ch => if s.storeHeld t.pcore l then none else some ((s.popSq tid gi).perform tid gi e.sn l bs ch)
          | .rmw ks => if ks.any (s.rmwHeld t.pcore) then none
            else some ((s.popSq tid gi).rmwAll tid gi ks)
          | .fence => some (s.popSq tid gi)
          | .lnxt => some ((s.popSq tid gi).modGroup tid gi (fun g => { g with lnxt := true }))
          | .phf b gs =>
            if gs.all (fun j => headIs t e.act j && s.clear tid j) then
              some ((gs.foldl (fun s j => s.popSq tid j) s).completeBar tid b)
            else none
          | .arrive b ls spec wait pc =>
            let r := (t.bars[b]?).getD ⟨false, false, 0, 0, 0⟩
            if ls.all (fun q => headIs t e.act q.1 && s.clear tid q.1 && r.lanes q.1 &&& q.2.1 == 0) then
              some ((ls.foldl (fun s q => s.popSq tid q.1) s).arriveNow tid b ls spec wait pc)
            else none

/-- Drains a group's queue as far as it goes, at most `n` entries. -/
def State.drainUpTo (tid gi : Nat) : Nat → State → State
  | 0, s => s
  | n + 1, s => match s.drainHead tid gi with
    | some s' => State.drainUpTo tid gi n s'
    | none => s

/-- Drains a group's queue as far as it goes. -/
def State.drainAll (s : State) (tid gi : Nat) : State :=
  match s.group? tid gi with
  | some g => State.drainUpTo tid gi g.sq.length s
  | none => s

/-- Acknowledges the writes in flight of a core whose memory is not held, each line's in order (R157, R272). -/
def State.ackAll (s : State) (core : Nat) : State :=
  let ws := (s.core core).fly
  let stuck (w : Flight) : Bool := w.loc.sp == 2 && s.writeHeld w.loc.at (match w.loc with | .phys _ _ mi _ _ => mi | _ => false)
  if ws.all stuck then s
  else (ws.filter (fun w => !stuck w)).foldl (fun s w => s.land w.loc w.bytes) (s.modCore core (fun c => { c with fly := c.fly.filter stuck }))

/-- Drains every queue of a team and acknowledges what it sends, at most `n` rounds (R273). -/
def State.flushTeam (tid : Nat) : Nat → State → State
  | 0, s => s
  | n + 1, s =>
    match s.team? tid with
    | none => s
    | some t =>
      if t.groups.all (fun g => g.sq == []) then s.ackAll t.pcore
      else State.flushTeam tid n ((List.range t.groups.length).foldl (fun s j => s.drainAll tid j) (s.ackAll t.pcore))

/-! ## Commit of speculation (R194) -/

/-- The runs of consecutive bytes that a sector's mask covers: offset and bytes. -/
def sectorRuns (x : Sector) : List (Nat × List Byte) :=
  ((enum x.bytes).foldl (fun (acc : List (Nat × List Byte)) p =>
    if x.mask.has p.1 then
      match acc with
      | (o, bs) :: r => if o + bs.length = p.1 then (o, bs ++ [p.2]) :: r else (p.1, [p.2]) :: acc
      | [] => [(p.1, [p.2])]
    else acc) []).reverse

/-- Does a read-set sector wider than CORE still hold the bytes read (R194). -/
def State.stillHolds (s : State) (t : Team) (x : Sector) : Bool :=
  x.loc.dom == .core || (List.range 32).map (fun i => s.homeByte t x.loc.sp (x.loc.at + i)) == x.bytes

/-- Commits a speculating group whose barrier has completed (R194), or rolls it back under trigger 4. Its stores lose the reservations of its own
lanes on their lines (R171). It waits for the memory of an entry whose D bit it sets (R149, R262). -/
def State.commit (s : State) (tid gi : Nat) : State :=
  match s.team? tid with
  | none => s
  | some t =>
    match t.groups[gi]? with
    | none => s
    | some g =>
      match g.bram with
      | none => s
      | some b =>
        if !b.past then s
        else match b.ptes.find? s.dHeld with
        | some p => s.want p false true
        | none =>
          let s := s.acquire t.pcore g.specDom
          if !b.rset.all (s.stillHolds t) then s.modGroup tid gi (fun g => g.rollback false)
          else
            let sts := b.sad.flatMap (fun x => (sectorRuns x).map (fun r => (x.loc.plus r.1, r.2)))
            let s := b.ptes.foldl State.setD s
            s.modGroup tid gi (fun g => { g with
              bram := none
              lanes := g.lanes.map (fun l => b.sad.foldl (fun l x => loseOwn x.loc l) l)
              sq := g.sq ++ (enum sts).map (fun p => ⟨false, g.sn + p.1, .store p.2.1 p.2.2 0⟩)
              sn := g.sn + sts.length
              specCommit := min (g.specCommit + 1) 0xFFF })

/-! ## The end of waits (R48, R272) -/

/-- Is an entry of a store queue an atomic whose value is to be returned. -/
def Sq.returns (e : Sq) : Bool := match e.act with
  | .rmw ks => ks.any (fun k => k.reg.isSome && k.op != 16)
  | _ => false
/-- Are a group's writes before its fence acknowledged (R166), and its atomics that return values performed (R167). -/
def State.fenceClear (s : State) (tid gi : Nat) (g : Group) : Bool :=
  match g.fence with
  | none => true
  | some f => (!f.rel || (g.sq.all (fun e => decide (f.sn ≤ e.sn)) && !s.unacked tid gi)) &&
    (!f.acq || g.sq.all (fun e => decide (f.sn ≤ e.sn) || !e.returns))
/-- Is the fence complete: in every group that fences with it (R166, R167, R349), and for X no dirty line of the context waits for its memory (R168,
R262). -/
def State.fenceDone (s : State) (t : Team) (f : FenceWait) : Bool :=
  !(f.x && (s.stuckIn t.pcore (fun x => x.ctx == t.ctx)).isSome) && f.gs.all (fun j => match t.groups[j]? with
    | some g => s.fenceClear t.tid j g
    | none => true)

/-- Completes a group's fence where it can: the loaded values are written (R350), the acquire's invalidation (R167), and for X the write-back of the context's dirty
lines, which stay valid (R168). -/
def State.fenceStep (s : State) (tid gi : Nat) : State :=
  match s.team? tid with
  | none => s
  | some t =>
    match t.groups[gi]? with
    | none => s
    | some g =>
      match g.fence with
      | none => s
      | some f =>
        if s.fenceDone t f then
          let s := if f.acq then s.acquire t.pcore f.dom else s
          let s := if f.x then s.cleanL1 t.pcore (fun x => x.ctx == t.ctx) else s
          s.modGroup tid gi (fun g => { (if f.acq then { g.deliver with drain := g.drain } else g) with fence := none })
        else if f.x then s.wantIn t.pcore (fun x => x.ctx == t.ctx) else s

/-- The next command number (R217). -/
def Team.nextSeq (t : Team) : Nat := t.seq % (2 ^ 26 - 1) + 1
/-- The ticket slot of the next command: the lowest free one; in bridle mode that of its number, which must be free, so that the ticket depends on no
card's time (R213, log 56). -/
def Team.freeSlot (t : Team) : Option Nat :=
  if t.la.bridle then (let n := (t.nextSeq - 1) % 64; if (t.tickets[n]?).any (fun k => !k.busy) then some n else none)
  else t.tickets.findIdx? (fun k => !k.busy)
/-- Is a ticket slot free for the next command (R217). -/
def Team.ticketFree (t : Team) : Bool := t.freeSlot.isSome
/-- Is a ticket's card complete or failed (R217, R218). -/
def Team.ticketDone (t : Team) (x : Nat) : Bool :=
  match t.tickets[x / 2 ^ 26]? with
  | some k => !k.busy || k.seq != x % 2 ^ 26
  | none => true

/-- Messages of a channel in a team's queue or on their way to it (R407). -/
def Team.queued (t : Team) (ch : Nat) : Nat := (t.msgs.filter (fun m => m.ch == ch)).length
/-- Slots of a channel (R66). -/
def Team.slots (t : Team) (ch : Nat) : Nat := ((t.la.hdr.chans.find? (fun c => c.id == ch)).map (·.slots)).getD 0
/-- The team that a SEND on the channel reaches (R407): its own, or the one of the next rank of its cluster. -/
def State.sendTo (s : State) (t : Team) (ch : Nat) : Option Team :=
  if ch < 16 then some t
  else
    let n := t.cw * t.ch
    if t.lin % n + 1 < n then s.teams.find? (fun u => u.grid == t.grid && u.lin == t.lin + 1) else none

/-- The lanes of a served SEND or RECV go on. -/
def Group.served (m : Mask) (g : Group) : Group := g.modLanes m (fun l => if l.st.isParked then { l with st := .ready } else l)

/-- The message a group sends (R408): the registers of its member lanes, zero bytes for the others. -/
def Group.message (g : Group) (w : ChanWait) : List (List Byte) :=
  (List.range 32).map (fun l => (List.range w.n).flatMap (fun i => if w.lanes.has l then leBytes 4 (g.rv l (w.reg + i)).toNat else leBytes 4 0))

/-- Serves one waiting SEND or RECV, where it can be (R407, R408): a SEND posts its message; a RECV takes the oldest that has
arrived, an acquire at DIE and a rollback trigger (R193). A SEND whose receiving team has retired raises #CHAN (R409). -/
def State.serveOne (s : State) (tid : Nat) (w : ChanWait) : Option State :=
  match s.team? tid with
  | none => none
  | some t =>
    match t.groups[w.gi]? with
    | none => none
    | some g =>
      if w.send then
        match s.sendTo t w.ch with
        | none =>
          let s := s.modGroup tid w.gi (fun g => g.modLanes w.lanes (fun l => { l with st := .ready, pc := w.pc }))
          some (s.raise tid [w.gi] w.pc (32 * w.gi + (lanesOf w.lanes).headD 0) { code := tCHAN } [ent tCHAN w.gi 1 w.lanes 0 w.pc 0] [])
        | some u =>
          if u.queued w.ch < u.slots w.ch then
            some ((s.modTeam u.tid (fun u => { u with msgs := u.msgs ++ [⟨w.ch, tid, w.gi, t.la.bridle, g.message w, t.pcore, s.nextId⟩] })).modGroup
              tid w.gi (Group.served w.lanes) |> fun s => { s with nextId := s.nextId + 1 })
          else none
      else
        match (enum t.msgs).find? (fun m => m.2.ch == w.ch && m.2.landed) with
        | none => none
        | some (i, m) =>
          let s := s.modTeam tid (fun t => { t with msgs := t.msgs.eraseIdx i })
          let s := if t.la.bridle then s else (s.acquire t.pcore Dom.die).trigger3 tid w.gi
          some (s.modGroup tid w.gi (fun g => ((lanesOf w.lanes).foldl (fun g l =>
            let bs := (m.slots[l]?).getD []
            (List.range w.n).foldl (fun g i => g.wv l (w.reg + i) (BitVec.ofNat 32 (leNat ((bs.drop (4 * i)).take 4)))) g) g).served w.lanes))

/-- Serves a team's waiting SENDs and RECVs in issue order; those that still wait stay. -/
def State.serveChan (s : State) (tid : Nat) : State :=
  match s.team? tid with
  | none => s
  | some t =>
    if t.idle then s
    else
      let r := t.chanq.foldl (fun (acc : State × List ChanWait) w => match acc.1.serveOne tid w with
        | some s' => (s', acc.2)
        | none => (acc.1, acc.2 ++ [w])) (s, [])
      if r.2 = t.chanq then s else r.1.modTeam tid (fun t => { t with chanq := r.2 })

/-- Is the predecessor of a team's grid over (R246). -/
def State.predDone (s : State) (t : Team) : Bool :=
  match (s.grid? t.grid).bind (·.pred) with
  | some p => match s.grid? p with
    | some _ => false
    | none => true
  | none => true
/-- An operation after which a team may not be run again from launch (R290). -/
def State.irrevocable (s : State) (tid : Nat) : State := s.modTeam tid (fun t => { t with irrev := true })

/-- Has a group stores before a store number that have not been performed (R427). -/
def State.before (s : State) (tid gi sn : Nat) : Bool :=
  match s.team? tid with
  | none => false
  | some t => (match t.groups[gi]? with
      | some g => g.sq.any (fun e => decide (e.sn < sn))
      | none => false) || (s.core t.pcore).fly.any (fun w => w.tid == tid && w.gi == gi && decide (w.sn < sn))

/-- Commands of a context that a die's dispatcher keeps, successors that have not started among them (R220, R221). -/
def State.commandsOf (s : State) (d x : Nat) : Nat :=
  (((s.die d).cards.filter (fun c => c.ctx == x)).map (fun c => if c.succ.isSome then 2 else 1)).sum
/-- The 4 KiB page of an address. -/
def pageOf (va : Nat) : Nat := va % 2 ^ 57 / 2 ^ 12
/-- Has a bridle grid writes that its merges have still to bring to memory: in a saddlebag, a held version, what its cards leave for it, or what it keeps of
retired teams (R202, R203, R206). -/
def State.versions (s : State) (gid : Nat) : Bool :=
  (s.teams ++ s.saved.map (·.team)).any (fun t => t.grid == gid && t.la.bridle && (t.held != [] || t.joins != [] || t.groups.any (fun g => g.sad != [] || g.unc != []))) ||
  (s.grid? gid).any (fun g => (g.held ++ (if g.synced then [] else g.snaps)).any (fun p => p.2 != []))
/-- Has the wait of a parked lane ended (R272). Translation waits end in their own events. -/
def State.unparked (s : State) (t : Team) (gi : Nat) (g : Group) : Park → Bool
  | .walk va _ _ => (s.tlb t.pcore t.ctx va).isSome
  | .page _ => false
  | .ats p => (s.atsFind t.ctx (p * 2 ^ 12)).isSome
  | .presence n => SMap.get 0 t.shmCnt n == 0
  | .padLine k => SMap.get 0 s.padCnt k == 0
  | .chan _ _ => false
  | .ticket x => t.ticketDone x
  | .slot => t.ticketFree && decide (s.commandsOf (dieOf t.pcore) t.ctx < 4096)
  | .pins pa => s.memNat pa 4 == 0
  | .fence => g.fence.isNone
  | .queue => g.sq == [] && !s.unacked t.tid gi
  | .gwait => s.predDone t
  | .task => decide (0 < s.bar (taskOff t.ctx 0x18))
  | .spec => (enum t.groups).all (fun p => p.1 == gi || p.2.sq == [])
  | .round => false
  | .hold pa mir write => !s.accHeld pa mir write
  | .tlbi gs cs ws vs => !gs.any (fun k => s.before k.1 k.2.1 k.2.2) && !s.dies.any (fun d => d.cards.any (fun c => cs.contains c.cid)) &&
    !ws.any (fun k => (s.die k.1).walks.any (fun w => w.ctx == k.2.1 && pageOf w.va == k.2.2)) && !vs.any s.versions

/-- Wakes the lanes of a group whose wait has ended, and those at a PHW whose phase has come, which go on past it (R188). -/
def State.wake (s : State) (t : Team) (gi : Nat) (g : Group) : Group :=
  { g with lanes := g.lanes.map (fun l => match l.st with
      | .parked r => if s.unparked t gi g r then { l with st := .ready } else l
      | .barred b (.phw h) => match t.bars[b]? with
        | some r => if r.phase = h then { l with st := .ready, pc := l.pc + 4 } else l
        | none => l
      | _ => l) }

/-- Does a PHW of the group end now, an acquire (R188). -/
def phwEnds (t : Team) (g : Group) : Bool :=
  g.lanes.any (fun l => match l.st with
    | .barred b (.phw h) => match t.bars[b]? with
      | some r => r.phase == h
      | none => false
    | _ => false)

/-- Asks for a walk unless one is asked for the page; the first 4,096 of a die are in flight, and the others wait in order (R151). -/
def State.startWalk (s : State) (d : Nat) (w : Walk) : State :=
  let ws := (s.die d).walks
  if ws.any (fun k => k.ctx == w.ctx && pageOf k.va == pageOf w.va) then s
  else s.modDie d (fun x => { x with walks := x.walks ++ [w] })
/-- Starts the walks that parked lanes of a team need (R151). -/
def State.startWalks (s : State) (t : Team) : State :=
  t.groups.foldl (fun s g => g.lanes.foldl (fun s l => match l.st with
    | .parked (.walk va w f) => s.startWalk (dieOf t.pcore) ⟨t.ctx, va, w, f, false⟩
    | _ => s) s) s

/-! ## The current path (R28, R29) -/

/-- Addresses of the group's ready lanes. -/
def Group.readyPcs (g : Group) : List Nat := (g.lanes.filter (fun l => decide (l.st = .ready))).map (·.pc)
/-- The current path's address and whether it has just been selected (R28, R29). -/
def Group.selectPath (g : Group) : Option (Nat × Bool) :=
  let pcs := g.readyPcs
  let next (p : Nat) : Option Nat := match (pcs.filter (fun q => decide (p < q))).min? with
    | some q => some q
    | none => pcs.min?
  match g.path with
  | none => pcs.min?.map (fun p => (p, true))
  | some p =>
    if pcs.contains p && (decide (g.issued < 32) || g.cinch.isSome) then some (p, false)
    else (next p).map (fun q => (q, true))
/-- The group leaves its current path for the next one (R28). -/
def Group.nextPath (g : Group) : Group :=
  match { g with issued := 32 }.selectPath with
  | some (p, true) => { g with path := some p, issued := 0 }
  | _ => g
/-- The current path gives up its issue slots where it has parked, waits, exited or arrived (R28): another ready path takes them at once, else the next one
is chosen when lanes are ready again. A cinch window keeps its path over a wait for results (R29). -/
def Group.yieldPath (g : Group) : Group :=
  if g.cinch.isSome then g
  else match g.path with
    | none => g
    | some p =>
      if g.drain then (if 32 ≤ g.issued then g else { g with issued := 32 })
      else if g.readyPcs.contains p then g
      else if g.readyPcs = [] then (if 32 ≤ g.issued then g else { g with issued := 32 })
      else g.nextPath
/-- The groups of a team give up paths that do not go on; in bridle mode a park keeps the group's place and its path (R199, R213, log 55). -/
def Team.yieldPaths (t : Team) : Team := if t.la.bridle then t else { t with groups := t.groups.map Group.yieldPath }

/-- Is a lane on its way: ready, or past the instruction that ended its quantum until the round's end (R201). -/
def LaneSt.onWay (l : LaneSt) : Bool := l == .ready || l == .parked .round
/-- A cinch window closes when its path has lost its reservation, parked or arrived (R29). In bridle mode a park, which depends on timing, leaves it
open (R213, log 55). -/
def Group.closeCinch (g : Group) (bridle : Bool) : Group :=
  if g.cinch.isSome && !g.lanes.any (fun l => l.resv.isSome && (l.st.onWay || (bridle && l.st.isParked)) && g.path == some l.pc) then { g with cinch := none }
  else g

/-- A group retires when all its lanes have exited and its queue has drained (R49); in bridle mode at the end of the round, which commits its saddlebag
(R343). -/
def Group.retire (g : Group) : Group :=
  if !g.retired && g.live == 0 && g.sq == [] && g.ended.isNone then { g with retired := true } else g

/-- Is a lane's rendezvous complete without it arriving again: the members it waited for have exited (R33, R342). The lowest group
of the unit with members answers for the unit. -/
def Team.gathered (t : Team) (gi : Nat) (l : Lane) : Bool :=
  match l.st with
  | .arrived m sc =>
    let gs := unitGroups t gi sc
    gs.find? (fun j => match t.groups[j]? with
      | some g => decide (memberMask g sc m ≠ 0)
      | none => false) == some gi && allArrived t gs sc m l.pc
  | _ => false
/-- The arrived lanes of a team whose rendezvous is complete issue again (R342). -/
def Team.regather (t : Team) : Team :=
  { t with groups := (enum t.groups).map (fun p => if !p.2.stopped && p.2.lanes.any (fun l => t.gathered p.1 l)
      then { p.2 with lanes := p.2.lanes.map (fun l => if t.gathered p.1 l then { l with st := .ready } else l) } else p.2) }

/-! ## Arrival at a rendezvous (R32, R34) -/

/-- The latest entry of a loop buffer for an address, with the second word that was fetched with it (R26, R27): the words of one instruction are of one
fetch, so that none is torn (R179). -/
def loopFind (a : Nat) : List (Nat × Word) → Option (Word × Word)
  | [] => none
  | p :: r => match loopFind a r with
    | some q => some q
    | none =>
      if p.1 ≠ a then none
      else if twoWords p.2.toNat && a % 8 != 4 then match r with
        | q :: _ => if q.1 = a + 4 then some (p.2, q.2) else none
        | [] => none
      else some (p.2, 0)
/-- The words of an instruction that a group's loop buffer holds. -/
def Group.loopWords (g : Group) (a : Nat) : Option (Word × Word) := loopFind a g.loopbuf
/-- Is a sector of memory held lost (R291). -/
def State.lostAt (s : State) (sec : Nat) : Bool := (s.die (homeDie (sec * 32))).lost.any (fun e => e.1 == sec)
/-- The place of a code offset, whether a TLB holds its page or not: a lane arrives by its address, whatever is cached (R32). -/
def State.codeLoc (s : State) (t : Team) (a : Nat) : Option Loc :=
  let va := t.la.base + a
  let e? := match s.tlb t.pcore t.ctx va with
    | some e => some e
    | none => match s.walk t.ctx va with
      | .ok e => some e
      | .absent | .fail => none
  e?.bind (fun e =>
    let l := e.loc va
    if !canonical va || (!e.u && !s.ctxPriv t.ctx) || e.nx then none
    else if l.at / 2 ^ 50 = 2 then (s.atsFind t.ctx (l.at % 2 ^ 50)).map (fun h => h.host l) else some l)
/-- The words of the instruction at an offset, where the loop buffer, the instruction cache or memory would give them without a page request or a trap;
both of one source (R179). -/
def State.codeWords (s : State) (t : Team) (g : Group) (a : Nat) : Option (Nat × Nat) :=
  match g.loopWords a with
  | some (w0, w1) => some (w0.toNat, w1.toNat)
  | none => match s.codeLoc t a with
    | some l =>
      let bs : Option (List Byte) := match (s.core t.pcore).icache.find? (fun p => p.1 == l.at / 32) with
        | some p => some p.2
        | none => if s.lostAt (l.at / 32) then none else some (s.memBytes (l.at / 32 * 32) 32)
      bs.map (fun bs => (leNat ((bs.drop (l.at % 32)).take 4), leNat ((bs.drop (l.at % 32 + 4)).take 4)))
    | none => none
/-- The instruction that stands at an address, where it can be fetched at once. -/
def State.peek (s : State) (t : Team) (g : Group) (pc : Nat) : Option Instr :=
  if t.la.hdr.codesz ≤ pc then none
  else (s.codeWords t g pc).bind (fun w =>
    if twoWords w.1 then (if pc % 8 = 4 then none else (decodeWords w.1 w.2).toOption) else (decodeWords w.1 0).toOption)
/-- May the lanes of a group arrive: it has not stopped, waits for no results, and its quantum goes on (R94, R199, R273). DESIGN CHOICE (log 51):
lanes that the issue which ends a bridle quantum brings to a rendezvous arrive with the next quantum. -/
def Group.reaches (t : Team) (g : Group) : Bool :=
  t.back.isNone && !g.stopped && !g.retired && !g.drain && g.ended.isNone && g.ready != 0 && (!t.la.bridle || decide (t.roundStep = 0)) &&
  (t.halt.isNone || (!t.la.bridle && decide (g.slots < 8)))
/-- The ready lanes of a group that stand at a rendezvous which is still to complete arrive there (R32), after its decode checks (R72). A speculating group stalls
before one of set or team scope (R192); in bridle mode those arrive in the group's place in the turn (R199). -/
def State.reachAt (s : State) (tid gi : Nat) (pc : Nat) : State :=
  match s.team? tid with
  | none => s
  | some t =>
    match t.groups[gi]? with
    | none => s
    | some g =>
      if !g.reaches t then s
      else match s.peek t g pc with
        | none => s
        | some i =>
          let sc := (headOf i).scope
          if sc == .lane || (screen i s t gi).isSome || ((sc == .set || sc == .team) && (g.bram.isSome || t.la.bridle)) then s
          else
            let c : Cur := ⟨tid, gi, g.mask (fun l => decide (l.st = .ready) && l.pc == pc && !l.met), pc⟩
            let (m, off) := maskChk i c g
            if c.lanes = 0 then s else if off ≠ 0 then s.trapMask c g m off sc else s.modGroup tid gi (Group.arrive m sc c.lanes)
/-- The arrivals of a group's ready lanes. -/
def State.reach (s : State) (tid gi : Nat) : State :=
  match s.group? tid gi with
  | none => s
  | some g => g.readyPcs.eraseDups.foldl (fun s pc => s.reachAt tid gi pc) s
/-- The arrivals of a team, then what they bring about: splits (R39) and complete rendezvous (R33). -/
def State.arrivals (s : State) (tid n : Nat) : State :=
  let s := (List.range n).foldl (fun s j => s.reach tid j) s
  let s := (List.range n).foldl (fun s j =>
    if (s.team? tid).any (fun t => !t.idle && (t.groups[j]?).any (fun g => g.lanes.any (·.st.isArrived))) then s.splitCheck tid j else s) s
  s.modTeam tid (fun t => (if t.back.isSome then t else t.regather).yieldPaths)

/-- PHWs whose phase has come end, an acquire (R188). -/
def State.phwStep (s : State) (tid : Nat) : State :=
  match s.team? tid with
  | none => s
  | some t =>
    let gs := ((enum t.groups).filter (fun p => phwEnds t p.2)).map Prod.fst
    if gs = [] then s
    else
      let d : Dom := t.groups.foldl (fun (d : Dom) (g : Group) => if phwEnds t g then d.wider g.wm else d) Dom.core
      (s.acquire t.pcore d).trigger3s tid gs
/-- What comes about in one team after a step: entries to speculation, rollbacks (of a group whose phase has completed, after the barrier's acquire,
R194), ends of drains, fences, waits, arrivals and retirements. -/
def State.settleTeam (s : State) (tid : Nat) : State :=
  match s.team? tid with
  | none => s
  | some t =>
    let n := t.groups.length
    let s := s.modTeam tid Team.yieldPaths
    let s := s.acquire t.pcore (t.groups.foldl (fun d g => if g.bram.any (fun b => b.hit && b.past) then d.wider g.specDom else d) .core)
    let s := s.modTeam tid (fun t => { t with groups := t.groups.map (fun g => if g.bram.any (·.hit) then g.rollbackNow else g) })
    let s := s.modTeam tid (fun t => if t.idle then t else t.enterSpec)
    let s := s.modTeam tid (fun t => { t with groups := t.groups.map (fun g =>
      (if g.drain && g.pend == [] && !g.owesResult then { g with drain := false } else g).closeCinch t.la.bridle |>.retire) })
    let s := (List.range n).foldl (fun s j => s.fenceStep tid j) s
    let s := (s.serveChan tid).phwStep tid
    let s := match s.team? tid with
      | some t => if t.idle then s
        else s.modTeam tid (fun t => { t with groups := (enum t.groups).map (fun (p : Nat × Group) => s.wake t p.1 p.2) })
      | none => s
    let s := s.arrivals tid n
    match s.team? tid with
    | some t => s.startWalks t
    | none => s

/-- What comes about in every team after a step. -/
def State.settle (s : State) : State := (s.teams.map (·.tid)).foldl State.settleTeam { s with cur := none }

end Sys2Proof.Machine
end

