-- ==== Sys2Proof/Machine/LoadStore.lean ====
section
/-! DEFINITION. Loads, stores, reservations, prefetch and uniform accesses (R373-R376, R397, R418-R421, R435, R436). -/
namespace Sys2Proof.Machine

/-- Bytes of width code W (R80). -/
def wBytes (w : Nat) : Nat := if w = 0 ∨ w = 5 then 1 else if w = 1 ∨ w = 6 then 2 else if w = 2 then 4 else if w = 3 then 8 else 16
/-- A global address from a register pair and an offset (R374). -/
def globalAddr (a : Nat) (o : Int) (g : Group) (l : Nat) : Nat := wrapW 64 ((g.rv64 l a : Int) + o)
/-- An address of another space from a register and an offset (R374). -/
def localAddr (a : Nat) (o : Int) (g : Group) (l : Nat) : Nat := wrapW 32 (((g.rv l a).toNat : Int) + o)
/-- The addresses of ULD and UST (R435). -/
def uniAddr (a b : Nat) (g : Group) : Nat := (g.rg a + g.rg b).toNat
def uniAddr64 (a b : Nat) (g : Group) : Nat := wrapW 64 ((g.rg64 a : Int) + (g.rg b).toInt)

/-- The register writes of a load's bytes (R374). -/
def loadWrites (d w : Nat) (bs : List Byte) : List Wr :=
  if w = 5 then [.v d (BitVec.ofInt 32 (toIntW 8 true (leNat bs)))]
  else if w = 6 then [.v d (BitVec.ofInt 32 (toIntW 16 true (leNat bs)))]
  else (List.range (max (wBytes w / 4) 1)).map (fun i => .v (d + i) (BitVec.ofNat 32 (leNat ((bs.drop (4 * i)).take 4))))
/-- The bytes a store writes: the low bytes of its data registers (R420). -/
def storeBytes (g : Group) (l d n : Nat) : List Byte :=
  ((List.range (max (n / 4) 1)).flatMap (fun i => leBytes 4 (g.rv l (d + i)).toNat)).take n

/-- Does an entry of a store queue write a byte of the places. -/
def Sq.meets (ps : List (Loc × Nat)) (e : Sq) : Bool :=
  let on (l : Loc) (n : Nat) : Bool := ps.any (fun p => p.1.sp == l.sp && decide (p.1.at < l.at + n) && decide (l.at < p.1.at + p.2))
  match e.act with
  | .store l bs _ => on l bs.length
  | .rmw ks => ks.any (fun k => on k.loc k.n)
  | _ => false
/-- Does a speculative load overlap a store still queued in a group of the team that has not arrived (R191). -/
def lateStore (t : Team) (gi : Nat) (b : Bram) (ps : List (Loc × Nat)) : Bool :=
  (enum t.groups).any (fun q => q.1 != gi && q.2.bram.isNone && t.late q.1 b.bar && q.2.sq.any (Sq.meets ps))
/-- Does a load meet an atomic of its own group that is still queued: it waits for what that leaves (R157, R166). -/
def Group.owesTo (g : Group) (ps : List (Loc × Nat)) : Bool := g.sq.any (fun e => (match e.act with
  | .rmw _ => true
  | _ => false) && e.meets ps)

/-- What one lane's access meets (R374, R420): the checks of its space, lost data on a read, and the wait of R191. -/
def State.accChk (s : State) (t : Team) (gi : Nat) (g : Group) (l : Nat) (sp : Space) (a n : Nat) (write read : Bool) : Chk :=
  match s.resolve t g l sp a n write with
  | .park r => .park r
  | .fault c v => .fault c v
  | .ok ps =>
    if read && s.lostIn ps then .fault tMCHK (if sp = .stack then stackVa t.la g.slot l a else a)
    else match g.bram with
      | some b => if read && lateStore t gi b ps then .park .spec else .ok
      | none => if read && !write && g.owesTo ps then .park .queue else .ok
/-- The same from a site, the address formed from the lane's registers. -/
def laneAcc (sp : Space) (n : Nat) (write read : Bool) (a : Group → Nat → Nat) (s : State) (x : Site) (gi l : Nat) : Chk :=
  match s.team? x.tid with
  | none => .ok
  | some t => match t.groups[gi]? with
    | none => .ok
    | some g => s.accChk t gi g l sp (a g l) n write read

/-- The team and group of a lane. -/
def State.tg (s : State) (tid gi : Nat) : Option (Team × Group) :=
  match s.team? tid with
  | none => none
  | some t => (t.groups[gi]?).map (fun g => (t, g))

/-- One lane's read: its bytes, and what reading does. -/
def State.readLane (s : State) (tid gi l : Nat) (sp : Space) (a n ch : Nat) : State × List Byte :=
  match s.tg tid gi with
  | none => (s, [])
  | some (t, g) => match s.resolve t g l sp a n false with
    | .ok ps =>
      let s := s.fromMirror ps
      (s.touchPieces tid gi ps ch, s.readPieces t g ps)
    | _ => (s, [])

/-- The virtual address an access goes through, where it is translated. -/
def accVa (t : Team) (g : Group) (l : Nat) (sp : Space) (a : Nat) : Option Nat :=
  match sp with
  | .global => some a
  | .stack => some (stackVa t.la g.slot l a)
  | .shared => none
  | .pad => none
/-- The first write through a page's entry sets its D bit; a speculative one at its commit (R149). -/
def State.dirtied (s : State) (t : Team) (gi : Nat) (g : Group) (l : Nat) (sp : Space) (a : Nat) : State :=
  match accVa t g l sp a with
  | some va => s.markDirty t.pcore t.ctx va t.tid gi
  | none => s

/-- One lane's plain write (R420). -/
def State.writeLane (s : State) (tid gi l : Nat) (rel : Bool) (sp : Space) (a n : Nat) (bs : List Byte) (ch : Nat := 0) : State :=
  match s.tg tid gi with
  | none => s
  | some (t, g) => match s.resolve t g l sp a n true with
    | .ok ps =>
      let s := s.dirtied t gi g l sp a
      s.storePieces tid gi l (rel && !t.la.bridle) ps bs ch
    | _ => s

/-- The groups of a site acquire at the wider of their watermark and the access's domain, which it has raised (R164, R375); a
rollback trigger for the speculating groups of the team (R193). In bridle mode an acquire is no more than its access (R202). -/
def State.acquireFor (s : State) (x : Site) : State :=
  match s.team? x.tid with
  | none => s
  | some t => if t.la.bridle then s
    else
      let d := x.part.foldl (fun d p => match t.groups[p.1]? with
        | some g => if p.2 = 0 then d else d.wider g.wm
        | none => d) Dom.core
      (s.acquire t.pcore d).trigger3s x.tid ((x.part.filter (fun p => p.2 != 0)).map Prod.fst)

/-- A plain or acquiring load (R374, R375). -/
def loadBody (sp : Space) (w d : Nat) (acq : Bool) (ch : Nat) (a : Group → Nat → Nat) : Body :=
  { lane := laneAcc sp (wBytes w) false true a
    run := fun s x =>
      let r := s.lanesDo x (fun s g gi l =>
        let (s', bs) := s.readLane x.tid gi l sp (a g l) (wBytes w) ch
        (s', loadWrites d w bs))
      (if acq && !r.2.isEmpty then r.1.acquireFor x else r.1, { lanes := r.2 }) }

/-- A plain or releasing store under a cache hint (R420). -/
def storeBody (sp : Space) (w d : Nat) (rel : Bool) (a : Group → Nat → Nat) (ch : Nat := 0) : Body :=
  { lane := laneAcc sp (wBytes w) true false a
    run := fun s x =>
      (s.lanesEach x (fun s g gi l => s.writeLane x.tid gi l rel sp (a g l) (wBytes w) (storeBytes g l d (wBytes w)) ch), {}) }

/-- The queues of the member groups drain before an access at the coherence point (R157, R169, R170). -/
def drainPrep (s : State) (x : Site) : State := x.mem.foldl (fun s p => s.drainAll x.tid p.1) s
/-- Must such an access wait: for its own earlier stores, or, as a release, for the acknowledgement of its writes (R166). One that acquires holds
its lanes meanwhile; another waits in the store queue. -/
def pointWait (rel : Bool) (s : State) (x : Site) : Bool :=
  match s.team? x.tid with
  | none => false
  | some t => !t.la.bridle && x.mem.any (fun p => match t.groups[p.1]? with
    | some g => g.sq != [] || (rel && s.unacked x.tid p.1)
    | none => false)
/-- What a lane's write meets that bridle mode cannot fold: on a page or the pad that it keeps apart, #BRIDLE of cause 2 (R202, R209). -/
def ownAcc (sp : Space) (n : Nat) (read : Bool) (a : Group → Nat → Nat) (s : State) (x : Site) (gi l : Nat) : Chk :=
  match laneAcc sp n true read a s x gi l with
  | .ok => match s.tg x.tid gi with
    | none => .ok
    | some (t, g) => match s.resolve t g l sp (a g l) n true with
      | .ok ps => if ps.any (fun p => bridled t p.1) then .fault tBRIDLE (a g l) else .ok
      | _ => .ok
  | .park r => .park r
  | .fault c v => .fault c v
/-- Does a participant's access fall on team shared memory or a CORE page in bridle mode (R201). -/
def anyOwn (sp : Space) (n : Nat) (a : Group → Nat → Nat) (s : State) (x : Site) : Bool :=
  match s.team? x.tid with
  | none => false
  | some t => t.la.bridle && x.lanes.any (fun q => match t.groups[q.1]? with
    | some g => match s.resolve t g q.2 sp (a g q.2) n false with
      | .ok ps => ps.any (fun p => !bridled t p.1)
      | _ => false
    | none => false)

/-- Raises a group's watermark (R168). -/
def State.raiseWm (s : State) (tid gi : Nat) (d : Dom) : State := s.modGroup tid gi (fun g => { g with wm := g.wm.wider d })

/-- What the read of an LDR does in the caches (R141, R147, R153, R170): the core's older copy of a sector wider than CORE goes, so that no later
load of the lane returns an older value (R157), a loss to other groups that speculate on it (R193), and the home slice is asked; a CORE page is read in the L1, which is filled on a miss. -/
def State.ldrTouch (s : State) (t : Team) (gi : Nat) (loc : Loc) : State :=
  match loc with
  | .phys pa sh mi mg cp =>
    if sh = .core ∧ cp = 0 then
      match (s.core t.pcore).find (pa / 32) with
      | some x => s.hitL1 t.pcore x 0
      | none => (s.l2Touch t.ctx (s.site t.pcore) pa mg cp false).allocL1 t.pcore
          ⟨pa / 32, sh, t.ctx, (List.range 32).map (fun i => s.coreByte t t.pcore loc.sector (pa / 32 * 32 + i)), 0, false, mi⟩ 0
    else
      let s := s.l2Touch t.ctx (s.site t.pcore) pa mg cp false
      if sh = .core ∨ ((s.core t.pcore).find (pa / 32)).isNone then s
      else (s.trigger2 t.pcore (pa / 128) (t.tid, gi)).modCore t.pcore (fun c => { c with l1 := c.l1.filter (fun y => y.sec != pa / 32) })
  | .shm _ => s
  | .pad .. => s
/-- One lane's LDR: the read at the coherence point, its reservation and the cinch window of 16 later slots (R29, R170): where the LDR's own slot
is still to be counted, 17. -/
def State.ldrLane (s : State) (tid gi l a n : Nat) : State × List Byte :=
  match s.tg tid gi with
  | none => (s, [])
  | some (t, g) => match s.resolve t g l .global a n false with
    | .ok ((loc, k) :: _) =>
      let s := (s.fromMirror [(loc, k)]).landLine t.pcore loc
      let bs := if bridled t loc then s.readLoc t g loc n else s.pointBytes t loc n
      let res : Resv := ⟨loc.at / 128, loc.dom == .core⟩
      (((s.ldrTouch t gi loc).raiseWm tid gi loc.dom).modGroup tid gi (fun g => { (g.modLane l (fun q => { q with resv := some res })) with
        cinch := if g.cinch.isNone then some (if g.ended.isSome then 16 else 17) else g.cinch }), bs)
    | _ => (s, [])

/-- Is a queue entry a write to the line of a place. -/
def Sq.onLine (l : Loc) (e : Sq) : Bool :=
  let on (k : Loc) : Bool := k.sp == l.sp && decide (k.at / 128 = l.at / 128)
  match e.act with
  | .store k _ _ => on k
  | .rmw ks => ks.any (fun k => on k.loc)
  | _ => false
/-- What an LDR meets: as a load, and the wait for its own group's queued writes to the line and for its lane's queued STC (R157, R170). -/
def ldrChk (n : Nat) (a : Group → Nat → Nat) (s : State) (x : Site) (gi l : Nat) : Chk :=
  match laneAcc .global n false true a s x gi l with
  | .ok => match s.tg x.tid gi with
    | none => .ok
    | some (t, g) => match s.resolve t g l .global (a g l) n false with
      | .ok ((loc, _) :: _) => if g.owesStc l || g.sq.any (Sq.onLine loc) then .park .queue else .ok
      | _ => .ok
  | .park r => .park r
  | .fault c v => .fault c v

/-- LDR (R376). -/
def ldrBody (w d : Nat) (acq : Bool) (a : Group → Nat → Nat) : Body :=
  { prep := drainPrep
    lane := ldrChk (wBytes w) a
    defer := anyOwn .global (wBytes w) a
    run := fun s x =>
      let r := s.lanesDo x (fun s g gi l =>
        let (s', bs) := s.ldrLane x.tid gi l (a g l) (wBytes w)
        (s', loadWrites d w bs))
      (if acq && !r.2.isEmpty then r.1.acquireFor x else r.1, { lanes := r.2 }) }

/-- The participants' parts of an atomic or STC that must wait join their groups' queues (R166): the lanes go on, and the results come when it
has been performed. `mk` does what happens at the issue and gives a lane's part. -/
def State.queueRmw (s : State) (x : Site) (rel : Bool) (mk : State → Team → Group → Nat → Nat → State × Option Rmw) : State × Res :=
  (x.part.foldl (fun s p =>
    let r := (lanesOf p.2).foldl (fun (acc : State × List Rmw) l => match acc.1.tg x.tid p.1 with
      | none => acc
      | some (t, g) => let q := mk acc.1 t g p.1 l; (q.1, acc.2 ++ q.2.toList)) (s, [])
    if r.2 = [] then r.1 else r.1.enqueue x.tid [p.1] rel (.rmw r.2)) s,
    { lanes := x.lanes.map (fun q => ⟨q.1, q.2, [], 0⟩) })

/-- One lane's STC: it succeeds while its reservation is on the line of its address, and clears it either way (R170). DESIGN CHOICE (log 7): as an
access it counts for the watermark either way (R168). -/
def State.stcLane (s : State) (tid gi l a n : Nat) (bs : List Byte) : State × Bool :=
  match s.tg tid gi with
  | none => (s, false)
  | some (t, g) => match s.resolve t g l .global a n true with
    | .ok ((loc, _) :: _) =>
      let s := (s.landLine t.pcore loc).raiseWm tid gi loc.dom
      let ok := ((s.group? tid gi).bind (fun g => (g.lane l).resv)).map Resv.line == some (loc.at / 128)
      let s := if ok then (s.dirtied t gi g l .global a).pointWrite tid gi loc bs else s
      (s.modGroup tid gi (fun g => g.modLane l (fun q => { q with resv := none })), ok)
    | _ => (s, false)
/-- One lane's STC that waits in the queue: whether it succeeds, and so marks its page dirty, is judged when it is performed. -/
def State.stcPart (s : State) (t : Team) (g : Group) (gi l a n : Nat) (bs : List Byte) (p : Nat) : State × Option Rmw :=
  match s.resolve t g l .global a n true with
  | .ok ((loc, _) :: _) =>
    (s.raiseWm t.tid gi loc.dom,
      some ⟨gi, l, loc, n, 16, .i32, none, leNat bs, 0, some p, (s.tlb t.pcore t.ctx a).map (·.pteAt a)⟩)
  | _ => (s, none)

/-- STC (R418); in bridle mode a lane on a shared page meets the trap of cause 2 (R209). -/
def stcBody (w d : Nat) (rel : Bool) (p : Nat) (a : Group → Nat → Nat) : Body :=
  { prep := drainPrep
    lane := ownAcc .global (wBytes w) false a
    defer := anyOwn .global (wBytes w) a
    run := fun s x =>
      if pointWait rel s x then
        let r := s.queueRmw x rel (fun s t g gi l => s.stcPart t g gi l (a g l) (wBytes w) (storeBytes g l d (wBytes w)) p)
        (if x.lanes = [] then r.1 else r.1.irrevocable x.tid, r.2)
      else
        let r := s.lanesDo x (fun s g gi l =>
          let (s', ok) := s.stcLane x.tid gi l (a g l) (wBytes w) (storeBytes g l d (wBytes w))
          (s', [.p p ok]))
        (if r.2.isEmpty then r.1 else r.1.irrevocable x.tid, { lanes := r.2 }) }

/-- One lane's prefetch: its line into the L2 and, unless CH = 3, the L1; a failing address drops it (R142, R397). -/
def State.prefetch (s : State) (tid gi l a ch : Nat) : State :=
  match s.tg tid gi with
  | none => s
  | some (t, g) =>
    if a % 4 ≠ 0 then s
    else match s.resolve t g l .global (a / 128 * 128) 1 false with
      | .ok ((.phys pa sh mi mg cp, _) :: _) =>
        let s := s.l2Touch t.ctx (s.site t.pcore) pa mg cp false
        if cp ≠ 0 then s
        else (List.range 4).foldl (fun s i =>
          let sec := pa / 32 + i
          let l : Loc := .phys (sec * 32) sh mi mg cp
          if (s.die (homeDie pa)).lost.any (fun e => e.1 == sec) then s
          else match (s.core t.pcore).find sec with
          | some x => s.hitL1 t.pcore x ch
          | none => s.allocL1 t.pcore ⟨sec, sh, t.ctx, (List.range 32).map (fun k => s.coreByte t t.pcore l (sec * 32 + k)), 0, false, mi⟩ ch) s
      | _ => s
/-- PFG (R397). -/
def pfgBody (ch : Nat) (a : Group → Nat → Nat) : Body :=
  { run := fun s x =>
      (s.lanesEach x (fun s g gi l => s.prefetch x.tid gi l (a g l) ch), {}) }

/-- The lane that stands for a uniform access: the lowest member of the issuing group. -/
def Site.uniLane (x : Site) : Nat := match x.mem.find? (fun p => p.1 == x.gi) with
  | some p => (lanesOf p.2).headD 0
  | none => 0
/-- What the one access of a whole group meets (R435): a wait parks the group. -/
def uniPre (sp : Space) (write : Bool) (a : Group → Nat) (s : State) (x : Site) : Pre :=
  match s.tg x.tid x.gi with
  | none => .go
  | some (t, g) => match s.accChk t x.gi g x.uniLane sp (a g) 4 write (!write) with
    | .ok => .go
    | .park r => .wait r
    | .fault c v => .trap { code := c, addr := v }
/-- ULD (R435). -/
def uldBody (sp : Space) (d : Nat) (a : Group → Nat) : Body :=
  { pre := uniPre sp false a
    run := fun s x => match x.group s with
      | none => (s, {})
      | some g =>
        let (s', bs) := s.readLane x.tid x.gi x.uniLane sp (a g) 4 0
        (s', { gs := [(d, BitVec.ofNat 32 (leNat bs))] }) }
/-- UST (R435). -/
def ustBody (sp : Space) (d : Nat) (a : Group → Nat) : Body :=
  { pre := uniPre sp true a
    run := fun s x => match x.group s with
      | none => (s, {})
      | some g => (s.writeLane x.tid x.gi x.uniLane false sp (a g) 4 (leBytes 4 (g.rg d).toNat), {}) }

/-- LDG (R373-R375). -/
def execLdg (h : Head) (u : Bool) (g : Guard) (d : BitVec 7) (a : BitVec 7) (w : BitVec 3) (r : BitVec 2) (ch : BitVec 2) (o : BitVec 20) (s : State) : Host.Outcome State Fault Refusal :=
  issue (.ldg h u g d a w r ch o) (loadBody .global w.toNat d.toNat (r == 1) ch.toNat (globalAddr a.toNat o.toInt)) s

/-- LDS at a word offset (R373-R375). -/
def execLdsLm (h : Head) (u : Bool) (d : BitVec 7) (a : BitVec 7) (i : BitVec 7) (s : State) : Host.Outcome State Fault Refusal :=
  issue (.ldsLm h u d a i) (loadBody .shared 2 d.toNat false 0 (localAddr a.toNat (4 * i.toNat))) s

/-- LDP at a word offset (R373-R375). -/
def execLdpLm (h : Head) (u : Bool) (d : BitVec 7) (a : BitVec 7) (i : BitVec 7) (s : State) : Host.Outcome State Fault Refusal :=
  issue (.ldpLm h u d a i) (loadBody .pad 2 d.toNat false 0 (localAddr a.toNat (4 * i.toNat))) s

/-- LDK at a word offset (R373-R375). -/
def execLdkLm (h : Head) (u : Bool) (d : BitVec 7) (a : BitVec 7) (i : BitVec 7) (s : State) : Host.Outcome State Fault Refusal :=
  issue (.ldkLm h u d a i) (loadBody .stack 2 d.toNat false 0 (localAddr a.toNat (4 * i.toNat))) s

/-- LDS, long form (R373-R375). -/
def execLdsXm (h : Head) (u : Bool) (g : Guard) (d : BitVec 7) (a : BitVec 7) (w : BitVec 3) (o : BitVec 20) (s : State) : Host.Outcome State Fault Refusal :=
  issue (.ldsXm h u g d a w o) (loadBody .shared w.toNat d.toNat false 0 (localAddr a.toNat o.toInt)) s

/-- LDP, long form (R373-R375). -/
def execLdpXm (h : Head) (u : Bool) (g : Guard) (d : BitVec 7) (a : BitVec 7) (w : BitVec 3) (r : BitVec 2) (o : BitVec 20) (s : State) : Host.Outcome State Fault Refusal :=
  issue (.ldpXm h u g d a w r o) (loadBody .pad w.toNat d.toNat (r == 1) 0 (localAddr a.toNat o.toInt)) s

/-- LDK, long form (R373-R375). -/
def execLdkXm (h : Head) (u : Bool) (g : Guard) (d : BitVec 7) (a : BitVec 7) (w : BitVec 3) (ch : BitVec 2) (o : BitVec 20) (s : State) : Host.Outcome State Fault Refusal :=
  issue (.ldkXm h u g d a w ch o) (loadBody .stack w.toNat d.toNat false ch.toNat (localAddr a.toNat o.toInt)) s

/-- STG (R419-R421). -/
def execStg (h : Head) (g : Guard) (d : BitVec 7) (a : BitVec 7) (w : BitVec 3) (r : BitVec 2) (ch : BitVec 2) (o : BitVec 20) (s : State) : Host.Outcome State Fault Refusal :=
  issue (.stg h g d a w r ch o) (storeBody .global w.toNat d.toNat (r == 1) (globalAddr a.toNat o.toInt) ch.toNat) s

/-- STS at a word offset (R419-R421). -/
def execStsLm (h : Head) (d : BitVec 7) (a : BitVec 7) (i : BitVec 7) (s : State) : Host.Outcome State Fault Refusal :=
  issue (.stsLm h d a i) (storeBody .shared 2 d.toNat false (localAddr a.toNat (4 * i.toNat))) s

/-- STP at a word offset (R419-R421). -/
def execStpLm (h : Head) (d : BitVec 7) (a : BitVec 7) (i : BitVec 7) (s : State) : Host.Outcome State Fault Refusal :=
  issue (.stpLm h d a i) (storeBody .pad 2 d.toNat false (localAddr a.toNat (4 * i.toNat))) s

/-- STK at a word offset (R419-R421). -/
def execStkLm (h : Head) (d : BitVec 7) (a : BitVec 7) (i : BitVec 7) (s : State) : Host.Outcome State Fault Refusal :=
  issue (.stkLm h d a i) (storeBody .stack 2 d.toNat false (localAddr a.toNat (4 * i.toNat))) s

/-- STS, long form (R419-R421). -/
def execStsXm (h : Head) (g : Guard) (d : BitVec 7) (a : BitVec 7) (w : BitVec 3) (o : BitVec 20) (s : State) : Host.Outcome State Fault Refusal :=
  issue (.stsXm h g d a w o) (storeBody .shared w.toNat d.toNat false (localAddr a.toNat o.toInt)) s

/-- STP, long form (R419-R421). -/
def execStpXm (h : Head) (g : Guard) (d : BitVec 7) (a : BitVec 7) (w : BitVec 3) (r : BitVec 2) (o : BitVec 20) (s : State) : Host.Outcome State Fault Refusal :=
  issue (.stpXm h g d a w r o) (storeBody .pad w.toNat d.toNat (r == 1) (localAddr a.toNat o.toInt)) s

/-- STK, long form (R419-R421). -/
def execStkXm (h : Head) (g : Guard) (d : BitVec 7) (a : BitVec 7) (w : BitVec 3) (ch : BitVec 2) (o : BitVec 20) (s : State) : Host.Outcome State Fault Refusal :=
  issue (.stkXm h g d a w ch o) (storeBody .stack w.toNat d.toNat false (localAddr a.toNat o.toInt) ch.toNat) s

/-- LDR (R376, R170). -/
def execLdr (h : Head) (g : Guard) (d : BitVec 7) (a : BitVec 7) (w : BitVec 3) (r : BitVec 2) (o : BitVec 20) (s : State) : Host.Outcome State Fault Refusal :=
  issue (.ldr h g d a w r o) (ldrBody w.toNat d.toNat (r == 1) (globalAddr a.toNat o.toInt)) s

/-- STC (R418, R170). -/
def execStc (h : Head) (g : Guard) (d : BitVec 7) (a : BitVec 7) (w : BitVec 3) (r : BitVec 2) (p : BitVec 3) (s : State) : Host.Outcome State Fault Refusal :=
  issue (.stc h g d a w r p) (stcBody w.toNat d.toNat (r == 1) p.toNat (globalAddr a.toNat 0)) s

/-- PFG (R397, R142). -/
def execPfg (h : Head) (g : Guard) (a : BitVec 7) (ch : BitVec 2) (o : BitVec 20) (s : State) : Host.Outcome State Fault Refusal :=
  issue (.pfg h g a ch o) (pfgBody ch.toNat (globalAddr a.toNat o.toInt)) s

/-- ULD.shared (R435, R436). -/
def execUldShared (h : Head) (d : BitVec 6) (a : BitVec 6) (b : BitVec 6) (s : State) : Host.Outcome State Fault Refusal :=
  issue (.uldShared h d a b) (uldBody .shared d.toNat (uniAddr a.toNat b.toNat)) s

/-- UST.shared (R435, R436). -/
def execUstShared (h : Head) (d : BitVec 6) (a : BitVec 6) (b : BitVec 6) (s : State) : Host.Outcome State Fault Refusal :=
  issue (.ustShared h d a b) (ustBody .shared d.toNat (uniAddr a.toNat b.toNat)) s

/-- ULD.pad (R435, R436). -/
def execUldPad (h : Head) (d : BitVec 6) (a : BitVec 6) (b : BitVec 6) (s : State) : Host.Outcome State Fault Refusal :=
  issue (.uldPad h d a b) (uldBody .pad d.toNat (uniAddr a.toNat b.toNat)) s

/-- UST.pad (R435, R436). -/
def execUstPad (h : Head) (d : BitVec 6) (a : BitVec 6) (b : BitVec 6) (s : State) : Host.Outcome State Fault Refusal :=
  issue (.ustPad h d a b) (ustBody .pad d.toNat (uniAddr a.toNat b.toNat)) s

/-- ULD.global (R435, R436). -/
def execUldGlobal (h : Head) (d : BitVec 6) (a : BitVec 6) (b : BitVec 6) (s : State) : Host.Outcome State Fault Refusal :=
  issue (.uldGlobal h d a b) (uldBody .global d.toNat (uniAddr64 a.toNat b.toNat)) s

/-- UST.global (R435, R436). -/
def execUstGlobal (h : Head) (d : BitVec 6) (a : BitVec 6) (b : BitVec 6) (s : State) : Host.Outcome State Fault Refusal :=
  issue (.ustGlobal h d a b) (ustBody .global d.toNat (uniAddr64 a.toNat b.toNat)) s

end Sys2Proof.Machine
end

