-- ==== Sys2Proof/Machine/Versions.lean ====
section
/-! DEFINITION. A bridle team's held versions, the version area, and operations over resident and saved teams (R203-R208, R282). -/
namespace Sys2Proof.Machine

/-! ## Teams wherever they stand -/

/-- Resident and saved teams. -/
def State.allTeams (s : State) : List Team := s.teams ++ s.saved.map (·.team)
/-- A team wherever it stands. -/
def State.anyTeam? (s : State) (tid : Nat) : Option Team := s.allTeams.find? (fun t => t.tid == tid)
/-- The state with that team changed, resident or saved. -/
def State.modAny (s : State) (tid : Nat) (f : Team → Team) : State :=
  { s.modTeam tid f with saved := s.saved.map (fun k => if k.team.tid = tid then { k with team := f k.team } else k) }

/-! ## Held versions (R202-R205) -/

/-- Do two byte ranges meet. -/
def meet (a n b m : Nat) : Bool := decide (a < b + m) && decide (b < a + n)
/-- Does a sector's mask hold a byte of the range. -/
def Sector.touches (x : Sector) (sp a n : Nat) : Bool :=
  x.loc.sp == sp && (List.range n).any (fun i => decide (x.loc.at ≤ a + i) && decide (a + i < x.loc.at + 32) && x.mask.has (a + i - x.loc.at))
/-- A sector's bytes laid over another of the same place. -/
def Sector.join (old new : Sector) : Sector :=
  { old with
    bytes := (enum old.bytes).map (fun p => if new.mask.has p.1 then (new.bytes[p.1]?).getD p.2 else p.2)
    mask := old.mask ||| new.mask }
/-- A plain write of a team joins its held versions: it discards every partial whose bytes it touches (R205). -/
def commitOne (h : List Held) (x : Sector) : List Held :=
  let h := h.filter (fun e => match e with
    | .part p => !x.touches p.loc.sp p.loc.at p.width
    | .bytes _ => true)
  if h.any (fun e => match e with
      | .bytes y => y.loc.sp == x.loc.sp && y.loc.at == x.loc.at
      | .part _ => false) then
    h.map (fun e => match e with
      | .bytes y => if y.loc.sp = x.loc.sp ∧ y.loc.at = x.loc.at then .bytes (y.join x) else e
      | .part _ => e)
  else h ++ [.bytes x]

/-! ## The version area (R208) -/

/-- The sectors that a held version or partial stands in. -/
def Held.sectors : Held → List (Nat × Nat)
  | .bytes x => [(x.loc.sp, x.loc.at / 32)]
  | .part p => (List.range ((p.loc.at + p.width - 1) / 32 - p.loc.at / 32 + 1)).map (fun i => (p.loc.sp, p.loc.at / 32 + i))
/-- The locations of the partials. -/
def partLocs (h : List Held) : List (Nat × Nat) :=
  h.filterMap (fun e => match e with
    | .part p => some (p.loc.sp, p.loc.at)
    | .bytes _ => none)
/-- Bytes of the version area that a team's versions take: 48 for each sector, and 48 for each partial of a location after the
first. -/
def verBytes (h : List Held) : Nat :=
  48 * (h.flatMap Held.sectors).eraseDups.length + 48 * ((partLocs h).length - (partLocs h).eraseDups.length)
/-- Bytes that a team's versions take, beside the 4,096 of the report, with `h` in place of those since its LNXT. DEDUCED (log 45): each team is
charged by itself, since a commit exceeds the area at the same place on every run, whatever the other teams have done. -/
def Team.verUsed (t : Team) (h : List Held) : Nat := 4096 + verBytes (t.merged ++ h)
/-- Would the team's versions exceed the area. -/
def Team.verOver (t : Team) (h : List Held) : Bool := decide (t.la.verSize < t.verUsed h)

/-- Commits sectors of a group to the team's held versions; a commit that would exceed the version area raises #BRIDLE with cause 3
and commits nothing (R208). -/
def State.commitHeld (s : State) (tid gi pc : Nat) (xs : List Sector) : State :=
  match s.anyTeam? tid with
  | none => s
  | some t =>
    if xs = [] then s
    else
      let h := xs.foldl commitOne t.held
      if t.verOver h then s.raise tid [gi] pc (32 * gi) { code := tBRIDLE, cause := 3 } [ent tBRIDLE gi 1 0 0 pc 0] []
      else s.modAny tid (fun t => { t with held := h })

/-- What the card of a ticket has written to a bridle team's shared pages and the pad joins its held versions (R203). DESIGN CHOICE (log 46): at the
EWT or EQRY that waits for the ticket, or at the team's retirement, so that what a load returns never depends on when the card ends (R213). -/
def State.joinCards (s : State) (tid gi pc x : Nat) : State :=
  match s.anyTeam? tid with
  | none => s
  | some t =>
    let xs := (t.joins.filter (fun p => p.1 == x)).map Prod.snd
    if xs = [] then s
    else
      let s := s.commitHeld tid gi pc xs
      if t.verOver (xs.foldl commitOne t.held) then s else s.modAny tid (fun t => { t with joins := t.joins.filter (fun p => p.1 != x) })

end Sys2Proof.Machine
end

