-- ==== Sys2Proof/Machine/Cards.lean ====
section
/-! DEFINITION. Job cards: their fields, the checks at issue, presence counts, edges, and an engine's reads and writes
(R134, R135, R172-R174, R214-R221, R263, R264). -/
namespace Sys2Proof.Machine

/-! ## Fields (R214) -/

/-- Word `k` of a card or descriptor. -/
def cw (ws : List Word) (k : Nat) : Nat := ((ws[k]?).getD 0).toNat
/-- KIND. -/
def kindOf (ws : List Word) : Nat := cw ws 0 % 16
/-- Region `i`: 0 READA, 1 READB, 2 WRITEA, 3 WRITEB. -/
def regionOf (ws : List Word) (i : Nat) : Region :=
  let b := cw ws (4 + 2 * i) + 2 ^ 32 * cw ws (5 + 2 * i)
  ⟨b / 2 ^ 62, b % 2 ^ 57, cw ws (12 + i)⟩
/-- Is the region absent. -/
def Region.absent (r : Region) : Bool := r.space == 3
/-- Does the region hold the bytes. -/
def Region.holds (r : Region) (a n : Nat) : Bool := decide (r.base ≤ a) && decide (a + n ≤ r.base + r.len)
/-- Little-endian words of bytes. -/
def wordsOf (bs : List Byte) : List Word := (List.range (bs.length / 4)).map (fun i => BitVec.ofNat 32 (leNat ((bs.drop (4 * i)).take 4)))
/-- Number in bytes `[o, o + n)`. -/
def fieldAt (bs : List Byte) (o n : Nat) : Nat := leNat ((bs.drop o).take n)
/-- Levels of a hash-grid card (R227). -/
def hgLevels (ws : List Word) : Nat := bitsAt (cw ws 1) 16 5 + 1
/-- Length of a card's descriptor (R224, R227); 0 where its kind has none. -/
def descLen (ws : List Word) : Nat := match kindOf ws with
  | 2 => 128
  | 5 => 16 * hgLevels ws
  | 6 => 16 * hgLevels ws
  | _ => 0
/-- The pieces of a byte range that do not cross a multiple of `k`. -/
def splitAt' (k a n : Nat) : List (Nat × Nat) :=
  if n = 0 then []
  else (List.range ((a + n - 1) / k - a / k + 1)).map (fun i =>
    let lo := max a ((a / k + i) * k)
    (lo, min (a + n) ((a / k + i + 1) * k) - lo))

/-! ## The pad under a card (R137) -/

/-- The bytes of a pad region by slice and offset: keys within one die with their lengths. -/
def State.padSpans (s : State) (d part : Nat) (r : Region) : List (Nat × Nat) :=
  let at' (a : Nat) : Option Nat := match s.padAddr d part a with
    | .ok ((l, _) :: _) => some l.at
    | _ => none
  if r.base / 2 ^ 31 % 2 = 1 then (match at' r.base with
    | some k => [(k, r.len)]
    | none => [])
  else (splitAt' 128 r.base r.len).filterMap (fun p => (at' p.1).map (fun k => (k, p.2)))
/-- Does a pad region lie in the context's pad. -/
def State.padInside (s : State) (d part : Nat) (r : Region) : Bool :=
  let share := s.padStep d part * 131072
  (match s.padAddr d part r.base with
   | .ok _ => true
   | _ => false) &&
  (if r.base / 2 ^ 31 % 2 = 1 then decide (r.base % 2 ^ 24 + r.len ≤ share)
   else decide (r.base + r.len ≤ 2 ^ (s.freeBits d part).length * share))
/-- Do two pad regions of a context on one die meet. -/
def State.padMeet (s : State) (d part : Nat) (a b : Region) : Bool :=
  if a.base / 2 ^ 31 = b.base / 2 ^ 31 then meet a.base a.len b.base b.len
  else (s.padSpans d part a).any (fun p => (s.padSpans d part b).any (fun q => meet p.1 p.2 q.1 q.2))

/-! ## The checks at issue (R216) -/

/-- Does a region break the form of R214, or lie outside the allotment or the pad. -/
def State.regionBad (s : State) (t : Team) (ws : List Word) (i : Nat) : Bool :=
  let r := regionOf ws i
  let top := bitsAt (cw ws (5 + 2 * i)) 25 5
  top != 0 ||
  (match r.space with
   | 0 => r.len == 0
   | 1 => r.len == 0 || decide (2 ^ 32 ≤ r.base) || decide (t.la.hdr.shared < r.base + r.len)
   | 2 => r.len == 0 || decide (2 ^ 32 ≤ r.base) || !s.padInside (dieOf t.pcore) (s.ctxPart t.ctx) r
   | _ => r.base != 0 || r.len != 0)
/-- Do two regions of one space meet. -/
def State.regionsMeet (s : State) (d part : Nat) (a b : Region) : Bool :=
  a.space == b.space && !a.absent && (if a.space = 2 then s.padMeet d part a b else meet a.base a.len b.base b.len)
/-- Two regions of one card that meet with one of them written. -/
def State.selfMeet (s : State) (t : Team) (ws : List Word) : Bool :=
  let m (i j : Nat) : Bool := s.regionsMeet (dieOf t.pcore) (s.ctxPart t.ctx) (regionOf ws i) (regionOf ws j)
  m 0 2 || m 0 3 || m 1 2 || m 1 3 || m 2 3

/-- The limits of CPYT's descriptor (R224); PBAR is below NB whether or not PERMIT is 1. -/
def cpytBad (t : Team) (ws : List Word) (ds : List Byte) : Bool :=
  let f (o n : Nat) : Nat := fieldAt ds o n
  let w0 := f 0 4
  let esz := bitsAt w0 0 3
  let nd := bitsAt w0 3 3
  let out := bitsAt w0 6 1 == 1
  let box (k : Nat) : Nat := f (0x60 + 2 * k) 2
  let ext (k : Nat) : Nat := f (0x08 + 4 * k) 4
  let used := List.range nd
  let mc := f 0x74 4
  let tsm := regionOf ws (if out then 0 else 2)
  let glob := regionOf ws (if out then 2 else 0)
  let w70 := f 0x70 4
  w0 / 2 ^ 7 != 0 || decide (4 < esz) || nd == 0 || decide (5 < nd) ||
  used.any (fun k => box k == 0 || decide (256 < box k) || ext k == 0) ||
  (List.range 5).any (fun k => decide (nd ≤ k) && (box k != 0 || ext k != 0 || f (0x40 + 4 * k) 4 != 0)) ||
  (List.range 4).any (fun k => if nd ≤ k + 1 then f (0x20 + 8 * k) 8 != 0 else f (0x20 + 8 * k) 8 % 2 ^ esz != 0) ||
  f 0x1C 4 != 0 || f 0x54 12 != 0 || f 0x6A 6 != 0 || f 0x78 8 != 0 || w70 / 2 ^ 7 != 0 || mc / 2 ^ 12 != 0 ||
  tsm.space != 1 || glob.space != 0 || tsm.len != 2 ^ esz * (used.map box).foldl (· * ·) 1 ||
  (bitsAt w70 5 1 == 1 && !out) || decide (t.la.nb ≤ bitsAt w70 0 5) ||
  (mc != 0 && (out || decide (2 ^ (t.cw * t.ch) ≤ mc)))

/-- Bytes of a hash-grid or result format code (R227). -/
def hgBytes (f : Nat) : Nat := if f = 2 then 4 else 2
/-- The limits of the hash-grid cards (R227-R229, R361). -/
def hgBad (ws : List Word) (ds : List Byte) : Bool :=
  let p := cw ws 1
  let n := bitsAt p 0 16 + 1
  let l := hgLevels ws
  let f := bitsAt p 21 3 + 1
  let ff := bitsAt p 24 2
  let fo := bitsAt p 26 2
  let d := 2 + bitsAt p 28 1
  let len (i : Nat) : Nat := (regionOf ws i).len
  let fwd := kindOf ws == 5
  p / 2 ^ 29 != 0 || cw ws 3 != 0 || ff == 3 || fo == 3 || (!fwd && (ff != 0 || fo != 0)) ||
  (List.range l).any (fun k =>
    let nl := fieldAt ds (16 * k) 4
    let tl := fieldAt ds (16 * k + 8) 4
    nl == 0 || decide (2 ^ 24 ≤ nl) || decide (tl < 4) || decide (22 < tl) || fieldAt ds (16 * k + 12) 4 != 0) ||
  len 0 != 4 * d * n ||
  (if fwd then !(regionOf ws 3).absent || len 2 != n * l * f * hgBytes fo else len 1 != 4 * n * l * f)

/-- A kind-specific limit broken (R223-R231). DESIGN CHOICE (log 27): R224 gives CPYT's AUX no meaning and no value, and it is not checked. -/
def kindBad (t : Team) (ws : List Word) (ds : List Byte) : Bool :=
  let p := cw ws 1
  let de := cw ws 2
  let aux := cw ws 3
  let r (i : Nat) : Region := regionOf ws i
  let rs := p % 2 ^ 16
  match kindOf ws with
  | 1 => p != 0 || de != 0 || aux != 0 || !(r 1).absent || !(r 3).absent || (r 0).len != (r 2).len || (r 0).len % 4 != 0
  | 2 => de % 128 != 0 || cpytBad t ws ds
  | 3 => p / 2 ^ 17 != 0 || de != 0 || !(r 3).absent || rs == 0 || rs % 4 != 0 || decide ((r 1).len / 4 < aux)
  | 4 => de != 0 || rs == 0 || rs % 4 != 0 || p / 2 ^ 16 == 0 || aux == 0 || decide (2 ^ 16 ≤ aux) ||
      decide ((r 3).len < 4 * aux + 4 + 12 * ((r 1).len / 8))
  | 5 => hgBad ws ds
  | 6 => hgBad ws ds
  | 7 => de != 0 || decide (2 ≤ p) || decide (2 ^ 26 ≤ aux) || (r 0).len != (r 2).len || (r 0).len % 4 != 0 ||
      !(r 1).absent || !(r 3).absent
  | _ =>
    let n := p % 2 ^ 16 + 1
    let bary := bitsAt p 17 1 == 1
    de != 0 || p / 2 ^ 18 != 0 || (r 0).len != 24 * n || (r 2).len != 32 * n || (r 2).space != 1 ||
      (if bary then (r 3).len != 2048 * n || (r 3).space != 1 else !(r 3).absent)

/-- Does a card break a rule of R216; `kind` is the command's, none for a successor. -/
def State.cardBad (s : State) (t : Team) (kind : Option Nat) (ws : List Word) (ds : List Byte) : Bool :=
  let k := kindOf ws
  cw ws 0 / 16 != 0 || k == 0 || decide (8 < k) || (kind.isSome && kind != some k) ||
  (List.range 4).any (s.regionBad t ws) || kindBad t ws ds || (k != 1 && s.selfMeet t ws)

/-! ## Who a card writes -/

/-- The teams whose shared memory receives WRITEA (R215, R224): the ranks of MCAST, or the issuing team. -/
def State.castTeams (s : State) (t : Team) (ws : List Word) (ds : List Byte) : List Nat :=
  let mc := if kindOf ws = 2 then fieldAt ds 0x74 4 else 0
  if mc = 0 then [t.tid]
  else
    let q := t.cw * t.ch
    s.allTeams.filterMap (fun u => if u.grid = t.grid ∧ u.lin / q = t.lin / q ∧ mc.testBit (u.lin % q) then some u.tid else none)
/-- The lines whose counts a card raises, each once (R134): of team shared memory (team + 1, line) and of the pad (0, line). -/
def State.presLines (s : State) (t : Team) (mc : List Nat) (ws : List Word) : List (Nat × Nat) :=
  let lines (r : Region) : List Nat := if r.len = 0 then [] else (List.range ((r.base + r.len - 1) / 128 - r.base / 128 + 1)).map (r.base / 128 + ·)
  let one (r : Region) (ts : List Nat) : List (Nat × Nat) :=
    if r.space = 1 then ts.flatMap (fun u => (lines r).map (fun l => (u + 1, l)))
    else if r.space = 2 then
      ((s.padSpans (dieOf t.pcore) (s.ctxPart t.ctx) r).flatMap (fun p =>
        (List.range ((p.1 + p.2 - 1) / 128 - p.1 / 128 + 1)).map (fun i => (0, p.1 / 128 + i)))).eraseDups
    else []
  (one (regionOf ws 2) mc ++ one (regionOf ws 3) [t.tid]).eraseDups

/-- The count of a line after a copy into it is issued, and after it has landed (R134); a card that fails leaves its copy in the count
(R135). -/
def cntUp (v : Nat) : Nat := v + 1
def cntLand (v : Nat) : Nat := v - 1
/-- Changes the count word of one line. -/
def State.modCnt (f : Nat → Nat) (s : State) (p : Nat × Nat) : State :=
  if p.1 = 0 then { s with padCnt := SMap.set 0 s.padCnt p.2 (f (SMap.get 0 s.padCnt p.2)) }
  else s.modAny (p.1 - 1) (fun t => { t with shmCnt := SMap.set 0 t.shmCnt p.2 (f (SMap.get 0 t.shmCnt p.2)) })

/-! ## Edges (R221) -/

/-- A card's regions: whether it writes them and, for team shared memory, whose it is. -/
def footOf (tid : Option Nat) (mc : List Nat) (ws : List Word) : List (Region × Bool × List Nat) :=
  let own := tid.toList
  ([(regionOf ws 0, false, own), (regionOf ws 1, false, own), (regionOf ws 2, true, if kindOf ws = 2 then mc else own),
    (regionOf ws 3, true, own)]).filter (fun r => !r.1.absent)
/-- The regions of a command still in flight: its card's and its unstarted successor's. -/
def Card.foot (c : Card) : List (Region × Bool × List Nat) :=
  footOf c.tid c.mc c.words ++ (match c.succ with
    | some (ws, _) => footOf c.tid c.mcNext ws
    | none => [])
/-- The teams named in a card's own landings. -/
def Card.own (c : Card) : List Nat := [c.tid.getD 0]
/-- Must card `b` wait for the earlier command `a`. -/
def State.edge (s : State) (d : Nat) (a b : Card) : Bool :=
  a.ctx == b.ctx && a.foot.any (fun p => (footOf b.tid b.mc b.words).any (fun q =>
    (p.2.1 || q.2.1) && s.regionsMeet d (s.ctxPart a.ctx) p.1 q.1 && (p.1.space != 1 || p.2.2.any (fun u => q.2.2.contains u))))
/-- Are all the edges into a card clear. -/
def State.edgesClear (s : State) (d : Nat) (c : Card) : Bool :=
  ((s.die d).cards.takeWhile (fun a => a.cid != c.cid)).all (fun a => !s.edge d a c)

/-! ## An engine's accesses -/

/-- Why an engine's work does not go on: it waits, for a walk of a page, for the host's translation, or for memory that is held (the address, whether
its page is mirrored, and whether the access writes), or it fails with a cause of R220. -/
inductive Stop where
  | walk (va : Nat) (write : Bool)
  | ats (io : Nat)
  | wait (a : Option (Nat × Bool × Bool))
  | fail (cause addr : Nat)
  deriving DecidableEq, Repr
/-- An engine's work over the state. -/
abbrev Eng := StateT State (Except Stop)
/-- The work fails. -/
def engFail {α : Type} (cause addr : Nat) : Eng α := fun _ => .error (.fail cause addr)
/-- The work fails unless the condition holds. -/
def engNeed (p : Bool) (cause addr : Nat) : Eng Unit := if p then pure () else engFail cause addr

/-- An engine's translation (R150, R152, R220): the place, and the entry's address, that its core's or die's TLB gives. -/
def engEntry (c : Card) (va : Nat) (write : Bool) : Eng (Loc × Nat) := fun s =>
  match s.tlb c.core c.ctx va with
  | none => .error (.walk va write)
  | some e =>
    let l := e.loc va
    if (!e.u && !s.ctxPriv c.ctx) || (write && e.ro) then .error (.fail 2 va)
    else if l.at / 2 ^ 50 = 2 then
      match s.atsFind c.ctx (l.at % 2 ^ 50) with
      | none => .error (.ats (l.at % 2 ^ 50))
      | some a =>
        if (write && a.ro) || (!write && !a.u) then .error (.fail 2 va)
        else if s.memHeld (a.host l).at then .error (.wait (some ((a.host l).at, false, write)))
        else if write && s.dHeld (e.pteAt va) then .error (.wait (some (e.pteAt va, false, true))) else .ok ((a.host l, e.pteAt va), s)
    else if s.accHeld l.at e.mir write then .error (.wait (some (l.at, e.mir, write)))
    else if write && s.dHeld (e.pteAt va) then .error (.wait (some (e.pteAt va, false, true)))
    else .ok ((l, e.pteAt va), s)
/-- The place of a piece of a region's space, for a read or a write. -/
def engPlace (c : Card) (sp a : Nat) (write : Bool) : Eng (Loc × Option Nat) :=
  match sp with
  | 0 => do
    let e ← engEntry c a write
    pure (e.1, some e.2)
  | 1 => pure (.shm a, none)
  | _ => do
    let s ← get
    match s.padAddr (dieOf c.core) (s.ctxPart c.ctx) a with
    | .ok ((l, _) :: _) => pure (l, none)
    | _ => engFail 3 a
/-- A byte of a sector that the card has read before it reads the rest (R172). -/
def Card.earlyByte (c : Card) (sp a : Nat) : Option Byte :=
  (c.early.find? (fun e => e.1 == sp && e.2.1 == a / 32)).bind (fun e => e.2.2[a % 32]?)
/-- A byte of the team shared memory that a card of a retired team holds (R251); where it holds none, because no region that it writes is there, the rules
state no value (log 39). -/
def State.keptByte (s : State) (c : Card) (a : Nat) : Byte :=
  match (s.core c.core).kept.find? (fun r => r.2.2.1 == c.cid) with
  | some r => SMap.get 0 r.2.2.2 a
  | none => (Config.freeOf (2 ^ 80 + c.cid) a).setWidth 8
/-- A byte as the card sees it: at its home when it reads the sector, or in the view of its bridle team (R172, R203). -/
def State.engByte (s : State) (c : Card) (l : Loc) (a : Nat) : Byte :=
  match c.earlyByte l.sp a with
  | some b => b
  | none => match (c.tid).bind s.anyTeam? with
    | none => if l.sp = 0 then s.keptByte c a else if l.sp = 1 then SMap.get 0 s.pad a else SMap.get 0 s.mem a
    | some t => match c.view with
      | some v => if l.shared then (v.2.foldl (fun f h => h.over l.sp f) (s.layer { t with layer1 := v.1, own := [] } l.sp)) a else s.homeByte t l.sp a
      | none => s.homeByte t l.sp a
/-- One piece read within a 128-byte line; a sector held lost without a mirror copy fails the card (R220, R289). -/
def engPiece (c : Card) (sp a n : Nat) : Eng (List Byte) := do
  let p ← engPlace c sp a false
  let s ← get
  if s.lostIn ((splitAt' 32 a n).map (fun q => (p.1.plus (q.1 - a), q.2))) then engFail 5 a
  else do
    let s := s.fromMirror ((splitAt' 32 a n).map (fun q => (p.1.plus (q.1 - a), q.2)))
    let s := match p.1 with
      | .phys pa _ _ mg cp => s.l2Touch c.ctx (s.site c.core) pa mg cp false
      | _ => s
    set s
    pure ((List.range n).map (fun i => s.engByte c p.1 (p.1.at + i)))
/-- Bytes of a region, checked against it (R215). -/
def engRead (c : Card) (r : Region) (a n : Nat) : Eng (List Byte) := do
  engNeed (r.holds a n) 3 a
  let ps ← (splitAt' 128 a n).mapM (fun p => engPiece c r.space (if r.space = 0 then p.1 % 2 ^ 57 else p.1) p.2)
  pure ps.flatten
/-- The writes of bytes to a region, checked against it: the places, with the D bits they set (R149, R215). -/
def engWrite (c : Card) (r : Region) (tids : List Nat) (a : Nat) (bs : List Byte) : Eng (List Landing) := do
  engNeed (r.holds a bs.length) 3 a
  let ls ← (splitAt' 128 a bs.length).mapM (fun p => do
    let q ← engPlace c r.space (if r.space = 0 then p.1 % 2 ^ 57 else p.1) true
    match q.2 with
    | some pte => modify (fun s => s.setD pte)
    | none => pure ()
    let b := (bs.drop (p.1 - a)).take p.2
    pure (tids.map (fun u => (⟨q.1, u, b⟩ : Landing))))
  pure ls.flatten

/-! ## Landing (R134, R156, R173, R174) -/

/-- Updates a ticket that still belongs to the command. -/
def State.modTicket (s : State) (tid slot seq : Nat) (f : Ticket → Ticket) : State :=
  s.modAny tid (fun t => { t with tickets := updAt t.tickets slot (fun k => if k.seq = seq then f k else k) })
/-- The card's data supersedes bytes the issuing core's L1 holds dirty from before (R174). -/
def cleanUnder (pa n : Nat) (x : L1Sec) : L1Sec :=
  { x with dirty := maskOf ((lanesOf x.dirty).filter (fun i => !(decide (pa ≤ x.sec * 32 + i) && decide (x.sec * 32 + i < pa + n)))) }
/-- A place behind its ATS translation, where it lies in the host's memory and the host has answered (R152). -/
def State.atHost (s : State) (ctx : Nat) (l : Loc) : Loc :=
  if l.at / 2 ^ 50 = 2 then ((s.atsFind ctx (l.at % 2 ^ 50)).map (fun a => a.host l)).getD l else l
/-- The places of a card's write regions in global memory, page by page, as the L1 names them (R152, R174). -/
def State.writePages (s : State) (c : Card) : List (Loc × Nat) :=
  [2, 3].flatMap (fun i =>
    let r := regionOf c.words i
    if r.space ≠ 0 then []
    else (splitAt' 4096 r.base r.len).filterMap (fun p =>
      let e? := match s.tlb c.core c.ctx p.1 with
        | some e => some e
        | none => match s.walk c.ctx p.1 with
          | .ok e => some e
          | .absent | .fail => none
      e?.map (fun e => (s.atHost c.ctx (e.loc p.1), p.2))))
/-- The physical ranges of a card's write regions in global memory. -/
def State.writeSpans (s : State) (c : Card) : List (Nat × Nat) := (s.writePages c).map (fun p => (p.1.at, p.2))
/-- The widest domain of a card's write regions: DIE for the pad, the pages' for global memory (R159, R174). -/
def State.writeDom (s : State) (c : Card) : Dom :=
  (s.writePages c).foldl (fun d p => d.wider p.1.dom) (if [2, 3].any (fun i => (regionOf c.words i).space == 2) then .die else .core)
/-- The sectors of a write to a place. -/
def landSectors (l : Loc) (bs : List Byte) : List Sector :=
  (splitAt' 32 l.at bs.length).flatMap (fun p => mergeSector [] (l.plus (p.1 - l.at)) ((bs.drop (p.1 - l.at)).take p.2))
/-- What a bridle team's card writes to shared pages and the pad is kept until it joins the held versions (R203, log 46). -/
def State.keepJoin (s : State) (c : Card) (l : Loc) (bs : List Byte) : State :=
  s.modAny (c.tid.getD 0) (fun t => { t with joins := t.joins ++ (landSectors l bs).map (fun x => (c.slot * 2 ^ 26 + c.seq, x)) })
/-- One piece of a card's data lands at its place, or in what is held of a retired team's shared memory (R251); where its own
group is late, it is a write to the read sets of its team (R193). -/
def State.landOne (c : Card) (s : State) (w : Landing) : State :=
  let s := if c.tid = some w.tid then s.trigger1 w.tid c.gi w.loc.sp w.loc.at w.bytes.length else s
  match w.loc with
  | .shm a =>
    if (s.anyTeam? w.tid).isSome then s.modAny w.tid (fun t => { t with shm := setBytes t.shm a w.bytes })
    else s.modCore c.core (fun k => { k with kept := k.kept.map (fun r => if r.2.2.1 = c.cid then (r.1, r.2.1, r.2.2.1, setBytes r.2.2.2 a w.bytes) else r) })
  | .pad .. => if c.view.isSome then s.keepJoin c w.loc w.bytes else s.land w.loc w.bytes
  | .phys pa shr _ mg cp =>
    if c.view.isSome && shr != .core then s.keepJoin c w.loc w.bytes
    else
      let s := (s.l2Touch c.ctx (s.site c.core) pa mg cp true).land w.loc w.bytes
      s.modCore c.core (fun k => { k with l1 := k.l1.map (cleanUnder pa w.bytes.length) })
/-- A bridle team's cards that read its view later, its own successor among them, see what this card writes (R203, R219, R221). -/
def State.feedViews (s : State) (d : Nat) (c : Card) (ls : List Landing) : State :=
  if c.view.isNone then s
  else
    let xs := ls.flatMap (fun w => if w.loc.shared then landSectors w.loc w.bytes else [])
    s.modDie d (fun x => { x with cards := x.cards.map (fun b =>
      if b.tid = c.tid then { b with view := b.view.map (fun v => (v.1, xs.foldl commitOne v.2)) } else b) })
/-- A card's landings. -/
def State.landCard (s : State) (d : Nat) (c : Card) (ls : List Landing) : State := (ls.foldl (State.landOne c) s).feedViews d c ls

/-! ## Energy and current (R263, R264) -/

/-- A power register in effect on a die: budgets, ceilings and costs change at an interval boundary (R270). -/
def State.pow (s : State) (d o : Nat) : Nat := (SMap.get 0 (s.die d).power.eff o ^^^ BitVec.ofNat 32 (powerReset s.part o)).toNat
/-- Cost of a card kind: energy, current (R269). -/
def State.cardCost (s : State) (d k : Nat) : Nat × Nat := (s.pow d (0x60 + 8 * k), s.pow d (0x64 + 8 * k))
/-- The power block of a logical core. -/
def State.coreBlock (s : State) (core : Nat) : Nat := blockOf (s.site core % 128)
/-- The slice that holds the table of level 0 (R227). -/
def hgSlice (ds : List Byte) : Nat := fieldAt ds 4 4 / 2 ^ 24 % 128
/-- The block a card is charged to; none for the die-edge engines (R263). -/
def State.cardBlock (s : State) (c : Card) : Option Nat :=
  let k := kindOf c.words
  if k ≤ 4 then some (s.coreBlock c.core) else if k ≤ 6 then some (blockOf (hgSlice c.desc)) else none
/-- What one piece of resident work on a die is charged: its block if any, energy, current. -/
def State.charges (s : State) (d : Nat) : List (Option Nat × Nat × Nat) :=
  (s.teams.filter (fun t => dieOf t.pcore == d)).map (fun t => (some (s.coreBlock t.pcore), t.la.energy, t.la.current)) ++
  ((s.die d).cards.filter (fun c => c.st == .running)).map (fun c => (s.cardBlock c, s.cardCost d (kindOf c.words)))
/-- Committed energy and current of a block, or of the die. -/
def State.committed (s : State) (d : Nat) (b : Option Nat) : Nat × Nat :=
  let l := (s.charges d).filter (fun x => b.isNone || x.1 == b)
  ((l.map (fun x => x.2.1)).sum, (l.map (fun x => x.2.2)).sum)
/-- A budget while the die is throttled (R264). -/
def halved (th : Bool) (x : Nat) : Nat := if th then x / 2 else x
/-- Is the energy and current within the budget and ceiling of a sum, with its overdraw (R264). -/
def State.fits? (s : State) (d be bi od e i : Nat) (b : Option Nat) : Bool :=
  let th := (s.die d).power.throttled
  let c := s.committed d b
  decide (c.1 + SMap.get 0 (s.die d).power.overdraw od + e ≤ halved th be) && decide (c.2 + i ≤ halved th bi)
/-- Budget and ceiling of a block: those of its pool (R261, R264). -/
def State.blockLimit (s : State) (d k : Nat) : Nat × Nat := (s.pow d (0x20 + 8 * s.pool d k), s.pow d (0x24 + 8 * s.pool d k))
/-- Does work of energy `e` and current `i` exceed its block by itself (R264). -/
def State.exceeds (s : State) (d k e i : Nat) : Bool :=
  let th := (s.die d).power.throttled
  decide (halved th (s.blockLimit d k).1 < e) || decide (halved th (s.blockLimit d k).2 < i)
/-- Does a die admit the work, by its own sums. -/
def State.dieAdmits (s : State) (d e i : Nat) : Bool := s.fits? d (s.pow d 0) (s.pow d 4) 32 e i none
/-- Does a block admit the work: by its sums, or, work that exceeds it alone, when it holds nothing else (R264). -/
def State.blockAdmits (s : State) (d k e i : Nat) : Bool :=
  if s.exceeds d k e i then (s.charges d).all (fun x => x.1 != some k)
  else s.fits? d (s.blockLimit d k).1 (s.blockLimit d k).2 k e i (some k)
/-- Is work of energy `e` and current `i` on each of some blocks, one entry for each piece, admitted as a whole (R264): on every block, and,
unless it exceeds a block alone and waits only for that block to be empty, on the die. No block: the die alone. -/
def State.admits (s : State) (d : Nat) (bs : List Nat) (e i : Nat) : Bool :=
  let n (b : Nat) : Nat := (bs.filter (· == b)).length
  bs.all (fun b => s.blockAdmits d b (n b * e) (n b * i)) &&
    (bs.any (fun b => s.exceeds d b (n b * e) (n b * i)) || s.dieAdmits d (max 1 bs.length * e) (max 1 bs.length * i))
/-- An item is admitted on a die: where it had aged, the ageing ends and AGED counts it (R264, R269). -/
def State.admitted (s : State) (d : Nat) (item : Nat × Nat) : State :=
  let s1 := if (s.die d).power.aged = some item then s.addBar (powOff d 0x18) 1 else s
  if s.dies.any (fun x => x.power.aged == some item) then
    { s1 with dies := s1.dies.map (fun x => { x with power := { x.power with aged := if x.power.aged = some item then none else x.power.aged } }) }
  else s1

end Sys2Proof.Machine
end

