-- ==== Sys2Proof/Machine/Fetch.lean ====
section
/-! DEFINITION. Which bundle issues, and the fetch of its instruction (R24-R29, R70, R179, R199, R257). -/
namespace Sys2Proof.Machine

/-! ## Paths and bundles -/

/-- The bundle former (R25): every path of the group becomes one bundle. -/
def Group.form (g : Group) : Group :=
  let first (pc : Nat) : Nat := ((enum g.lanes).findIdx? (fun p => decide (p.2.st = .ready) && p.2.pc == pc)).getD 0
  { g with
    nextBundle := g.nextBundle + 32
    lanes := g.lanes.map (fun l => if l.st = .ready then { l with bundle := g.nextBundle + first l.pc } else l) }

/-- The ready lanes of the path that are in the bundle of lane `l`. -/
def Group.bundleOf (g : Group) (pc l : Nat) : Mask :=
  let id := (g.lane l).bundle
  g.mask (fun k => decide (k.st = .ready) && k.pc == pc && k.bundle == id)
/-- May the bundle of lane `l` issue on the path at `pc`: of the path that goes on, the bundle that issued last goes first, and others at its address wait
as a separate path (R28 and the example after R29; log 44). -/
def Group.mayRun (g : Group) (pc : Nat) (new : Bool) (l : Nat) : Bool :=
  new || (match g.run with
    | none => true
    | some b => (g.lane l).bundle == b || !g.lanes.any (fun k => decide (k.st = .ready) && k.pc == pc && k.bundle == b))

/-! ## Which group may issue -/

/-- Are all the group's live lanes at a barrier or PHW. -/
def Group.atBarrier (g : Group) : Bool := g.live != 0 && g.lanes.all (fun l => l.st == .exited || l.st.isBarred)
/-- Have all its live lanes arrived at one set-scope or team-scope rendezvous that waits for another group (R199). -/
def Group.passedOver (g : Group) : Bool :=
  g.live != 0 && g.lanes.all (fun l => match l.st with
    | .exited => true
    | .arrived _ sc => sc == .set || sc == .team
    | _ => false)
/-- Does the group run its quantum (R199, R201). -/
def Group.running (g : Group) : Bool := g.live != 0 && g.ended.isNone && !g.atBarrier && !g.passedOver

/-- The group whose place in the turn it is (R199). -/
def Team.inTurn (t : Team) : Option Nat :=
  match (enum t.groups).find? (fun p => p.2.running && !p.2.turn) with
  | some p => some p.1
  | none => ((enum t.groups).find? (fun p => p.2.running)).map Prod.fst
/-- A new turn begins when every running group has taken its place. -/
def Team.newTurn (t : Team) : Team :=
  if t.groups.any (fun g => g.running && !g.turn) then t else { t with groups := t.groups.map (fun g => { g with turn := false }) }

/-- May the group issue: it has a ready lane and nothing holds it (R48, R94, R192, R199; in bridle mode a parked lane holds the group's place in
the turn, so that its paths issue in the same order on every run, R213, and none issues while the round ends, R203), and of a team that halts it has used fewer than 8 issue
slots since (R273). -/
def canIssue (t : Team) (gi : Nat) (g : Group) : Bool :=
  t.back.isNone && g.ready != 0 && !g.drain && !g.stopped && !g.retired && g.ended.isNone && (!t.la.bridle || decide (t.roundStep = 0)) &&
  (match g.bram with | some b => !b.stalled && !b.past | none => true) &&
  (match t.halt with | some _ => decide (g.slots < 8) && !t.la.bridle | none => true) &&
  (!t.la.bridle || (t.inTurn == some gi && !g.lanes.any (·.st.isParked)))

/-! ## Fetch -/

/-- What a fetch gives. -/
inductive Fetched where
  | words (s : State) (w0 w1 : Nat)
  | park (r : Park)
  | fault (code addr : Nat)

/-- Words fetched by the broadcast enter the loop buffer, which holds the last 48 (R26). -/
def Group.pushLoop (g : Group) (ps : List (Nat × Word)) : Group :=
  let l := g.loopbuf ++ ps
  { g with loopbuf := l.drop (l.length - 48) }

/-- A 32-byte code sector in the core's instruction cache, filled from the L2 when absent, never from L1 (R179, R370); none where the sector is
lost and has no mirror copy (R289, R291). -/
def State.codeSector (s : State) (t : Team) (l : Loc) : Option (State × List Byte) :=
  let sec := l.at / 32
  match (s.core t.pcore).icache.find? (fun p => p.1 == sec) with
  | some p => some (s, p.2)
  | none =>
    if s.lostIn [(l, 4)] then none
    else
      let s := s.fromMirror [(l, 4)]
      let s := match l with
        | .phys pa _ _ mg cp => s.l2Touch t.ctx (s.site t.pcore) pa mg cp false
        | .shm _ => s
        | .pad .. => s
      let bs := s.memBytes (sec * 32) 32
      some (s.modCore t.pcore (fun c => { c with icache := (sec, bs) :: c.icache.take 2047 }), bs)

/-- Fetch at byte offset `pc` of the code segment: bounds (R63), the loop buffer, then the instruction cache through translation
(R26, R27, R149, R179); a two-word instruction at 4 modulo 8 raises #ALIGN (R70). -/
def fetch (s : State) (t : Team) (gi lane pc : Nat) (g : Group) : Fetched :=
  if t.la.hdr.codesz ≤ pc then .fault tBOUNDS pc
  else
    let done (s : State) (w0 w1 : Nat) : Fetched :=
      if twoWords w0 && pc % 8 == 4 then .fault tALIGN pc else .words s w0 w1
    match g.loopWords pc with
    | some (w, v) => done s w.toNat v.toNat
    | none =>
      match s.translate t.pcore t.ctx (t.la.base + pc) false true (g.lane lane).declined with
      | .park r => .park r
      | .fault c a => .fault c a
      | .ok [] => .fault tXLAT pc
      | .ok ((l, _) :: _) =>
        match s.codeSector t l with
        | none => .fault tMCHK (t.la.base + pc)
        | some (s1, bs) =>
          let at4 (o : Nat) : Nat := leNat ((bs.drop (l.at % 32 + o)).take 4)
          let w0 := at4 0
          let two := twoWords w0 && pc % 8 != 4
          let w1 := if two then at4 4 else 0
          let ps : List (Nat × Word) := (pc, BitVec.ofNat 32 w0) :: (if two then [(pc + 4, BitVec.ofNat 32 w1)] else [])
          done (s1.modGroup t.tid gi (fun g => g.pushLoop ps)) w0 w1

/-! ## The issue attempt -/

/-- What an issue move comes to before any instruction acts. -/
inductive Attempt where
  /-- the step ends here -/
  | stop (s : State)
  /-- the instruction to execute, with `cur` set -/
  | run (s : State) (i : Instr)

/-- Is the group's next instruction of the U-set, where its loop buffer or the core's instruction cache holds it (R69). -/
def State.nextPipe (s : State) (t : Team) (g : Group) : Option Bool :=
  match g.selectPath with
  | none => none
  | some (pc, _) => match g.loopWords pc with
    | some w => some (w.1.getLsbD 31)
    | none => match s.translate t.pcore t.ctx (t.la.base + pc) false true none with
      | .ok ((l, _) :: _) => ((s.core t.pcore).icache.find? (fun p => p.1 == l.at / 32)).map (fun p => bit (leNat ((p.2.drop (l.at % 32)).take 4)) 31)
      | _ => none
/-- One clock of a pipe of a quarter (R257): a group that could have issued on it counts, and selects its next path (R28), but in bridle mode;
the count of one that could not is 0, and that of one that yields stays, once (R446). An instruction still to be fetched counts for the L-set's pipe (log 20). -/
def Group.passed (g : Group) (could bridle u : Bool) : Group :=
  let old := if u then g.cntU else g.cntL
  let n := if !could then 0 else if g.yield && !u then old else min 64 (old + 1)
  let g : Group := if u then { g with cntU := n } else { g with cntL := n, yield := false }
  if could && !bridle then { g with issued := 32 } else g
/-- The pipe's clock for the groups of the quarter other than the one that issues. -/
def State.passOver (s : State) (t : Team) (gi quarter : Nat) (u : Bool) : State :=
  { s with teams := s.teams.map (fun k =>
      if k.pcore = t.pcore then
        { k with groups := (enum k.groups).map (fun p =>
            if p.2.quarter = quarter ∧ !(k.tid = t.tid ∧ p.1 = gi) then
              p.2.passed (canIssue k p.1 p.2 && (s.nextPipe k p.2).getD false == u) k.la.bridle u
            else p.2) }
      else k) }

/-- A path of a bridle group whose instruction cannot be read yet, and so whether its lanes stand at a rendezvous: it is fetched first, and holds the
group's place in the turn meanwhile, so that arrivals depend on no cache (R32, R199, R213). -/
def State.blindPath (s : State) (t : Team) (g : Group) : Option Nat :=
  if t.la.bridle then g.readyPcs.find? (fun pc => decide (pc < t.la.hdr.codesz) && (s.codeWords t g pc).isNone) else none
/-- The fetch of such a path, where there is one that waits or succeeds: a fault is for the path's own issue. -/
def State.seeFirst (s : State) (t : Team) (gi : Nat) (g : Group) : Option State :=
  (s.blindPath t g).bind (fun pc =>
    let ls := g.mask (fun l => decide (l.st = .ready) && l.pc == pc)
    match fetch s t gi ((lanesOf ls).headD 0) pc g with
    | .park r => some (s.modGroup t.tid gi (fun g => g.park ls r))
    | .words s1 _ _ => some s1
    | .fault _ _ => none)

/-- The issue of the bundle of `lane` on the group's current path, up to its instruction. -/
def attempt (s : State) (tid gi lane : Nat) : Attempt :=
  match s.team? tid with
  | none => .stop s
  | some t0 =>
    let t := if t0.la.bridle then t0.newTurn else t0
    match t.groups[gi]? with
    | none => .stop s
    | some g0 =>
      if !canIssue t gi g0 then .stop s
      else
        let g1 := if t.la.bridle then g0.form else g0
        match s.seeFirst t0 gi g0, g1.selectPath with
        | some s', _ => .stop s'
        | none, none => .stop s
        | none, some (pc, new) =>
          let g := { g1 with yield := false, path := some pc, issued := if new then 0 else g1.issued, slots := if t.halt.isSome then g1.slots + 1 else g1.slots }
          if (g.lane lane).st ≠ .ready ∨ (g.lane lane).pc ≠ pc ∨ !g.mayRun pc new lane then .stop s
          else
            let ls := g.bundleOf pc lane
            let s := s.modTeam tid (fun _ => t.modGroup gi (fun _ => g))
            let t := t.modGroup gi (fun _ => g)
            let c : Cur := ⟨tid, gi, ls, pc⟩
            match fetch s t gi lane pc g with
            | .park r => .stop (s.modGroup tid gi (fun g => g.park ls r))
            | .fault code a => .stop (s.trapEarly c g { code := code, addr := a })
            | .words s w0 w1 =>
              let s := s.passOver t gi g.quarter (bit w0 31)
              match decodeWords w0 w1 with
              | .error _ => .stop (s.trapEarly c g { code := tILL })
              | .ok i => .run { s with cur := some c } i

end Sys2Proof.Machine
end

