-- ==== Sys2Proof/Machine/Moves.lean ====
section
/-! DEFINITION. The moves that are no row of the opcode table: a store queue's head, and the loss of a cached copy (R141, R142, R147, R151,
R153, R161, R179; log 4). -/
namespace Sys2Proof.Machine

/-- May a core's L1 lose a line by itself: one that keep protects stays while others do (R142). -/
def Core.evictable (c : Core) (sec : Nat) : Bool :=
  !(keptLines c.l1).contains (sec / 4) || (l1Lines c.l1).all (keptLines c.l1).contains
/-- A line leaves the L2 for the latest fill of the slice that holds it, which has evicted none yet (R153): a line that came by migration filled
another slice. A migrated line returns home (R147). -/
def State.evictL2 (s : State) (line : Nat) : State :=
  match s.l2Find line with
  | none => s
  | some y =>
    if y.holder.isSome then s.dropL2 none y
    else match (s.l2In (s.l2Node y)).find? (fun r => r.holder.isNone) with
      | none => s
      | some f => if f.line = line ∨ f.took then s else (s.dropL2 (some f.fctx) y).modLine f.line (fun r => { r with took := true })

/-- A move that is no row of the table. -/
def State.side (s : State) : Move → State
  | .event _ => s
  | .issue _ _ _ => s
  | .drain tid gi => (s.drainHead tid gi).getD s
  | .elapse _ _ _ => s
  | .evictL1 core sec =>
    let p (x : L1Sec) : Bool := x.sec / 4 == sec / 4
    if !(s.core core).evictable sec then s
    else if (s.stuckIn core p).isSome then s.wantIn core p
    else s.dropL1 core p
  | .evictTlb core ctx vbase => s.modCore core (fun c => { c with tlb := c.tlb.filter (fun e => !(e.ctx == ctx && e.vbase == vbase)) })
  | .evictCode core sec => s.modCore core (fun c => { c with icache := c.icache.filter (fun p => p.1 != sec) })
  | .evictTlb2 d ctx vbase => s.modDie d (fun x => { x with l2tlb := x.l2tlb.filter (fun e => !(e.ctx == ctx && e.vbase == vbase)) })
  | .evictL2 _ line => s.evictL2 line
  | .fillL1 _ _ _ => s
  | .readEarly _ _ _ _ => s
  | .powerDown => s

end Sys2Proof.Machine
end

