-- ==== Sys2Proof/Machine/Sched.lean ====
section
/-! DEFINITION. Events between instructions on a core: bundles, paths, results, acknowledgements, commits and messages
(R25, R28, R29, R93, R94, R166, R194, R257, R407). -/
namespace Sys2Proof.Machine

/-! ## Bundles and paths -/

/-- The block's core-clock count (R25, R326). -/
def State.blockClk (s : State) (core : Nat) : Nat := SMap.get 0 (s.die (dieOf core)).clk (s.coreBlock core)
/-- The formers of a core's quarters run (R25); a bridle team's run before each of its issues instead (R199). -/
def State.formCore (s : State) (core : Nat) : State :=
  { s with teams := s.teams.map (fun t => if t.pcore = core ∧ !t.la.bridle then { t with groups := t.groups.map Group.form } else t) }
/-- BUNDLE_FORMATION (R25): at a core clock whose count is a multiple of 4 the formers of the core's quarters run, once. -/
def execBundleFormation (core : Nat) (s : State) : Host.Outcome State Fault Refusal :=
  .next (
    let n := s.blockClk core
    if n % 4 = 0 ∧ (s.core core).formed ≠ n + 1 then (s.formCore core).modCore core (fun c => { c with formed := n + 1 }) else s)

/-- FAIRNESS_TIMER (R28): after 32 bundles the current path yields, unless a cinch window holds it (R29). -/
def execFairnessTimer (tid gi : Nat) (s : State) : Host.Outcome State Fault Refusal :=
  .next (s.modGroup tid gi (fun g => if 32 ≤ g.issued ∧ g.cinch = none then g.nextPath else g))

/-- Has the group's cinch window come to its end (R29): its 16 slots have passed, an STC of its path has spent the reservation or it was lost, or
the path has no ready lane left. -/
def Group.cinchOver (g : Group) (bridle : Bool) : Bool := g.cinch == some 0 || (g.closeCinch bridle).cinch.isNone
/-- CINCH_WINDOW_CLOSE (R29). -/
def execCinchWindowClose (tid gi : Nat) (s : State) : Host.Outcome State Fault Refusal :=
  .next (match s.team? tid with
    | none => s
    | some t => s.modGroup tid gi (fun g => if g.cinchOver t.la.bridle then { g with cinch := none } else g))

/-- ISSUE_AGE_LIMIT (R257): the count of a group that a pipe has passed over stops at 64; from 64 the group goes before younger ones
(`Cand.older`). -/
def execIssueAgeLimit (tid gi : Nat) (u : Bool) (s : State) : Host.Outcome State Fault Refusal :=
  .next (s.modGroup tid gi (fun g => if u then { g with cntU := min g.cntU 64 } else { g with cntL := min g.cntL 64 }))

/-! ## Results (R93, R94) -/

/-- The part of a pending result that belongs to some lanes, and the rest. -/
def Pend.part (p : Pend) (m : Mask) : Pend × Pend :=
  let (a, b) := p.lanes.partition (fun q => m.has q.1)
  if b = [] then (p, ⟨[], []⟩) else (⟨a, []⟩, ⟨b, p.gs⟩)
/-- Writes the `k`-th pending result for some lanes; its uniform registers with its last lanes. -/
def Group.writeback (g : Group) (k : Nat) (m : Mask) : Group :=
  match g.pend[k]? with
  | none => g
  | some p =>
    let (now, rest) := p.part m
    { g.deliverOne now with pend := if rest.lanes = [] ∧ rest.gs = [] then g.pend.eraseIdx k else updAt g.pend k (fun _ => rest) }
/-- VARIABLE_LATENCY_WRITEBACK (R93): a result is written for the lanes; with the last one a switch wait ends (R94). -/
def execVariableLatencyWriteback (tid gi k : Nat) (lanes : Mask) (s : State) : Host.Outcome State Fault Refusal :=
  .next (s.modGroup tid gi (fun g => g.writeback k lanes))

/-! ## Acknowledgements (R157, R166) -/

/-- Releases at the heads of a core's store queues that may now complete (R166). -/
def State.releaseHeads (s : State) (core : Nat) : State :=
  (s.teams.filter (fun t => t.pcore == core)).foldl (fun s t => (List.range t.groups.length).foldl (fun s gi =>
    match (s.group? t.tid gi).bind (fun g => g.sq.head?) with
    | some e => if e.rel then (s.drainHead t.tid gi).getD s else s
    | none => s) s) s
/-- Does a write in flight wait for its memory (R272). -/
def State.flightHeld (s : State) (w : Flight) : Bool := match w.loc with
  | .phys pa _ mir _ _ => s.writeHeld pa mir
  | .shm _ => false
  | .pad .. => false
/-- WRITE_ACKNOWLEDGE (R166): the coherence point performs and acknowledges the core's `k`-th write in flight: not before an earlier one to
its line (R157), and not while its memory is held (R272). -/
def execWriteAcknowledge (core k : Nat) (s : State) : Host.Outcome State Fault Refusal :=
  .next (match (s.core core).fly[k]? with
    | none => s
    | some w => if flyFree (s.core core).fly k && !s.flightHeld w then (s.ack core k).releaseHeads core else s)

/-! ## Speculation and messages -/

/-- BRAMBLE_COMMIT (R194). -/
def execBrambleCommit (tid gi : Nat) (s : State) : Host.Outcome State Fault Refusal := .next (s.commit tid gi)

/-- Is a message of a team the first in flight between its two nodes (R14, R407): none sent earlier from the same core to the same core is still
under way. -/
def State.firstFlying (s : State) (t : Team) (m : Msg) : Bool :=
  !s.teams.any (fun u => s.site u.pcore == s.site t.pcore && u.msgs.any (fun n => !n.landed && s.site n.node == s.site m.node && decide (n.stamp < m.stamp)))
/-- The messages with the `k`-th landed: it enters the queue behind those that have landed (R407). -/
def landMsg (ms : List Msg) (k : Nat) : List Msg :=
  match ms[k]? with
  | none => ms
  | some m => (ms.eraseIdx k).filter (·.landed) ++ { m with landed := true } :: (ms.eraseIdx k).filter (fun n => !n.landed)
/-- CHANNEL_MESSAGE_ARRIVE (R14, R407): messages between two nodes arrive in the order sent. -/
def execChannelMessageArrive (tid k : Nat) (s : State) : Host.Outcome State Fault Refusal :=
  .next (s.modTeam tid (fun t => if (t.msgs[k]?).any (fun m => !m.landed && s.firstFlying t m) then { t with msgs := landMsg t.msgs k } else t))

end Sys2Proof.Machine
end

