-- ==== Sys2Proof/Machine/Texture.lean ====
section
/-! DEFINITION. The texture instructions (R126, R422-R425). -/
namespace Sys2Proof.Machine

/-- A texture descriptor (R422). -/
structure Tex where
  base : Nat
  filter : Nat
  addrV : Nat
  addrU : Nat
  r8 : Bool
  levels : Nat
  hlog : Nat
  wlog : Nat
  border : Nat
  deriving DecidableEq, Repr

/-- The descriptor in 32 bytes, where it is valid (R422, R425); `levels` is the number of levels. -/
def Tex.parse (bs : List Byte) : Option Tex :=
  let n := leNat bs
  let w := bitsAt n 64 32
  let x : Tex := ⟨bitsAt n 0 64, bitsAt w 18 2, bitsAt w 16 2, bitsAt w 14 2, bitsAt w 12 2 == 1, bitsAt w 8 4 + 1, bitsAt w 4 4, bitsAt w 0 4,
    bitsAt n 96 32⟩
  if bitsAt w 20 12 ≠ 0 ∨ bitsAt n 128 128 ≠ 0 ∨ x.filter = 3 ∨ 2 ≤ bitsAt w 12 2 ∨ 14 < x.wlog ∨ 14 < x.hlog ∨
    max x.wlog x.hlog + 1 < x.levels ∨ x.base % 256 ≠ 0 then none
  else some x

/-- Width, height and texel size of a level, and its offset from BASE. -/
def Tex.w (x : Tex) (k : Nat) : Nat := max 1 (2 ^ x.wlog / 2 ^ k)
def Tex.h (x : Tex) (k : Nat) : Nat := max 1 (2 ^ x.hlog / 2 ^ k)
def Tex.z (x : Tex) : Nat := if x.r8 then 1 else 4
def Tex.off (x : Tex) : Nat → Nat
  | 0 => 0
  | k + 1 => x.off k + (x.w k * x.h k * x.z + 255) / 256 * 256

/-- floor(v × 2^k) of a finite value. -/
def floorAt (v : Val) (k : Int) : Option Int :=
  match v with
  | .fin neg n e =>
    let x := e + k
    some (if 0 ≤ x then (if neg then -((n * 2 ^ x.toNat : Nat) : Int) else (n * 2 ^ x.toNat : Nat))
      else (if neg then -(n : Int) else (n : Int)) / 2 ^ (-x).toNat)
  | .nan => none
  | .inf _ => none
/-- s of R126 on an axis of `w` texels; a NaN coordinate is taken as 0. -/
def texS (u w : Nat) : Val :=
  let v := fmtF32.val u
  let v := if v.isNan then Val.fin false 0 0 else v
  fmtF32.val (fmtF32.round .rne false (((v.mul (.fin false w 0)).1.add false (.fin true 1 (-1))).1)).1
/-- An index under an addressing mode: its texel, or none at a border. -/
def texIndex (mode w : Nat) (i : Int) : Option Nat :=
  match mode with
  | 0 => some (i % (w : Int)).toNat
  | 1 => some (clampI 0 ((w : Int) - 1) i).toNat
  | 2 =>
    let j := (i % (2 * w : Nat)).toNat
    some (if w ≤ j then 2 * w - 1 - j else j)
  | _ => if 0 ≤ i ∧ i < w then some i.toNat else none

/-- A point of one axis: the two indices and the fraction, or one index at nearest. -/
structure TexAxis where
  i0 : Int
  i1 : Int
  a : Nat
  deriving DecidableEq, Repr
/-- The axis's indices (R126, R424); none where the coordinate is not finite. -/
def texAxis (near : Bool) (u w : Nat) : Option TexAxis :=
  let s := texS u w
  match floorAt s 0, floorAt s 1, floorAt s 8 with
  | some f, some f2, some f8 => some (if near then ⟨(f2 + 1) / 2, (f2 + 1) / 2, 0⟩ else ⟨f, f + 1, (f8 - 256 * f).toNat⟩)
  | _, _, _ => none

/-- The four texels of a level at a point: addresses, or none for BORDER, in the order (i0, j0), (i1, j0), (i0, j1), (i1, j1), with
the fractions a and b. -/
def Tex.quad (x : Tex) (near : Bool) (k u v : Nat) : Option (List (Option Nat) × Nat × Nat) :=
  match texAxis near u (x.w k), texAxis near v (x.h k) with
  | some p, some q =>
    let one (i j : Int) : Option Nat :=
      match texIndex x.addrU (x.w k) i, texIndex x.addrV (x.h k) j with
      | some i, some j => some ((x.base + x.off k + (j * x.w k + i) * x.z) % 2 ^ 64)
      | _, _ => none
    some ([one p.i0 q.i0, one p.i1 q.i0, one p.i0 q.i1, one p.i1 q.i1], p.a, q.a)
  | _, _ => none

/-- What a lane samples: level, second level with its weight, and whether nearest. -/
structure TexPlan where
  k : Nat
  coarse : Option (Nat × Nat)
  near : Bool
  deriving DecidableEq, Repr
/-- The plan of a lane (R424): `lod` is TEXL's operand, `gather` TEXG. -/
def Tex.plan (x : Tex) (lod : Option Nat) (gather : Bool) : TexPlan :=
  match lod with
  | none => ⟨0, none, x.filter == 0 && !gather⟩
  | some c =>
    let top : Val := .fin false (x.levels - 1) 0
    let v := fmtF32.val c
    let v : Val := if v.isNan || v.sign then .fin false 0 0 else if top.lt v then top else v
    let f := ((floorAt v 0).getD 0).toNat
    let m := ((floorAt v 8).getD 0).toNat - 256 * f
    ⟨f, if x.filter = 2 then some (min (f + 1) (x.levels - 1), m) else none, x.filter == 0⟩

/-- num / den rounded to F32 in RNE. -/
def ratF32 (num den : Nat) : Nat := (fmtF32.roundMag .rne false false (num * 2 ^ 200 / den) (-200) (num * 2 ^ 200 % den ≠ 0)).1
/-- A texel as the four bytes of RGBA8, from its bytes in memory: an R8 texel reads as (R, 0, 0, 255) (R422). -/
def Tex.rgba (x : Tex) (bs : List Byte) : List Byte := if x.r8 then bs.take 1 ++ leBytes 3 0xFF0000 else bs
/-- A channel of a texel in RGBA8. -/
def texChan (bs : List Byte) (c : Nat) : Nat := ((bs[c]?).map BitVec.toNat).getD 0
/-- Weighted sum of four texels of a channel (R126). -/
def texSum (a b : Nat) (t : List Nat) : Nat :=
  match t with
  | [p, q, r, s] => (256 - a) * (256 - b) * p + a * (256 - b) * q + (256 - a) * b * r + a * b * s
  | _ => 0

/-- The descriptor of a group, read from team shared memory. -/
def State.texDesc (s : State) (tid gi c : Nat) : Option Tex :=
  match s.tg tid gi with
  | none => none
  | some (t, g) => Tex.parse (s.readLoc t g (.shm (g.rg c).toNat) 32)
/-- What reading the descriptor meets (R425). -/
def texPre (c : Nat) (s : State) (x : Site) : Pre :=
  (x.part.filter (fun p => decide (p.2 ≠ 0))).foldl (fun acc p => match acc with
    | .go => match s.tg x.tid p.1 with
      | none => .go
      | some (t, g) =>
        let a := (g.rg c).toNat
        match s.accChk t p.1 g ((lanesOf p.2).headD 0) .shared a 32 false true with
        | .park r => .wait r
        | .fault code v => .trap { code := code, addr := v }
        | .ok => if (s.texDesc x.tid p.1 c).isSome then .go else .trap { code := tCARD, addr := a }
    | r => r) Pre.go

/-- The footprints of a lane: of its level, and of the coarse level where it has one. -/
def Tex.prints (x : Tex) (p : TexPlan) (u v : Nat) : Option (List (List (Option Nat) × Nat × Nat)) :=
  match x.quad p.near p.k u v, p.coarse with
  | some q, none => some [q]
  | some q, some (k, _) => (x.quad p.near k u v).map (fun r => [q, r])
  | none, _ => none
/-- The lane's plan and footprints. -/
def Tex.lane (x : Tex) (g : Group) (l a : Nat) (lod : Option Nat) (gather : Bool) : TexPlan × Option (List (List (Option Nat) × Nat × Nat)) :=
  let p := x.plan (lod.map (fun b => (g.rv l b).toNat)) gather
  (p, x.prints p (g.rv l a).toNat (g.rv l (a + 1)).toNat)

/-- The four results of a lane from the texels of its footprints (R126, R424). -/
def texResult (p : TexPlan) (gather : Option Nat) (qs : List (List (List Byte) × Nat × Nat)) : List Nat :=
  match gather, qs with
  | some c, (t, _, _) :: _ => t.map (fun bs => ratF32 (texChan bs c) 255)
  | none, [(t, a, b)] =>
    (List.range 4).map (fun c =>
      if p.near then ratF32 (texChan (t.headD []) c) 255
      else ratF32 (texSum a b (t.map (fun bs => texChan bs c))) (255 * 65536))
  | none, (t, a, b) :: (t2, a2, b2) :: _ =>
    let m := match p.coarse with
      | some (_, m) => m
      | none => 0
    (List.range 4).map (fun c => ratF32 ((256 - m) * texSum a b (t.map (fun bs => texChan bs c)) +
      m * texSum a2 b2 (t2.map (fun bs => texChan bs c))) (255 * 2 ^ 24))
  | _, [] => []

/-- The texel in RGBA8: BORDER, whatever the format, or a plain load (R422, R424). -/
def State.texel (x : Tex) (tid gi l : Nat) (acc : State × List (List Byte)) (o : Option Nat) : State × List (List Byte) :=
  match o with
  | none => (acc.1, acc.2 ++ [leBytes 4 x.border])
  | some a =>
    let (s, bs) := acc.1.readLane tid gi l .global a x.z 0
    (s, acc.2 ++ [x.rgba bs])

/-- One lane's texture result: its texels read in order and filtered; where its coordinate has no stated texel, free values (log 21). -/
def State.texLane (s : State) (tx : Tex) (pq : TexPlan × Option (List (List (Option Nat) × Nat × Nat))) (gather : Option Nat)
    (tid gi l d : Nat) : State × List Wr :=
  match pq.2 with
  | none => (List.range 4).foldl (fun (a : State × List Wr) j =>
      let (w, s') := a.1.draw
      (s', a.2 ++ [.v (d + j) w])) (s, [])
  | some qs =>
    let (s', bss) := qs.foldl (fun (a : State × List (List (List Byte) × Nat × Nat)) f =>
      let (s', bs) := f.1.foldl (State.texel tx tid gi l) (a.1, [])
      (s', a.2 ++ [(bs, f.2.1, f.2.2)])) (s, [])
    (s', (enum (texResult pq.1 gather bss)).map (fun w => .v (d + w.1) (BitVec.ofNat 32 w.2)))

/-- The first texel access that does not go through. -/
def chkTexels : List Chk → Chk
  | [] => .ok
  | .ok :: r => chkTexels r
  | c :: _ => c

/-- A texture instruction (R424, R425). A coordinate that is not finite after R126's rounding has no stated texel: its lane's four
results are free values (log 21). -/
def texBody (d a : Nat) (lod : Option Nat) (c : Nat) (gather : Option Nat) : Body :=
  { pre := texPre c
    lane := fun s x gi l => match s.tg x.tid gi, s.texDesc x.tid gi c with
      | some (t, g), some tx =>
        match (tx.lane g l a lod gather.isSome).2 with
        | none => .ok
        | some qs => chkTexels (qs.flatMap (fun q => q.1.filterMap (fun o => o.map (fun ad =>
            s.accChk t gi g l .global ad tx.z false true))))
      | _, _ => .ok
    run := fun s x =>
      let r := s.lanesDo x (fun s g gi l => match s.texDesc x.tid gi c with
        | none => (s, [])
        | some tx => s.texLane tx (tx.lane g l a lod gather.isSome) gather x.tid gi l d)
      (r.1, { lanes := r.2 }) }

/-- TEXS (R423-R425). -/
def execTexs (h : Head) (g : Guard) (d : BitVec 7) (a : BitVec 7) (c : BitVec 6) (s : State) : Host.Outcome State Fault Refusal :=
  issue (.texs h g d a c) (texBody d.toNat a.toNat none c.toNat none) s

/-- TEXL (R423-R425). -/
def execTexl (h : Head) (g : Guard) (d : BitVec 7) (a : BitVec 7) (b : BitVec 7) (c : BitVec 6) (s : State) : Host.Outcome State Fault Refusal :=
  issue (.texl h g d a b c) (texBody d.toNat a.toNat (some b.toNat) c.toNat none) s

/-- TEXG (R423-R425). -/
def execTexg (h : Head) (g : Guard) (d : BitVec 7) (a : BitVec 7) (c : BitVec 6) (x : BitVec 2) (s : State) : Host.Outcome State Fault Refusal :=
  issue (.texg h g d a c x) (texBody d.toNat a.toNat none c.toNat (some x.toNat)) s

end Sys2Proof.Machine
end

