-- ==== Sys2Proof/Machine/Engines.lean ====
section
/-! DEFINITION. What the engines compute (R122, R123, R129, R223-R231). -/
namespace Sys2Proof.Machine

/-! ## Tile-walk engine -/

/-- CPY (R223): all of READA is read before any byte of WRITEA is written. -/
def workCpy (c : Card) : Eng (List Landing) := do
  let r := regionOf c.words 0
  let w := regionOf c.words 2
  let bs ← engRead c r r.base r.len
  engWrite c w c.own w.base bs

/-- The coordinates of element number `n` of a box, dimension 0 fastest (R224). -/
def boxIndex : List Nat → Nat → List Nat
  | [], _ => []
  | b :: r, n => n % b :: boxIndex r (n / b)
/-- One element of a box: its offset in team shared memory, and its global address where it lies inside the tensor (R224). -/
def boxElem (ds : List Byte) (base n : Nat) : Nat × Option Nat :=
  let esz := bitsAt (fieldAt ds 0 4) 0 3
  let nd := bitsAt (fieldAt ds 0 4) 3 3
  let box := (List.range nd).map (fun k => fieldAt ds (0x60 + 2 * k) 2)
  let cs := (enum (boxIndex box n)).map (fun p => toIntW 32 true (fieldAt ds (0x40 + 4 * p.1) 4) + (p.2 : Int))
  let inside := (enum cs).all (fun p => decide (0 ≤ p.2) && decide (p.2 < fieldAt ds (0x08 + 4 * p.1) 4))
  let ga := (enum cs).foldl (fun a p => a + p.2.toNat * (if p.1 = 0 then 2 ^ esz else fieldAt ds (0x20 + 8 * (p.1 - 1)) 8)) base
  (n * 2 ^ esz, if inside then some (ga % 2 ^ 64) else none)
/-- The bytes of FILL in an element outside the tensor. -/
def fillBytes (ds : List Byte) (n : Nat) : List Byte := (List.range n).map (fun j => ((ds.drop 4)[j % 4]?).getD 0)
/-- CPYT (R224). -/
def workCpyt (c : Card) : Eng (List Landing) := do
  let esz := bitsAt (fieldAt c.desc 0 4) 0 3
  let out := bitsAt (fieldAt c.desc 0 4) 6 1 == 1
  let r := regionOf c.words 0
  let w := regionOf c.words 2
  let n := (if out then r.len else w.len) / 2 ^ esz
  if out then do
    let bs ← engRead c r r.base r.len
    let ls ← (List.range n).mapM (fun i =>
      match boxElem c.desc w.base i with
      | (t, some ga) => engWrite c w c.own ga ((bs.drop t).take (2 ^ esz))
      | (_, none) => pure [])
    pure ls.flatten
  else do
    let es ← (List.range n).mapM (fun i =>
      match boxElem c.desc r.base i with
      | (_, some ga) => engRead c r ga (2 ^ esz)
      | (_, none) => pure (fillBytes c.desc (2 ^ esz)))
    engWrite c w c.mc w.base es.flatten

/-- CPYG (R225). -/
def workCpyg (c : Card) : Eng (List Landing) := do
  let rs := cw c.words 1 % 2 ^ 16
  let scatter := bitsAt (cw c.words 1) 16 1 == 1
  let r := regionOf c.words 0
  let x := regionOf c.words 1
  let w := regionOf c.words 2
  let n := cw c.words 3
  let ix ← engRead c x x.base (4 * n)
  let ls ← (List.range n).mapM (fun j => do
    let k := fieldAt ix (4 * j) 4
    if scatter then
      if k = 2 ^ 32 - 1 then pure []
      else do
        let bs ← engRead c r (r.base + j * rs) rs
        engWrite c w c.own (w.base + k * rs) bs
    else do
      let bs ← if k = 2 ^ 32 - 1 then pure (List.replicate rs 0) else engRead c r (r.base + k * rs) rs
      engWrite c w c.own (w.base + j * rs) bs)
  pure ls.flatten

/-- Insertion into a list ordered by a key, after its equals. -/
def insertBy {α : Type} (f : α → Nat) (x : α) : List α → List α
  | [] => [x]
  | y :: r => if f x < f y then x :: y :: r else y :: insertBy f x r
/-- A list put in ascending order of a key, equals in their order. -/
def sortBy {α : Type} (f : α → Nat) (l : List α) : List α := l.foldl (fun acc x => insertBy f x acc) []
/-- The routing of CPYR (R226): for every expert its kept (token, position) pairs in slot order, and the dropped (token, expert) pairs
in ascending token, then expert. -/
def route (cap ne : Nat) (es : List (Nat × Nat)) : List (List (Nat × Nat)) × List (Nat × Nat) :=
  let of (e : Nat) : List (Nat × Nat) := sortBy Prod.fst ((enum es).filterMap (fun p => if p.2.2 = e then some (p.2.1, p.1) else none))
  ((List.range ne).map (fun e => (of e).take cap),
    sortBy Prod.fst ((List.range ne).flatMap (fun e => ((of e).drop cap).map (fun q => (q.1, e)))))
/-- CPYR (R226). -/
def workCpyr (c : Card) : Eng (List Landing) := do
  let rs := cw c.words 1 % 2 ^ 16
  let cap := cw c.words 1 / 2 ^ 16
  let ne := cw c.words 3
  let r := regionOf c.words 0
  let x := regionOf c.words 1
  let w := regionOf c.words 2
  let b := regionOf c.words 3
  let n := x.len / 8
  let bs ← engRead c x x.base (8 * n)
  let es := (List.range n).map (fun j => (fieldAt bs (8 * j) 4, fieldAt bs (8 * j + 4) 4))
  engNeed (es.all (fun e => decide (e.2 < ne) || e.2 == 2 ^ 32 - 1)) 4 0
  let (kept, lost) := route cap ne es
  let slot (j : Nat) : Nat := ((enum kept).findSome? (fun p => (p.2.findIdx? (fun q => q.2 == j)).map (fun i => p.1 * cap + i))).getD (2 ^ 32 - 1)
  let report := kept.map (·.length) ++ [lost.length] ++ (List.range n).map slot ++ lost.flatMap (fun q => [q.1, q.2])
  let rows ← ((enum kept).flatMap (fun p => (enum p.2).map (fun q => (p.1 * cap + q.1, q.2.1)))).mapM (fun q => do
    let row ← engRead c r (r.base + q.2 * rs) rs
    engWrite c w c.own (w.base + q.1 * rs) row)
  let ls ← engWrite c b c.own b.base (report.flatMap (leBytes 4))
  pure (rows.flatten ++ ls)

/-! ## Hash-grid engine (R122, R123, R227-R229) -/

/-- The cell and fraction of one coordinate at resolution `n` (R122): the fraction an F32 value. -/
def hgAxis (x n : Nat) : Nat × Nat :=
  let v := fmtF32.val x
  let xa := if v.isNan || v.sign || v.isZero then 0 else fmtF32.fmin x 0x3F7FFFFF
  let scaled := mulF32 xa (fmtF32.round .rne false (.fin false n 0)).1
  match fmtF32.val scaled with
  | .fin _ m e =>
    let cell := (if e ≥ 0 then m * 2 ^ e.toNat else m / 2 ^ (-e).toNat)
    if cell = n then (n - 1, F32.one)
    else (cell, (fmtF32.round .rne false (.fin false (if e ≥ 0 then 0 else m % 2 ^ (-e).toNat) e)).1)
  | _ => (0, 0)
/-- Bit `a` of a corner number. -/
def cornerBit (k a : Nat) : Nat := k / 2 ^ a % 2
/-- The table index of a corner (R122). -/
def hgIndex (n t : Nat) (cs : List Nat) : Nat :=
  let c (a : Nat) : Nat := (cs[a]?).getD 0
  if (n + 1) ^ cs.length ≤ t then c 0 + (n + 1) * (c 1 + (n + 1) * c 2)
  else (Nat.xor (Nat.xor (c 0 % 2 ^ 32) (c 1 * 0xB4F12A9D % 2 ^ 32)) (c 2 * 0x6C8E5E0B % 2 ^ 32)) % t
/-- Index and weight of every corner of a point at a level (R122). -/
def hgCorners (n t : Nat) (xs : List Nat) : List (Nat × Nat) :=
  let ax := xs.map (fun x => hgAxis x n)
  (List.range (2 ^ xs.length)).map (fun k =>
    (hgIndex n t ((enum ax).map (fun p => p.2.1 + cornerBit k p.1)),
      (enum ax).foldl (fun w p => mulF32 w (if cornerBit k p.1 = 1 then p.2.2 else subF32 F32.one p.2.2)) F32.one))
/-- The shape of a hash-grid card: dimensions, points, levels, features, table and result formats. -/
structure HgShape where
  d : Nat
  n : Nat
  l : Nat
  f : Nat
  ff : Nat
  fo : Nat
  deriving DecidableEq, Repr
def hgShape (ws : List Word) : HgShape :=
  let p := cw ws 1
  ⟨2 + bitsAt p 28 1, bitsAt p 0 16 + 1, hgLevels ws, bitsAt p 21 3 + 1,
    if kindOf ws = 6 then 2 else bitsAt p 24 2, if kindOf ws = 6 then 2 else bitsAt p 26 2⟩
/-- A level's resolution, table address and size. -/
def hgLevel (ds : List Byte) (l : Nat) : Nat × Nat × Nat := (fieldAt ds (16 * l) 4, fieldAt ds (16 * l + 4) 4, 2 ^ fieldAt ds (16 * l + 8) 4)
/-- The format of a code (R227). -/
def hgFmt (f : Nat) : Fmt := if f = 0 then fmtBF16 else if f = 1 then fmtF16 else fmtF32
/-- Does every level table lie in the pad share of one slice of the engine's block, in direct form (R227). -/
def State.hgTablesOk (s : State) (c : Card) (h : HgShape) : Bool :=
  let d := dieOf c.core
  (List.range h.l).all (fun l =>
    let (_, tb, t) := hgLevel c.desc l
    tb / 2 ^ 31 % 2 == 1 && blockOf (tb / 2 ^ 24 % 128) == blockOf (hgSlice c.desc) &&
      s.padInside d (s.ctxPart c.ctx) ⟨2, tb, t * h.f * hgBytes h.ff⟩)
/-- The pad key of entry `i` of a level's table, within the die. -/
def hgKey (h : HgShape) (tb i : Nat) : Nat := tb % 2 ^ 31 + i * h.f * hgBytes h.ff
/-- The bytes of the pad that a region covers, by key within the die; none for a region of another space (R215). -/
def State.tableSpans (s : State) (c : Card) (r : Region) : List (Nat × Nat) :=
  if r.space = 2 then (s.padSpans (dieOf c.core) (s.ctxPart c.ctx) r).map (fun p => (p.1 % 2 ^ 31, p.2)) else []
/-- Does a pad region hold the bytes at a key. -/
def spansHold (sp : List (Nat × Nat)) (k n : Nat) : Bool := (List.range n).all (fun i => sp.any (fun p => decide (p.1 ≤ k + i) && decide (k + i < p.1 + p.2)))
/-- A feature of an entry as an F32 value, read from the region. -/
def engFeature (c : Card) (h : HgShape) (sp : List (Nat × Nat)) (tb i j : Nat) : Eng Nat := do
  let n := hgBytes h.ff
  let k := hgKey h tb i + j * n
  engNeed (spansHold sp k n) 3 (2 ^ 31 + k)
  let bs ← engPiece c 2 (2 ^ 31 + k) n
  pure (fmtF32.round .rne false ((hgFmt h.ff).val (leNat bs))).1
/-- HGF (R122, R228). -/
def workHgf (c : Card) : Eng (List Landing) := do
  let h := hgShape c.words
  let s ← get
  engNeed (s.hgTablesOk c h) 4 0
  let sp := s.tableSpans c (regionOf c.words 1)
  let rp := regionOf c.words 0
  let w := regionOf c.words 2
  let ps ← engRead c rp rp.base rp.len
  let vs ← (List.range h.n).mapM (fun p =>
    let xs := (List.range h.d).map (fun a => fieldAt ps (4 * (p * h.d + a)) 4)
    (List.range h.l).mapM (fun l => do
      let (n, tb, t) := hgLevel c.desc l
      let cs := hgCorners n t xs
      (List.range h.f).mapM (fun j => do
        let ys ← cs.mapM (fun q => do
          let v ← engFeature c h sp tb q.1 j
          pure (q.2, v))
        let y := ys.foldl (fun y q => fmaF32 q.1 q.2 y) 0
        pure ((hgFmt h.fo).round .rne false (fmtF32.val y)).1)))
  let n := hgBytes h.fo
  engWrite c w c.own w.base ((vs.flatten.flatten).flatMap (leBytes n))

/-- The updates of HGB in order: key of the table word, and what is added (R123). -/
def hgUpdates (c : Card) (h : HgShape) (ps dy : List Byte) : List (Nat × Nat) :=
  (List.range h.n).flatMap (fun p =>
    let xs := (List.range h.d).map (fun a => fieldAt ps (4 * (p * h.d + a)) 4)
    (List.range h.l).flatMap (fun l =>
      let (n, tb, t) := hgLevel c.desc l
      (hgCorners n t xs).flatMap (fun q => (List.range h.f).map (fun j =>
        (hgKey h tb q.1 + 4 * j, mulF32 q.2 (fieldAt dy (4 * ((p * h.l + l) * h.f + j)) 4))))))
/-- HGB (R123, R229): one update after another on the F32 tables within WRITEA. -/
def workHgb (c : Card) : Eng (List Landing) := do
  let h := hgShape c.words
  let s ← get
  engNeed (s.hgTablesOk c h) 4 0
  let w := regionOf c.words 2
  let sp := s.tableSpans c w
  let rp := regionOf c.words 0
  let ry := regionOf c.words 1
  let ps ← engRead c rp rp.base rp.len
  let dy ← engRead c ry ry.base ry.len
  let m ← (hgUpdates c h ps dy).foldlM (fun (m : SMap (Option Nat)) u => do
    engNeed (spansHold sp u.1 4) 3 (2 ^ 31 + u.1)
    let old ← match SMap.get none m u.1 with
      | some x => pure x
      | none => do
        let bs ← engPiece c 2 (2 ^ 31 + u.1) 4
        pure (leNat bs)
    pure (SMap.set none m u.1 (some (addF32 old u.2)))) []
  let ls ← m.mapM (fun p => do
    let q ← engPlace c 2 (2 ^ 31 + p.1) true
    pure (⟨q.1, c.own.headD 0, leBytes 4 (p.2.getD 0)⟩ : Landing))
  pure ls

/-! ## Reduction engine (R230) -/

/-- Element sums of the four dies' contributions (R230). -/
def aredDies (ds : List (List Byte)) : List Byte :=
  let x (d i : Nat) : Nat := fieldAt ((ds[d]?).getD []) (4 * i) 4
  (List.range ((ds.headD []).length / 4)).flatMap (fun i => leBytes 4 (addF32 (addF32 (x 0 i) (x 1 i)) (addF32 (x 2 i) (x 3 i))))
/-- One step of the tree across packages. -/
def aredStep (k : Nat) (l : List Nat) : List Nat :=
  (enum l).map (fun p => if p.1 % 2 ^ (k + 1) = 0 ∧ p.1 + 2 ^ k < l.length then addF32 p.2 ((l[p.1 + 2 ^ k]?).getD 0) else p.2)
/-- The fixed tree across packages, ranks in order: the sum at rank 0. -/
def aredTree (l : List Nat) : Nat := ((List.range 10).foldl (fun l k => aredStep k l) l).headD 0
/-- The result over the packages, from each one's package sum by rank. -/
def aredPackages (vs : List (List Byte)) : List Byte :=
  (List.range ((vs.headD []).length / 4)).flatMap (fun i => leBytes 4 (aredTree (vs.map (fun v => fieldAt v (4 * i) 4))))

/-! ## Raster engine (R129, R231) -/

/-- A coordinate in 16.8 fixed point; none where the triangle is discarded. -/
def fix8 (x : Nat) : Option Int :=
  match fmtF32.val x with
  | .fin neg n e =>
    let (k, _) := roundAt .rne neg n (e + 8) 0 false
    let i : Int := if neg then -(k : Int) else k
    if i < -(2 ^ 23) ∨ 2 ^ 23 - 1 < i then none else some i
  | _ => none
/-- The edge function from `a` to `b` at `p`. -/
def edgeFn (a b p : Int × Int) : Int := (p.2 - a.2) * (b.1 - a.1) - (p.1 - a.1) * (b.2 - a.2)
/-- Does an edge cover a sample: strictly inside, or on a top or left edge. -/
def edgeIn (a b p : Int × Int) : Bool :=
  let e := edgeFn a b p
  decide (0 < e) || (e == 0 && ((a.2 == b.2 && decide (a.1 < b.1)) || decide (b.2 < a.2)))
/-- Two integers' quotient as an F32 value. -/
def quotF32 (n d : Int) : Nat := ratF32 n.toNat d.toNat
/-- The vertices in the engine's order, and whether v1 and v2 were swapped; none for a triangle that covers nothing. -/
def rastOrder (cull : Bool) (v : List (Option Int)) : Option ((Int × Int) × (Int × Int) × (Int × Int) × Bool) :=
  match v with
  | [some ax, some ay, some bx, some by', some cx, some cy] =>
    let a := (ax, ay)
    let b := (bx, by')
    let c := (cx, cy)
    let e := edgeFn a b c
    if e = 0 then none
    else if 0 < e then some (a, b, c, false)
    else if cull then none
    else some (a, c, b, true)
  | _ => none
/-- A sample's weights of v1 and v2 as the card gives them, where it is covered. -/
def rastSample (q : (Int × Int) × (Int × Int) × (Int × Int) × Bool) (p : Int × Int) : Option (Nat × Nat) :=
  let (a, b, c, sw) := q
  if edgeIn a b p && edgeIn b c p && edgeIn c a p then
    let area := edgeFn a b c
    let w1 := quotF32 (edgeFn c a p) area
    let w2 := quotF32 (edgeFn a b p) area
    some (if sw then (w2, w1) else (w1, w2))
  else none
/-- RAST (R231): the masks, and the weights of covered pixels. -/
def workRast (c : Card) : Eng (List Landing) := do
  let p := cw c.words 1
  let aux := cw c.words 3
  let x0 := toIntW 16 true (aux % 2 ^ 16)
  let y0 := toIntW 16 true (aux / 2 ^ 16)
  let cull := bitsAt p 16 1 == 1
  let bary := bitsAt p 17 1 == 1
  let r := regionOf c.words 0
  let w := regionOf c.words 2
  let wb := regionOf c.words 3
  let bs ← engRead c r r.base r.len
  let ls ← (List.range (p % 2 ^ 16 + 1)).mapM (fun t => do
    let tri := rastOrder cull ((List.range 6).map (fun k => fix8 (fieldAt bs (24 * t + 4 * k) 4)))
    let px := (List.range 256).map (fun i =>
      tri.bind (fun q => rastSample q (256 * (x0 + (i % 16 : Nat)) + 128, 256 * (y0 + (i / 16 : Nat)) + 128)))
    let mask := ((enum px).map (fun q => if q.2.isSome then 2 ^ q.1 else 0)).sum
    let m ← engWrite c w c.own (w.base + 32 * t) (leBytes 32 mask)
    let b ← if bary then (enum px).mapM (fun q => match q.2 with
        | some (w1, w2) => engWrite c wb c.own (wb.base + 2048 * t + 8 * q.1) (leBytes 4 w1 ++ leBytes 4 w2)
        | none => pure [])
      else pure []
    pure (m ++ b.flatten))
  pure ls.flatten

/-- The work of a card that needs no peers. -/
def engWork (c : Card) : Eng (List Landing) :=
  match kindOf c.words with
  | 1 => workCpy c
  | 2 => workCpyt c
  | 3 => workCpyg c
  | 4 => workCpyr c
  | 5 => workHgf c
  | 6 => workHgb c
  | _ => workRast c

end Sys2Proof.Machine
end

