-- ==== Sys2Proof/Machine/Engine.lean ====
section
/-! DEFINITION. The engine commands and their tickets (R216-R218, R313, R328-R333, R340, R341, R360, R361, R405). -/
namespace Sys2Proof.Machine

/-! ## Issue of a command (R216, R217, R328) -/

/-- Bytes of team shared memory as the issuing group sees them (R172). -/
def State.shmBytes (s : State) (t : Team) (g : Group) (a n : Nat) : List Byte := s.readLoc t g (.shm a) n
/-- The first absent line that holds any of the bytes. -/
def Team.absentLine (t : Team) (a n : Nat) : Option Nat :=
  ((splitAt' 128 a n).find? (fun p => !t.present p.1)).map (fun p => p.1 / 128)
/-- A card and its descriptor as read at issue. -/
inductive CardRead where
  | ok (words : List Word) (desc : List Byte)
  | absent (line : Nat)
  | bad
  deriving DecidableEq, Repr
/-- The absent line that the reading waits for. -/
def CardRead.line : CardRead → Option Nat
  | .absent l => some l
  | .ok _ _ => none
  | .bad => none
/-- Reads the card at an address and its descriptor: the presence of their lines comes before any check (R216). -/
def State.readCard (s : State) (t : Team) (g : Group) (a : Nat) : CardRead :=
  match t.absentLine a 64 with
  | some l => .absent l
  | none =>
    if a % 64 ≠ 0 ∨ t.la.hdr.shared < a + 64 then .bad
    else
      let ws := wordsOf (s.shmBytes t g a 64)
      let n := descLen ws
      if n = 0 then .ok ws []
      else match t.absentLine (cw ws 2) n with
        | some l => .absent l
        | none => if t.la.hdr.shared < cw ws 2 + n then .bad else .ok ws (s.shmBytes t g (cw ws 2) n)
/-- May the die take another command, with its successor (R221). -/
def State.dieRoom (s : State) (t : Team) (succ : Nat) : Bool :=
  decide (s.commandsOf (dieOf t.pcore) t.ctx + (if succ = 0 then 1 else 2) ≤ 4096)

/-- Is a place in team shared memory. -/
def Loc.isShm (l : Loc) : Bool := l.sp == 0
/-- Does what an entry of a store queue does write team shared memory. -/
def Sq.shm (e : Sq) : Bool := match e.act with
  | .store l _ _ => l.isShm
  | .rmw ks => ks.any (fun k => k.loc.isShm)
  | _ => false
/-- Has the group an atomic on team shared memory in its queue: the card's bytes follow it (R172). -/
def Group.owesShm (g : Group) : Bool := g.sq.any (fun e => e.shm && (match e.act with
  | .rmw _ => true
  | _ => false))
/-- What a command meets at issue (R216, R328): the wait for every line of the cards and descriptors and for the group's atomics on team shared memory,
before any check; #CARD; and the wait for a slot. -/
def cmdPre (kind ga succ : Nat) (s : State) (x : Site) : Pre :=
  match s.tg x.tid x.gi with
  | none => .go
  | some (t, g) =>
    let first := s.readCard t g (g.rg ga).toNat
    let next := if succ = 0 then .ok [] [] else s.readCard t g succ
    let bad (want : Option Nat) : CardRead → Bool
      | .ok ws ds => s.cardBad t want ws ds
      | .absent _ => false
      | .bad => true
    match first.line, next.line with
    | some l, _ => .wait (.presence l)
    | none, some l => .wait (.presence l)
    | none, none =>
      if g.owesShm then .wait .queue
      else if bad (some kind) first || (succ != 0 && bad none next) then .trap { code := tCARD }
      else if t.freeSlot.isNone || !s.dieRoom t succ then .wait .slot
      else .go
/-- Has a card a write region of global memory or the pad (R290). -/
def writesOut (ws : List Word) : Bool := [2, 3].any (fun i => (regionOf ws i).space == 0 || (regionOf ws i).space == 2)
/-- The command issues: a ticket, the copies of card, successor and descriptors, the presence counts, and its place in the die's
queue (R134, R217, R221, R328). -/
def cmdRun (d ga succ : Nat) (s : State) (x : Site) : State × Res :=
  match s.tg x.tid x.gi with
  | none => (s, {})
  | some (t, g) =>
    match s.readCard t g (g.rg ga).toNat, t.freeSlot with
    | .ok ws ds, some slot =>
      let next : Option (List Word × List Byte) := if succ = 0 then none else match s.readCard t g succ with
        | .ok ws ds => some (ws, ds)
        | _ => none
      let mc := s.castTeams t ws ds
      let mcn := match next with
        | some (ws, ds) => s.castTeams t ws ds
        | none => []
      let pres := s.presLines t mc ws
      let presn := match next with
        | some (ws, _) => s.presLines t mcn ws
        | none => []
      let seq := t.nextSeq
      let dn := dieOf t.pcore
      let c : Card :=
        { cid := s.nextId, ctx := t.ctx, core := t.pcore, tid := some t.tid, gi := x.gi, sn := g.sn, pc := x.pc
          slot := slot, seq := seq, words := ws, desc := ds, succ := next, mc := mc, mcNext := mcn, pres := pres
          presNext := presn, st := .waiting, land := [], page := none, fail := none
          view := if t.la.bridle then some (t.layer1 ++ t.own, t.merged ++ t.held) else none
          node := none, task := none, since := (s.die dn).time }
      let s := { s with nextId := s.nextId + 1 }
      let s := s.modTeam t.tid (fun t => { t with
        seq := seq
        tickets := updAt t.tickets slot (fun _ => ⟨seq, true, false, .core, []⟩)
        irrev := t.irrev || writesOut ws || (match next with
          | some (ws, _) => writesOut ws
          | none => false) })
      let s := (pres ++ presn).foldl (State.modCnt cntUp) s
      let s := s.modDie dn (fun y => { y with cards := y.cards ++ [c] })
      (s, { gs := [(d, BitVec.ofNat 32 (slot * 2 ^ 26 + seq))] })
    | _, _ => (s, {})
/-- An engine command of a kind: ticket register, card address register, successor address. -/
def cmdBody (kind d ga succ : Nat) : Body := { pre := cmdPre kind ga succ, run := cmdRun d ga succ }

/-! ## Tickets (R218) -/

/-- What a ticket is to its team. -/
inductive Judged where
  | bad
  | old
  | current (k : Ticket)
  deriving DecidableEq, Repr
/-- Judges a ticket (R218). -/
def Team.judge (t : Team) (x : Nat) : Judged :=
  let seq := x % 2 ^ 26
  if seq = 0 then .bad
  else match t.tickets[x / 2 ^ 26]? with
    | none => .bad
    | some k =>
      if k.seq = seq then .current k
      else if t.seq ≠ 0 ∧ (t.seq + (2 ^ 26 - 1) - seq) % (2 ^ 26 - 1) < 2 ^ 25 then .old
      else .bad
/-- Does an L1 line meet any of the ranges. -/
def meetsSpan (sp : List (Nat × Nat)) (line : Nat) : Bool := sp.any (fun p => decide (0 < p.2) && meet p.1 p.2 (line * 128) 128)
/-- A core's L1 drops the lines that overlap the ranges, of any tag (R174). -/
def State.dropSpans (s : State) (core : Nat) (sp : List (Nat × Nat)) : State :=
  let ls := (l1Lines (s.core core).l1).filter (meetsSpan sp)
  if ls = [] then s
  else (s.dropL1 core (fun y => ls.contains (y.sec / 4))).markBram (fun u _ b => u.pcore == core && ls.any (fun l => b.feels l))
/-- The acquire of an EWT by a group (R174, R218): the lines of the core's L1 that overlap the chain's write footprint, and the domain of its
writes; for an older ticket, PKG. -/
def State.ewtAcquire (s : State) (t : Team) (gi x : Nat) : State :=
  let s := match t.judge x with
    | .bad => s
    | .old => s.acquire t.pcore .pkg
    | .current k => (s.dropSpans t.pcore k.spans).acquire t.pcore k.dom
  s.trigger3 t.tid gi
/-- The dirty sector that an EWT's drop of a core's L1 lines must write back and that waits for its memory (R174, R262). -/
def State.spanStuck (s : State) (core : Nat) (sp : List (Nat × Nat)) : Option L1Sec := s.stuckIn core (fun y => meetsSpan sp (y.sec / 4))
/-- EWT (R218, R341): it waits for the ticket and acquires; in bridle mode the round end waits for it. -/
def ewtBody (ga : Nat) : Body :=
  { pre := fun s x => match s.tg x.tid x.gi with
      | none => .go
      | some (t, g) => match t.judge (g.rg ga).toNat with
        | .bad => .trap { code := tCARD }
        | .old => .go
        | .current k =>
          if t.la.bridle then .go
          else if k.busy then .wait (.ticket (g.rg ga).toNat)
          else match s.spanStuck t.pcore k.spans with
            | some y => .wait (.hold (y.sec * 32) y.mir true)
            | none => .go
    run := fun s x => match s.tg x.tid x.gi with
      | none => (s, {})
      | some (t, g) =>
        if t.la.bridle then
          (s.eachGroup x.tid x.mem (fun _ m g' => g'.modLanes m (fun l =>
            if t.ticketDone (g.rg ga).toNat then l else { l with st := .parked (.ticket (g.rg ga).toNat) })), {})
        else (x.mem.foldl (fun s p => s.ewtAcquire t p.1 (g.rg ga).toNat) s, {}) }
/-- Is the chain of a ticket running. DESIGN CHOICE (log 37): a card that waits for whatever holds it, an edge, a permit or a peer (R218), or presence,
admission, a page or its engine, has not started and reads 0 WAITING. -/
def State.running (s : State) (tid slot seq : Nat) : Bool :=
  s.dies.any (fun d => d.cards.any (fun c => c.tid == some tid && c.slot == slot && c.seq == seq && c.st == .running))
/-- EQRY (R218): 0 waiting, 1 running, 2 done, 3 failed; in bridle mode it waits for completion (R200). -/
def eqryBody (d ga : Nat) : Body :=
  { pre := fun s x => match s.tg x.tid x.gi with
      | none => .go
      | some (t, g) => match t.judge (g.rg ga).toNat with
        | .bad => .trap { code := tCARD }
        | .old => .go
        | .current k => if k.busy && t.la.bridle then .wait (.ticket (g.rg ga).toNat) else .go
    run := fun s x => match s.tg x.tid x.gi with
      | none => (s, {})
      | some (t, g) =>
        let v := (g.rg ga).toNat
        let r : Nat := match t.judge v with
          | .current k => if k.busy then (if s.running t.tid (v / 2 ^ 26) (v % 2 ^ 26) then 1 else 0) else if k.failed then 3 else 2
          | _ => 2
        (if t.la.bridle then s.joinCards t.tid x.gi x.pc v else s, { gs := [(d, BitVec.ofNat 32 r)] }) }

/-- CPY (R330, R328, R329). -/
def execCpy (h : Head) (d : BitVec 6) (a : BitVec 6) (i : BitVec 32) (s : State) : Host.Outcome State Fault Refusal :=
  issue (.cpy h d a i) (cmdBody 1 d.toNat a.toNat i.toNat) s

/-- CPYT (R333, R328, R329). -/
def execCpyt (h : Head) (d : BitVec 6) (a : BitVec 6) (i : BitVec 32) (s : State) : Host.Outcome State Fault Refusal :=
  issue (.cpyt h d a i) (cmdBody 2 d.toNat a.toNat i.toNat) s

/-- CPYG (R331, R328, R329). -/
def execCpyg (h : Head) (d : BitVec 6) (a : BitVec 6) (i : BitVec 32) (s : State) : Host.Outcome State Fault Refusal :=
  issue (.cpyg h d a i) (cmdBody 3 d.toNat a.toNat i.toNat) s

/-- CPYR (R332, R328, R329). -/
def execCpyr (h : Head) (d : BitVec 6) (a : BitVec 6) (i : BitVec 32) (s : State) : Host.Outcome State Fault Refusal :=
  issue (.cpyr h d a i) (cmdBody 4 d.toNat a.toNat i.toNat) s

/-- HGF (R360, R328, R329). -/
def execHgf (h : Head) (d : BitVec 6) (a : BitVec 6) (i : BitVec 32) (s : State) : Host.Outcome State Fault Refusal :=
  issue (.hgf h d a i) (cmdBody 5 d.toNat a.toNat i.toNat) s

/-- HGB (R360, R328, R329). -/
def execHgb (h : Head) (d : BitVec 6) (a : BitVec 6) (i : BitVec 32) (s : State) : Host.Outcome State Fault Refusal :=
  issue (.hgb h d a i) (cmdBody 6 d.toNat a.toNat i.toNat) s

/-- ARED (R313, R328, R329). -/
def execAred (h : Head) (d : BitVec 6) (a : BitVec 6) (i : BitVec 32) (s : State) : Host.Outcome State Fault Refusal :=
  issue (.ared h d a i) (cmdBody 7 d.toNat a.toNat i.toNat) s

/-- RAST (R405, R328, R329). -/
def execRast (h : Head) (d : BitVec 6) (a : BitVec 6) (i : BitVec 32) (s : State) : Host.Outcome State Fault Refusal :=
  issue (.rast h d a i) (cmdBody 8 d.toNat a.toNat i.toNat) s

/-- EWT (R218, R340, R341). -/
def execEwt (h : Head) (a : BitVec 6) (s : State) : Host.Outcome State Fault Refusal :=
  issue (.ewt h a) (ewtBody a.toNat) s

/-- EQRY (R218, R340, R341). -/
def execEqry (h : Head) (d : BitVec 6) (a : BitVec 6) (s : State) : Host.Outcome State Fault Refusal :=
  issue (.eqry h d a) (eqryBody d.toNat a.toNat) s

end Sys2Proof.Machine
end

