-- ==== Sys2Proof/Machine/Device.lean ====
section
/-! DEFINITION. The device's own accesses to a context's memory, interrupts, page requests and trap notices (R150, R235, R238, R279). -/
namespace Sys2Proof.Machine

/-! ## The device's accesses -/

/-- A place of a device's access behind its ATS translation, where it lies in the host's memory (R152). -/
def State.devHost (s : State) (ctx va : Nat) (write : Bool) (l : Loc) : Except Stop Loc :=
  if l.at / 2 ^ 50 ≠ 2 then .ok l
  else match s.atsFind ctx (l.at % 2 ^ 50) with
    | none => if (s.ctx ctx).refused.contains (atsMark (l.at % 2 ^ 50)) then .error (.fail 1 va) else .error (.ats (l.at % 2 ^ 50))
    | some a => if (write && a.ro) || (!write && !a.u) then .error (.fail 2 va) else .ok (a.host l)
/-- The place of an address of a context, by a walk of its own, and the address of its entry (R235, R279). DESIGN CHOICE (log 48): a device access
that meets lost data fails. -/
def State.devEntry (s : State) (ctx va : Nat) (write : Bool) : Except Stop (Loc × Nat) :=
  if !canonical va then .error (.fail 2 va)
  else if (s.walkWaits ctx va).isSome then .error (.wait ((s.walkWaits ctx va).map (fun a => (a, false, false))))
  else if s.walkLost ctx va then .error (.fail 5 va)
  else match s.walk ctx va with
    | .absent => .error (.walk va write)
    | .fail => .error (.fail 1 va)
    | .ok e =>
      if (!e.u && !s.ctxPriv ctx) || (write && e.ro) then .error (.fail 2 va)
      else match s.devHost ctx va write (e.loc va) with
        | .error st => .error st
        | .ok l => if s.accHeld l.at e.mir write then .error (.wait (some (l.at, e.mir, write))) else .ok (l, e.pteAt va)
/-- Bytes of a context's memory at their home slices, sector by sector; of a lost sector of a mirrored page, those of its copy (R289). -/
def State.devRead (s : State) (ctx va n : Nat) : Except Stop (List Byte) := do
  let ps ← (splitAt' 32 va n).mapM (fun p => do
    let e ← s.devEntry ctx p.1 false
    if s.lostIn [(e.1, p.2)] then (.error (.fail 5 p.1) : Except Stop (List Byte)) else pure ((s.fromMirror [(e.1, p.2)]).memBytes e.1.at p.2))
  pure ps.flatten
/-- What a device's read of a context's memory does: its walks set A (R149), lost sectors of mirrored pages are rewritten (R289), and it uses its
channels (R262). -/
def State.devTouch (s : State) (ctx va n : Nat) : State :=
  (splitAt' 32 va n).foldl (fun s p => match s.devEntry ctx p.1 false with
    | .ok e => (((s.walkUse ctx p.1).fromMirror [(e.1, p.2)]).useLine e.1.at).setA e.2
    | .error _ => s) s
/-- Bytes written to a context's memory, in ascending address; the walks set A and D (R149). -/
def State.devWrite (s : State) (ctx va : Nat) (bs : List Byte) : Except Stop State :=
  (splitAt' 128 va bs.length).foldlM (fun (s : State) p => do
    let e ← s.devEntry ctx p.1 true
    pure ((((s.walkUse ctx p.1).setA e.2).setD e.2).land e.1 ((bs.drop (p.1 - va)).take p.2))) s

/-- The access of the device's own that waits notes the channels that it waits for (R262). -/
def State.wantAt (s : State) : Option (Nat × Bool × Bool) → State
  | some (pa, mir, write) => s.want pa mir write
  | none => s

/-- A page that a device access waits for the answer of. -/
def State.devAsk (s : State) (x p : Nat) : State := s.modCtx x (fun c => { c with devAsked := p :: c.devAsked.filter (· != p) })
/-- A device's access of a context is over: of what was asked and refused, the pages that are still absent are kept for the accesses that
wait for them. -/
def State.devOver (s : State) (x : Nat) : State :=
  if (s.ctx x).devAsked = [] ∧ (s.ctx x).refused = [] then s
  else
    let keep (l : List Nat) : List Nat := l.filter (fun p =>
      if 2 ^ 52 ≤ p then (s.atsFind x ((p - 2 ^ 52) * 2 ^ 12)).isNone
      else match s.walk x (p * 2 ^ 12) with
        | .absent => true
        | _ => false)
    s.modCtx x (fun c => { c with devAsked := keep c.devAsked, refused := keep c.refused })
/-- The marks under which the refusal of an address may stand: its page, and the page of the host's memory that it leads to. -/
def State.refusals (s : State) (x va : Nat) : List Nat :=
  pageOf va :: (match s.walk x va with
    | .ok e => [atsMark ((e.loc va).at % 2 ^ 50)]
    | _ => [])
/-- A device's access has failed at an address: the refusal of its page is used up (R152, R280). -/
def State.devFail (s : State) (x va : Nat) : State :=
  let ms := s.refusals x va
  (if ms.any (s.ctx x).refused.contains then s.modCtx x (fun c => { c with refused := c.refused.filter (fun p => !ms.contains p) }) else s).devOver x

/-! ## Interrupts and notices (R279) -/

/-- An MSI-X vector is sent. -/
def State.irq (s : State) (v : Nat) : State := { s with irqs := s.irqs ++ [v] }
/-- TQVEC and TQLOG of a context. -/
def State.tqVec (s : State) (x : Nat) : Nat := bitsAt (s.bar (ctxOff x 0x20)) 16 11
def State.tqLog (s : State) (x : Nat) : Nat := bitsAt (s.bar (ctxOff x 0x20)) 0 5
/-- Notices in the ring not yet consumed. -/
def State.tqUsed (s : State) (x : Nat) : Nat := (s.bar (ctxOff x 0x24) + 2 ^ 32 - s.bar (ctxOff x 0x28)) % 2 ^ 32
/-- Has the ring a free place. -/
def State.tqRoom (s : State) (x : Nat) : Bool :=
  decide (4 ≤ s.tqLog x) && decide (s.tqLog x ≤ 16) && decide (s.tqUsed x < 2 ^ s.tqLog x)
/-- The 16 bytes of a notice. -/
def Notice.bytes (n : Notice) : List Byte := leBytes 8 n.wher ++ leBytes 4 (n.nkind * 64 + n.code) ++ leBytes 4 n.info
/-- TQERR is set, and TQVEC sent once. -/
def State.tqErr (s : State) (x : Nat) : State :=
  if s.bar (ctxOff x 0x34) % 2 = 1 then s else (s.setBar (ctxOff x 0x34) 1).irq (s.tqVec x)
/-- Writes one notice, where it can be written: TQWR then advances and TQVEC is sent. It waits for memory that is held, and for the host's translation
(R152); an absent page, a refusal or a failed walk sets TQERR. -/
def State.writeNotice (s : State) (x : Nat) (n : Notice) : State × Bool :=
  if !s.tqRoom x then (s, false)
  else
    let w := s.bar (ctxOff x 0x24)
    match s.devWrite x (s.bar64 (ctxOff x 0x18) + 16 * (w % 2 ^ s.tqLog x)) n.bytes with
    | .ok s' => ((s'.setBar (ctxOff x 0x24) ((w + 1) % 2 ^ 32)).irq (s.tqVec x), true)
    | .error (.wait a) => (s.wantAt a, false)
    | .error (.ats io) => (s.devAsk x (atsMark io), false)
    | .error (.walk _ _) => (s.tqErr x, false)
    | .error (.fail _ va) => ((s.devFail x va).tqErr x, false)
/-- Writes the context's held notices in order, as far as it goes, at most `n` of them. -/
def State.flushNotices (x : Nat) : Nat → State → State
  | 0, s => s
  | n + 1, s =>
    match (s.ctx x).heldNotices with
    | [] => s
    | m :: _ =>
      match s.writeNotice x m with
      | (s', true) => State.flushNotices x n (s'.modCtx x (fun c => { c with heldNotices := c.heldNotices.tail }))
      | (s', false) => s'
/-- Notices held for a full ring, for memory that was held or for the host's translation, are written once they can be; those that TQERR holds wait for software (R279). -/
def State.retryHeld (s : State) : State :=
  (s.ctxs.filter (fun p => p.2.heldNotices != [])).foldl (fun s p =>
    if bitsAt (s.bar (ctxOff p.1 0x34)) 0 1 = 1 then s else State.flushNotices p.1 p.2.heldNotices.length s) s
/-- Posts a notice behind those held (R279): a full ring, or a write that waits or fails, holds it. -/
def State.post (s : State) (x : Nat) (n : Notice) : State :=
  let s := s.modCtx x (fun c => { c with heldNotices := c.heldNotices ++ [n] })
  if bitsAt (s.bar (ctxOff x 0x34)) 0 1 = 1 then s else State.flushNotices x (s.ctx x).heldNotices.length s
/-- Posts a page request, unless one for the page is already unanswered. -/
def State.pageRequest (s : State) (x va : Nat) (write fetch engine : Bool) : State :=
  if (s.ctx x).asked.contains (pageOf va) then s
  else (s.modCtx x (fun c => { c with asked := pageOf va :: c.asked })).post x
    ⟨va, 1, 0, (if write then 1 else 0) + (if fetch then 2 else 0) + (if engine then 4 else 0)⟩
/-- What a device access that stopped does: a page request for an absent page, for whose answer it waits; or the host's translation. -/
def State.devStop (s : State) (x : Nat) : Stop → State
  | .walk va w => (s.devAsk x (pageOf va)).pageRequest x va w false true
  | .ats io => s.devAsk x (atsMark io)
  | .wait a => s.wantAt a
  | .fail _ _ => s

/-- Why a device access stopped, once the page service has answered: a declined page is a failure (R150, R207, R235). -/
def State.answered (s : State) (x : Nat) : Stop → Stop
  | .walk va w => if (s.ctx x).refused.contains (pageOf va) then .fail 1 va else .walk va w
  | .ats io => .ats io
  | .wait a => .wait a
  | .fail c a => .fail c a
/-! ## Completion of packets (R238) -/

/-- The started packets of a queue. -/
def State.startedOf (s : State) (x q : Nat) : List Started := SMap.get [] s.started (128 * x + q)
/-- The state with them changed. -/
def State.setStarted (s : State) (x q : Nat) (l : List Started) : State := { s with started := SMap.set [] s.started (128 * x + q) l }
/-- A queue's vector VEC. -/
def State.queueVec (s : State) (x q : Nat) : Nat := bitsAt (s.bar (queueOff x q 8)) 16 11
/-- DONE passes the packets that are complete, in order; each that asks for it sends VEC after the update. -/
def State.advanceDone (s : State) (x q : Nat) : State :=
  let l := s.startedOf x q
  let c := l.takeWhile (·.complete)
  let s := (s.setBar (queueOff x q 0x14) ((s.bar (queueOff x q 0x14) + c.length) % 2 ^ 32)).setStarted x q (l.drop c.length)
  (c.filter (·.signal)).foldl (fun s _ => s.irq (s.queueVec x q)) s
/-- A packet of a queue completes. -/
def State.completePacket (s : State) (x q idx : Nat) : State :=
  (s.setStarted x q ((s.startedOf x q).map (fun p => if p.idx = idx then { p with complete := true } else p))).advanceDone x q

end Sys2Proof.Machine
end

