-- ==== Sys2Proof/Machine/Launch.lean ====
section
/-! DEFINITION. Kernel headers, launch packets and task types: their fields and checks (R31, R41, R44, R63-R68, R236, R237, R247-R249). -/
namespace Sys2Proof.Machine

/-! ## The kernel header (R66, R67) -/

/-- Is `n` a multiple of 8 from `lo` to `hi`. -/
def mult8 (lo hi n : Nat) : Bool := n % 8 == 0 && decide (lo ≤ n) && decide (n ≤ hi)
/-- The channel entries of a header; none where one is malformed. -/
def parseChans (bs : List Byte) : Option (List ChanDecl) :=
  let es := (List.range 4).map (fun k => fieldAt bs (0x20 + 2 * k) 2)
  let ok (e : Nat) : Bool := bitsAt e 8 4 == 0 && (bitsAt e 7 1 == 0 || bitsAt e 5 2 != 3)
  let cs : List ChanDecl := (es.filter (fun e => bitsAt e 7 1 == 1)).map (fun e => ⟨e % 32, bitsAt e 12 4 + 1, 4 * 2 ^ bitsAt e 5 2⟩)
  if es.all ok && (cs.map (·.id)).eraseDups.length == cs.length then some cs else none
/-- The header in 64 bytes, where it passes every check of R67. -/
def parseHeader (bs : List Byte) : Option Header :=
  let w (k : Nat) : Nat := fieldAt bs (4 * k) 4
  let w1 := w 1
  let w3 := w 3
  match parseChans bs with
  | none => none
  | some cs =>
    let h : Header :=
      { vregs := bitsAt w1 0 8, gregs := bitsAt w1 8 8, spans := bitsAt w1 16 5, depth := bitsAt w1 21 3 + 1, shadow := bitsAt w1 24 8
        shared := w 2, groups := bitsAt w3 0 6, setcode := bitsAt w3 6 2, bridle := bitsAt w3 8 1 == 1, bramble := bitsAt w3 9 1 == 1
        oc := bitsAt w3 10 2, qlog := bitsAt w3 16 16
        roles := (List.range (bitsAt w3 0 6)).map (fun g => bitsAt (fieldAt bs (0x10 + g / 4) 1) (2 * (g % 4)) 2)
        chans := cs, energy := w 10, current := w 11, codesz := w 12, hdroff := w 13 }
    let allRoles := (List.range 64).map (fun g => bitsAt (fieldAt bs (0x10 + g / 4) 1) (2 * (g % 4)) 2)
    let z := setSize h.setcode
    if w 0 = 0x0951A5E1 && mult8 8 128 h.vregs && mult8 8 64 h.gregs && decide (h.spans ≤ 16) && decide (8 ≤ h.free) &&
        h.shared % 128 == 0 && decide (h.shared ≤ 393216) && decide (1 ≤ h.groups) && decide (h.groups ≤ 32) &&
        h.setcode != 3 && (z == 0 || h.groups % z == 0) && (h.spans == 0 || h.setcode != 0) &&
        bitsAt w3 12 4 == 0 && (if h.bramble then mult8 8 128 h.shadow else h.shadow == 0) &&
        (if h.bridle then decide (8 ≤ h.qlog) && decide (h.qlog ≤ 16) else h.qlog == 0) &&
        (allRoles.drop h.groups).all (· == 0) && h.codesz % 64 == 0 && h.hdroff % 64 == 0 && decide (h.hdroff + 68 ≤ h.codesz) &&
        w 14 == 0 && w 15 == 0
    then some h else none
/-- Bytes of team shared memory a team takes, with its channels' storage (R45, R68). -/
def Header.shmNeed (h : Header) : Nat := h.shared + (h.chans.map (fun c => c.slots * 32 * c.bytes)).sum
/-- The class a launch runs in (R1, R68). -/
def State.capOc (s : State) (c : Nat) : Nat := if s.part = 2 then min c 2 else c
/-- The declared energy and current, or the class's defaults (R258). -/
def State.declared (s : State) (d oc e i : Nat) : Nat × Nat :=
  (if e = 0 then s.pow d (0x40 + 8 * oc) else e, if i = 0 then s.pow d (0x44 + 8 * oc) else i)

/-! ## The launch packet (R236, R237) -/

/-- What reading and checking a packet, header or table comes to. -/
inductive Checked (α : Type) where
  | ok (x : α)
  | reject (code : Nat)
  | wait (st : Stop)
/-- A device read for a packet: CODE 6 where it is refused, a wait where the page is absent (R235). -/
def Checked.read {α : Type} (r : Except Stop (List Byte)) (f : List Byte → Checked α) : Checked α :=
  match r with
  | .ok bs => f bs
  | .error (.fail _ _) => .reject 6
  | .error st => .wait st

/-- The fields of a packet. -/
structure Packet where
  typ : Nat
  prio : Nat
  oc : Option Nat
  bridle : Bool
  bramble : Bool
  chk : Bool
  restart : Bool
  early : Bool
  waitq : Option (Nat × Nat)
  signal : Bool
  cw : Nat
  ch : Nat
  nb : Nat
  fpctl : Nat
  bfirst : Nat
  bcount : Nat
  kernel : Nat
  param : Nat
  gx : Nat
  gy : Nat
  gz : Nat
  seed : Nat
  start : Nat
  sb : Nat
  k : Nat
  verBase : Nat
  verSize : Nat
  deriving DecidableEq, Repr
/-- The fields in 64 bytes. -/
def parsePacket (bs : List Byte) : Packet :=
  let w0 := fieldAt bs 0 4
  let w1 := fieldAt bs 4 4
  let sb := fieldAt bs 0x30 8
  let vb := fieldAt bs 0x38 8
  let b (i : Nat) : Bool := w0.testBit i
  { typ := bitsAt w0 0 4, prio := bitsAt w0 4 2, oc := if b 8 then some (bitsAt w0 6 2) else none, bridle := b 9, bramble := b 10
    chk := b 11, restart := b 12, early := b 13, waitq := if b 14 then some (bitsAt w1 5 7, fieldAt bs 0x24 4) else none, signal := b 15
    cw := bitsAt w0 16 4, ch := bitsAt w0 20 4, nb := bitsAt w0 24 6, fpctl := bitsAt w1 0 5, bfirst := bitsAt w1 12 9
    bcount := bitsAt w1 21 9, kernel := fieldAt bs 8 8, param := fieldAt bs 0x10 8, gx := fieldAt bs 0x18 4 + 1
    gy := fieldAt bs 0x1C 2 + 1, gz := fieldAt bs 0x1E 2 + 1, seed := fieldAt bs 0x20 4, start := fieldAt bs 0x28 8
    sb := bitsAt sb 0 36 * 2 ^ 21, k := 16 * (bitsAt sb 36 12 + 1), verBase := bitsAt vb 0 36 * 2 ^ 21
    verSize := bitsAt vb 36 16 * 2 ^ 21 }
/-- Are the reserved bits of a packet 0 (R236). -/
def packetReserved (bs : List Byte) : Bool :=
  bitsAt (fieldAt bs 0 4) 30 2 == 0 && bitsAt (fieldAt bs 4 4) 30 2 == 0 && fieldAt bs 0x30 8 / 2 ^ 48 == 0 && fieldAt bs 0x38 8 / 2 ^ 52 == 0
/-- Are all the fields but those of a graph start 0 (R236). -/
def graphFields (bs : List Byte) : Bool :=
  let w0 := fieldAt bs 0 4
  let w1 := fieldAt bs 4 4
  bitsAt w0 6 8 == 0 && bitsAt w0 16 14 == 0 && bitsAt w1 0 5 == 0 && bitsAt w1 12 18 == 0 && fieldAt bs 0x10 8 == 0 && fieldAt bs 0x18 8 == 0 &&
    fieldAt bs 0x20 4 == 0 && fieldAt bs 0x30 16 == 0
/-- The bridle allotment's cores on a die: %core values in ascending order (R198). -/
def allotted (first count d : Nat) : List Nat := ((List.range count).map (first + ·)).filter (fun c => dieOf c == d)
/-- The virtual rectangles of a shape in an allotment, in order: the %core values of each, row-major (R198). -/
def virtRects (first count w h : Nat) : List (List Nat) :=
  (List.range 4).flatMap (fun d =>
    let cs := allotted first count d
    let n := cs.length
    let rows := (n + 11) / 12
    (List.range (rows / h)).flatMap (fun j => (List.range (12 / w)).filterMap (fun i =>
      let ps := (List.range (w * h)).map (fun k => (j * h + k / w) * 12 + i * w + k % w)
      if ps.all (fun p => decide (p < n)) then some (ps.map (fun p => (cs[p]?).getD 0)) else none)))
/-- The checks of a kernel launch packet that its bytes and header decide (R237), in the order of the codes; `fits` says whether one
cluster can be placed on an idle die. DESIGN CHOICE (log 29): outside bridle mode BCOUNT is not checked; in it, 0 gives CODE 4 as R450's table has it. -/
def checkLaunch (s : State) (x : Nat) (bs : List Byte) (fits : Header → Packet → Bool) : Checked (Packet × Header) :=
  let p := parsePacket bs
  if !packetReserved bs || decide (32 < p.nb) || p.cw == 0 || p.ch == 0 || decide (12 < p.cw * p.ch) then .reject 2
  else if p.kernel % 64 ≠ 0 then .reject 3
  else Checked.read (s.devRead x ((p.kernel + 2 ^ 64 - 64) % 2 ^ 64) 64) (fun hb =>
    match parseHeader hb with
    | none => .reject 3
    | some h =>
      let n := p.gx * p.gy * p.gz
      let br := h.bridle || p.bridle
      if decide (2 ^ 32 < n) || n % (p.cw * p.ch) != 0 then .reject 4
      else if br && (p.bcount == 0 || decide (480 < p.bfirst + p.bcount) || p.verSize == 0 ||
          virtRects p.bfirst p.bcount p.cw p.ch == []) then .reject 4
      else if !fits h p then .reject 5
      else .ok (p, h))
/-- The walks of the read of a kernel header set A (R149). -/
def State.headerTouch (s : State) (x kernel : Nat) : State := s.devTouch x ((kernel + 2 ^ 64 - 64) % 2 ^ 64) 64
/-- What a checked launch gives its teams (R47, R68, R236); the class's defaults of energy and current apply
where the team is placed. -/
def mkLaunch (p : Packet) (h : Header) : Launch :=
  let br := h.bridle || p.bridle
  let oc := p.oc.getD h.oc
  { hdr := h, base := (p.kernel + 2 ^ 65 - 64 - h.hdroff) % 2 ^ 64, bridle := br, bramble := p.bramble && h.bramble && !br
    q := if h.bridle then 2 ^ h.qlog else 4096, oc := oc, nb := p.nb, sb := p.sb, k := p.k, chk := p.chk, param := p.param
    fpctl := p.fpctl, seed := p.seed, startTime := p.start, prio := p.prio, restart := p.restart
    verBase := p.verBase, verSize := if br then p.verSize else 0, frame0 := 0
    energy := h.energy, current := h.current }

/-! ## Task types and records (R247-R249) -/

/-- An entry of the task-type table: entry point, live vector and uniform registers, and its kernel header. -/
structure TaskType where
  entry : Nat
  vlive : Nat
  glive : Nat
  hdr : Header
  deriving DecidableEq, Repr
/-- The task-type table of a context, aligned to 64, and its record pool, aligned to 128 (R247, log 36). -/
def State.typeTable (s : State) (x : Nat) : Nat := s.bar64 (taskOff x 0) / 64 * 64
def State.poolBase (s : State) (x : Nat) : Nat := s.bar64 (taskOff x 8) / 128 * 128
/-- Task type `t` of a context: none where its entry breaks R247. -/
def State.taskType (s : State) (x t : Nat) : Except Stop (Option TaskType) := do
  if bitsAt (s.bar (taskOff x 0x14)) 0 7 ≤ t then pure none
  else do
    let e ← s.devRead x (s.typeTable x + 16 * t) 16
    let entry := fieldAt e 0 8
    let v := fieldAt e 8 8
    if v - bitsAt v 0 5 - bitsAt v 8 4 * 256 ≠ 0 ∨ 16 < bitsAt v 0 5 ∨ 8 < bitsAt v 8 4 ∨ entry % 64 ≠ 0 then pure none
    else do
      let hb ← s.devRead x ((entry + 2 ^ 64 - 64) % 2 ^ 64) 64
      match parseHeader hb with
      | none => pure none
      | some h => if h.groups = 1 && !h.bridle then pure (some { entry := entry, vlive := bitsAt v 0 5, glive := bitsAt v 8 4, hdr := h }) else pure none
/-- The walks of a read of a task type set A (R149). -/
def State.taskTouch (s : State) (x t : Nat) : State :=
  let a := s.typeTable x + 16 * t
  match s.devRead x a 16 with
  | .error _ => s
  | .ok e => (s.devTouch x a 16).devTouch x ((fieldAt e 0 8 + 2 ^ 64 - 64) % 2 ^ 64) 64
/-- The same of the types of records. -/
def State.taskTouches (s : State) (x : Nat) (rs : List (List Byte)) : State := rs.foldl (fun s r => s.taskTouch x (fieldAt r 4 4 % 64)) s
/-- Is a record malformed on its face (R248, R250). -/
def recordBad (bs : List Byte) : Bool :=
  let w := fieldAt bs 4 4
  w - bitsAt w 0 6 - bitsAt w 8 5 * 256 != 0 || fieldAt bs 8 4 == 0 || fieldAt bs 0x20 4 != 0 || fieldAt bs 0x60 32 != 0
/-- Free records of a context's pool. -/
def State.taskFree (s : State) (x : Nat) : Nat := s.bar (taskOff x 0x10) - (s.tasks.filter (fun k => k.ctx == x)).length
/-- TFREE and TLIVE brought up to date. -/
def State.syncTasks (s : State) (x : Nat) : State :=
  (s.setBar (taskOff x 0x18) (s.taskFree x)).setBar (taskOff x 0x1C) (s.tasks.filter (fun k => k.ctx == x)).length
/-- The die and locality bin of a first-operand address (R252); a graph's tasks stay on its die (R253). -/
def State.taskBin (s : State) (x die : Nat) (forced : Bool) (a : Nat) : Nat × Nat :=
  if a = 0 || !canonical a then (die, 0)
  else match s.walk x a with
    | .ok e =>
      let pa := (e.loc a).at
      if pa < 2 ^ 50 then
        let ch := hbmChannel pa
        let d := homeDie pa
        let b := 2 * (32 * (ch.1 - 3 * d) + ch.2) / 3
        if forced && d != die then (die, 0) else (d, b)
      else (die, 0)
    | _ => (die, 0)
/-- The lowest free index of a context's pool. -/
def State.poolIndex (s : State) (x : Nat) : Nat :=
  let used := (s.tasks.filter (fun k => k.ctx == x)).map (·.index)
  ((List.range (used.length + 1)).find? (fun i => !used.contains i)).getD 0
/-- A record's copy written to the pool's memory at the lowest free index: the access may have to wait (R150, R272). DESIGN CHOICE (log 36): where the
pool may not be written, the device's own record stands alone. -/
def State.poolPut (s : State) (x : Nat) (bs : List Byte) : Except Stop State :=
  match s.devWrite x (s.poolBase x + 2176 * s.poolIndex x) bs with
  | .error (.fail _ _) => .ok s
  | r => r
/-- A record enters the pool (R250, R251): queued to its bin, or waiting for a ticket; its bytes stand in the pool's memory. -/
def State.addTask (s : State) (x die prio start : Nat) (graph : Option (Nat × Nat)) (bs : List Byte) (st : TaskSt) : State :=
  let (d, b) := s.taskBin x die graph.isSome (fieldAt bs 0x10 8)
  let i := s.poolIndex x
  let s := match s.poolPut x bs with
    | .ok s' => s'
    | .error _ => s
  let k : Task := ⟨s.nextId, x, i, die, d, b, prio, graph, bs, st, (s.die d).time, start, []⟩
  { s with tasks := s.tasks ++ [k], nextId := s.nextId + 1 }.syncTasks x
/-- Why the copies of records wait for the pool's memory, if they do. -/
def State.poolStop (x : Nat) : List (List Byte) → State → Option Stop
  | [], _ => none
  | r :: rs, s => match s.poolPut x r with
    | .error e => some e
    | .ok _ => State.poolStop x rs (s.addTask x 0 0 0 none r .queued)
/-- The priority and graph of the work that a team belongs to (R248, R255). -/
def State.graphOf (s : State) (t : Team) : Option (Nat × Nat) :=
  match t.task with
  | some k => (s.tasks.find? (fun r => r.id == k)).bind (·.graph)
  | none => (s.grid? t.grid).bind (·.graph)

end Sys2Proof.Machine
end

