-- ==== Sys2Proof/Machine/Pick.lean ====
section
/-! DEFINITION. Which group issues when nothing else moves (R28, R199, R257; log 20). -/
namespace Sys2Proof.Machine

/-- A group that may issue: its team, index and state, and whether its next instruction is for the U-set's pipe. -/
structure Cand where
  t : Team
  gi : Nat
  g : Group
  u : Bool
/-- Does a group come before another of its quarter and pipe: a count of 64 first, then the placement order (R257). -/
def Cand.older (a b : Cand) : Bool :=
  let aged (c : Cand) : Bool := decide (64 ≤ if c.u then c.g.cntU else c.g.cntL)
  if aged a != aged b then aged a else decide (a.g.age < b.g.age)
/-- Does the pipe's selection pass the group over for any other (R446). -/
def Cand.yields (c : Cand) : Bool := c.g.yield && !c.u
/-- Does a group go before another of its quarter and pipe: one that does not yield first (R257, R446). -/
def Cand.first (a b : Cand) : Bool := if a.yields != b.yields then b.yields else a.older b
/-- The groups that may issue. -/
def State.candidates (s : State) : List Cand :=
  s.teams.flatMap (fun t0 =>
    let t := if t0.la.bridle then t0.newTurn else t0
    if (s.die (dieOf t.pcore)).power.halted then [] else
    (enum t.groups).filterMap (fun p => if canIssue t p.1 p.2 then some ⟨t, p.1, p.2, (s.nextPipe t p.2).getD false⟩ else none))
/-- Is a candidate the choice of its quarter's pipe. -/
def chosen (cs : List Cand) (c : Cand) : Bool :=
  cs.all (fun d => !(d.t.pcore == c.t.pcore && d.g.quarter == c.g.quarter && d.u == c.u && d.first c))
/-- Is a group the choice of its pipe (R257). -/
def State.mayIssue (s : State) (tid gi : Nat) : Bool := s.candidates.any (fun c => c.t.tid == tid && c.gi == gi && chosen s.candidates c)
/-- The lane whose bundle the group issues: the lowest ready one on its current path that may (R28). -/
def Group.nextLane (t : Team) (g : Group) : Option Nat :=
  let g := if t.la.bridle then g.form else g
  match g.selectPath with
  | none => none
  | some (pc, new) => (enum g.lanes).findIdx? (fun p => decide (p.2.st = .ready) && p.2.pc == pc && g.mayRun pc new p.1)
/-- The candidate that issues: of the quarters' choices, the one that has issued least. -/
def State.pick (s : State) : Option Move :=
  let cs := s.candidates
  let qs := cs.filter (chosen cs)
  match (qs.map (fun c => c.g.issues)).min? with
  | none => none
  | some n => match qs.find? (fun c => c.g.issues == n) with
    | none => none
    | some c => (c.g.nextLane c.t).map (fun l => .issue c.t.tid c.gi l)

end Sys2Proof.Machine
end

