-- ==== Sys2Proof/Machine/Place.lean ====
section
/-! DEFINITION. Placement on cores: ranges, quarters, stack slots, rectangles, admission, and the state of a new team
(R19, R22, R42-R47, R53, R132, R198, R242, R243, R259, R263, R264, R285, R286). -/
namespace Sys2Proof.Machine

/-! ## Ranges within a core (R19, R46, R53, R243) -/

/-- The lowest start of a free range of `n` below `cap`. -/
def lowFit (used : List (Nat × Nat)) (cap n : Nat) : Option Nat :=
  let ok (a : Nat) : Bool := decide (a + n ≤ cap) && used.all (fun u => decide (a + n ≤ u.1) || decide (u.1 + u.2 ≤ a))
  ((0 :: used.map (fun u => u.1 + u.2)).filter ok).min?
/-- Groups of a placement unit. -/
def Header.unit (h : Header) : Nat := if setSize h.setcode = 0 then 1 else setSize h.setcode
/-- Vector registers a placement unit takes, shadows counted. -/
def Header.unitRegs (h : Header) : Nat := h.unit * (h.vregs + h.shadow)
/-- Quarter, start and length of the register range of each placement unit of a team. -/
def Team.units (t : Team) : List (Nat × Nat × Nat) :=
  ((enum t.groups).filter (fun p => p.1 % t.la.hdr.unit == 0)).map (fun p => (p.2.quarter, p.2.vat, t.la.hdr.unitRegs))
/-- A quarter's resident groups and used register ranges. -/
abbrev Quarter := Nat × List (Nat × Nat)
/-- Quarter `q` under some teams. -/
def quarterOf (ts : List Team) (q : Nat) : Quarter :=
  ((ts.map (fun t => (t.groups.filter (fun g => g.quarter == q)).length)).sum,
    (ts.flatMap Team.units).filterMap (fun u => if u.1 = q then some u.2 else none))
/-- The start at which a quarter can take a unit. -/
def Quarter.take (q : Quarter) (h : Header) : Option Nat := if q.1 + h.unit ≤ 16 then lowFit q.2 1024 h.unitRegs else none
/-- Free vector registers of a quarter. -/
def Quarter.free (q : Quarter) : Nat := 1024 - (q.2.map Prod.snd).sum
/-- The better of two choices of quarter: more free registers, then the lower index (R46). -/
def betterQ (a b : Nat × Nat × Nat) : Nat × Nat × Nat := if a.2.2 < b.2.2 then b else a
/-- The quarter and start for the next unit; `only` fixes the quarter. -/
def chooseQ (qs : List Quarter) (h : Header) (only : Option Nat) : Option (Nat × Nat) :=
  let cs := (enum qs).filterMap (fun p => if only.all (fun k => k == p.1) then (p.2.take h).map (fun a => (p.1, a, p.2.free)) else none)
  match cs with
  | [] => none
  | c :: r => let b := r.foldl betterQ c; some (b.1, b.2.1)
/-- Quarters and starts for `n` units in ascending order. -/
def placeUnits (h : Header) : Nat → List (Option Nat) → List Quarter → Option (List (Nat × Nat))
  | 0, _, _ => some []
  | n + 1, os, qs =>
    match chooseQ qs h (os.head?.join) with
    | none => none
    | some (q, a) => (placeUnits h n os.tail (updAt qs q (fun k => (k.1 + h.unit, (a, h.unitRegs) :: k.2)))).map (fun r => (q, a) :: r)

/-- Where a team stands on a core. -/
structure Spot where
  core : Nat
  shmAt : Nat
  barAt : Nat
  units : List (Nat × Nat)
  deriving DecidableEq, Repr
/-- An idle core's quarters. -/
def idleQuarters : List Quarter := [(0, []), (0, []), (0, []), (0, [])]
/-- The quarters that R46 gives a team on an idle core; a bridle team takes them wherever it stands (R198, log 22). -/
def idleUnits (h : Header) : Option (List (Nat × Nat)) := placeUnits h (h.groups / h.unit) [] idleQuarters
/-- Can core `k` hold a team of the launch (R45), and where. -/
def State.spot (s : State) (k : Nat) (la : Launch) : Option Spot :=
  let ts := s.teams.filter (fun t => t.pcore == k)
  let h := la.hdr
  if 8 ≤ ts.length ∨ 64 < (ts.map (fun t => t.groups.length)).sum + h.groups then none
  else
    let shm := ts.map (fun t => (t.shmAt, t.la.hdr.shmNeed)) ++ (s.core k).kept.map (fun r => (r.1, r.2.1))
    let only : List (Option Nat) := if la.bridle then ((idleUnits h).getD []).map (fun u => some u.1) else []
    match lowFit shm 393216 h.shmNeed, lowFit (ts.map (fun t => (t.barAt, t.la.nb))) 32 la.nb,
        placeUnits h (h.groups / h.unit) only ((List.range 4).map (quarterOf ts)) with
    | some a, some b, some us => some ⟨k, a, b, us⟩
    | _, _, _ => none

/-! ## Stack slots (R132, R198) -/

/-- Slots held by the context's groups. -/
def State.slotsHeld (s : State) (x : Nat) : List Nat :=
  (s.allTeams.filter (fun t => t.ctx == x)).flatMap (fun t => (t.groups.filter (fun g => !g.retired)).map (·.slot))
/-- Is a slot reserved for a bridle grid that started before `gid`, or for any where `gid` is no bridle grid of the context: of two bridle
grids whose ranges overlap, the earlier holds the overlap until it completes. -/
def State.slotReserved (s : State) (x gid q : Nat) : Bool :=
  ((s.ctx x).reserved.takeWhile (fun r => r.1 != gid)).any (fun r => decide (r.2.1 ≤ q) && decide (q < r.2.1 + r.2.2))
/-- The lowest `n` free slots of a context outside the reserved ranges, after `used`. -/
def State.freeSlots (s : State) (x n : Nat) (used : List Nat) : Option (List Nat) :=
  let held := used ++ s.slotsHeld x
  let bound := held.length + ((s.ctx x).reserved.map (fun r => r.2.2)).sum + n
  let l := ((List.range (min bound Config.stackSlots)).filter (fun q => !held.contains q && !s.slotReserved x (2 ^ 64) q)).take n
  if l.length = n then some l else none
/-- The slots of `n` teams of a cluster: of a bridle team by its placement value. -/
def State.clusterSlots (s : State) (x gid : Nat) (la : Launch) : List Nat → Option (List (List Nat))
  | cores =>
    if la.bridle then
      let ls := cores.map (fun c => (List.range la.hdr.groups).map (fun i => 64 * c + i))
      if ls.flatten.any (fun q => (s.slotsHeld x).contains q || s.slotReserved x gid q) then none else some ls
    else (s.freeSlots x (cores.length * la.hdr.groups) []).map (fun l =>
      (List.range cores.length).map (fun i => (l.drop (i * la.hdr.groups)).take la.hdr.groups))

/-! ## What waits for placement -/

/-- A cluster that waits: its context, priority, waiting time, grid and first linear index, shape, launch, the graph it is of, its start
time, the cores it may stand on, its teams' placement values in bridle mode, the ranks of its teams, and whether it is to be restored. -/
structure Want where
  ctx : Nat
  since : Nat
  gid : Nat
  lin : Nat
  cw : Nat
  ch : Nat
  la : Launch
  graph : Option (Nat × Nat)
  start : Nat
  pin : List Nat
  virt : List Nat
  ranks : List Nat
  back : Bool
  deriving DecidableEq, Repr
/-- The die of a graph. -/
def State.graphDie (s : State) (id : Nat) : Option Nat := (enum s.dies).findSome? (fun p => if p.2.graphs.any (fun g => g.id == id) then some p.1 else none)
/-- A grid's count of teams. -/
def Grid.total (g : Grid) : Nat := g.gx * g.gy * g.gz
/-- The virtual rectangle of a bridle grid's cluster (R198). -/
def Grid.virtual (g : Grid) (c : Nat) : List Nat :=
  let rs := virtRects g.bfirst g.bcount g.cw g.ch
  (rs[c % rs.length]?).getD []
/-- The next new cluster of a grid. -/
def Grid.want (g : Grid) : Option Want :=
  if g.killed || decide (g.total ≤ g.placed) then none
  else some { ctx := g.ctx, since := g.since, gid := g.gid, lin := g.placed, cw := g.cw, ch := g.ch, la := g.la, graph := g.graph
              start := g.start, pin := [], virt := if g.la.bridle then g.virtual (g.placed / (g.cw * g.ch)) else [], ranks := List.range (g.cw * g.ch), back := false }
/-- The saved teams of the cluster of a saved team. -/
def State.savedMates (s : State) (t : Team) : List Saved :=
  s.saved.filter (fun k => k.team.grid == t.grid && k.team.lin / (t.cw * t.ch) == t.lin / (t.cw * t.ch))
/-- Inserts a saved team in ascending linear index. -/
def insertSaved (k : Saved) : List Saved → List Saved
  | [] => [k]
  | j :: r => if k.team.lin ≤ j.team.lin then k :: j :: r else j :: insertSaved k r
/-- The saved clusters of a grid, or saved task, that wait, in ascending linear index: each by its first waiting team. -/
def State.savedWants (s : State) (gid : Nat) : List Want :=
  ((s.saved.filter (fun k => k.team.grid == gid && k.waiting && (s.savedMates k.team).all (fun j => j.waiting && decide (k.team.lin ≤ j.team.lin)))).foldr
    insertSaved []).map (fun k => {
      ctx := k.team.ctx, since := k.team.since, gid := gid, lin := k.team.lin, cw := k.team.cw, ch := k.team.ch, la := k.team.la
      graph := s.graphOf k.team, start := 0, pin := (s.savedMates k.team).flatMap (·.team.pin), virt := if k.team.la.bridle then (s.savedMates k.team).map (·.team.core) else []
      ranks := (s.savedMates k.team).map (fun j => j.team.lin % (k.team.cw * k.team.ch)), back := true })
/-- The grids and saved tasks that something may wait of. -/
def State.wantGids (s : State) : List Nat := (s.grids.map (·.gid) ++ s.saved.map (·.team.grid)).eraseDups
/-- What waits for placement of one grid, its saved clusters before its new one. -/
def State.wantsOf (s : State) (g : Nat) : List Want := s.savedWants g ++ ((s.grid? g).bind Grid.want).toList
/-- All that waits for placement. -/
def State.wants (s : State) : List Want := s.wantGids.flatMap s.wantsOf
/-- The next cluster of each grid: one that cannot be placed yet holds its grid's later ones, and none of another grid's (R241). -/
def State.nextWants (s : State) : List Want := s.wantGids.filterMap (fun g => (s.wantsOf g).head?)

/-! ## Rectangles (R242) -/

/-- The logical core at a node of a die, where one is enabled. -/
def State.coreAt (s : State) (d node : Nat) : Option Nat :=
  match s.sites.findIdx? (fun x => x == 128 * d + node) with
  | some k => if s.unavail.contains k then none else some k
  | none => none
/-- The candidate rectangles of a die, in order of origin, each with its cores row by row. -/
def State.rects (s : State) (d w h : Nat) : List (List Nat) :=
  if w = 0 ∨ h = 0 ∨ 16 < w ∨ 8 < h then []
  else (List.range (9 - h)).flatMap (fun y => (List.range (17 - w)).filterMap (fun x =>
    let cs := (List.range (w * h)).map (fun i => s.coreAt d (16 * (y + i / w) + x + i % w))
    if cs.all (·.isSome) then some (cs.filterMap id) else none))
/-- Is the block of a core in the pool of a class and not moving (R45, R259, R260). -/
def State.poolFits (s : State) (k oc : Nat) : Bool :=
  let d := dieOf k
  let b := s.coreBlock k
  s.pool d b == oc && !(s.die d).power.moves.any (fun m => m.block == b)
/-- The class a launch is placed in. -/
def State.classOf (s : State) (la : Launch) : Nat := s.capOc la.oc
/-- The energy and current that a team of the launch is charged on a die. -/
def State.chargeOf (s : State) (d : Nat) (la : Launch) : Nat × Nat := s.declared d (s.classOf la) la.energy la.current
/-- Is a die taking placements (R266, R293). -/
def State.dieOpen (s : State) (d : Nat) : Bool := !(s.die d).power.halted && !(s.die d).reinit && !(s.die d).emptying
/-- The cores that hold teams that satisfy `p`. -/
def State.coresOf (s : State) (p : Team → Bool) : List Nat := ((s.teams.filter p).map (·.pcore)).eraseDups
/-- Does a quota of cores hold after new ones are taken; 0 is no limit. -/
def quotaOk (limit : Nat) (old new : List Nat) : Bool := limit == 0 || decide ((old ++ new).eraseDups.length ≤ limit)
/-- May the context and the graph take the cores (R256, R286). -/
def State.quotas (s : State) (x : Nat) (gr : Option (Nat × Nat)) (cs : List Nat) : Bool :=
  quotaOk (bitsAt (s.bar (ctxOff x 0x30 )) 8 9) (s.coresOf (fun t => t.ctx == x)) cs &&
  (match gr with
   | none => true
   | some (gid, _) => s.dies.any (fun d => d.graphs.any (fun g => g.id == gid && (g.budget == 0 || decide (0 < g.rem)) &&
       quotaOk g.corecap (s.coresOf (fun t => (s.graphOf t).any (fun q => q.1 == gid))) cs)))

/-- The blocks on which an aged item could stand: a cluster (kind 0) or task (2) on those of its pool, a card (1) on its own;
none for an item of the die alone (R264). -/
def State.agedBlocks (s : State) (d : Nat) (x : Nat × Nat) : Option (List Nat) :=
  let inPool (c : Nat) : List Nat := (List.range 32).filter (fun b => s.pool d b == c)
  if x.1 = 1 then
    match (s.die d).cards.find? (fun c => c.cid == x.2) with
    | some c => (s.cardBlock c).map (fun b => [b])
    | none => some []
  else if x.1 = 0 then
    match s.wants.find? (fun w => w.gid == x.2) with
    | some w => some (inPool (s.classOf w.la))
    | none => some []
  else
    match s.tasks.find? (fun k => k.id == x.2) with
    | some k => match s.taskType k.ctx (fieldAt k.bytes 4 4 % 64) with
      | .ok (some ty) => some (inPool (s.capOc ty.hdr.oc))
      | _ => some []
    | none => some []
/-- Since when an item waits for admission. DESIGN CHOICE (log 34): a cluster from its grid's start or last placement, or its save; a card or a record from
its arrival. -/
def State.sinceOf (s : State) (d : Nat) (x : Nat × Nat) : Option Nat :=
  if x.1 = 1 then ((s.die d).cards.find? (fun c => c.cid == x.2)).map (·.since)
  else if x.1 = 0 then (s.wants.find? (fun w => w.gid == x.2)).map (·.since)
  else (s.tasks.find? (fun k => k.id == x.2)).map (·.since)
/-- Does an aged item hold this one back (R264): one that is younger, and could stand on a block where the aged one could. DESIGN CHOICE (log 34): an aged
item of the die alone, which stands on no block, holds back the younger items of the die alone. -/
def State.heldBack (s : State) (d : Nat) (b : Option Nat) (item : Nat × Nat) : Bool :=
  match (s.die d).power.aged with
  | none => false
  | some x => x != item &&
    (match s.sinceOf d x, s.sinceOf d item with
     | some a, some i => decide (a < i)
     | _, _ => true) &&
    (match s.agedBlocks d x, b with
     | none, none => true
     | some bs, some k => bs.contains k
     | _, _ => false)
/-- Is the team of the cluster that waits. -/
def Want.owns (w : Want) (t : Team) : Bool := w.back && t.grid == w.gid && t.lin / (w.cw * w.ch) == w.lin / (w.cw * w.ch)
/-- Is a core one that a team which is being moved is to go to, other than those of `own` (R267, R292). -/
def State.pinned (s : State) (own : Team → Bool) (k : Nat) : Bool :=
  s.teams.any (fun t => t.pin.contains k && t.halt.any (fun h => h.kind != 0) && !own t) ||
  s.saved.any (fun j => j.waiting && j.team.pin.contains k && !own j.team)
/-- Is a core kept for others: being cleared for the cluster of another grid (R244), or for a team that is being moved there (R267). -/
def State.claimed (s : State) (gid : Nat) (own : Team → Bool) (k : Nat) : Bool := s.claims.any (fun p => p.1 != gid && p.2.contains k) || s.pinned own k
/-- May a grid's cluster stand on the cores: those being cleared for it, if any are, and none that are kept for others (R244, R267). -/
def State.claimFits (s : State) (w : Want) (cs : List Nat) : Bool :=
  cs.all (fun k => !s.claimed w.gid w.owns k) && (SMap.get [] s.claims w.gid == [] || cs.all (SMap.get [] s.claims w.gid).contains)
/-- Is work on the blocks admitted as a whole (R264). -/
def State.admitsAll (s : State) (d : Nat) (bs : List Nat) (e i : Nat) (item : Nat × Nat) : Bool :=
  bs.all (fun b => !s.heldBack d (some b) item) && s.admits d bs e i
/-- Is a rectangle one that a saved cluster is to go to: of the cores it is to stand on, or with a core that has been repaired for it (R267, R292). -/
def Want.pinFits (w : Want) (cs : List Nat) : Bool :=
  w.pin == [] || (if w.pin.length < cs.length then w.pin.all cs.contains else cs.all w.pin.contains)
/-- Is there such a rectangle, on a die that has not halted, or will there be once a core of it is repaired: else the cluster goes where R242 gives
(R265). -/
def State.pinOpen (s : State) (w : Want) : Bool :=
  w.pin.any (fun k => s.unavail.contains k && !s.badSites.contains (s.site k) && !(s.die (dieOf k)).power.halted) ||
  (List.range 4).any (fun d => !(s.die d).power.halted && (s.rects d w.cw w.ch).any w.pinFits)
/-- Can a rectangle's cores take the cluster: the spots, in the order of its ranks. -/
def State.spots (s : State) (w : Want) (d : Nat) (all : List Nat) : Option (List Spot) :=
  let cs := w.ranks.map (fun r => (all[r]?).getD 0)
  let (e, i) := s.chargeOf d w.la
  if cs.all (fun k => s.poolFits k (s.classOf w.la)) && s.quotas w.ctx w.graph cs && (w.pinFits cs || !s.pinOpen w) && s.claimFits w cs &&
      s.admitsAll d (cs.map s.coreBlock) e i (0, w.gid) then
    let l := cs.filterMap (fun k => s.spot k w.la)
    if l.length = cs.length then some l else none
  else none
/-- The virtual rectangle's previous cluster has retired, and no core of the allotment is unavailable (R198, R292). -/
def State.virtFree (s : State) (w : Want) : Bool :=
  (w.back || !s.allTeams.any (fun t => t.grid == w.gid && w.virt.contains t.core)) &&
  (match s.grid? w.gid with
   | some g => !(List.range g.bcount).any (fun i => s.unavail.contains (g.bfirst + i))
   | none => true)
/-- The spots a die gives a cluster: those of its lowest candidate. -/
def State.dieTakes (s : State) (w : Want) (d : Nat) : Option (List Spot) :=
  if !s.dieOpen d || decide ((s.die d).time < w.start) || (w.graph.any (fun g => s.graphDie g.1 != some d)) then none
  else if w.la.bridle && (!s.virtFree w || (w.virt.head?.map dieOf) != some d) then none
  else if !w.back && (s.clusterSlots w.ctx w.gid w.la (if w.la.bridle then w.virt else w.ranks)).isNone then none
  else (s.rects d w.cw w.ch).findSome? (fun cs => s.spots w d cs)
/-- The die that takes a cluster, offered from the one after the last (R242), and its spots. -/
def State.takes (s : State) (w : Want) : Option (Nat × List Spot) :=
  ((List.range 4).map (fun i => (s.lastDie + 1 + i) % 4)).findSome? (fun d => (s.dieTakes w d).map (fun l => (d, l)))
/-- Does a waiting cluster go before another: priority, then the order of the grids' starts (R241, R242). -/
def Want.before (a b : Want) : Bool :=
  decide (b.la.prio < a.la.prio) || (a.la.prio == b.la.prio && (decide (a.gid < b.gid) || (a.gid == b.gid && a.back && !b.back)))
/-- The cluster of a grid that is placed next: none while another grid's next one, which goes before it, can be placed. -/
def State.nextWant (s : State) (gid : Nat) (bridle : Bool) : Option (Want × Nat × List Spot) :=
  let ws := s.wants
  match ws.find? (fun w => w.gid == gid && w.la.bridle == bridle) with
  | none => none
  | some w =>
    match s.takes w with
    | none => none
    | some (d, l) => if s.nextWants.any (fun v => v.before w && (s.takes v).isSome) then none else some (w, d, l)

/-! ## A new team (R45, R47) -/

/-- A lane at the start of a group. -/
def Lane.start (pc : Nat) (live : Bool) : Lane :=
  { pc := pc, depth := 0, st := if live then .ready else .exited, bundle := 0, resv := none, seq := 0, fl := 0, declined := none, met := false, judged := none }
/-- A group at its start. -/
def Group.start (la : Launch) (role quarter vat slot age pc : Nat) (live : Mask) : Group :=
  { role := role, quarter := quarter, vat := vat, slot := slot, v := []
    g := [(1, BitVec.ofNat 32 la.param), (2, BitVec.ofNat 32 (la.param / 2 ^ 32))].filter (fun p => p.2 != 0), p := []
    fpctl := BitVec.ofNat 5 la.fpctl, seed := BitVec.ofNat 32 la.seed, permBase := 0
    lanes := (List.range 32).map (fun l => Lane.start pc (live.has l)), nextBundle := 1, wm := .core, fence := none, sn := 0, sq := []
    pend := [], pendV := [], pendP := [], pendG := [], drain := false, loopbuf := [], path := none, run := none, issued := 0, cinch := none, cinchPc := 0
    age := age, cntL := 0, cntU := 0, bram := none, noSpec := none, specRoll := 0, specCommit := 0, specStall := 0, specRem := 0, issues := 0
    quantum := 0, turn := false, ended := none, sad := [], unc := [], lnxt := false, skid := 0, slots := 0, scode := 0, stopped := false, fpx := 0, fpxPc := 0
    retired := false, yield := false }
/-- The 64 ticket slots of a new team. -/
def noTickets : List Ticket := List.replicate 64 ⟨0, false, false, .core, []⟩
/-- A team at its start: its identity, the linear index and coordinates, its spot, its placement core, and its groups' slots. -/
def Team.start (tid x gid lin gx gy gz cwid chei : Nat) (la : Launch) (sp : Spot) (core : Nat) (slots : List Nat) (now pc : Nat) (live : Mask) : Team :=
  let h := la.hdr
  { tid := tid, ctx := x, grid := gid, lin := lin, x := lin % gx, y := lin / gx % gy, z := lin / (gx * gy), gx := gx, gy := gy, gz := gz
    cw := cwid, ch := chei, core := core, pcore := sp.core, task := none, la := la
    groups := (List.range h.groups).map (fun g =>
      let u := (sp.units[g / h.unit]?).getD (0, 0)
      Group.start la ((h.roles[g]?).getD 0) u.1 u.2 ((slots[g]?).getD 0) (tid * 64 + g) pc live)
    bars := List.replicate la.nb ⟨false, false, 0, 0, 0⟩, shm := [], shmCnt := [], shmAt := sp.shmAt, barAt := sp.barAt, tickets := noTickets
    seq := 0, first := 0, msgs := [], chanq := [], halt := none, round := 1, roundStep := 0, held := [], merged := [], layer1 := [], own := [], irrev := false, reruns := 0
    since := now, back := none, pin := [], slices := 0, moved := 0, joins := [], skips := [] }
/-- The launch with the energy and current its teams are charged on a die. DESIGN CHOICE (log 34): a team that is restored, on whatever die, keeps those
of its first placement, though a default (R258) may have changed. -/
def State.charged (s : State) (d : Nat) (la : Launch) : Launch :=
  { la with energy := (s.chargeOf d la).1, current := (s.chargeOf d la).2 }
/-- The entry point's offset in the code segment. -/
def Launch.entry (la : Launch) : Nat := la.hdr.hdroff + 64

/-! ## One team for one instruction (log 3) -/

/-- The launch that `launchOne` gives. -/
def oneLaunch : Launch :=
  { hdr := { vregs := 128, gregs := 64, spans := 0, depth := 8, shadow := 0, shared := 4096, groups := 1, setcode := 0, bridle := false
             bramble := false, oc := 1, qlog := 0, roles := [0], chans := [], energy := 0, current := 0, codesz := 128, hdroff := 0 }
    base := 0x10000, bridle := false, bramble := false, q := 4096, oc := 1, nb := 32, sb := 0, k := 1024, chk := false, param := 0, fpctl := 0
    seed := 0, startTime := 0, prio := 1, restart := false, verBase := 0, verSize := 0, frame0 := 0, energy := 9000, current := 5600 }
/-- The translation of the code page. -/
def onePage : TlbEnt :=
  { ctx := 0, vbase := 0x10000, size := 4096, pbase := 0x10000, shr := .die, mig := false, mir := false, ro := true, u := true, nx := false
    cp := 0, pte := 0 }
/-- A team of one group on core 0 stands at its entry point, where the bytes lie. -/
def State.launchOne (s : State) (bs : List Byte) : State :=
  { s with
    mem := setBytes s.mem 0x10040 bs
    cores := SMap.set Core.empty s.cores 0 { (s.core 0) with tlb := [onePage] }
    teams := [Team.start s.nextId 0 s.nextId 0 1 1 1 1 1 oneLaunch ⟨0, 0, 0, [(0, 0)]⟩ 0 [0] 0 64 0xFFFFFFFF]
    nextId := s.nextId + 1
    agenda := [] }

end Sys2Proof.Machine
end

