-- ==== Sys2Proof/Machine/Record.lean ====
section
/-! DEFINITION. The lifetime record: its counts, its writing, and its bytes (R294, R295). -/
namespace Sys2Proof.Machine

/-- Kinds of event in the lifetime record, in the order R294 names them: trips T1 to T4, migrations, core retirements, sub-bank and row
repairs, lane spares, re-runs, #MCHK, lost sectors. -/
def evT1 : Nat := 0
def evMigration : Nat := 4
def evRetire : Nat := 5
def evSubbank : Nat := 6
def evRow : Nat := 7
def evLane : Nat := 8
def evRerun : Nat := 9
def evMchk : Nat := 10
def evLost : Nat := 11
/-- Is a kind a repair or a trip, which the log holds. -/
def logged (k : Nat) : Bool := decide (k < 4) || (decide (5 ≤ k) && decide (k < 9))
/-- Entries the log has room for. -/
def logRoom : Nat := 260660
/-- A count that never wraps. -/
def upTo (bits v : Nat) : Nat := min v (2 ^ bits - 1)
/-- An event is counted, and a repair or trip is logged with its time. -/
def State.countEvent (s : State) (k : Nat) : State :=
  { s with live := { s.live with
      events := SMap.set 0 s.live.events k (upTo 64 (SMap.get 0 s.live.events k + 1))
      log := if logged k then ((k, (s.die 0).time) :: s.live.log).take logRoom else s.live.log } }
/-- The number of a copy in sequence; one whose signature fails is ignored (R294). -/
def Lifetime.number (r : Lifetime) : Nat := if r.good then r.seqn else 0
/-- The record as it stands now, to be written as the next in sequence. -/
def State.lifeNow (s : State) : Lifetime :=
  { s.live with
    seqn := upTo 32 (max s.lifeA.number s.lifeB.number + 1)
    good := true
    powerNs := upTo 64 (s.live.powerNs + (s.die 0).time) }
/-- The management controller writes the record: to the copy with the older SEQN, or one that is ignored (R294, R295). -/
def State.writeLife (s : State) : State :=
  if s.lifeA.number ≤ s.lifeB.number then { s with lifeA := s.lifeNow } else { s with lifeB := s.lifeNow }
/-- A retry on a link is counted (R294). DESIGN CHOICE (log 11): entries 0 to 23 are the Enmer ports, and the die-to-die links follow. -/
def State.countRetry (s : State) (k : Nat) : State :=
  { s with live := { s.live with linkrt := SMap.set 0 s.live.linkrt k (upTo 64 (SMap.get 0 s.live.linkrt k + 1)) } }
/-- An event that a write of the record follows: a repair, or T3 (R295). -/
def State.recordEvent (s : State) (k : Nat) : State := (s.countEvent k).writeLife

/-! ## The bytes of a copy (R294) -/

/-- Word `h` of a 64-bit count. -/
def half (v h : Nat) : Word := BitVec.ofNat 32 (upTo 64 v / 2 ^ (32 * h))
/-- Repairs and trips counted: the number of the next log entry. -/
def Lifetime.logged (r : Lifetime) : Nat := (((List.range 12).filter Machine.logged).map (SMap.get 0 r.events)).sum
/-- The log entry at a place of the log, whose oldest entry is overwritten by the newest. -/
def Lifetime.logAt (r : Lifetime) (p : Nat) : Option (Nat × Nat) := if r.logged ≤ p then none else r.log[(r.logged - 1 - p) % logRoom]?
/-- Word `j` of a log entry: its form is not given (log 11). -/
def logWord (e : Nat × Nat) (j : Nat) : Word := Config.freeOf (2 ^ 72 + 16 * e.2 + e.1) j
/-- Seconds at a bin of a die's histogram, counted in samples of 10 µs. -/
def Lifetime.tempSeconds (r : Lifetime) (d b : Nat) : Nat := if b < 191 then SMap.get 0 r.temph (191 * d + b) / 100000 else 0
/-- Word `k` of a copy. -/
def Lifetime.word (r : Lifetime) (k : Nat) : Word :=
  if k = 0 then 0x095111FE
  else if k = 1 then BitVec.ofNat 32 r.seqn
  else if k < 4 then half r.powerNs (k - 2)
  else if k < 32 then Config.freeOf (2 ^ 70 + r.seqn) k
  else if k < 8224 then half (SMap.get 0 r.corr ((k - 32) / 2)) (k % 2)
  else if k < 9760 then half (r.tempSeconds ((k - 8224) / 384) ((k - 8224) % 384 / 2)) (k % 2)
  else if k < 10784 then
    BitVec.ofNat 32 (upTo 16 (SMap.get 0 r.droop (2 * (k - 9760))) + 2 ^ 16 * upTo 16 (SMap.get 0 r.droop (2 * (k - 9760) + 1)))
  else if k < 10848 then half (SMap.get 0 r.events ((k - 10784) / 2)) (k % 2)
  else if k < 11872 then half (SMap.get 0 r.linkrt ((k - 10848) / 2)) (k % 2)
  else match r.logAt ((k - 11872) / 8) with
    | some e => logWord e ((k - 11872) % 8)
    | none => 0
/-- A 4 KiB piece of a copy. -/
def Lifetime.piece (r : Lifetime) (p : Nat) : List Byte := (List.range 1024).flatMap (fun i => leBytes 4 (r.word (1024 * p + i)).toNat)

end Sys2Proof.Machine
end

