-- ==== Sys2Proof/Machine/System.lean ====
section
/-! DEFINITION. Tasks, weight generations and TLBI (R232, R233, R250, R251, R427, R429, R430, R443, R444). -/
namespace Sys2Proof.Machine

/-! ## Tasks (R250, R251) -/

/-- What a stop of the device's access is to the instruction: a wait for the page, the host or memory, #XLAT for the page `dec` that the service or the
host has declined (R150, R152), or a failure. -/
def stopPre (dec : Option Nat) : Stop → Pre
  | .walk va w => if dec = some (pageOf va) then .trap { code := tXLAT, addr := va } else .wait (.walk va w false)
  | .ats io => if dec = some (atsMark io) then .trap { code := tXLAT, addr := 2 ^ 51 + io } else .wait (.ats (io / 2 ^ 12))
  | .wait (some (pa, mir, write)) => .wait (.hold pa mir write)
  | .wait none => .wait (.hold 0 false false)
  | .fail c va => .trap (if c = 5 then { code := tMCHK, addr := va } else { code := tCARD })
/-- What a table read is to the instruction: the malformed type of R247, or what its stop is. -/
def typePre (dec : Option Nat) (r : Except Stop (Option TaskType)) : Pre :=
  match r with
  | .ok (some _) => .go
  | .ok none => .trap { code := tCARD }
  | .error e => stopPre dec e
/-- The wait for the pool's memory. -/
def poolPre (dec : Option Nat) (x : Nat) (rs : List (List Byte)) (s : State) : Pre :=
  match State.poolStop x rs s with
  | none => .go
  | some e => stopPre dec e
/-- The first check of a list that does not pass. -/
def firstPre : List Pre → Pre
  | [] => .go
  | .go :: r => firstPre r
  | p :: _ => p
/-- TSPN (R250): up to 16 records of team shared memory enter the pool. -/
def tspnBody (d ga gb : Nat) : Body :=
  { prep := drainPrep
    pre := fun s x => match s.tg x.tid x.gi with
      | none => .go
      | some (t, g) =>
        let a := (g.rg ga).toNat
        let n := (g.rg gb).toNat
        if t.la.bridle then .trap { code := tBRIDLE, cause := 4 }
        else if n = 0 then .go
        else if 16 < n ∨ t.la.hdr.shared < a + 2176 * n then .trap { code := tBOUNDS, addr := a }
        else if a % 128 ≠ 0 then .trap { code := tALIGN, addr := a }
        else match t.absentLine a (2176 * n) with
          | some l => .wait (.presence l)
          | none =>
            let rec1 (i : Nat) : List Byte := s.shmBytes t g (a + 2176 * i) 2176
            if g.owesShm then .wait .queue
            else if (List.range n).any (fun i => recordBad (rec1 i)) then .trap { code := tCARD }
            else match firstPre ((List.range n).map (fun i => typePre (g.lane x.uniLane).declined (s.taskType t.ctx (fieldAt (rec1 i) 4 4 % 64)))) with
              | .go => if pointWait true s x then .wait .queue
                else poolPre (g.lane x.uniLane).declined t.ctx (((List.range n).map rec1).take (s.taskFree t.ctx)) s
              | p => p
    run := fun s x => match s.tg x.tid x.gi with
      | none => (s, {})
      | some (t, g) =>
        let n := (g.rg gb).toNat
        let k := min n (s.taskFree t.ctx)
        let rs := (List.range n).map (fun i => s.shmBytes t g ((g.rg ga).toNat + 2176 * i) 2176)
        let s' := (rs.take k).foldl (fun s' r => s'.addTask t.ctx (dieOf t.pcore) t.la.prio t.la.startTime (s.graphOf t) r .queued)
          ((if n = 0 then s else s.taskTouches t.ctx rs).irrevocable x.tid)
        (s', { gs := [(d, BitVec.ofNat 32 k)] }) }

/-- The record that TSUS writes (R251). -/
def suspendRecord (g : Group) (pc ty ticket first : Nat) (vlive glive : Nat) : List Byte :=
  leBytes 4 pc ++ leBytes 4 (g.fpctl.toNat * 256 + ty) ++ leBytes 4 g.live.toNat ++ leBytes 4 g.seed.toNat ++ leBytes 8 first ++
  leBytes 8 0 ++ leBytes 4 ticket ++ (List.range 7).flatMap (fun k => leBytes 4 (SMap.get 0 g.p k).toNat) ++
  (List.range 8).flatMap (fun j => leBytes 4 (if j < glive then (g.rg (j + 1)).toNat else 0)) ++ List.replicate 32 0 ++
  (List.range 16).flatMap (fun j => (List.range 32).flatMap (fun l => leBytes 4 (if j < vlive then (g.rv l j).toNat else 0)))
/-- FIRST of a suspended task: the card's WRITEA if global, else its READA, else the group's own (R251). -/
def suspendFirst (c : Option Card) (own : Nat) : Nat :=
  match c with
  | none => own
  | some c =>
    if (regionOf c.words 2).space = 0 then (regionOf c.words 2).base
    else if (regionOf c.words 0).space = 0 then (regionOf c.words 0).base
    else own
/-- The lanes of a group end as at EXIT (R342). -/
def Group.exitAll (g : Group) : Group :=
  { g with lanes := g.lanes.map (fun l => { l with st := .exited, resv := none }), pend := [], pendV := [], pendP := [], pendG := [] }
/-- A card in flight is tied to the record that waits for it. -/
def State.tagCard (s : State) (cid id : Nat) : State :=
  let f (k : Card) : Card := if k.cid = cid then { k with task := some id } else k
  { s with dies := s.dies.map (fun y => { y with cards := y.cards.map f }) }
/-- The record that waits for a command is queued to its bin, behind those queued before, with what the command has written (R251, R252). -/
def State.queueTask (s : State) (id : Nat) (spans : List (Nat × Nat)) : State :=
  { s with tasks := s.tasks.filter (fun k => k.id != id) ++ (s.tasks.filter (fun k => k.id == id)).map (fun k =>
      let b := s.taskBin k.ctx k.maker k.graph.isSome (fieldAt k.bytes 0x10 8)
      { k with st := .queued, die := b.1, bin := b.2, since := (s.die b.1).time, spans := spans }) }
/-- The card of a ticket of a team. -/
def State.cardOf (s : State) (t : Team) (v : Nat) : Option Card :=
  (s.dies.flatMap (·.cards)).find? (fun c => c.tid == some t.tid && c.slot == v / 2 ^ 26 && c.seq == v % 2 ^ 26)
/-- What TSUS checks of its ticket (R251): that it is current and incomplete, once, before it waits. -/
def Team.suspends (t : Team) (v : Nat) : Bool := match t.judge v with
  | .current k => k.busy
  | .old => false
  | .bad => false
/-- FIRST of the record that TSUS writes: as its check found it, or now (R251). -/
def State.firstOf (s : State) (t : Team) (l : Lane) (v : Nat) : Nat := l.judged.getD (suspendFirst (s.cardOf t v) t.first)
/-- TSUS (R251): the group suspends into a record that waits for the ticket, or is queued where that has completed while TSUS waited. -/
def tsusBody (ga gb : Nat) : Body :=
  { prep := drainPrep
    pre := fun s x => match s.tg x.tid x.gi with
      | none => .go
      | some (t, g) =>
        if t.la.bridle then .trap { code := tBRIDLE, cause := 4 }
        else if t.la.hdr.groups ≠ 1 then .trap { code := tILL }
        else if g.lanes.any (fun l => decide (l.st ≠ .exited) && l.depth != 0) then .trap { code := tDEPTH }
        else if (g.lane x.uniLane).judged.isNone && !t.suspends (g.rg ga).toNat then .trap { code := tCARD }
        else match typePre (g.lane x.uniLane).declined (s.taskType t.ctx (g.rg gb).toNat) with
          | .go => if pointWait true s x then .wait .queue
            else if s.taskFree t.ctx = 0 then .wait .task
            else poolPre (g.lane x.uniLane).declined t.ctx [List.replicate 2176 0] s
          | p => p
    note := fun s x => (s.tg x.tid x.gi).map (fun q => s.firstOf q.1 (q.2.lane x.uniLane) (q.2.rg ga).toNat)
    run := fun s x => match s.tg x.tid x.gi with
      | none => (s, {})
      | some (t, g0) => match s.taskType t.ctx (g0.rg gb).toNat with
        | .ok (some ty) =>
          let g := g0.deliver
          let v := (g.rg ga).toNat
          let r := suspendRecord g (x.pc + x.len) (g.rg gb).toNat v (s.firstOf t (g0.lane x.uniLane) v) ty.vlive ty.glive
          let s := s.taskTouch t.ctx (g0.rg gb).toNat
          let s := s.addTask t.ctx (dieOf t.pcore) t.la.prio t.la.startTime (s.graphOf t) r .ticket
          let id := s.nextId - 1
          let s := match s.cardOf t v with
            | some c => s.tagCard c.cid id
            | none => s.queueTask id (((t.tickets[v / 2 ^ 26]?).map Ticket.spans).getD [])
          let s := s.modTeam t.tid (fun t => { t with
            irrev := true
            tickets := updAt t.tickets (v / 2 ^ 26) (fun k => { k with busy := false }) })
          (s.modGroup x.tid x.gi (fun _ => g.exitAll), {})
        | _ => (s, {}) }

/-! ## Weight generations (R232, R233) -/

/-- The fields of a weight table descriptor. -/
structure WDesc where
  buf : Nat × Nat
  handed : Bool
  cur : Nat
  gen : Nat
  pin : Nat × Nat
  deriving DecidableEq, Repr
/-- One of a pair by number. -/
def pick (p : Nat × Nat) (i : Nat) : Nat := if i = 0 then p.1 else p.2
/-- The descriptor in 64 bytes. -/
def wdesc (bs : List Byte) : WDesc :=
  let w := fieldAt bs 0x10 4
  ⟨(fieldAt bs 0 8, fieldAt bs 8 8), w.testBit 1, w % 2, fieldAt bs 0x14 4, (fieldAt bs 0x18 4, fieldAt bs 0x1C 4)⟩
/-- What one of the four instructions does with a descriptor: a trap, a wait for the pins at an offset, or words written at offsets and
g-registers written. -/
inductive WMove where
  | trap
  | pins (off : Nat)
  | go (writes : List (Nat × Nat)) (gs : List (Nat × Word))
  deriving DecidableEq, Repr
/-- The word at 0x10. -/
def wflags (handed : Bool) (cur : Nat) : Nat := (if handed then 2 else 0) + cur
/-- An address pair's registers. -/
def gpair (d a : Nat) : List (Nat × Word) := [(d, BitVec.ofNat 32 a), (d + 1, BitVec.ofNat 32 (a / 2 ^ 32))]
def wpinMove (d : Nat) (_ : Group) (w : WDesc) : WMove :=
  if pick w.pin w.cur = 2 ^ 32 - 1 then .trap
  else .go [(0x18 + 4 * w.cur, pick w.pin w.cur + 1)]
    ([(d, BitVec.ofNat 32 w.gen), (d + 1, BitVec.ofNat 32 w.cur)] ++ gpair (d + 2) (pick w.buf w.cur))
def wunpMove (gb : Nat) (g : Group) (w : WDesc) : WMove :=
  let v := (g.rg gb).toNat
  let b : Option Nat := if v = w.gen then some w.cur else if (v + 1) % 2 ^ 32 = w.gen then some (1 - w.cur) else none
  match b with
  | none => .trap
  | some b => if pick w.pin b = 0 then .trap else .go [(0x18 + 4 * b, pick w.pin b - 1)] []
def wpubMove (d : Nat) (_ : Group) (w : WDesc) : WMove :=
  if !w.handed then .trap
  else .go [(0x10, wflags false (1 - w.cur)), (0x14, (w.gen + 1) % 2 ^ 32)] [(d, BitVec.ofNat 32 (w.gen + 1))]
def wbakMove (d : Nat) (_ : Group) (w : WDesc) : WMove :=
  if w.handed then .trap
  else if pick w.pin (1 - w.cur) ≠ 0 then .pins (0x18 + 4 * (1 - w.cur))
  else .go [(0x10, wflags true w.cur)] (gpair d (pick w.buf (1 - w.cur)))
/-- The descriptor as it stands at its home slice, after the core's writes to it. -/
def State.wread (s : State) (t : Team) (l : Loc) : WDesc := wdesc ((s.landLine t.pcore l).pointBytes t l 64)
/-- One of the four instructions: an atomic update of the descriptor that gA:gA+1 addresses (R233, R443, R444):
WUNP and WPUB release, WPIN and WBAK acquire. -/
def weightBody (ga : Nat) (rel : Bool) (mv : Group → WDesc → WMove) : Body :=
  { prep := drainPrep
    pre := fun s x => match s.tg x.tid x.gi with
      | none => .go
      | some (t, g) =>
        let a := g.rg64 ga
        if t.la.bridle then .trap { code := tBRIDLE, cause := 4 }
        else if a % 64 ≠ 0 then .trap { code := tWPIN, addr := a }
        else match s.resolve t g x.uniLane .global a 4 true with
          | .park r => .wait r
          | .fault c v => .trap { code := c, addr := v }
          | .ok [] => .go
          | .ok ((l, _) :: _) =>
            if (s.tlb t.pcore t.ctx a).any (fun e => decide (e.shr.rank < Dom.pkg.rank)) then .trap { code := tWPIN, addr := a }
            else if s.lostIn [(l, 4), (l.plus 32, 4)] then .trap { code := tMCHK, addr := a }
            else if pointWait rel s x then .wait .queue
            else match mv g (s.wread t l) with
              | .trap => .trap { code := tWPIN, addr := a }
              | .pins o => .wait (.pins (l.at + o))
              | .go _ _ => .go
    run := fun s x => match s.tg x.tid x.gi with
      | none => (s, {})
      | some (t, g) => match s.resolve t g x.uniLane .global (g.rg64 ga) 4 true with
        | .ok ((l, _) :: _) =>
          let s := ((s.fromMirror [(l, 4), (l.plus 32, 4)]).landLine t.pcore l).dirtied t x.gi g x.uniLane .global (g.rg64 ga)
          match mv g (wdesc (s.pointBytes t l 64)) with
          | .go ws gs =>
            let s := ws.foldl (fun s w => s.pointWrite x.tid x.gi (l.plus w.1) (leBytes 4 w.2)) s
            let s := x.mem.foldl (fun s p => s.raiseWm x.tid p.1 l.dom) s
            ((if rel then s else (s.acquire t.pcore l.dom).trigger3s x.tid (x.mem.map Prod.fst)).irrevocable x.tid, { gs := gs })
          | _ => (s, {})
        | _ => (s, {}) }

/-! ## TLBI (R427) -/

/-- Writes that may have used an entry of the context: groups with stores not performed, with their store numbers. -/
def State.pendingStores (s : State) (p : Nat → Bool) : List (Nat × Nat × Nat) :=
  (s.teams.filter (fun t => p t.ctx)).flatMap (fun t => (enum t.groups).filterMap (fun q =>
    if s.before t.tid q.1 q.2.sn then some (t.tid, q.1, q.2.sn) else none))
/-- Cards whose writes to memory are under way. -/
def State.pendingCards (s : State) (p : Nat → Bool) : List Nat :=
  s.dies.flatMap (fun d => (d.cards.filter (fun c => p c.ctx && c.land.any (fun w => w.loc.sp == 2))).map (·.cid))
/-- Bridle grids of the contexts with writes still to merge, but for the issuer's own, whose merge waits for it (log 33). -/
def State.pendingGrids (s : State) (own : Nat) (p : Nat → Bool) : List Nat :=
  (s.grids.filter (fun g => g.la.bridle && p g.ctx && g.gid != own && s.versions g.gid)).map (·.gid)
/-- What a TLBI removes: which entries, and of which contexts. -/
structure TlbSel where
  ent : TlbEnt → Bool
  ctx : Nat → Bool
/-- Walks in flight for pages whose entries a TLBI removes, by die, context and page (R427). -/
def State.walksFor (s : State) (p : Nat → Nat → Bool) : List (Nat × Nat × Nat) :=
  (enum s.dies).flatMap (fun d => (d.2.walks.filter (fun w => p w.ctx (pageOf w.va))).map (fun w => (d.1, w.ctx, pageOf w.va)))
/-- TLBI (R427): after the group's own stores and the walks in flight for matching pages, the matching entries leave every TLB, and the lanes wait
for the accesses under way of the contexts concerned, what bridle grids have still to merge among them, whose translations may be those or ones lost before; a group of such a context that
speculates rolls back, since its saddlebag holds translated writes (log 33). -/
def tlbiBody (walk : State → Group → Nat → Nat → Bool) (sel : Group → Option TlbSel) : Body :=
  { prep := drainPrep
    pre := fun s x => match s.tg x.tid x.gi with
      | none => .go
      | some (_, g) => match sel g with
        | none => .trap { code := tBOUNDS }
        | some _ => if pointWait true s x then .wait .queue
          else match s.walksFor (walk s g) with
            | [] => .go
            | ws => .wait (.tlbi [] [] ws [])
    run := fun s x => match (s.tg x.tid x.gi).bind (fun q => (sel q.2).map (fun p => (q.1.grid, p))) with
      | none => (s, {})
      | some (gid, p) =>
        let ss := s.pendingStores p.ctx
        let cs := s.pendingCards p.ctx
        let vs := s.pendingGrids gid p.ctx
        let s := s.markBram (fun t _ b => p.ctx t.ctx && (b.sad != [] || b.rset != []))
        let s := (s.cores.map Prod.fst).foldl (fun s k => s.modCore k (fun c => { c with tlb := c.tlb.filter (fun e => !p.ent e) })) s
        let s := { s with dies := s.dies.map (fun d => { d with l2tlb := d.l2tlb.filter (fun e => !p.ent e) }) }
        (s, { wait := if ss = [] ∧ cs = [] ∧ vs = [] then [] else x.members.map (fun q => (q.1, q.2, .parked (.tlbi ss cs [] vs))) }) }

/-- TSPN (R250, R429). -/
def execTspn (h : Head) (d : BitVec 6) (a : BitVec 6) (b : BitVec 6) (s : State) : Host.Outcome State Fault Refusal :=
  issue (.tspn h d a b) (tspnBody d.toNat a.toNat b.toNat) s

/-- TSUS (R251, R430). -/
def execTsus (h : Head) (a : BitVec 6) (b : BitVec 6) (s : State) : Host.Outcome State Fault Refusal :=
  issue (.tsus h a b) (tsusBody a.toNat b.toNat) s

/-- WPIN (R233, R443, R444). -/
def execWpin (h : Head) (d : BitVec 6) (a : BitVec 6) (s : State) : Host.Outcome State Fault Refusal :=
  issue (.wpin h d a) (weightBody a.toNat false (wpinMove d.toNat)) s

/-- WUNP (R233, R443, R444). -/
def execWunp (h : Head) (a : BitVec 6) (b : BitVec 6) (s : State) : Host.Outcome State Fault Refusal :=
  issue (.wunp h a b) (weightBody a.toNat true (wunpMove b.toNat)) s

/-- WPUB (R233, R443, R444). -/
def execWpub (h : Head) (d : BitVec 6) (a : BitVec 6) (s : State) : Host.Outcome State Fault Refusal :=
  issue (.wpub h d a) (weightBody a.toNat true (wpubMove d.toNat)) s

/-- WBAK (R233, R443, R444). -/
def execWbak (h : Head) (d : BitVec 6) (a : BitVec 6) (s : State) : Host.Outcome State Fault Refusal :=
  issue (.wbak h d a) (weightBody a.toNat false (wbakMove d.toNat)) s

/-- Does an entry cover an address, in whatever context. -/
def TlbEnt.holds (e : TlbEnt) (va : Nat) : Bool := decide (e.vbase ≤ va % 2 ^ 57) && decide (va % 2 ^ 57 < e.vbase + e.size)
/-- Does a walk of a page find an entry that covers the address: the page itself, or another part of its larger page (R427). -/
def State.walkFinds (s : State) (ctx page va : Nat) : Bool := page == pageOf va || (match s.walk ctx (page * 2 ^ 12) with
  | .ok e => e.holds va
  | .absent | .fail => false)
/-- TLBI.page (R427). -/
def execTlbiPage (h : Head) (a : BitVec 6) (s : State) : Host.Outcome State Fault Refusal :=
  issue (.tlbiPage h a) (tlbiBody (fun s g c p => s.walkFinds c p (g.rg64 a.toNat)) (fun g => some ⟨fun e => e.holds (g.rg64 a.toNat), fun _ => true⟩)) s

/-- TLBI.ctx (R427): a context of 1,024 or more raises #BOUNDS. -/
def execTlbiCtx (h : Head) (a : BitVec 6) (s : State) : Host.Outcome State Fault Refusal :=
  issue (.tlbiCtx h a) (tlbiBody (fun _ g c _ => c == (g.rg a.toNat).toNat) (fun g => if 1024 ≤ (g.rg a.toNat).toNat then none
    else some ⟨fun e => e.ctx == (g.rg a.toNat).toNat, fun c => c == (g.rg a.toNat).toNat⟩)) s

/-- TLBI.all (R427). -/
def execTlbiAll (h : Head) (s : State) : Host.Outcome State Fault Refusal :=
  issue (.tlbiAll h) (tlbiBody (fun _ _ _ _ => true) (fun _ => some ⟨fun _ => true, fun _ => true⟩)) s

end Sys2Proof.Machine
end

