-- ==== Sys2Proof/Machine/Traps.lean ====
section
/-! DEFINITION. The trap record, pre-emption, and the saving of teams (R196, R273-R287). -/
namespace Sys2Proof.Machine

/-! ## The trap record (R278) -/

/-- STATE of a group. -/
def groupState (h : Halt) (gi : Nat) (g : Group) : Nat :=
  let all (p : LaneSt → Bool) : Bool := g.lanes.all (fun l => l.st == .exited || p l.st)
  if (h.kind == 0 && h.groups.contains gi) || g.scode != 0 then 1
  else if g.live = 0 then 5
  else if all LaneSt.isParked then 2 else if all LaneSt.isArrived then 3 else if all LaneSt.isBarred then 4 else 0
/-- PCSTOP: the address of the current path, else of the lowest live lane. -/
def Group.pcStop (g : Group) : Nat :=
  match g.path with
  | some p => p
  | none => ((g.lanes.find? (fun l => decide (l.st ≠ .exited))).map (·.pc)).getD 0
/-- Word `k` of a group's 32 bytes. -/
def groupWord (h : Halt) (gi : Nat) (g : Group) (k : Nat) : Nat :=
  let arr := g.mask (fun l => l.st.isArrived || l.st.isBarred)
  match k with
  | 0 => groupState h gi g * 2 ^ 16 + g.skid * 2 ^ 8 + g.scode
  | 1 => g.live.toNat
  | 2 => g.pcStop
  | 3 => arr.toNat
  | 4 => (g.mask (fun l => l.st.isParked)).toNat
  | 5 => (g.mask (fun l => l.st.isBarred)).toNat
  | _ => 0
/-- Word `k` of an entry's 32 bytes. -/
def entWord (e : Ent) (k : Nat) : Nat :=
  match k with
  | 0 => e.ecode * 2 ^ 16 + e.group * 2 ^ 8 + e.ty
  | 1 => e.mask.toNat
  | 2 => e.sib.toNat
  | 3 => e.epc
  | 4 => e.eaddr % 2 ^ 32
  | 5 => e.eaddr / 2 ^ 32
  | _ => 0
/-- The lanes of the collection window, as groups with their masks (R276). -/
def Team.window (t : Team) : List (Nat × Mask) := ((enum t.groups).filter (fun p => decide (p.2.fpx ≠ 0))).map (fun p => (p.1, p.2.fpx))
/-- The reported lane and its instruction address: of an #FPX, the lowest of the window. -/
def Team.reported (t : Team) (h : Halt) : Nat × Nat :=
  if h.kind = 0 ∧ h.code = tFPX then
    match t.window with
    | (g, m) :: _ => (32 * g + (lanesOf m).headD 0, ((t.groups[g]?).map (·.fpxPc)).getD h.pc)
    | [] => (h.low, h.pc)
  else (h.low, h.pc)
/-- Word `k` of the trap record. -/
def recordWord (t : Team) (h : Halt) (k : Nat) : Nat :=
  let n := (t.window.map (fun p => popMask p.2)).sum
  let r := t.reported h
  if k = 0 then min h.ents.length 64 * 2 ^ 24 + h.cause * 2 ^ 16 + (if 1 < n then 2 ^ 15 else 0) + h.kind * 2 ^ 12 + h.code
  else if k = 1 then t.lin
  else if k = 2 then h.addr % 2 ^ 32
  else if k = 3 then h.addr / 2 ^ 32
  else if k = 4 then r.2
  else if k = 5 then h.ticket
  else if k = 6 then h.aux
  else if k = 7 then r.1
  else if k = 8 then (if h.code = tDETCONF then h.fpxn else n)
  else if k < 41 then ((t.groups[k - 9]?).map (fun g => g.fpx.toNat)).getD 0
  else if 64 ≤ k ∧ k < 320 then
    match t.groups[(k - 64) / 8]? with
    | some g => groupWord h ((k - 64) / 8) g (k % 8)
    | none => 0
  else if 320 ≤ k ∧ k < 832 then
    match h.ents[(k - 320) / 8]? with
    | some e => entWord e (k % 8)
    | none => 0
  else 0
/-- The trap record's 4,096 bytes. -/
def recordBytes (t : Team) (h : Halt) : List Byte := (List.range 1024).flatMap (fun k => leBytes 4 (recordWord t h k))

/-! ## The save block (R282) -/

/-- Offsets of the barriers, team shared memory, presence words, group states, vector registers and saddlebags, and the size. -/
structure SaveMap where
  bar : Nat
  shm : Nat
  pres : Nat
  grp : Nat
  vec : Nat
  sad : Nat
  size : Nat
  deriving DecidableEq, Repr
def Team.saveMap (t : Team) : SaveMap :=
  let h := t.la.hdr
  let shm := 5120 + 144 * t.la.nb
  let pres := shm + h.shmNeed
  let grp := pres + h.shared / 64
  let vec := grp + 1024 * h.groups
  let sad := vec + 128 * h.vregs * h.groups
  ⟨5120, shm, pres, grp, vec, sad, sad + (if t.la.bridle then 3072 * h.groups else 0)⟩
/-- The 144 bytes of a barrier (R182). -/
def Barrier.bytes (b : Barrier) : List Byte :=
  leBytes 8 ((if b.phase then 2 ^ 32 else 0) + (if b.latch then 2 ^ 31 else 0) + b.expect * 2 ^ 20 + b.arrived * 2 ^ 9) ++ leBytes 8 0 ++
    leBytes 128 b.mask
/-- A barrier from its bytes. -/
def barrierOf (bs : List Byte) : Barrier :=
  let w := fieldAt bs 0 8
  ⟨w.testBit 32, w.testBit 31, bitsAt w 20 11, bitsAt w 9 11, fieldAt bs 16 128⟩
/-- The vector registers of a group, lane-major within each register. -/
def Group.vecBytes (g : Group) (n : Nat) : List Byte := (List.range n).flatMap (fun k => (List.range 32).flatMap (fun l => leBytes 4 (g.rv l k).toNat))
/-- `n` bytes that hold the pieces at their offsets, and 0 elsewhere. -/
def imageOf (n : Nat) (ps : List (Nat × List Byte)) : List Byte :=
  let m := ps.foldl (fun m p => setBytes m p.1 p.2) ([] : SMap Byte)
  (List.range n).map (SMap.get 0 m)
/-- A bit for each number of a list. -/
def bitSet (l : List Nat) : Nat := (l.eraseDups.map (2 ^ ·)).sum
/-- The word of a ticket slot in the team state of a save block. DESIGN CHOICE (log 9). -/
def Ticket.word (k : Ticket) : Nat := k.seq % 2 ^ 26 + (if k.busy then 2 ^ 26 else 0) + (if k.failed then 2 ^ 27 else 0) + k.dom.rank * 2 ^ 28
/-- The 1,024 bytes of the team state (R282). DESIGN CHOICE (log 9): the spec lists what they hold and not where. -/
def Team.stateBytes (t : Team) : List Byte :=
  imageOf 1024 ((enum t.tickets).map (fun p => (4 * p.1, leBytes 4 p.2.word)) ++ [(256, leBytes 4 t.seq)] ++
    (enum t.groups).map (fun p => (260 + p.1, leBytes 1 p.2.wm.rank)) ++
    (enum t.la.hdr.chans).map (fun p => (292 + p.1, leBytes 1 (t.msgs.filter (fun m => m.ch == p.2.id)).length)) ++
    [(328, leBytes 8 t.round), (336, leBytes 1 t.roundStep)] ++ (enum t.groups).map (fun p => (340 + 4 * p.1, leBytes 4 p.2.slot)))
/-- The channel storage behind team shared memory: each channel's messages in order, in the order of the header (R68). -/
def Team.chanBytes (t : Team) : List Byte :=
  t.la.hdr.chans.flatMap (fun c => imageOf (c.slots * 32 * c.bytes) ((enum (t.msgs.filter (fun m => m.ch == c.id))).map (fun p =>
    (p.1 * 32 * c.bytes, p.2.slots.flatten))))
/-- The word of a line of team shared memory: its presence and the copies outstanding into it (R134, R282). DESIGN CHOICE (log 9). -/
def Team.presWord (t : Team) (line : Nat) : Nat :=
  let c := SMap.get 0 t.shmCnt line
  (if c = 0 then 2 ^ 15 else 0) + c % 2 ^ 15
/-- A lane's state as its byte. DESIGN CHOICE (log 9). -/
def LaneSt.code (l : LaneSt) : Nat :=
  match l with
  | .ready => 0
  | .exited => 1
  | .parked _ => 2
  | .arrived .. => 3
  | .barred .. => 4
/-- A group's 1,024 bytes (R282). DESIGN CHOICE (log 9): the spec lists what they hold and not where. -/
def Group.stateBytes (g : Group) : List Byte :=
  let lanes (o k : Nat) (f : Lane → Nat) : List (Nat × List Byte) := (enum g.lanes).map (fun p => (o + k * p.1, leBytes k (f p.2)))
  let pending (m : SMap Mask) (k : Nat) : Nat := bitSet ((List.range k).filter (fun i => SMap.get 0 m i != 0))
  imageOf 1024 (lanes 0 4 (·.pc) ++ lanes 128 1 (·.depth) ++ lanes 160 1 (fun l => l.st.code) ++
    (List.range 7).map (fun i => (192 + 4 * i, leBytes 4 (SMap.get 0 g.p i).toNat)) ++
    lanes 220 1 (fun l => l.fl.toNat) ++ lanes 252 1 (·.seq) ++ (List.range 64).map (fun i => (284 + 4 * i, leBytes 4 (g.rg i).toNat)) ++
    [(540, leBytes 4 g.fpctl.toNat), (544, leBytes 4 g.seed.toNat), (548, leBytes 4 g.permBase.toNat), (552, leBytes 16 (pending g.pendV 128)),
      (568, leBytes 1 (pending g.pendP 7)), (569, leBytes 8 (pending g.pendG 64))] ++
    (enum g.loopbuf).map (fun p => (580 + 4 * p.1, leBytes 4 p.2.2.toNat)) ++
    [(772, leBytes 4 ((g.loopbuf.head?.map Prod.fst).getD 0)), (776, leBytes 4 g.loopbuf.length), (780, leBytes 4 g.specRoll),
      (784, leBytes 4 g.specCommit), (788, leBytes 4 g.specStall), (792, leBytes 4 g.specRem), (800, leBytes 8 g.issues),
      (808, leBytes 4 g.quantum), (812, leBytes 4 (if g.turn then 1 else 0))])
/-- A bridle group's saddlebag: 64 entries of 48 bytes (R210, R211). DESIGN CHOICE (log 9): address, mask, then the bytes. -/
def Group.sadBytes (g : Group) : List Byte :=
  imageOf 3072 ((enum (g.sad.take 64)).map (fun p =>
    (48 * p.1, leBytes 8 (p.2.loc.sp * 2 ^ 62 + p.2.loc.at) ++ leBytes 4 p.2.mask.toNat ++ leBytes 4 0 ++ p.2.bytes)))
/-- The parts of a save block with their offsets (R282); what has no layout stands also in the saved team (log 9). -/
def Team.saveParts (t : Team) (h : Halt) : List (Nat × List Byte) :=
  let m := t.saveMap
  let n := t.la.hdr.shared
  [(0, recordBytes t h), (4096, t.stateBytes)] ++ (enum t.bars).map (fun p => (m.bar + 144 * p.1, p.2.bytes)) ++
    [(m.shm, (List.range n).map (fun i => SMap.get 0 t.shm i)), (m.shm + n, t.chanBytes),
      (m.pres, (List.range (n / 128)).flatMap (fun k => leBytes 2 (t.presWord k)))] ++
    (enum t.groups).map (fun p => (m.grp + 1024 * p.1, p.2.stateBytes)) ++
    (enum t.groups).map (fun p => (m.vec + 128 * t.la.hdr.vregs * p.1, p.2.vecBytes t.la.hdr.vregs)) ++
    (if t.la.bridle then (enum t.groups).map (fun p => (m.sad + 3072 * p.1, p.2.sadBytes)) else [])
/-- Whether the save area of a context is in the pad (R285). -/
def State.padSave (s : State) (x : Nat) : Bool := bitsAt (s.bar (ctxOff x 0x2C)) 25 1 == 1
/-- Bytes written to a save area: memory, or the context's pad on a die. -/
def State.saveWrite (s : State) (x d a : Nat) (bs : List Byte) : Except Stop State :=
  if s.padSave x then
    (splitAt' 128 a bs.length).foldlM (fun (s : State) p => match s.padAddr d (s.ctxPart x) p.1 with
      | .ok ((l, _) :: _) => .ok { s with pad := setBytes s.pad l.at ((bs.drop (p.1 - a)).take p.2) }
      | _ => .error (.fail 3 p.1)) s
  else s.devWrite x a bs
/-- Bytes read from a save area. -/
def State.saveRead (s : State) (x d a n : Nat) : Except Stop (List Byte) :=
  if s.padSave x then do
    let ps ← (splitAt' 128 a n).mapM (fun p => match s.padAddr d (s.ctxPart x) p.1 with
      | .ok ((l, _) :: _) => (.ok ((List.range p.2).map (fun i => SMap.get 0 s.pad (l.at + i))) : Except Stop (List Byte))
      | _ => .error (.fail 3 p.1))
    pure ps.flatten
  else s.devRead x a n
/-- Writes the parts of a save block. -/
def State.writeParts (s : State) (x d a : Nat) (ps : List (Nat × List Byte)) : Except Stop State :=
  ps.foldlM (fun (s : State) p => s.saveWrite x d (a + p.1) p.2) s
/-- Save blocks of a context in use: of saved teams and of teams being restored. -/
def State.blocksUsed (s : State) (x : Nat) : List Nat :=
  (s.saved.filter (fun k => k.team.ctx == x)).map (·.block) ++ (s.teams.filter (fun t => t.ctx == x)).filterMap (fun t => t.back.map (·.2.1))
/-- The lowest free save block that holds `n` bytes, with its address (R286). -/
def State.freeBlock (s : State) (x n : Nat) : Option (Nat × Nat) :=
  let sz := bitsAt (s.bar (ctxOff x 0x10)) 16 16 * 4096
  if sz < n then none
  else ((List.range (s.bar (ctxOff x 0x14))).find? (fun b => !(s.blocksUsed x).contains b)).map (fun b => (b, s.bar64 (ctxOff x 8) + b * sz))

/-! ## Stopping (R273, R281) -/

/-- The resident teams of a team's cluster. -/
def State.cluster (s : State) (t : Team) : List Team :=
  s.teams.filter (fun u => u.grid == t.grid && u.lin / (t.cw * t.ch) == t.lin / (t.cw * t.ch))
/-- Asks a team to stop: at their next issue slots its groups issue no more (R281); a team already halting is saved as such (R274). -/
def Team.stop (kind : Nat) (t : Team) : Team :=
  match t.halt with
  | some _ => t
  | none => { t.rollbackAll with
      halt := some ⟨kind, 0, 0, 0, 0, 0, 0, 0, 0, [], []⟩
      groups := t.rollbackAll.groups.map (fun g => { g with stopped := true }) }
/-- Pre-empts a team with its whole cluster (R281). -/
def State.preempt (s : State) (tid : Nat) : State :=
  match s.team? tid with
  | none => s
  | some t => (s.cluster t).foldl (fun s u => s.modTeam u.tid (Team.stop 1)) s
/-- PREEMPTION (R281, R284). -/
def execPreemption (tid : Nat) (s : State) : Host.Outcome State Fault Refusal := .next (s.preempt tid)

/-! ## Saving (R273 steps 3 to 6, R282) -/

/-- Does a card write a team's shared memory. -/
def Card.intoShm (c : Card) (tid : Nat) : Bool := c.foot.any (fun r => r.2.1 && r.1.space == 1 && r.2.2.contains tid)
/-- Have the cards into a team's shared memory completed (R135). DESIGN CHOICE (log 53): an ARED that still waits for its peers and writes there is one of
them. -/
def State.shmQuiet (s : State) (tid : Nat) : Bool := !s.dies.any (fun d => d.cards.any (fun c => c.task.isNone && c.intoShm tid))
/-- A SEND or RECV still parked is saved as not issued (R409); in bridle mode, where its quantum has counted it, as it stands (R210). -/
def Team.unsend (t : Team) : Team :=
  if t.la.bridle then { t with msgs := t.msgs.map (fun m => { m with landed := true }) }
  else { t with
    chanq := []
    groups := (enum t.groups).map (fun p => { p.2 with lanes := p.2.lanes.map (fun l => match l.st with
      | .parked (.chan _ _) => { l with st := .ready, pc := l.pc - 4 }
      | _ => l) })
    msgs := t.msgs.map (fun m => { m with landed := true }) }
/-- A FENCE that has not completed is saved as not issued, with the wider of its domain and those of the accesses since (R350): the lanes that wait past
it stand at it again. -/
def Group.refence (g : Group) : Group := match g.fence with
  | none => g
  | some f => { g with
      wm := g.wm.wider f.dom
      fence := none
      lanes := (g.modLanes (f.held &&& g.live) (fun l => { l with st := .ready, pc := l.pc - 4 })).lanes }
/-- Has the group a FENCE under way that its lanes have issued past, at lane or group scope: its save waits until it completes (R350, log 52). -/
def Group.fencePast (g : Group) : Bool := g.fence.any (fun f => f.held == 0)
/-- The lanes of a team as they are saved: outstanding results written, reservations lost but in bridle mode (R96, R171, R210); a TSUS that waits is saved
as not issued (R430). -/
def Team.quiet (t : Team) : Team :=
  { t.unsend with groups := t.unsend.groups.map (fun g =>
      let g := g.deliver.refence
      let g := { g with lanes := g.lanes.map (fun l => { l with judged := none }) }
      if t.la.bridle then g else { g with lanes := g.lanes.map (fun l => { l with resv := none }), cinch := none }) }
/-- A team's waiting ARED cards (R230). -/
def State.aredOf (s : State) (tid : Nat) : List Card :=
  s.dies.flatMap (fun d => d.cards.filter (fun c => c.tid == some tid && kindOf c.words == 7 && c.st == .waiting))
/-- Removes cards from the dies' queues. -/
def State.dropCards (s : State) (cids : List Nat) : State :=
  if cids = [] then s else { s with dies := s.dies.map (fun d => { d with cards := d.cards.filter (fun c => !cids.contains c.cid) }) }
/-- A group of a team that is ended. -/
def Group.ended' (g : Group) : Group :=
  Group.retire { g.exitAll with ended := none, stopped := false, skid := 0, slots := 0, scode := 0, fpx := 0, fence := none, bram := none, drain := false, sad := [], unc := [] }
/-- A team ended as by RESUME END (R280): every live lane has executed EXIT. -/
def Team.finished (t : Team) : Team := { t with halt := none, chanq := [], roundStep := 0, groups := t.groups.map Group.ended' }
/-- Drains and writes back before a save (R162, R273 step 4); what a FENCE waited for being done, it completes. -/
def State.drainTeam (s : State) (t : Team) : State :=
  let n := (t.groups.map (fun g => g.sq.length)).sum + 1
  let s := State.flushTeam t.tid n (s.modTeam t.tid Team.rollbackAll)
  let s := (List.range t.groups.length).foldl (fun s j => s.fenceStep t.tid j) s
  s.cleanL1 t.pcore (fun x => x.ctx == t.ctx && x.shr == .core)
/-- The dirty sector of a CORE line of a team that memory holds back at its save (R283, R293). -/
def State.saveStuck (s : State) (t : Team) : Option L1Sec :=
  s.stuckIn t.pcore (fun x => x.ctx == t.ctx && x.shr == .core)
/-- Does the save of a team wait: for writes of its that memory holds back, for such a sector, or for a FENCE that its lanes have gone past. A LNXT that waits for its round's end is saved (R210). -/
def State.saveHeld (s : State) (t : Team) : Bool :=
  t.groups.any (fun g => g.fencePast || g.sq.any (fun e => !t.la.bridle || e.act != .lnxt)) || (s.core t.pcore).fly.any (fun w => w.tid == t.tid) || (s.saveStuck t).isSome
/-- Saves one stopped team whose cluster is saved with `kind` for those that did not trap: the block, the record, and for a trap the notice
(R279, R282); with no block, #MCHK without a record, and the team is ended (R286). -/
def State.saveOne (s : State) (kind : Nat) (tid : Nat) : Except Stop State :=
  match s.team? tid with
  | none => .ok s
  | some t0 =>
    let s := s.drainTeam t0
    match s.team? tid with
    | none => .ok s
    | some t1 =>
      if s.saveHeld t1 then .error (.wait ((s.saveStuck t1).map (fun x => (x.sec * 32, x.mir, true)))) else
      let t := t1.quiet
      let h := t.halt.getD ⟨kind, 0, 0, 0, 0, 0, 0, 0, 0, [], []⟩
      let h := if h.kind = 0 then h else { h with kind := kind }
      let t := { t with halt := some h, since := (s.die (dieOf t.pcore)).time }
      let ared := s.aredOf tid
      let gone (s : State) : State := { s.dropCards (ared.map (·.cid)) with teams := s.teams.filter (fun u => u.tid != tid) }
      let lose : State :=
        ((({ s with
          teams := s.teams.filter (fun u => u.tid != tid)
          saved := s.saved ++ [⟨t.finished, 2 ^ 32, 0, false, false, false, []⟩] } : State).post t.ctx ⟨0, 0, tMCHK, t.lin⟩).countEvent evMchk)
      match s.freeBlock t.ctx t.saveMap.size with
      | none => .ok lose
      | some (b, a) =>
        match s.writeParts t.ctx (dieOf t.pcore) a (t.saveParts h) with
        | .error e => match s.answered t.ctx e with
          | .fail _ va => .ok (lose.devFail t.ctx va)
          | e => .error e
        | .ok s =>
          let s := s.devOver t.ctx
          let s := { gone s with saved := s.saved ++ [⟨t, b, a, h.kind == 0, kind == 2 && h.kind != 0, kind == 1 && h.kind != 0, ared⟩] }
          let s := if h.kind = 0 ∧ h.code = tMCHK then s.countEvent evMchk else s
          .ok (if h.kind = 0 then s.post t.ctx ⟨a, 0, h.code, t.lin⟩ else s)
/-- A saved team of the cluster that no block could hold is ended, and its mates are placed again (R286). -/
def State.wakeMates (s : State) (ts : List Team) : State :=
  if s.saved.any (fun k => k.trapped && ts.any (fun t => t.tid == k.team.tid)) then s
  else { s with saved := s.saved.map (fun k => if k.sibling && ts.any (fun t => t.tid == k.team.tid) then { k with waiting := true, sibling := false } else k) }
/-- The record of a saved team, written again. -/
def State.rewriteRecord (s : State) (k : Saved) : State :=
  match k.team.halt with
  | none => s
  | some h => match s.writeParts k.team.ctx (dieOf k.team.pcore) k.addr [(0, recordBytes k.team h)] with
    | .ok s => s
    | .error _ => s
/-- A saved team halts in place: its record is rewritten with KIND 0, those of its saved siblings with KIND 2, and a notice is posted (R207,
R220, R277). -/
def State.haltSaved (s : State) (k : Saved) (h : Halt) : State :=
  let t := k.team
  let mate (j : Saved) : Bool := j.team.grid == t.grid && j.team.lin / (t.cw * t.ch) == t.lin / (t.cw * t.ch) && !j.trapped
  let f (j : Saved) : Saved :=
    if j.team.tid = t.tid then { j with team := { t with halt := some h }, trapped := true, waiting := false, sibling := false }
    else if mate j then { j with team := { j.team with halt := j.team.halt.map (fun h => { h with kind := 2 }) }, waiting := false, sibling := true }
    else j
  let s := { s with saved := s.saved.map f }
  let s := (s.saved.filter (fun j => j.team.tid == t.tid || mate j)).foldl State.rewriteRecord s
  (if h.code = tMCHK then s.countEvent evMchk else s).post t.ctx ⟨k.addr, 0, h.code, t.lin⟩
/-- A trap of a team wherever it stands, not of an instruction of its own. -/
def State.raiseAny (s : State) (tid : Nat) (gs : List Nat) (pc low : Nat) (t : Trap) : State :=
  match s.team? tid with
  | some _ => s.raise tid gs pc low t [] []
  | none => match s.saved.find? (fun k => k.team.tid == tid) with
    | none => s
    | some k => if k.trapped ∨ k.team.groups.all (·.retired) then s
      else s.haltSaved k ⟨0, t.code, t.cause, t.addr, pc, t.ticket, 0, low, 0, gs, []⟩

end Sys2Proof.Machine
end

