-- ==== Sys2Proof/Machine/CardEvents.lean ====
section
/-! DEFINITION. The life of a job card on its engine (R134, R135, R172-R174, R215-R231, R251, R264). -/
namespace Sys2Proof.Machine

/-! ## Start (R221, R222, R264) -/

/-- The card of a die. -/
def State.card? (s : State) (d cid : Nat) : Option Card := (s.die d).cards.find? (fun c => c.cid == cid)
/-- The state with a card changed. -/
def State.modCard (s : State) (d cid : Nat) (f : Card → Card) : State :=
  s.modDie d (fun x => { x with cards := x.cards.map (fun c => if c.cid = cid then f c else c) })
/-- The ticket of a card's command. -/
def Card.ticket (c : Card) : Nat := c.slot * 2 ^ 26 + c.seq
/-- Copies of a command that a line's count still holds. -/
def Card.copies (c : Card) (k : Nat × Nat) : Nat := ((c.pres ++ c.presNext).filter (· == k)).length
/-- Is a line absent for a card that reads it (R134): another copy is outstanding into it than the card's own and those of the commands of its
context behind it, which wait for the card (R221). -/
def State.absentFor (s : State) (d : Nat) (c : Card) (k : Nat × Nat) (count : Nat) : Bool :=
  let later := ((s.die d).cards.dropWhile (fun a => a.cid != c.cid)).filter (fun a => a.ctx == c.ctx)
  decide ((later.map (fun a => a.copies k)).sum < count)
/-- The regions that a card reads: HGB reads the tables of WRITEA too (R229). -/
def readRegions (ws : List Word) : List Nat := if kindOf ws = 6 then [0, 1, 2] else [0, 1]
/-- Does the card read an absent line: it waits (R134). -/
def State.readsAbsent (s : State) (d : Nat) (c : Card) : Bool :=
  (readRegions c.words).any (fun i =>
    let r := regionOf c.words i
    if r.absent || r.len == 0 then false
    else if r.space = 1 then ((c.tid).bind s.anyTeam?).any (fun t => (splitAt' 128 r.base r.len).any (fun p =>
      s.absentFor d c (t.tid + 1, p.1 / 128) (SMap.get 0 t.shmCnt (p.1 / 128))))
    else if r.space = 2 then (s.padSpans d (s.ctxPart c.ctx) r).any (fun p => (splitAt' 128 p.1 p.2).any (fun q =>
      s.absentFor d c (0, q.1 / 128) (SMap.get 0 s.padCnt (q.1 / 128))))
    else false)
/-- Has the issuing group stores or atomics to team shared memory, made before the command, that have not landed (R135, R172). -/
def State.shmStores (s : State) (c : Card) : Bool :=
  match (c.tid).bind (fun t => s.group? t c.gi) with
  | none => false
  | some g => g.sq.any (fun e => decide (e.sn < c.sn) && e.shm)
/-- Does a CPYT card have its permit: barrier PBAR of the issuing team shows PHASE = PPH (R224). -/
def State.permitted (s : State) (c : Card) : Bool :=
  if kindOf c.words = 2 && bitsAt (fieldAt c.desc 0x70 4) 5 1 == 1 then
    let w := fieldAt c.desc 0x70 4
    match ((c.tid).bind s.anyTeam?).bind (fun t => t.bars[w % 32]?) with
    | some b => b.phase == (bitsAt w 6 1 == 1)
    | none => false
  else true
/-- Has the card's engine a place: a tile-walk engine runs eight (R222). DESIGN CHOICE (log 8): of the raster, reduction and hash-grid engines, for which
the rules give no number (R16), any number of cards run at once. -/
def State.engineFree (s : State) (d : Nat) (c : Card) : Bool :=
  4 < kindOf c.words ||
  decide (((s.die d).cards.filter (fun b => b.st == .running && decide (kindOf b.words ≤ 4) && s.site b.core == s.site c.core)).length < 8)
/-- Does a team that is stopping wait for the card before it can be saved (R135). -/
def State.savesOn (s : State) (c : Card) : Bool := ((c.tid).bind s.team?).any (fun t => t.halt.isSome && c.intoShm t.tid)
/-- Is the card admitted now (R264, R266). -/
def State.cardAdmitted (s : State) (d : Nat) (c : Card) : Bool :=
  let (e, i) := s.cardCost d (kindOf c.words)
  (!(s.die d).power.halted || s.savesOn c) && !(s.die d).reinit && s.admits d (s.cardBlock c).toList e i && !s.heldBack d (s.cardBlock c) (1, c.cid)
/-- Could the card start but for admission. -/
def State.cardReady (s : State) (d : Nat) (c : Card) : Bool :=
  c.st == .waiting && c.fail.isNone && c.page.isNone && s.edgesClear d c && !s.readsAbsent d c && !s.shmStores c && s.permitted c && s.engineFree d c
/-- What an engine's work that stopped does to its card: a walk of the page, the failure, or nothing (R220). -/
def State.cardStop (s : State) (d : Nat) (c : Card) : Stop → State
  | .walk va w =>
    let s' := s.startWalk d ⟨c.ctx, va, w, false, true⟩
    if (s'.die d).walks.any (fun k => k.ctx == c.ctx && pageOf k.va == pageOf va) then s'.modCard d c.cid (fun c => { c with page := some (pageOf va) })
    else s'
  | .ats io => s.modCard d c.cid (fun c => { c with page := some (atsMark io) })
  | .wait a => s.wantAt a
  | .fail cause a => s.modCard d c.cid (fun c => { c with fail := some (cause, a) })
/-- The card runs, with what it has yet to write; its write footprint and its domain become its ticket's (R174, R218). -/
def State.runCard (s : State) (d : Nat) (c : Card) (ls : List Landing) : State :=
  let sp := s.writeSpans c
  let dom := s.writeDom c
  let s := s.modCard d c.cid (fun c => { c with st := .running, land := ls, spans := c.spans ++ sp })
  match c.tid with
  | some t => s.modTicket t c.slot c.seq (fun k => { k with spans := k.spans ++ sp, dom := k.dom.wider dom })
  | none => s
/-- A card that could start, and reads through no bridle view, reads one sector of the pad or of memory before the rest: each sector is read at a time of
its own (R172, log 8). An ARED meets its peers, and reads then. -/
def State.readEarly (s : State) (d cid sp sec : Nat) : State :=
  match s.card? d cid with
  | none => s
  | some c =>
    let held := sp == 2 && (s.memHeld (sec * 32) || (s.die (homeDie (sec * 32))).lost.any (fun e => e.1 == sec))
    if kindOf c.words = 7 || c.view.isSome || !(sp == 1 || sp == 2) || held || !s.cardReady d c || c.early.any (fun e => e.1 == sp && e.2.1 == sec) then s
    else (if sp = 2 then s.useLine (sec * 32) else s).modCard d cid (fun c => { c with early :=
      (sp, sec, (List.range 32).map (fun i => SMap.get 0 (if sp = 1 then s.pad else s.mem) (sec * 32 + i))) :: c.early })
/-- CARD_START (R221): a card whose edges, permit, lines, engine and admission are clear starts; it reads its input (R172, R203). -/
def execCardStart (die cid : Nat) (s : State) : Host.Outcome State Fault Refusal :=
  .next (match s.card? die cid with
    | none => s
    | some c =>
      if kindOf c.words ≠ 7 && s.cardReady die c && s.cardAdmitted die c then
        match (engWork c).run s with
        | .ok (ls, s') => (s'.runCard die c ls).admitted die (1, cid)
        | .error e => s.cardStop die c e
      else s)

/-! ## Landing and completion (R134, R174, R217, R219, R251) -/

/-- The landings of a card at a line, and the others. -/
def Card.splitLine (c : Card) (l : LineAt) : List Landing × List Landing :=
  c.land.partition (fun w => match l, w.loc with
    | .shm tid n, .shm a => w.tid == tid && a / 128 == n
    | .pad n, .pad .. => w.loc.at / 128 == n
    | .mem n, .phys pa _ _ _ _ => pa / 128 == n
    | _, _ => false)
/-- The key of a line's count (R134). -/
def lineKey : LineAt → Option (Nat × Nat)
  | .shm tid n => some (tid + 1, n)
  | .pad n => some (0, n)
  | .mem _ => none
/-- Must any of the landings wait for held memory. -/
def State.landHeld (s : State) (ls : List Landing) : Bool := ls.any (fun w => match w.loc with
  | .phys pa _ mir _ _ => s.writeHeld pa mir
  | .shm _ => false
  | .pad .. => false)
/-- CARD_LINE_LANDED (R134): the card's data of a line lands, and the line's count falls. -/
def execCardLineLanded (die cid : Nat) (line : LineAt) (s : State) : Host.Outcome State Fault Refusal :=
  .next (match s.card? die cid with
    | none => s
    | some c =>
      let (now, rest) := c.splitLine line
      if c.st ≠ .running ∨ c.fail.isSome ∨ now = [] ∨ s.landHeld now then s
      else
        let s := s.landCard die c now
        let hit (k : Nat × Nat) : Bool := c.pres.contains k
        match lineKey line with
        | some k => (if hit k then s.modCnt cntLand k else s).modCard die cid (fun c => { c with land := rest, pres := c.pres.erase k })
        | none => s.modCard die cid (fun c => { c with land := rest }))
/-- A command leaves the dispatcher: its record is queued, and team shared memory that it alone held is freed (R251). -/
def State.leaveCard (s : State) (c : Card) : State :=
  let s := match c.task with
    | some id => s.queueTask id c.spans
    | none => s
  let s := if (s.core c.core).kept.any (fun r => r.2.2.1 == c.cid) then s.modCore c.core (fun k => { k with kept := k.kept.filter (fun r => r.2.2.1 != c.cid) }) else s
  s.dropCards [c.cid]
/-- The successor takes its predecessor's place (R219). -/
def Card.succeed (c : Card) : Card :=
  match c.succ with
  | none => c
  | some (ws, ds) => { c with words := ws, desc := ds, succ := none, mc := c.mcNext, mcNext := [], pres := c.presNext, presNext := [], st := .waiting, land := [], early := [] }
/-- CARD_COMPLETE (R217): the rest of the card's data lands; its successor becomes eligible (R219), or the ticket completes. -/
def execCardComplete (die cid : Nat) (s : State) : Host.Outcome State Fault Refusal :=
  .next (match s.card? die cid with
    | none => s
    | some c =>
      if c.st ≠ .running ∨ c.fail.isSome ∨ s.landHeld c.land then s
      else
        let s := s.landCard die c c.land
        let s := c.pres.foldl (State.modCnt cntLand) s
        if c.succ.isSome then s.modCard die cid (fun c => { c.succeed with since := (s.die die).time })
        else
          let s := match c.tid with
            | some t => s.modTicket t c.slot c.seq (fun k => { k with busy := false })
            | none => s
          s.leaveCard c)

/-! ## Failure (R220) -/

/-- The trap code of a cause (R220). -/
def causeCode (n : Nat) : Nat := if n = 1 then tXLAT else if n = 2 then tPROT else if n = 3 then tBOUNDS else if n = 4 then tCARD else tMCHK
/-- A graph fails: it starts no further node; those that have not begun are dropped (R255). -/
def State.failGraph (s : State) (id : Nat) : State :=
  { s with dies := s.dies.map (fun d => if d.graphs.any (fun g => g.id == id)
      then { d with graphs := d.graphs.map (fun g => if g.id = id then { g with failed := true, active := g.active.filter (·.begun) } else g) }
      else d) }
/-- CARD_FAIL (R220): the ticket completes as failed, the lines not finished stay absent, since their counts are left (R135), the successor never starts, and the
issuing team halts; a graph's own card fails its graph. -/
def execCardFail (die cid : Nat) (s : State) : Host.Outcome State Fault Refusal :=
  .next (match s.card? die cid with
    | none => s
    | some c =>
      match c.fail with
      | none => s
      | some (cause, a) =>
        let s := match c.node with
          | some (g, _) => s.failGraph g
          | none => s
        let s := s.leaveCard c
        match c.tid with
        | none => s
        | some t => (s.modTicket t c.slot c.seq (fun k => { k with busy := false, failed := true })).raiseAny t [c.gi] c.pc (32 * c.gi)
            { code := causeCode cause, cause := cause, addr := a, ticket := c.ticket })

/-! ## ARED (R230, R303) -/

/-- The first waiting ARED card of a die for a context and collective, free of edges. -/
def State.aredAt (s : State) (ctx id d : Nat) : Option Card :=
  (s.die d).cards.find? (fun c => c.ctx == ctx && kindOf c.words == 7 && cw c.words 3 % 2 ^ 16 == id && c.st == .waiting && c.fail.isNone && c.page.isNone &&
    s.edgesClear d c && !s.readsAbsent d c && !s.shmStores c)
/-- Does the card's reduction wait for nothing but admission: its cards stand on all four dies (R230, R264). -/
def State.aredReady (s : State) (c : Card) : Bool :=
  kindOf c.words == 7 && (List.range 4).all (fun d => (s.aredAt c.ctx (cw c.words 3 % 2 ^ 16) d).isSome)
/-- What must agree between the cards of a reduction: length, and the reach. -/
def aredShape (c : Card) : Nat × Nat × Nat := ((regionOf c.words 0).len, cw c.words 1 % 2, bitsAt (cw c.words 3) 16 10 + 1)
/-- In bridle mode a contribution is read from the state of the latest merge (R206): the team's layer 1, or memory once its own grid has
synchronised. -/
def State.atMerge (s : State) (c : Card) : Card :=
  let synced : Bool := (((c.tid).bind s.anyTeam?).bind (fun t => s.grid? t.grid)).any (·.synced)
  { c with view := c.view.map (fun v => (if synced then [] else v.1, [])) }
/-- The contributions of the cards, die by die; a stop names the die. -/
def aredReads (s : State) : List (Nat × Card) → Except (Nat × Card × Stop) (List (List Byte) × State)
  | [] => .ok ([], s)
  | (d, c) :: r =>
    let a := regionOf c.words 0
    match (engRead (s.atMerge c) a a.base a.len).run s with
    | .error e => .error (d, c, e)
    | .ok (bs, s1) => match aredReads s1 r with
      | .error e => .error e
      | .ok (l, s2) => .ok (bs :: l, s2)
/-- The cards run, each with the result to write. -/
def aredWrites (out : List Byte) (s : State) : List (Nat × Card) → Except (Nat × Card × Stop) State
  | [] => .ok s
  | (d, c) :: r =>
    let w := regionOf c.words 2
    match (engWrite c w [c.tid.getD 0] w.base out).run s with
    | .error e => .error (d, c, e)
    | .ok (ls, s1) => aredWrites out ((s1.runCard d c ls).admitted d (1, c.cid)) r
/-- The result of the reduction from the dies' contributions and, across packages, the peers' sums by rank; none while they lack. -/
def State.aredResult (s : State) (ctx : Nat) (across : Bool) (p : Nat) (bs : List (List Byte)) (peers : List (List Byte)) : Option (List Byte) :=
  let own := aredDies bs
  if !across then some own
  else
    let all := updAt peers (bitsAt (s.bar (0x0080_0000 + 8 * ctx)) 0 10) (fun _ => own)
    if all.length = p ∧ all.all (fun v => v.length == own.length) then some (aredPackages all) else none
/-- ARED_MEET (R230): the four dies' cards of a collective meet; `peers` are the other packages' sums by rank. Cards that disagree, or whose P
is not COUNT + 1, fail with cause FORMAT. Across packages they wait for a port that carries traffic (R302). -/
def execAredMeet (ctx id : Nat) (peers : List (List Byte)) (s : State) : Host.Outcome State Fault Refusal :=
  .next (
    let cs := (List.range 4).filterMap (fun d => (s.aredAt ctx id d).map (fun c => (d, c)))
    match cs with
    | [(d0, c0), c1, c2, c3] =>
      let all := [(d0, c0), c1, c2, c3]
      let (_, m, p) := aredShape c0
      if all.any (fun q => aredShape q.2 != aredShape c0) || (m == 1 && bitsAt (s.bar (0x0080_0000 + 8 * ctx)) 10 10 + 1 != p) then
        all.foldl (fun s q => s.cardStop q.1 q.2 (.fail 4 0)) s
      else if m == 1 && decide (1 < p) && !s.ports.any (fun q => q.up && q.key.isSome) then s
      else if all.any (fun q => !s.cardAdmitted q.1 q.2) then s
      else match aredReads s all with
        | .error (d, c, e) => s.cardStop d c e
        | .ok (bs, s1) =>
          match s.aredResult ctx (m == 1) p bs peers with
          | none => s
          | some out => match aredWrites out s1 all with
            | .ok s2 => s2
            | .error (d, c, e) => s.cardStop d c e
    | _ => s)

end Sys2Proof.Machine
end

