-- ==== Sys2Proof/Machine/MemEvents.lean ====
section
/-! DEFINITION. Walks, translations, migration, the memory's configuration, and writes from outside the package (R137-R153, R177, R178,
R288-R291, R296-R304, R459). -/
namespace Sys2Proof.Machine

/-! ## Walks (R148-R152) -/

/-- Changes the lanes of a context's teams on a die, or everywhere, that satisfy `p`. -/
def State.modLanes (s : State) (p : Team → Bool) (f : Lane → Lane) : State :=
  { s with teams := s.teams.map (fun t => if p t then { t with groups := t.groups.map (fun g => { g with lanes := g.lanes.map f }) } else t) }
/-- Does a lane wait for a walk of the page. -/
def Lane.walks (l : Lane) (page : Nat) : Bool := match l.st with
  | .parked (.walk va _ _) => pageOf va == page
  | _ => false
/-- The cores of a die with lanes of the context that wait for the page. -/
def State.walkCores (s : State) (d x page : Nat) : List Nat :=
  s.coresOf (fun t => dieOf t.pcore == d && t.ctx == x && t.groups.any (fun g => g.lanes.any (fun l => l.walks page)))
/-- The slice that holds an entry of the L2 TLB: the exclusive or of the 7-bit fields of context and page (R151). -/
def tlbSlice (e : TlbEnt) : Nat :=
  let x := e.ctx * 2 ^ 45 + e.vbase / 2 ^ 12
  (List.range 8).foldl (fun a i => Nat.xor a (x / 2 ^ (7 * i) % 128)) 0
/-- An entry enters the L2 TLB; the oldest of a slice that holds 1,024 leaves it (R151). -/
def addTlb2 (e : TlbEnt) (l : List TlbEnt) : List TlbEnt :=
  if (l.filter (fun f => tlbSlice f == tlbSlice e)).length < 1024 then e :: l
  else match (l.reverse).findIdx? (fun f => tlbSlice f == tlbSlice e) with
    | some i => e :: l.eraseIdx (l.length - 1 - i)
    | none => e :: l
/-- A translation enters the die's L2 TLB and the L1 TLBs of the cores that asked (R151). -/
def State.fillTlb (s : State) (d : Nat) (e : TlbEnt) (cores : List Nat) : State :=
  let same (f : TlbEnt) : Bool := f.ctx == e.ctx && f.vbase == e.vbase && f.size == e.size
  let s := s.modDie d (fun x => { x with l2tlb := addTlb2 e (x.l2tlb.filter (fun f => !same f)) })
  cores.foldl (fun s k => s.modCore k (fun c => { c with tlb := (e :: c.tlb.filter (fun f => !same f)).take 256 })) s
/-- Cards of a context on a die that wait for a page, changed. -/
def State.pageCards (s : State) (d x page : Nat) (f : Card → Card) : State :=
  s.modDie d (fun y => { y with cards := y.cards.map (fun c => if c.ctx = x ∧ c.page = some page then f c else c) })
/-- Does a lane of the teams, not declined, or a card of the die wait for a walk of the page. -/
def State.walkWanted (s : State) (on : Team → Bool) (die ctx page : Nat) : Bool :=
  s.teams.any (fun t => on t && t.groups.any (fun g => g.lanes.any (fun l => l.walks page && l.declined != some page))) ||
  (s.die die).cards.any (fun c => c.ctx == ctx && c.page == some page)
/-- PAGE_WALK_COMPLETE (R148-R151): one of the 4,096 walks that a die tracks ends, unless memory holds back one of its reads. It sets A and fills
the TLBs; V = 0 sends a page request, where a lane that has not been declined or a card waits; a failure is #XLAT at each access, and lost data
#MCHK (R289). -/
def execPageWalkComplete (die ctx page : Nat) (s : State) : Host.Outcome State Fault Refusal :=
  .next (match ((s.die die).walks.take 4096).find? (fun w => w.ctx == ctx && pageOf w.va == page) with
    | none => s
    | some w =>
      if s.walkHeld ctx w.va then s else
      let s := s.walkUse ctx w.va
      let s := s.modDie die (fun x => { x with walks := x.walks.filter (fun k => !(k.ctx == ctx && pageOf k.va == page)) })
      let on (t : Team) : Bool := dieOf t.pcore == die && t.ctx == ctx
      let failed (cause : Nat) : State :=
        (s.modLanes on (fun l => if l.walks page then { l with st := .ready, declined := some page } else l)).pageCards die ctx page
          (fun c => { c with page := none, fail := some (cause, page * 2 ^ 12) })
      if s.walkLost ctx w.va then failed 5
      else match s.walk ctx w.va with
      | .ok e => (({ s with free := s.free + 1 }.fillTlb die e (s.walkCores die ctx page)).setA (e.pteAt w.va)).pageCards die ctx page (fun c => { c with page := none })
      | .absent =>
        let s' := s.modLanes on (fun l => if l.walks page then { l with st := if l.declined = some page then .ready else .parked (.page page) } else l)
        if s.walkWanted on die ctx page then s'.pageRequest ctx w.va w.write w.fetch w.engine else s'
      | .fail => failed 1)

/-- What the host's answer for an I/O page leaves of the device's own accesses that wait for it: its refusal stays noted for them. -/
def Ctx.atsAnswered (mark : Nat) (ok : Bool) (c : Ctx) : Ctx :=
  { c with
    devAsked := c.devAsked.filter (· != mark)
    refused := (if !ok && c.devAsked.contains mark then [mark] else []) ++ c.refused.filter (· != mark) }
/-- ATS_TRANSLATION (R152): the host's answer for an I/O page of a context arrives: the page `host` of its memory with the permissions it grants,
or its refusal, which faults the accesses that wait. -/
def execAtsTranslation (ctx page host : Nat) (a : AtsAnswer) (s : State) : Host.Outcome State Fault Refusal :=
  let mark := atsMark (page * 2 ^ 12)
  let cards (s : State) (f : Card → Card) : State := (List.range s.dies.length).foldl (fun s d => s.pageCards d ctx mark f) s
  let s := if (s.ctx ctx).devAsked = [] ∧ (s.ctx ctx).refused = [] then s else s.modCtx ctx (Ctx.atsAnswered mark (a != .refused))
  .next (
    match a with
    | .granted rd wr =>
      let e : TlbEnt := { ctx := ctx, vbase := page * 2 ^ 12, size := 4096, pbase := host % 2 ^ 38 * 2 ^ 12, shr := .sys, mig := false, mir := false
                          ro := !wr, u := rd, nx := false, cp := 0, pte := 0 }
      cards { s with ats := e :: s.ats.filter (fun f => !(f.ctx == ctx && f.vbase == page * 2 ^ 12)) } (fun c => { c with page := none })
    | .refused =>
      let s := s.modLanes (fun t => t.ctx == ctx) (fun l => if l.st = .parked (.ats page) then { l with st := .ready, declined := some mark } else l)
      cards s (fun c => { c with page := none, fail := some (1, page * 2 ^ 12) }))

/-- Does a place lie in a page of the host's memory. -/
def inIoPage (page : Nat) (l : Loc) : Bool := match l with
  | .phys pa _ _ _ _ => pa / 2 ^ 50 == 2 && pa % 2 ^ 50 / 2 ^ 12 == page
  | .shm _ => false
  | .pad .. => false
/-- Does what an entry of a store queue writes satisfy `p`. -/
def Sq.anyLoc (p : Loc → Bool) (e : Sq) : Bool := match e.act with
  | .store l _ _ => p l
  | .rmw ks => ks.any (fun k => p k.loc)
  | _ => false
/-- Does a held version satisfy `p`. -/
def Held.anyLoc (p : Loc → Bool) (h : Held) : Bool := match h with
  | .bytes x => p x.loc
  | .part x => p x.loc
/-- Does a write that a team has made and that is not yet acknowledged satisfy `p`: in a queue, a saddlebag or a held version. -/
def Team.anyLoc (p : Loc → Bool) (t : Team) : Bool :=
  t.groups.any (fun g => g.sq.any (Sq.anyLoc p) || (g.sad ++ g.unc).any (fun x => p x.loc) || g.bram.any (fun b => b.sad.any (fun x => p x.loc))) ||
  (t.merged ++ t.held).any (Held.anyLoc p) || t.joins.any (fun j => p j.2.loc)
/-- Is a write to the host's page still under way: in flight, of a team, of a card, or in the versions that a bridle grid is still to merge (R297). -/
def State.ioBusy (s : State) (page : Nat) : Bool :=
  s.cores.any (fun c => c.2.fly.any (fun w => inIoPage page w.loc)) || s.allTeams.any (Team.anyLoc (inIoPage page)) ||
  s.dies.any (fun d => d.cards.any (fun c => c.land.any (fun w => inIoPage page w.loc))) ||
  s.grids.any (fun g => (g.held ++ g.snaps).any (fun p => p.2.any (Held.anyLoc (inIoPage page))))
/-- ATS_INVALIDATION (R297): the entries of a PASID for the page go, so that later accesses translate anew; it completes once every write that used
them is acknowledged. -/
def execAtsInvalidation (pasid page : Nat) (s : State) : Host.Outcome State Fault Refusal :=
  let hit (e : TlbEnt) : Bool := s.ctxPasid e.ctx == pasid && decide (e.vbase ≤ page * 2 ^ 12) && decide (page * 2 ^ 12 < e.vbase + e.size)
  .next { s with
    ats := s.ats.filter (fun e => !hit e)
    atsInv := s.atsInv ++ (s.ats.filter hit).map (fun e => (pasid, e.pbase / 2 ^ 12)) }
/-- ATS invalidations complete toward the host (R297). -/
def State.atsDone (s : State) : State := if s.atsInv = [] then s else { s with atsInv := s.atsInv.filter (fun i => s.ioBusy i.2) }

/-! ## Migration (R147) -/

/-- Steps between two values of a ring of `n`. -/
def ringDist (n a b : Nat) : Nat := min ((a + n - b) % n) ((b + n - a) % n)
/-- Hops between two nodes of a die. -/
def hops (a b : Nat) : Nat := ringDist 16 (a % 16) (b % 16) + ringDist 8 (a / 16) (b / 16)
/-- Is a node at least two hops from the holder, or on another die. -/
def farNode (req holder : Nat) : Bool := req / 128 != holder / 128 || decide (2 ≤ hops (req % 128) (holder % 128))
/-- Does a held version stand on a physical line. -/
def Held.onLine (line : Nat) (h : Held) : Bool := h.sectors.any (fun q => q.1 == 2 && q.2 / 4 == line)
/-- Does a sector stand on a physical line. -/
def Sector.onLine (line : Nat) (x : Sector) : Bool := x.loc.sp == 2 && decide (x.loc.at / 128 = line)
/-- Is the line under a held version of a bridle team, one that its group or its cards have still to commit and one that its grid keeps to merge
among them (R202, R203, R206). -/
def State.lineHeld (s : State) (line : Nat) : Bool :=
  s.allTeams.any (fun t => (t.merged ++ t.held).any (Held.onLine line) || t.groups.any (fun g => (g.sad ++ g.unc).any (Sector.onLine line)) ||
    t.joins.any (fun j => j.2.onLine line)) ||
  s.grids.any (fun g => (g.held ++ g.snaps).any (fun p => p.2.any (Held.onLine line)))
/-- The oldest migrated line of a slice returns home when its 4,096 forwarding entries are in use. -/
def State.recall (s : State) (d node : Nat) : State :=
  let own := (s.die d).fwd.filter (fun k => s.homeNode k == node)
  if own.length < 4096 then s
  else match own with
    | [] => s
    | k :: _ => match s.l2Find k with
      | some y => s.dropL2 none y
      | none => s.modDie d (fun x => { x with fwd := x.fwd.filter (fun j => j != k) })
/-- LINE_MIGRATION (R147): a line that one far node has asked for 8 times in a row moves to that node's slice, which makes room for it. -/
def execLineMigration (die line : Nat) (s : State) : Host.Outcome State Fault Refusal :=
  .next (match s.l2Find line with
    | none => s
    | some r =>
      let home := s.homeNode line
      if die ≠ homeDie (line * 128) ∨ r.count < 8 ∨ !r.mig ∨ !farNode r.req (r.holder.getD home) ∨ s.lineHeld line then s
      else
        let s := if r.req = home || (s.die die).fwd.contains line then s else s.recall die home
        let s := (s.roomL2 r.req none).1
        if (s.l2Find line).isNone then s
        else if r.req = home then s.homeL2 line
        else (s.modDie die (fun x => { x with fwd := x.fwd.filter (fun k => k != line) ++ [line] })).modLine line (fun x => { x with holder := some r.req }))

/-! ## Configuration of memory (R144-R146) -/

/-- Does an enabled context hold the partition on its dies. -/
def State.partHeld (s : State) (k : Nat) : Bool := (List.range 1024).any (fun x => s.ctxEn x && s.ctxPart x == k)
/-- Are the nonzero masks linearly independent. -/
def independent (ms : List Nat) : Bool :=
  let l := ms.filter (· != 0)
  (List.range (2 ^ l.length)).all (fun c => c == 0 || (enum l).foldl (fun a p => if c.testBit p.1 then Nat.xor a p.2 else a) 0 != 0)
/-- A register write of 4 or 8 bytes laid over its 64-bit register. -/
def over64 (old off v : Nat) (wide : Bool) : Nat := if wide then v % 2 ^ 64 else setBits old (if off % 8 = 4 then 32 else 0) 32 v
/-- A write of PCTL while the partition is free: a slice keeps no more lines than its L2 share holds from then on (R136). -/
def State.writePctl (s : State) (die k v : Nat) : State :=
  let o := partOff die k 0x38
  let old := s.bar o
  let keep := bitsAt old 15 2 - Nat.land (bitsAt old 15 2) (bitsAt v 15 2)
  if bitsAt v 14 1 = 1 ∧ !independent ((List.range 7).map (s.shMask die k)) then s.setBar o (Nat.lor old (2 ^ 16))
  else
    let bad := bitsAt v 8 3 = 7
    (s.setBar o (bitsAt v 0 7 + (if bad then bitsAt old 8 3 else bitsAt v 8 3) * 2 ^ 8 + bitsAt v 14 1 * 2 ^ 14 +
      (if bad then Nat.lor keep 2 else keep) * 2 ^ 15)).fitL2 die
/-- A write of a register of partition `k`, refused with BUSY while a context holds it. DESIGN CHOICE (log 38): L2 lines whose home slice a mask or constant
moves stay, as lines of the new home; where a slice then holds more than its share (R136), its oldest leave. -/
def State.writePart (s : State) (die k off v : Nat) (wide : Bool) : State :=
  if 4 ≤ die ∨ 16 ≤ k ∨ 0x3C ≤ off ∨ off % (if wide then 8 else 4) ≠ 0 then s
  else if s.partHeld k then s.setBar (partOff die k 0x38) (Nat.lor (s.bar (partOff die k 0x38)) (2 ^ 15))
  else if off < 0x38 then
    let o := partOff die k (off / 8 * 8)
    (s.setBar64 o (over64 (s.bar64 o) off v wide % 2 ^ 52 / 2 ^ 7 * 2 ^ 7)).fitL2 die
  else s.writePctl die k (v % 2 ^ 32)
/-- PARTITION_WRITE (R144). -/
def execPartitionWrite (die k off v : Nat) (wide : Bool) (s : State) : Host.Outcome State Fault Refusal := .next (if s.hostOpen then s.writePart die k off v wide else s)

/-- The granule map or XPART is written: the lines whose home the write moves are written back and invalidated, and accesses to them wait. -/
def State.writeMap (s : State) (die off v : Nat) : State :=
  if 4 ≤ die ∨ 0x48 < off ∨ off % 4 ≠ 0 then s
  else
    let w := if off = 0x48 then v % 16 else v % 2 ^ 32
    s.modDie die (fun x => { x with
      l2 := x.l2.filter (fun r => !s.homeMoves die off w r.line)
      fwd := x.fwd.filter (fun k => !s.homeMoves die off w k)
      remap := x.remap.filter (fun r => r.1 != 0x0011_0000 + off) ++ [(0x0011_0000 + off, w)] })
/-- GRANULE_MAP_WRITE (R145). -/
def execGranuleMapWrite (die off v : Nat) (s : State) : Host.Outcome State Fault Refusal := .next (if s.hostOpen then s.writeMap die off v else s)
/-- GRANULE_REMAP_COMPLETE (R145): the new mapping applies. -/
def execGranuleRemapComplete (die : Nat) (s : State) : Host.Outcome State Fault Refusal :=
  .next (((s.die die).remap.foldl (fun s r => s.setBar (dieOff die r.1) r.2) s).modDie die (fun x => { x with remap := [] }))
/-- MS is written: ignored while any context is enabled, and above 72. -/
def State.writeMirror (s : State) (die v : Nat) : State :=
  if 4 ≤ die ∨ 72 < v % 2 ^ 7 ∨ (List.range 1024).any s.ctxEn then s else s.setBar (dieOff die 0x0011_004C) (v % 2 ^ 7)
/-- MIRROR_SIZE_WRITE (R146). -/
def execMirrorSizeWrite (die v : Nat) (s : State) : Host.Outcome State Fault Refusal := .next (if s.hostOpen then s.writeMirror die v else s)

/-! ## From outside the package (R177, R178, R298, R301, R304) -/

/-- Does the mirrored range hold the address: its copy is kept (R140, log 24). -/
def State.mirrorable (s : State) (pa : Nat) : Bool := decide (pa < 2 ^ 50) && decide (pa % Config.dieHbm < s.mirSize (pa / Config.dieHbm))
/-- Is a range of physical memory populated, for a requester outside. -/
def outsideIn (pa n : Nat) : Bool := if pa < 2 ^ 50 then decide (pa + n ≤ Config.hbmBytes) else decide (pa + n ≤ 2 ^ 52) && pa / 2 ^ 50 != 1
/-- Is a range populated, and free of holds, as its mirror copy is for a write (R140, R262). -/
def State.outsideOk (s : State) (pa n : Nat) (write : Bool) : Bool :=
  outsideIn pa n && (splitAt' 32 pa n).all (fun p => !s.accHeld p.1 (s.mirrorable p.1) write)
/-- A request from outside that waits notes the channels that it needs (R262). -/
def State.outsideWait (s : State) (pa n : Nat) (write : Bool) : State :=
  if outsideIn pa n then (splitAt' 32 pa n).foldl (fun s p => s.want p.1 (s.mirrorable p.1) write) s else s
/-- A write from outside lands at its home slices, line by line; it updates no L1 copy (R177). -/
def State.outsideWrite (s : State) (pa : Nat) (bs : List Byte) : State :=
  (splitAt' 32 pa bs.length).foldl (fun s p => s.landPhys p.1 (s.mirrorable p.1) ((bs.drop (p.1 - pa)).take p.2)) s
/-- The sectors of a range, for a requester outside. -/
def State.outsidePieces (s : State) (pa n : Nat) : List (Loc × Nat) :=
  (splitAt' 32 pa n).map (fun p => ((.phys p.1 .sys (s.mirrorable p.1) false 0 : Loc), p.2))
/-- Physical bytes for a requester outside, from the mirror where the primary is lost; none where the data is lost (R289). -/
def State.outsideRead (s : State) (pa n : Nat) : List Byte :=
  let ps := s.outsidePieces pa n
  if s.lostIn ps then [] else (s.fromMirror ps).memBytes pa n
/-- What a read from outside does: lost sectors are rewritten from their mirror copies (R289), and its channels are used (R262). -/
def State.outsideTouch (s : State) (pa n : Nat) : State :=
  let ps := s.outsidePieces pa n
  if s.lostIn ps then s else ps.foldl (fun s p => s.useLine p.1.at) (s.fromMirror ps)
/-- A line leaves the L2 with nothing to write: what stands at its home is newer, or the same. -/
def State.purge (s : State) (pa : Nat) : State :=
  s.modDie (homeDie pa) (fun x => { x with l2 := x.l2.filter (fun r => r.line != pa / 128), fwd := x.fwd.filter (fun k => k != pa / 128) })
/-- A line of the host's memory leaves the L2: its dirty sectors are at the host (R178, R298). -/
def State.snoop (s : State) (pa : Nat) : State := if pa / 2 ^ 50 < 2 then s else s.purge pa
/-- HOST_POSTED_WRITE (R177, R178): lands at the home slice; a write of the host's own memory invalidates the L2's lines of it. -/
def execHostPostedWrite (pa : Nat) (bs : List Byte) (s : State) : Host.Outcome State Fault Refusal :=
  .next (if !s.hostOpen then s
    else if s.outsideOk pa bs.length true then (splitAt' 128 pa bs.length).foldl (fun s p => s.snoop p.1) (s.outsideWrite pa bs)
    else s.outsideWait pa bs.length true)
/-- HOST_READ (R177): the value at the home slice. -/
def execHostRead (pa n : Nat) (s : State) : Host.Outcome State Fault Refusal :=
  .next (if !s.hostOpen then s
    else if s.outsideOk pa n false then { s.outsideTouch pa n with reply := s.outsideRead pa n }
    else s.outsideWait pa n false)
/-- CXL_SNOOP (R298). -/
def execCxlSnoop (pa : Nat) (s : State) : Host.Outcome State Fault Refusal := .next (if s.hostOpen then s.snoop pa else s)
/-- RDMA_WRITE (R304): privileged software binds a queue pair to a context, or a write of a bound one lands at the home slice, in the order of its
queue pair, which is that of the events. -/
def execRdmaWrite (qp : Nat) (op : RdmaOp) (bs : List Byte) (s : State) : Host.Outcome State Fault Refusal :=
  .next (if 65536 ≤ qp then s
    else match op with
      | .bind x => if s.hostOpen && decide (x < 1024) then { s with qps := SMap.set 0 s.qps qp (x + 1) } else s
      | .write pa => if SMap.get 0 s.qps qp = 0 ∨ 2 ^ 50 ≤ pa then s
        else if s.outsideOk pa bs.length true then s.outsideWrite pa bs
        else s.outsideWait pa bs.length true)

/-- A port's record after a flit: one that fails its CRC or authentication is sent again; three authentication failures in a row take the port
down, and one with no key carries no traffic (R300, R302). -/
def Port.flit (crc auth : Bool) (p : Port) : Port :=
  if !p.up || p.key.isNone || !crc then p
  else if auth then { p with fails := 0 }
  else { p with fails := if 2 ≤ p.fails then 0 else p.fails + 1, up := decide (p.fails < 2) }
/-- ENMER_FLIT_RECEIVE (R300, R302): retries are counted in the lifetime record. -/
def execEnmerFlitReceive (port : Nat) (crc auth : Bool) (s : State) : Host.Outcome State Fault Refusal :=
  let live := match s.ports[port]? with
    | some p => p.up && p.key.isSome && !(crc && auth)
    | none => false
  let s : State := { s with ports := updAt s.ports port (Port.flit crc auth) }
  .next (if live then s.countRetry port else s)
/-- A peer's atomic: the value before, and the bytes after (R169, R315). -/
def State.peerAtomic (s : State) (pa op b c : Nat) (ty : Ty) : Nat × List Byte :=
  let w := atomWidth op ty
  let old := s.memNat pa w
  (old, leBytes w (atomNew op ty none old b c))
/-- ENMER_REMOTE_REQUEST (R301): a peer's request reaches its home slice; a read copy is entered in the directory, and a write's
invalidation comes before its acknowledgement. A line of a peer's memory takes what stands at the peer's home
slice, which invalidates the copy in this package's L2. No request travels without a
port that has a key (R302). -/
def execEnmerRemoteRequest (pkg : Nat) (req : Remote) (s : State) : Host.Outcome State Fault Refusal :=
  .next (if !s.ports.any (fun p => p.up && p.key.isSome) then s else match req with
    | .home pa bs =>
      if pa / 2 ^ 50 = 1 ∧ (pa + bs.length) / 2 ^ 50 = 1 ∧ pa / 2 ^ 40 % 1024 = pkg ∧ (splitAt' 128 pa bs.length).all (fun p => s.linkOpen (p.1 / 128)) then
        (splitAt' 128 pa bs.length).foldl (fun s p => s.purge p.1) (s.outsideWrite pa bs)
      else s
    | .load pa n =>
      if 2 ^ 50 ≤ pa then s
      else if s.outsideOk pa n false then
        let ls := ((splitAt' 128 pa n).map (fun p => (p.1 / 128, pkg))).filter (fun r => !s.readers.contains r)
        { s.outsideTouch pa n with reply := s.outsideRead pa n, readers := s.readers ++ ls }
      else s.outsideWait pa n false
    | .store pa bs =>
      if 2 ^ 50 ≤ pa then s
      else if s.outsideOk pa bs.length true then s.outsideWrite pa bs
      else s.outsideWait pa bs.length true
    | .atomic pa op ty b c =>
      let w := atomWidth op ty
      if 2 ^ 50 ≤ pa ∨ pa % w ≠ 0 then s
      else if s.outsideOk pa w true then
        if s.lostIn (s.outsidePieces pa w) then { s with reply := [] }
        else
          let s := s.outsideTouch pa w
          let r := s.peerAtomic pa op b c ty
          { (s.outsideWrite pa r.2) with reply := leBytes w r.1 }
      else s.outsideWait pa w true)
/-- Management writes the word at `off` of the peer map (R459). -/
def State.writePeerMap (s : State) (off v : Nat) : State :=
  if off % 4 ≠ 0 ∨ 0x80 < off then s
  else if off = 0x80 then s.setBar 0x0090_0080 (v % 2 ^ 11)
  else s.setBar (0x0090_0000 + off) (v % 2 ^ 32)
/-- PEER_MAP_WRITE (R459). -/
def execPeerMapWrite (off v : Nat) (s : State) : Host.Outcome State Fault Refusal := .next (s.writePeerMap off v)

end Sys2Proof.Machine
end

