-- ==== Sys2Proof/Machine/Merges.lean ====
section
/-! DEFINITION. The merges of bridle teams' versions (R204-R207, R245, R246). -/
namespace Sys2Proof.Machine

/-! ## The merged bytes (R205, R206) -/

/-- The versions of teams by linear index, ascending. -/
abbrev Versions := List (Nat × List Held)
/-- The key of a byte: its address and space. -/
def byteKey (sp a : Nat) : Nat := 2 * a + (sp - 1)
/-- Inserts a team in ascending order. -/
def insertTeam (p : Nat × List Held) : Versions → Versions
  | [] => [p]
  | q :: r => if p.1 ≤ q.1 then p :: q :: r else q :: insertTeam p r
/-- Teams in ascending order. -/
def Versions.sorted (v : Versions) : Versions := v.foldr insertTeam []
/-- The bytes that a team wrote plainly, by key. -/
def plainBytes (h : List Held) : List (Nat × Byte) :=
  h.flatMap (fun e => match e with
    | .bytes x => (lanesOf x.mask).map (fun i => (byteKey x.loc.sp (x.loc.at + i), (x.bytes[i]?).getD 0))
    | .part _ => [])
/-- A team's versions since its LNXT over those from before. -/
def overVersions (old new : List Held) : List Held :=
  new.foldl (fun h e => match e with
    | .bytes x => commitOne h x
    | .part _ => h ++ [e]) old
/-- Bytes merged so far, by key: the byte plus 1. -/
abbrev Merged := SMap Nat
/-- A byte under the merge. -/
def Merged.byte (m : Merged) (f : Nat → Nat → Byte) (sp a : Nat) : Byte :=
  let v := SMap.get 0 m (byteKey sp a)
  if v = 0 then f sp a else BitVec.ofNat 8 (v - 1)
/-- A byte merged. -/
def Merged.put (m : Merged) (k : Nat) (b : Byte) : Merged := SMap.set 0 m k (b.toNat + 1)
/-- A partial merged into the value below it. -/
def Merged.fold (f : Nat → Nat → Byte) (m : Merged) : Held → Merged
  | .bytes _ => m
  | .part p =>
    let old := leNat ((List.range p.width).map (fun i => m.byte f p.loc.sp (p.loc.at + i)))
    let r := p.sr.map (fun q => srBits q.1 p.loc.elem q.2)
    (enum (leBytes p.width (foldMerge p.op p.ty r old p.val))).foldl (fun m q => m.put (byteKey p.loc.sp (p.loc.at + q.1)) q.2) m
/-- One team merged: its plain bytes, then its partials. -/
def mergeTeam (f : Nat → Nat → Byte) (m : Merged) (h : List Held) : Merged :=
  h.foldl (Merged.fold f) ((plainBytes h).foldl (fun m p => m.put p.1 p.2) m)
/-- The sectors under the versions, each once. -/
def mergedSectors (v : Versions) : List Loc :=
  (v.flatMap (fun p => p.2.map (fun e => match e with
    | .bytes x => x.loc
    | .part q => q.loc.sector))).foldl (fun acc l => if acc.any (fun k => k.sp == l.sp && k.at == l.at) then acc else acc ++ [l]) []
/-- A sector as merged. -/
def Merged.sector (m : Merged) (l : Loc) : Sector :=
  let v (i : Nat) : Nat := SMap.get 0 m (byteKey l.sp (l.at + i))
  ⟨l, (List.range 32).map (fun i => BitVec.ofNat 8 (v i - 1)), maskOf ((List.range 32).filter (fun i => v i != 0))⟩
/-- A byte of the pad or of physical memory at its home. -/
def State.rawByte (s : State) (sp a : Nat) : Byte := if sp = 1 then SMap.get 0 s.pad a else SMap.get 0 s.mem a
/-- The merge of versions over memory. -/
def State.mergeOf (s : State) (v : Versions) : Merged := v.sorted.foldl (fun m p => mergeTeam s.rawByte m p.2) []
/-- What memory held before, for the bytes that the merge writes. -/
def State.oldBytes (s : State) (m : Merged) : List (Nat × Byte) := m.map (fun p => (p.1, s.rawByte (p.1 % 2 + 1) (p.1 / 2)))
/-- Does the merge wait for memory (R272, R302): the first place that is held. -/
def State.mergeStop (s : State) (v : Versions) : Option Stop :=
  (mergedSectors v).findSome? (fun l => match l with
    | .phys pa _ mir _ _ => if s.accHeld pa mir true then some (.wait (some (pa, mir, true))) else none
    | .shm _ => none
    | .pad .. => none)
/-- A write of a merge at its home: it is an L2 request of the context there (R153). -/
def State.mergeLand (s : State) (x : Nat) (l : Loc) (bs : List Byte) : State :=
  (match l with
   | .phys pa _ _ _ cp => s.l2Touch x (s.homeNode (pa / 128)) pa false cp true
   | .shm _ => s
   | .pad .. => s).land l bs
/-- The merge of a context's grid written to memory. -/
def State.writeMerge (s : State) (x : Nat) (v : Versions) (m : Merged) : State :=
  (mergedSectors v).foldl (fun s l => (sectorRuns (m.sector l)).foldl (fun s r => s.mergeLand x (l.plus r.1) r.2) s) s
/-- What a byte of a team's layer 1 was, for a byte that a merge overwrites: where its own grid's synchronisation has overwritten it before, what stood
there then. -/
def Team.wasByte (t : Team) (p : Nat × Byte) : Nat × Byte := (p.1, ((t.own.find? (fun q => q.1 == p.1)).map Prod.snd).getD p.2)
/-- A team keeps the bytes of its layer 1 that a merge overwrites: by its own grid's synchronisation, or by a predecessor's end (R206). -/
def Team.keepOld (own : Bool) (old : List (Nat × Byte)) (t : Team) : Team :=
  if own then { t with own := t.own ++ old }
  else { t with layer1 := t.layer1 ++ old.map t.wasByte, own := t.own.filter (fun q => !old.any (fun p => p.1 == q.1)) }
/-- The bytes join what teams keep of their layer 1 (R206), and their cards' views; `own`: of their own grid's synchronisation. -/
def State.keepOld (s : State) (own : Bool) (old : List (Nat × Byte)) (p : Team → Bool) : State :=
  let f (t : Team) : Team := if p t then t.keepOld own old else t
  let its (c : Card) : Bool := ((c.tid).bind s.anyTeam?).any p
  { s with
    teams := s.teams.map f
    saved := s.saved.map (fun k => { k with team := f k.team })
    dies := s.dies.map (fun d => { d with cards := d.cards.map (fun c => if its c then { c with view := c.view.map (fun v => (v.1 ++ old, v.2)) } else c) }) }

/-! ## Conflicts (R207) -/

/-- A conflict report: the address in physical form, the lowest pair of teams, and the count of conflicting bytes. -/
structure Conflict where
  addr : Nat
  lower : Nat
  higher : Nat
  count : Nat
  deriving DecidableEq, Repr
/-- The physical form of a byte's address. -/
def reportAddr (k : Nat) : Nat :=
  if k % 2 = 1 then k / 2
  else
    let a := k / 2
    2 ^ 63 + a / 2 ^ 31 * 2 ^ 32 + 2 ^ 31 + a % 2 ^ 31
/-- The lowest pair that conflicts on a byte. -/
def clash : List (Nat × Byte) → Option (Nat × Nat)
  | [] => none
  | p :: r => match r.find? (fun q => q.2 != p.2) with
    | some q => some (p.1, q.1)
    | none => clash r
/-- The conflicts among teams' plain bytes: address and pair. -/
def clashes (v : Versions) : List (Nat × Nat × Nat) :=
  let ws := v.sorted.flatMap (fun p => (plainBytes p.2).map (fun b => (b.1, p.1, b.2)))
  let ks := (ws.map Prod.fst).eraseDups
  ks.filterMap (fun k => (clash ((ws.filter (fun w => w.1 == k)).map Prod.snd)).map (fun q => (reportAddr k, q)))
/-- The report of a merge. -/
def conflictOf (v : Versions) : Option Conflict :=
  match clashes v with
  | [] => none
  | c :: r =>
    let b := r.foldl (fun b q => if q.1 < b.1 then q else b) c
    some ⟨b.1, b.2.1, b.2.2, (c :: r).length⟩
/-- What a team's record says of the conflict. -/
def Conflict.halt (c : Conflict) : Halt := ⟨0, tDETCONF, 0, c.addr, 0, c.lower, c.higher, 0, c.count, [], []⟩
/-- A resident team halts with the report; one that a trap has halted keeps its record. -/
def Team.detconf (c : Conflict) (t : Team) : Team :=
  if t.groups.all (·.retired) then t
  else match t.halt with
    | some h => if h.kind = 0 then t else { t with halt := some c.halt }
    | none => { t with halt := some c.halt, groups := t.groups.map (fun g => { g with stopped := true }) }

/-! ## Grid synchronisation (R206, R245) -/

/-- What the teams of a bridle grid bring to its synchronisation: the versions from before their LNXT, and those of teams that have retired without
one (R180, R206). -/
def Grid.atSync (g : Grid) : Versions := g.snaps ++ g.held.filter (fun p => !g.snaps.any (fun q => q.1 == p.1))
/-- Does every team of the grid count (R180): in bridle mode by its LNXT, or by retirement. -/
def State.allLnxt (s : State) (g : Grid) : Bool :=
  if g.la.bridle then decide (g.atSync.length = g.total)
  else decide (g.placed = g.total) && (s.allTeams.filter (fun t => t.grid == g.gid)).all (fun t => t.groups.all (fun k => k.lnxt || k.retired))
/-- Has the grid's predecessor ended. -/
def State.predOver (s : State) (g : Grid) : Bool :=
  match g.pred with
  | none => true
  | some p => (s.grid? p).isNone
/-- Have all the teams of a grid retired, those that will never be placed among them (R49, R280). -/
def Grid.over (g : Grid) : Bool := decide (g.retired = g.placed) && (g.killed || decide (g.placed = g.total))
/-- Word `k` of the grid-end record. -/
def Conflict.word (c : Conflict) (k : Nat) : Nat :=
  if k = 0 then tDETCONF
  else if k = 1 then c.lower
  else if k = 2 then c.addr % 2 ^ 32
  else if k = 3 then c.addr / 2 ^ 32
  else if k = 5 then c.lower
  else if k = 6 then c.higher
  else if k = 8 then c.count
  else 0
/-- The grid-end record's 4,096 bytes. -/
def Conflict.bytes (c : Conflict) : List Byte := (List.range 1024).flatMap (fun k => leBytes 4 (c.word k))
/-- The device writes the report into the version area and posts the notice, where no team is left to halt: the state after, or why it waits. -/
def State.reportEnd (s : State) (g : Grid) (c : Conflict) : Except Stop State :=
  match s.devWrite g.ctx g.la.verBase c.bytes with
  | .ok s' => .ok ((s'.devOver g.ctx).post g.ctx ⟨g.la.verBase, 0, tDETCONF, c.lower⟩)
  | .error e => match s.answered g.ctx e with
    | .fail _ va => .ok ((s.devFail g.ctx va).post g.ctx ⟨0, 0, tDETCONF, c.lower⟩)
    | e' => .error e'
/-- What comes before a merge: the wait for memory, and where no team is left to halt, the report of a conflict (R207). -/
def State.preMerge (s : State) (g : Grid) (v : Versions) : Except Stop State :=
  match s.mergeStop v with
  | some e => .error e
  | none => match conflictOf v with
    | none => .ok s
    | some c => if g.over then s.reportEnd g c else .ok s
/-- The teams of a grid that have not retired halt with the report of its synchronisation (R207). -/
def State.haltGrid (s : State) (gid : Nat) (c : Conflict) : State :=
  let s : State := { s with teams := s.teams.map (fun t => if t.grid = gid then t.detconf c else t) }
  (s.saved.filter (fun k => k.team.grid == gid && !k.trapped && !k.team.groups.all (·.retired))).foldl (fun s k => s.haltSaved k c.halt) s
/-- GRID_SYNC_MERGE (R206, R207, R245): the versions from before each team's LNXT merge; the grid's own teams keep their views. -/
def execGridSyncMerge (gid : Nat) (s : State) : Host.Outcome State Fault Refusal :=
  .next (match s.grid? gid with
    | none => s
    | some g =>
      if !g.la.bridle || g.synced || g.killed || !s.allLnxt g then s
      else
        let v := g.atSync
        match s.preMerge g v with
        | .error e => s.devStop g.ctx e
        | .ok s0 =>
          let m := s0.mergeOf v
          let s1 := ((s0.keepOld true (s0.oldBytes m) (fun t => t.grid == gid)).writeMerge g.ctx v m).modGrid gid (fun g => { g with
            synced := true, held := g.held.map (fun p => (p.1, if g.snaps.any (fun q => q.1 == p.1) then p.2 else [])) })
          match conflictOf v with
          | none => s1
          | some c => s1.haltGrid gid c)

/-! ## Grid end (R49, R206, R207) -/

/-- The context's reserved slots of an ended grid are given up (R198). -/
def State.unreserve (s : State) (x gid : Nat) : State := s.modCtx x (fun c => { c with reserved := c.reserved.filter (fun r => r.1 != gid) })
/-- The grid is over: it has ended, and its packet is complete (R238). -/
def State.endGrid (s : State) (g : Grid) : State :=
  let s : State := { s with grids := s.grids.filter (fun k => k.gid != g.gid) }.unreserve g.ctx g.gid
  match g.graph with
  | some _ => s
  | none => s.completePacket g.ctx g.queue g.idx
/-- What is still to merge at the grid's end. -/
def Grid.remaining (g : Grid) : Versions :=
  if g.synced then g.held
  else g.held.map (fun p => (p.1, overVersions (((g.snaps.find? (fun q => q.1 == p.1)).map Prod.snd).getD []) p.2))
/-- Is a grid a successor of another, or a successor's. -/
def State.follows (s : State) (gid : Nat) : Nat → Grid → Bool
  | 0, _ => false
  | n + 1, g => match g.pred with
    | none => false
    | some p => p == gid || (s.grid? p).any (State.follows s gid n)
/-- GRID_END_MERGE (R206, R207): every remaining version merges into memory and the grid ends, after its predecessor's end; successors that have not
executed GWAIT keep what they read. -/
def execGridEndMerge (gid : Nat) (s : State) : Host.Outcome State Fault Refusal :=
  .next (match s.grid? gid with
    | none => s
    | some g =>
      if !g.la.bridle || !g.over || !s.predOver g || (!g.synced && g.snaps != [] && s.allLnxt g && !g.killed) then s
      else
        let v := g.remaining
        match s.preMerge g v with
        | .error e => s.devStop g.ctx e
        | .ok s1 =>
          let m := s1.mergeOf v
          let old := s1.oldBytes m
          let after (k : Grid) : Bool := k.la.bridle && s.follows gid s.grids.length k
          let s2 := (s1.keepOld false old (fun t => t.la.bridle && (s.grid? t.grid).any after)).writeMerge g.ctx v m
          State.endGrid { s2 with grids := s2.grids.map (fun k => if after k then { k with layer := k.layer ++ old } else k) } g)

end Sys2Proof.Machine
end

