-- ==== Sys2Proof/Machine/Placing.lean ====
section
/-! DEFINITION. Placement, restore and retirement of launched teams, and pre-emption for realtime work (R45-R50, R132, R162, R198, R206,
R230, R238, R242-R244, R251, R281-R284). -/
namespace Sys2Proof.Machine

/-! ## New clusters (R45, R47, R242) -/

/-- The team of rank `r` of a new cluster, at its spot, with its slots. -/
def State.newTeam (s : State) (g : Grid) (w : Want) (d r : Nat) (sp : Spot) (slots : List Nat) : Team :=
  let core := if g.la.bridle then (w.virt[r]?).getD sp.core else sp.core
  let t := Team.start (s.nextId + r) g.ctx g.gid (w.lin + r) g.gx g.gy g.gz g.cw g.ch (s.charged d g.la) sp core slots (s.die d).time g.la.entry 0xFFFFFFFF
  { t with layer1 := if g.la.bridle then g.layer else [] }
/-- A core takes a team of a context (R160, R162, R165, R180): its L1 drops the context's lines of CORE pages, the team acquires at SYS, and the core
keeps no code that it fetched before (R179, R371). -/
def State.freshCore (s : State) (core x : Nat) : State :=
  ((s.loseL1 core (fun y => y.ctx == x && y.shr == .core)).acquire core .sys).modCore core (fun c => { c with icache := [] })
/-- The sectors of a core's L1 that the core drops as it takes a team of a context (R160, R251). -/
def dropsFor (x : Nat) (sp : List (Nat × Nat)) (y : L1Sec) : Bool := (y.ctx == x && y.shr == .core) || meetsSpan sp (y.sec / 4)
/-- Must a placement on the core wait: the write-back of a sector that the core drops waits for its memory (R262, R302). -/
def State.coreStuck (s : State) (x : Nat) (sp : List (Nat × Nat)) (core : Nat) : Bool := (s.stuckIn core (dropsFor x sp)).isSome
/-- Such a placement notes the channels that it waits for (R262). -/
def State.wantCore (s : State) (x : Nat) (sp : List (Nat × Nat)) (core : Nat) : State := s.wantIn core (dropsFor x sp)
/-- A new cluster is placed. -/
def State.placeNew (s : State) (g : Grid) (w : Want) (d : Nat) (sps : List Spot) : State :=
  match s.clusterSlots w.ctx w.gid w.la (if w.la.bridle then w.virt else w.ranks) with
  | none => s
  | some slots =>
    let ts := (enum (sps.zip slots)).map (fun p => s.newTeam g w d p.1 p.2.1 p.2.2)
    let s := sps.foldl (fun s sp => s.freshCore sp.core g.ctx) s
    ({ s with
      teams := s.teams ++ ts
      nextId := s.nextId + ts.length
      lastDie := d }).modGrid g.gid (fun g => { g with placed := g.placed + ts.length, since := (s.die d).time })

/-! ## Restore (R162, R281-R284) -/

/-- The groups of a team at their new places within the core. -/
def Team.requarter (t : Team) (sp : Spot) : Team :=
  { t with groups := (enum t.groups).map (fun p =>
      let u := (sp.units[p.1 / t.la.hdr.unit]?).getD (0, 0)
      { p.2 with quarter := u.1, vat := u.2, stopped := false, skid := 0, slots := 0, scode := 0, fpx := 0 }) }
/-- A saved team stands on a core again, to be restored from its block. -/
def Saved.placed (k : Saved) (sp : Spot) : Team :=
  { k.team.requarter sp with
    pcore := sp.core
    core := if k.team.la.bridle then k.team.core else sp.core
    shmAt := sp.shmAt
    barAt := sp.barAt
    halt := none
    back := some (dieOf k.team.pcore, k.block, k.addr)
    pin := [] }
/-- One team of a saved cluster is placed: its core's L1 keeps no older copy of what it has read or written (R157, R162), and its withdrawn ARED
cards are issued again (R230). -/
def State.placeSaved (s : State) (k : Saved) (sp : Spot) : State :=
  let s := s.freshCore sp.core k.team.ctx
  let s := { s with
    saved := s.saved.filter (fun j => j.team.tid != k.team.tid)
    teams := s.teams ++ [k.placed sp] }
  s.modDie (dieOf sp.core) (fun x => { x with cards := x.cards ++ k.ared.map (fun c => { c with core := sp.core }) })
/-- A saved cluster is placed. -/
def State.placeBack (s : State) (w : Want) (d : Nat) (sps : List Spot) : State :=
  let n := w.cw * w.ch
  let mates := s.saved.filter (fun k => k.team.grid == w.gid && k.waiting && k.team.lin / n == w.lin / n)
  let s' := (w.ranks.zip sps).foldl (fun s p => match mates.find? (fun k => k.team.lin % n == p.1) with
    | some k => s.placeSaved k p.2
    | none => s) s
  { s' with lastDie := d }
/-- CLUSTER_PLACEMENT and BRIDLE_CLUSTER_PLACEMENT place the cluster of a grid that goes next. -/
def State.placeNext (s : State) (gid : Nat) (bridle : Bool) : State :=
  match s.nextWant gid bridle with
  | none => s
  | some (w, d, sps) =>
    if sps.any (fun sp => s.coreStuck w.ctx [] sp.core) then sps.foldl (fun s sp => s.wantCore w.ctx [] sp.core) s
    else
    let s : State := { s with claims := SMap.set [] s.claims gid [] }
    if w.back then (s.placeBack w d sps).admitted d (0, gid)
    else match s.grid? gid with
      | some g => (s.placeNew g w d sps).admitted d (0, gid)
      | none => s
/-- CLUSTER_PLACEMENT (R45, R242): a new or saved cluster of a grid, or a saved task, in free mode. -/
def execClusterPlacement (gid : Nat) (s : State) : Host.Outcome State Fault Refusal := .next (s.placeNext gid false)
/-- BRIDLE_CLUSTER_PLACEMENT (R198). -/
def execBridleClusterPlacement (gid : Nat) (s : State) : Host.Outcome State Fault Refusal := .next (s.placeNext gid true)

/-- The vector registers of a group as the bytes of a save block give them. -/
def Group.loadVec (g : Group) (n : Nat) (bs : List Byte) : Group :=
  (List.range n).foldl (fun g r => (List.range 32).foldl (fun g l => g.wv l r (BitVec.ofNat 32 (fieldAt bs (128 * r + 4 * l) 4))) g) g
/-- A lane that was saved waiting for a translation retries its access (R150, R284). -/
def Lane.retry (l : Lane) : Lane := match l.st with
  | .parked (.walk _ _ _) => { l with st := .ready }
  | .parked (.page _) => { l with st := .ready }
  | .parked (.ats _) => { l with st := .ready }
  | _ => l
/-- A group's registers, predicates and lane addresses as the bytes of a save block give them (R280); a lane whose address software has changed
goes on there, and one that RESUME SKIP has sent on stays where that sent it. -/
def Group.loadState (g : Group) (bs : List Byte) (skips : List Nat) : Group :=
  let f (o n : Nat) : Nat := fieldAt bs o n
  { g with
    lanes := (enum g.lanes).map (fun p =>
      let pc := f (4 * p.1) 4
      let l := { p.2 with fl := BitVec.ofNat 5 (f (220 + p.1) 1), seq := f (252 + p.1) 1 }
      if l.pc = pc ∨ skips.contains p.1 then l else { l with pc := pc, st := if l.st = .exited then .exited else .ready })
    p := (List.range 7).foldl (fun m i => SMap.set 0 m i (BitVec.ofNat 32 (f (192 + 4 * i) 4))) g.p
    g := (List.range 64).tail.foldl (fun m i => SMap.set 0 m i (BitVec.ofNat 32 (f (284 + 4 * i) 4))) g.g
    fpctl := BitVec.ofNat 5 (f 540 4)
    seed := BitVec.ofNat 32 (f 544 4)
    permBase := BitVec.ofNat 32 (f 548 4) }
/-- The barriers, team shared memory, registers, predicates and lane addresses of a team as its save block holds them now (R280, R282); a block
in the pad lies on the die that the team was saved on (R285, R137). -/
def State.loadBlock (s : State) (t : Team) (d a : Nat) : Except Stop Team := do
  let m := t.saveMap
  let n := t.la.hdr.vregs
  let bars ← (List.range t.bars.length).mapM (fun i => s.saveRead t.ctx d (a + m.bar + 144 * i) 144)
  let shm ← s.saveRead t.ctx d (a + m.shm) t.la.hdr.shared
  let gs ← (List.range t.groups.length).mapM (fun i => s.saveRead t.ctx d (a + m.grp + 1024 * i) 576)
  let vs ← (List.range t.groups.length).mapM (fun i => s.saveRead t.ctx d (a + m.vec + 128 * n * i) (128 * n))
  pure { t with
    bars := bars.map barrierOf
    shm := setBytes t.shm 0 shm
    groups := (enum ((t.groups.zip gs).zip vs)).map (fun p =>
      (p.2.1.1.loadState p.2.1.2 ((t.skips.filter (fun q => q.1 == p.1)).map Prod.snd)).loadVec n p.2.2) }
/-- The team runs again. -/
def Team.restored (now : Nat) (t : Team) : Team :=
  { t with back := none, since := now, slices := 0, skips := [], groups := t.groups.map (fun g => { g with lanes := g.lanes.map Lane.retry }) }
/-- TEAM_RESTORE_COMPLETE (R283): the team's state is read back from its save block, and it runs; a block that may not be read leaves the state
as it was saved. -/
def execTeamRestoreComplete (tid : Nat) (s : State) : Host.Outcome State Fault Refusal :=
  .next (match s.team? tid with
    | none => s
    | some t => match t.back with
      | none => s
      | some (d, _, a) =>
        let now := (s.die (dieOf t.pcore)).time
        match s.loadBlock t d a with
        | .ok u => (if s.padSave t.ctx then s else s.devTouch t.ctx a t.saveMap.size).modTeam tid (fun _ => u.restored now)
        | .error (.fail _ _) => s.modTeam tid (Team.restored now)
        | .error e => s.devStop t.ctx e)

/-! ## Retirement (R49, R206, R251) -/

/-- May the team retire: its groups have, every ticket has completed, its writes and those it has read are acknowledged (R49, R164-R166), and no
round end is under way. -/
def State.retirable (s : State) (t : Team) : Bool :=
  t.halt.isNone && t.back.isNone && t.groups.all (fun g => g.retired && g.ended.isNone && g.sad == [] && g.unc == []) && decide (t.roundStep = 0) &&
  t.tickets.all (fun k => !k.busy) && !(List.range t.groups.length).any (s.unacked t.tid)
/-- Team shared memory of a retired team that carried cards still write, by card, with its contents (R251). -/
def State.keepShm (s : State) (t : Team) : State :=
  let cs := s.dies.flatMap (fun d => d.cards.filter (fun c => c.task.isSome && c.intoShm t.tid))
  if cs = [] then s else s.modCore t.pcore (fun k => { k with kept := k.kept ++ cs.map (fun c => (t.shmAt, t.la.hdr.shmNeed, c.cid, t.shm)) })
/-- A task's record leaves the pool. -/
def State.freeTask (s : State) (id : Nat) : State :=
  match s.tasks.find? (fun k => k.id == id) with
  | none => s
  | some k => { s with tasks := s.tasks.filter (fun j => j.id != id) }.syncTasks k.ctx
/-- The team's grid counts it; the last of a free grid ends it. -/
def State.countRetired (s : State) (t : Team) : State :=
  let s := s.modGrid t.grid (fun g => { g with retired := g.retired + 1, held := if t.la.bridle then g.held ++ [(t.lin, t.held)] else g.held })
  match s.grid? t.grid with
  | none => s
  | some g => if g.over && !g.la.bridle then s.endGrid g else s
/-- TEAM_RETIRE (R49): a release at SYS; the team's resources are freed, its grid counts it, and a task's record is free again. -/
def execTeamRetire (tid : Nat) (s : State) : Host.Outcome State Fault Refusal :=
  .next (match s.anyTeam? tid with
    | none => s
    | some t =>
      if !s.retirable t || s.saved.any (fun k => k.team.tid == tid && k.trapped) then s
      else
        let own (x : L1Sec) : Bool := x.ctx == t.ctx && x.shr == .core
        if (s.team? tid).isSome && (s.stuckIn t.pcore own).isSome then s.wantIn t.pcore own else
        let s := (t.joins.map Prod.fst).eraseDups.foldl (fun s x => s.joinCards tid 0 0 x) s
        if t.la.bridle && ((s.team? tid).bind (·.halt)).isSome then s else
        let s := if (s.team? tid).isSome then (s.loseL1 t.pcore own).keepShm t else s
        let u := (s.anyTeam? tid).getD t
        let s : State := { s with teams := s.teams.filter (fun u => u.tid != tid), saved := s.saved.filter (fun k => k.team.tid != tid) }
        match t.task with
        | some id => s.freeTask id
        | none => s.countRetired u)

/-! ## Pre-emption for realtime work (R244) -/

/-- Do the cores of a rectangle hold only teams of lower priority and of other contexts, in the pool of the class. -/
def State.yields (s : State) (w : Want) (cs : List Nat) : Bool :=
  cs.all (fun k => s.poolFits k (s.classOf w.la) && !s.claimed w.gid w.owns k && (s.teams.filter (fun t => t.pcore == k)).all (fun t => decide (t.la.prio < w.la.prio) && t.ctx != w.ctx))
/-- The first rectangle, in the order of R242, whose teams give way. -/
def State.yielding (s : State) (w : Want) : Option (List Nat) :=
  ((List.range 4).map (fun i => (s.lastDie + 1 + i) % 4)).findSome? (fun d =>
    if !s.dieOpen d || decide ((s.die d).time < w.start) || (w.graph.any (fun g => s.graphDie g.1 != some d)) ||
      (w.la.bridle && (w.virt.head?.map dieOf) != some d) then none
    else (s.rects d w.cw w.ch).find? (s.yields w))
/-- Has a realtime cluster waited 20 µs on some die's clock. -/
def State.waitedLong (s : State) (w : Want) : Bool := w.la.prio == 3 && s.dies.any (fun d => decide (w.since + 20000 ≤ d.time))
/-- REALTIME_PREEMPT (R244): the teams of the first rectangle that gives way are pre-empted, and it is kept for the cluster. -/
def execRealtimePreempt (gid : Nat) (s : State) : Host.Outcome State Fault Refusal :=
  .next (match s.wants.find? (fun w => w.gid == gid) with
    | none => s
    | some w =>
      if !s.waitedLong w || (s.takes w).isSome || SMap.get [] s.claims gid != [] then s
      else match s.yielding w with
        | none => s
        | some cs => (s.teams.filter (fun t => cs.contains t.pcore)).foldl (fun s t => s.preempt t.tid)
            { s with claims := SMap.set [] s.claims gid cs })

end Sys2Proof.Machine
end

