-- ==== Sys2Proof/Machine/Special.lean ====
section
/-! DEFINITION. The special registers, CLK and TIME (R23, R54-R56, R200, R326, R392, R414, R426). -/
namespace Sys2Proof.Machine

/-- %frame of a die (R256). -/
def State.frame (s : State) (d : Nat) : Nat :=
  let o := s.bar64 (dieOff d 0x0040_0000)
  let p := s.bar64 (dieOff d 0x0040_0008)
  let t := (s.die d).time
  if p = 0 ∨ t < o then 0 else (t - o) / p % 2 ^ 32
/-- %oc (R54, R200, R260): the class of the team's pool, 0 while the die is throttled; in bridle mode the class named. -/
def State.oc (s : State) (t : Team) : Nat :=
  let site := s.site t.pcore
  if t.la.bridle then t.la.oc
  else if (s.die (site / 128)).power.throttled then 0
  else s.pool (site / 128) (blockOf (site % 128))
/-- A special register as lane `l` of group `gi` reads it (R23, R54, R55, R200); 64 and above are reached only in privileged
contexts. -/
def State.special (s : State) (t : Team) (gi : Nat) (g : Group) (l k : Nat) : Nat :=
  let z := setSize t.la.hdr.setcode
  let core := if t.la.bridle then t.core else t.pcore
  let site := s.site t.pcore
  let q := t.cw * t.ch
  match k with
  | 0 => l
  | 1 => gi
  | 2 => t.x
  | 3 => t.y
  | 4 => t.z
  | 5 => t.gx * t.gy * t.gz % 2 ^ 32
  | 6 => t.groups.length
  | 7 => if z = 0 then 2 ^ 32 - 1 else gi / z
  | 8 => if z = 0 then 0 else gi % z
  | 9 => core
  | 10 => t.lin / q
  | 11 => t.lin % q
  | 12 => dieOf core
  | 13 => t.ctx
  | 14 => g.live.toNat
  | 15 => (g.lane l).fl.toNat
  | 16 => g.fpctl.toNat
  | 17 => g.seed.toNat
  | 18 => if t.la.bridle then 0 else min g.specStall 255 * 2 ^ 24 + g.specRoll * 2 ^ 12 + g.specCommit
  | 19 => if t.la.bridle then t.la.q else 0
  | 20 => s.oc t
  | 21 => if t.la.bridle then t.la.frame0 else s.frame (dieOf t.pcore)
  | 64 => site % 128
  | 65 => blockOf (site % 128)
  | 66 => s.pool (site / 128) (blockOf (site % 128))
  | 67 => s.bar 0x0090_0080 % 2 ^ 11
  | _ => 0
/-- A write to %fpflags, %fpctl or %seed of a group's member lanes (R56). -/
def Group.setSpecial (g : Group) (m : Mask) (k : Nat) (w : Word) : Group :=
  if k = 15 then g.modLanes m (fun l => { l with fl := w.truncate 5 })
  else if k = 16 then { g with fpctl := w.truncate 5 }
  else if k = 17 then { g with seed := w }
  else g
/-- Each participant receives its special register (R392). -/
def movsBody (d k : Nat) : Body :=
  { run := fun s x =>
    (s, { lanes := x.lanes.map (fun q =>
      ⟨q.1, q.2, match s.team? x.tid with
        | some t => match t.groups[q.1]? with
          | some g => [.v d (BitVec.ofNat 32 (s.special t q.1 g q.2 k))]
          | none => []
        | none => [], 0⟩) }) }
/-- Every member group's register receives the issuing group's G(a) (R414). -/
def setsBody (k a : Nat) : Body :=
  { run := fun s x =>
    match x.group s with
    | none => (s, {})
    | some g =>
      let w := g.rg a
      (s.eachGroup x.tid x.mem (fun _ m g => g.setSpecial m k w), {}) }

/-- MOVS (R392). -/
def execMovs (h : Head) (u : Bool) (d : BitVec 7) (a : BitVec 7) (s : State) : Host.Outcome State Fault Refusal :=
  issue (.movs h u d a) (movsBody d.toNat a.toNat) s

/-- SETS (R56, R414). -/
def execSets (h : Head) (d : BitVec 6) (a : BitVec 6) (s : State) : Host.Outcome State Fault Refusal :=
  issue (.sets h d a) (setsBody d.toNat a.toNat) s

/-- CLK (R326, R200). -/
def execClk (h : Head) (d : BitVec 6) (s : State) : Host.Outcome State Fault Refusal :=
  issue (.clk h d) (uniBody (fun s t g =>
    let site := s.site t.pcore
    let n := if t.la.bridle then g.issues else SMap.get 0 (s.die (site / 128)).clk (blockOf (site % 128))
    [(d.toNat, BitVec.ofNat 32 n), (d.toNat + 1, BitVec.ofNat 32 (n / 2 ^ 32))])) s

/-- TIME (R426, R200). -/
def execTime (h : Head) (d : BitVec 6) (s : State) : Host.Outcome State Fault Refusal :=
  issue (.time h d) (uniBody (fun s t _ =>
    let n := if t.la.bridle then t.la.startTime else (s.die (dieOf t.pcore)).time
    [(d.toNat, BitVec.ofNat 32 n), (d.toNat + 1, BitVec.ofNat 32 (n / 2 ^ 32))])) s

end Sys2Proof.Machine
end

