-- ==== Sys2Proof/Machine/Graphs.lean ====
section
/-! DEFINITION. Launches started and graphs walked (R197, R198, R236-R240, R253-R256). -/
namespace Sys2Proof.Machine

/-! ## A grid starts (R198, R237, R239) -/

/-- Do the needs of one team fit an idle core (R45). -/
def coreFits (h : Header) (nb : Nat) : Bool := decide (h.shmNeed ≤ 393216) && decide (nb ≤ 32) && (idleUnits h).isSome
/-- Can one cluster of the shape stand on an idle die: the graph's, or any (R237, R242). -/
def State.dieFits (s : State) (w h : Nat) (d : Option Nat) : Bool := (List.range 4).any (fun k => d.all (fun j => j == k) && s.rects k w h != [])
/-- CODE 5 of R237 does not hold. -/
def State.fits (s : State) (d : Option Nat) (h : Header) (p : Packet) : Bool := coreFits h p.nb && s.dieFits p.cw p.ch d
/-- A checked launch becomes a grid; a bridle grid reserves its slots (R198). DESIGN CHOICE (log 47): %frame of a bridle grid, the same for all its
teams (R200), is that of the die of BFIRST at the grid's start, where its allotment spans dies (R54 speaks of the team's die). -/
def State.startGrid (s : State) (x q idx : Nat) (p : Packet) (h : Header) (pred : Option Nat) (graph : Option (Nat × Nat)) (d : Nat) : State :=
  let la := mkLaunch p h
  let g : Grid :=
    { gid := s.nextId, ctx := x, queue := q, idx := idx, gx := p.gx, gy := p.gy, gz := p.gz, cw := p.cw, ch := p.ch
      la := { la with frame0 := s.frame (if la.bridle then dieOf p.bfirst else d) }, start := p.start, signal := p.signal, bfirst := p.bfirst, bcount := p.bcount
      placed := 0, retired := 0, snaps := [], synced := false, layer := [], pred := pred, graph := graph, held := [], since := (s.die d).time
      killed := false }
  let s : State := { s with grids := s.grids ++ [g], nextId := s.nextId + 1 }
  if la.bridle then s.modCtx x (fun c => { c with reserved := c.reserved ++ [(g.gid, 64 * p.bfirst, 64 * p.bcount)] }) else s

/-! ## The graph table (R253, R254) -/

/-- A node's fields. -/
structure NodeRec where
  kind : Nat
  nexta : Nat
  nextb : Nat
  addr : Nat
  arg : Nat
  deriving DecidableEq, Repr
/-- The node in 32 bytes. -/
def parseNode (bs : List Byte) : NodeRec := ⟨bitsAt (fieldAt bs 0 4) 0 4, fieldAt bs 4 2, fieldAt bs 6 2, fieldAt bs 8 8, fieldAt bs 0x10 4⟩
/-- Does the node break a rule (R254, R255); an array of records is aligned as they are (R248). DESIGN CHOICE (log 28): a card, a packet and the
word of a COND or LOOP node may stand at any address. -/
def nodeBad (n : Nat) (bs : List Byte) : Bool :=
  let r := parseNode bs
  let next (k : Nat) : Bool := k == 0xFFFF || decide (k < n)
  fieldAt bs 0 4 / 16 != 0 || fieldAt bs 0x14 4 != 0 || fieldAt bs 0x18 8 != 0 || !next r.nexta || !next r.nextb ||
  (match r.kind with
   | 1 => r.arg != 0
   | 2 => r.arg == 0 || decide (65535 < r.arg) || r.addr % 128 != 0
   | 3 => r.arg != 0
   | 4 => r.arg != 0
   | 5 => false
   | 6 => decide (1 < r.arg)
   | 7 => r.addr != 0 || r.arg == 0 || decide (65535 < r.arg)
   | _ => true)
/-- Does the table's header break a rule (R253). -/
def tableBad (hb : List Byte) : Bool :=
  fieldAt hb 0 4 != 0x0951C0DE || fieldAt hb 4 4 / 2 ^ 18 != 0 || fieldAt hb 4 2 == 0 ||
  decide (480 < fieldAt hb 0xC 4) || (hb.drop 0x10).any (· != 0)
/-- The node records of a table. -/
def nodesOf (n : Nat) (bs : List Byte) : List (List Byte) := (List.range n).map (fun i => (bs.drop (32 * i)).take 32)
/-- Node `k` of a graph. -/
def Graph.node (g : Graph) (k : Nat) : NodeRec := parseNode ((g.table.drop (32 * k)).take 32)
/-- The table of a graph start, read and checked: header and nodes. -/
def readTable (s : State) (x a : Nat) : Checked (List Byte × List Byte) :=
  if a % 64 ≠ 0 then .reject 7
  else Checked.read (s.devRead x a 64) (fun hb =>
    if tableBad hb then .reject 7
    else
      let n := fieldAt hb 4 2
      Checked.read (s.devRead x (a + 64) (32 * n)) (fun bs => if (nodesOf n bs).any (nodeBad n) then .reject 7 else .ok (hb, bs)))

/-! ## Nodes (R255) -/

/-- The graph on a die. -/
def State.graph? (s : State) (d id : Nat) : Option Graph := (s.die d).graphs.find? (fun g => g.id == id)
/-- The state with it changed. -/
def State.modGraph (s : State) (d id : Nat) (f : Graph → Graph) : State :=
  s.modDie d (fun x => { x with graphs := x.graphs.map (fun g => if g.id = id then f g else g) })
/-- The time a WAIT node waits for: absolute, or from the current frame boundary; with no frame, a free value. -/
def State.waitDue (s : State) (d : Nat) (n : NodeRec) : Nat × State :=
  if n.arg = 0 then (n.addr, s)
  else
    let o := s.bar64 (dieOff d 0x0040_0000)
    let p := s.bar64 (dieOff d 0x0040_0008)
    let t := (s.die d).time
    if p = 0 ∨ t < o then (let r := s.draw; (r.1.toNat, r.2))
    else (o + (t - o) / p * p + n.addr, s)
/-- A node starts: a JOIN counts; another that is active already fails the graph. -/
def State.startNode (d id : Nat) (s : State) (k : Nat) : State :=
  match s.graph? d id with
  | none => s
  | some g =>
    let n := g.node k
    if g.failed ∨ k = 0xFFFF then s
    else if n.kind = 7 then
      let c := SMap.get 0 g.joins k + 1
      if c < n.arg then s.modGraph d id (fun g => { g with joins := SMap.set 0 g.joins k c })
      else s.modGraph d id (fun g => { g with joins := SMap.set 0 g.joins k 0, active := g.active ++ [⟨k, true, 0⟩] })
    else if g.active.any (fun a => a.node == k) then s.failGraph id
    else if n.kind = 6 && decide (g.start ≤ (s.die d).time) then
      let (due, s) := s.waitDue d n
      s.modGraph d id (fun g => { g with active := g.active ++ [⟨k, true, due⟩] })
    else s.modGraph d id (fun g => { g with active := g.active ++ [⟨k, false, 0⟩] })
/-- Has the work of a graph all ended: its grids, the tasks descended from it, and its cards (R255). -/
def State.graphIdle (s : State) (id : Nat) : Bool :=
  let own (p : Option (Nat × Nat)) : Bool := p.any (fun q => q.1 == id)
  !s.grids.any (fun r => own r.graph) && !s.tasks.any (fun r => own r.graph) && !s.dies.any (fun x => x.cards.any (fun c => own c.node))
/-- A graph with no active node, whose work has ended, is complete (R255). -/
def State.closeGraph (s : State) (d id : Nat) : State :=
  match s.graph? d id with
  | none => s
  | some g =>
    if g.active = [] ∧ s.graphIdle id then
      (s.modDie d (fun x => { x with graphs := x.graphs.filter (fun h => h.id != id) })).completePacket g.ctx g.queue g.idx
    else s
/-- An active node leaves and its successors start. -/
def State.leaveNode (s : State) (d id k : Nat) (next : List Nat) : State :=
  let s := s.modGraph d id (fun g => { g with active := match g.active.findIdx? (fun a => a.node == k) with
    | some i => g.active.eraseIdx i
    | none => g.active })
  let s := next.foldl (State.startNode d id) s
  s.closeGraph d id
/-- Both successors of a node. -/
def NodeRec.both (n : NodeRec) : List Nat := [n.nexta, n.nextb]
/-- The lowest enabled core of a die, whose engines run a graph's own cards. -/
def State.firstCore (s : State) (d : Nat) : Nat := ((List.range 120).find? (fun i => !s.unavail.contains (120 * d + i))).getD 0 + 120 * d
/-- A team of nothing, for the checks of a graph's own card. -/
def State.noTeam (s : State) (g : Graph) (d : Nat) : Team :=
  let h : Header := { vregs := 8, gregs := 8, spans := 0, depth := 1, shadow := 0, shared := 0, groups := 0, setcode := 0, bridle := false, bramble := false, oc := 0
                      qlog := 0, roles := [], chans := [], energy := 0, current := 0, codesz := 0, hdroff := 0 }
  let la : Launch := { hdr := h, base := 0, bridle := false, bramble := false, q := 0, oc := 0, nb := 0, sb := 0, k := 0, chk := false, param := 0, fpctl := 0
                       seed := 0, startTime := 0, prio := g.prio, restart := false, verBase := 0, verSize := 0, frame0 := 0, energy := 0, current := 0 }
  Team.start 0 g.ctx 0 0 1 1 1 1 1 la ⟨s.firstCore d, 0, 0, []⟩ (s.firstCore d) [] 0 0 0
/-- The lines of the pad whose counts a graph's own card raises (R134). -/
def State.graphPres (s : State) (t : Team) (ws : List Word) : List (Nat × Nat) := (s.presLines t [] ws).filter (fun p => p.1 == 0)
/-- A CARD node's card joins its die's queue. -/
def State.graphCard (s : State) (d : Nat) (g : Graph) (k : Nat) (bs : List Byte) : State :=
  let ws := wordsOf bs
  let t := s.noTeam g d
  if !([1, 3, 7].contains (kindOf ws)) || s.cardBad t none ws [] then s.failGraph g.id
  else
    let pres := s.graphPres t ws
    let c : Card :=
      { cid := s.nextId, ctx := g.ctx, core := s.firstCore d, tid := none, gi := 0, sn := 0, pc := 0, slot := 0, seq := 0, words := ws, desc := [], succ := none
        mc := [0], mcNext := [], pres := pres, presNext := [], st := .waiting, land := [], page := none, fail := none, view := none
        node := some (g.id, k), task := none, since := (s.die d).time }
    ((pres.foldl (State.modCnt cntUp) { s with nextId := s.nextId + 1 }).modDie d (fun x => { x with cards := x.cards ++ [c] })).modGraph d g.id
      (fun g => { g with active := g.active.map (fun a => if a.node = k then { a with begun := true } else a) })
/-- The node has begun its work. -/
def State.begun (s : State) (d id k : Nat) : State :=
  s.modGraph d id (fun g => { g with active := g.active.map (fun a => if a.node = k then { a with begun := true } else a) })
/-- A LAUNCH node's packet is checked and its grid starts; one that R237 rejects, or that names EARLY or WAITQ, fails the graph. -/
def State.beginLaunch (s : State) (d : Nat) (g : Graph) (k : Nat) (bs : List Byte) : State :=
  let p := parsePacket bs
  if p.typ ≠ 1 ∨ p.early ∨ p.waitq.isSome then s.failGraph g.id
  else match checkLaunch s g.ctx bs (s.fits (some d)) with
    | .ok (p, h) => ((((s.headerTouch g.ctx p.kernel).devOver g.ctx).startGrid g.ctx g.queue g.idx p h none (some (g.id, k)) d)).begun d g.id k
    | .reject _ => (s.devOver g.ctx).failGraph g.id
    | .wait st => match s.answered g.ctx st with
      | .fail _ va => (s.devFail g.ctx va).failGraph g.id
      | st => s.devStop g.ctx st
/-- A TASKS node's records enter the pool, once it has room (R250, R255). -/
def State.beginTasks (s : State) (d : Nat) (g : Graph) (k n : Nat) (bs : List Byte) : State :=
  let rec1 (i : Nat) : List Byte := (bs.drop (2176 * i)).take 2176
  let ty (i : Nat) : Except Stop (Option TaskType) := s.taskType g.ctx (fieldAt (rec1 i) 4 4 % 64)
  if (List.range n).any (fun i => recordBad (rec1 i)) then s.failGraph g.id
  else match firstPre ((List.range n).map (fun i => typePre none (ty i)) ++ [poolPre none g.ctx ((List.range n).map rec1) s]) with
    | .go => (((List.range n).foldl (fun s i => s.addTask g.ctx d g.prio g.start (some (g.id, k)) (rec1 i) .queued) ((s.taskTouches g.ctx ((List.range n).map rec1)).devOver g.ctx))).begun d g.id k
    | .trap _ => s.failGraph g.id
    | .wait (.walk va w _) => match s.answered g.ctx (.walk va w) with
      | .fail _ va => (s.devFail g.ctx va).failGraph g.id
      | st => s.devStop g.ctx st
    | .wait (.ats p) => s.devStop g.ctx (.ats (p * 2 ^ 12))
    | .wait (.hold pa mir write) => s.want pa mir write
    | .wait _ => s
/-- What a node does with the bytes it reads. -/
def State.withRead (s : State) (g : Graph) (a n : Nat) (f : State → List Byte → State) : State :=
  match s.devRead g.ctx a n with
  | .ok bs => f (s.devTouch g.ctx a n) bs
  | .error e => match s.answered g.ctx e with
    | .fail _ va => (s.devFail g.ctx va).failGraph g.id
    | e => s.devStop g.ctx e
/-- An active node that has not begun begins; COND and LOOP complete as they begin. -/
def State.beginNode (s : State) (d : Nat) (g : Graph) (k : Nat) : State :=
  let n := g.node k
  match n.kind with
  | 1 => s.withRead g n.addr 64 (fun s => s.beginLaunch d g k)
  | 2 => if s.taskFree g.ctx < n.arg then s else s.withRead g n.addr (2176 * n.arg) (fun s => s.beginTasks d g k n.arg)
  | 3 => s.withRead g n.addr 64 (fun s bs => (s.devOver g.ctx).graphCard d g k bs)
  | 4 => s.withRead g n.addr 4 (fun s bs => (s.devOver g.ctx).leaveNode d g.id k [if leNat bs ≠ 0 then n.nexta else n.nextb])
  | 5 => s.withRead g n.addr 4 (fun s bs =>
      let s := s.devOver g.ctx
      let c := SMap.get 0 g.loops k
      if leNat bs ≠ 0 ∧ (n.arg = 0 ∨ c < n.arg) then
        (s.modGraph d g.id (fun g => { g with loops := SMap.set 0 g.loops k (c + 1) })).leaveNode d g.id k [n.nexta]
      else (s.modGraph d g.id (fun g => { g with loops := SMap.set 0 g.loops k 0 })).leaveNode d g.id k [n.nextb])
  | 6 =>
    let (due, s) := s.waitDue d n
    s.modGraph d g.id (fun g => { g with active := g.active.map (fun a => if a.node = k then { a with begun := true, due := due } else a) })
  | _ => s
/-- Is the work of a node that has begun complete. -/
def State.nodeDone (s : State) (d : Nat) (g : Graph) (a : GNode) : Bool :=
  let own : Option (Nat × Nat) := some (g.id, a.node)
  a.begun && (match (g.node a.node).kind with
    | 1 => !s.grids.any (fun r => r.graph == own)
    | 2 => !s.tasks.any (fun r => r.graph == own)
    | 3 => !s.dies.any (fun x => x.cards.any (fun c => c.node == own))
    | 6 => decide (a.due ≤ (s.die d).time)
    | 7 => true
    | _ => false)
/-- A node begins, or completes. -/
def State.nodeStep (s : State) (d id k : Nat) : State :=
  match s.graph? d id with
  | none => s
  | some g => match g.active.find? (fun a => a.node == k) with
    | none => s.closeGraph d id
    | some a =>
      if (s.die d).time < g.start then s
      else if !a.begun then s.beginNode d g k
      else if s.nodeDone d g a then s.leaveNode d id k (if g.failed then [] else (g.node k).both)
      else s
/-- GRAPH_NODE_COMPLETE (R255): a node begins where it can, or, its work complete, releases and starts its successors. -/
def execGraphNodeComplete (die graph node : Nat) (s : State) : Host.Outcome State Fault Refusal := .next (s.nodeStep die graph node)
/-- WAIT_NODE_EXPIRY (R255): the die's clock has reached the time of a WAIT node. -/
def execWaitNodeExpiry (die graph node : Nat) (s : State) : Host.Outcome State Fault Refusal :=
  .next (match s.graph? die graph with
    | none => s
    | some g => if (g.node node).kind = 6 then s.nodeStep die graph node else s)

/-! ## Budgets (R256) -/

/-- Has %frame of a die changed since its walker's last boundary (R256). -/
def State.frameDue (s : State) (d : Nat) : Bool := s.frame d != (s.die d).frameAt
/-- FRAME_BOUNDARY (R256): %frame has changed, and every graph of the die has its whole budget again. -/
def execFrameBoundary (die : Nat) (s : State) : Host.Outcome State Fault Refusal :=
  .next (if s.frameDue die then
      let n := s.frame die
      s.modDie die (fun x => { x with frameAt := n, graphs := x.graphs.map (fun g => { g with rem := 4096 * g.budget }) })
    else s)
/-- Vector registers a team's ranges take (R243). -/
def Team.ranges (t : Team) : Nat := t.groups.length * (t.la.hdr.vregs + t.la.hdr.shadow)
/-- Has a microsecond passed for which the graph has not been charged. -/
def Graph.chargeDue (g : Graph) (now : Nat) : Bool := decide (g.usAt < now / 1000)
/-- BUDGET_CHARGE (R256): one microsecond of the graph's resident teams, 1/4,096 core-microsecond for each vector register. -/
def execBudgetCharge (die graph : Nat) (s : State) : Host.Outcome State Fault Refusal :=
  .next (
    let n := ((s.teams.filter (fun t => (s.graphOf t).any (fun q => q.1 == graph))).map Team.ranges).sum
    s.modGraph die graph (fun g => if g.chargeDue (s.die die).time then { g with rem := g.rem - n, usAt := g.usAt + 1 } else g))

end Sys2Proof.Machine
end

