-- ==== Sys2Proof/Machine/Queues.lean ====
section
/-! DEFINITION. Work queues: doorbells, control writes, and the start or rejection of a packet (R234-R241, R253, R286). -/
namespace Sys2Proof.Machine

/-! ## Queue registers (R234) -/

/-- Fields of a queue's control word. -/
def State.qCtl (s : State) (x q : Nat) : Nat := s.bar (queueOff x q 8)
def State.qHalt (s : State) (x q : Nat) : Bool := bitsAt (s.qCtl x q) 9 1 == 1
def State.qEn (s : State) (x q : Nat) : Bool := bitsAt (s.qCtl x q) 8 1 == 1
def State.qLog (s : State) (x q : Nat) : Nat := bitsAt (s.qCtl x q) 0 5
def State.qWr (s : State) (x q : Nat) : Nat := s.bar (queueOff x q 0xC)
def State.qRd (s : State) (x q : Nat) : Nat := s.bar (queueOff x q 0x10)
def State.qDone (s : State) (x q : Nat) : Nat := s.bar (queueOff x q 0x14)
def State.qCode (s : State) (x q : Nat) : Nat := bitsAt (s.bar (queueOff x q 0x18)) 0 8
/-- HALT set or cleared. -/
def State.setHalt (s : State) (x q : Nat) (b : Bool) : State := s.setBar (queueOff x q 8) (setBits (s.qCtl x q) 9 1 (if b then 1 else 0))
/-- RDIDX advances by one. -/
def State.advanceRd (s : State) (x q : Nat) : State := s.setBar (queueOff x q 0x10) ((s.qRd x q + 1) % 2 ^ 32)
/-- A queue halts with a status: HALT, CODE, FAILIDX, and VEC is sent. -/
def State.haltQueue (s : State) (x q code : Nat) : State :=
  (((s.setHalt x q true).setBar (queueOff x q 0x18) code).setBar (queueOff x q 0x1C) (s.qRd x q)).irq (s.queueVec x q)
/-- DOORBELL (R234): WRIDX takes the value, unless it would post more than the ring holds. -/
def State.doorbell (s : State) (x q v : Nat) : State :=
  if (v % 2 ^ 32 + 2 ^ 32 - s.qRd x q) % 2 ^ 32 ≤ 2 ^ s.qLog x q then s.setBar (queueOff x q 0xC) (v % 2 ^ 32)
  else s.haltQueue x q 8
/-- SKIP (R234, R238): past a rejected packet, which counts as complete; after an overflow RDIDX stays. -/
def State.skip (s : State) (x q : Nat) : State :=
  if !s.qHalt x q then s
  else if s.qCode x q = 8 then s.setHalt x q false
  else
    let p : Started := ⟨s.qRd x q, true, false⟩
    (((s.setHalt x q false).advanceRd x q).setStarted x q (s.startedOf x q ++ [p])).advanceDone x q
/-- Enabled queues of a context. -/
def State.enabledQueues (s : State) (x : Nat) : Nat := ((List.range 128).filter (s.qEn x)).length
/-- May EN be written 1 (R286). -/
def State.mayEnable (s : State) (x q : Nat) : Bool := s.qEn x q || decide (s.enabledQueues x < bitsAt (s.bar (ctxOff x 0x30)) 0 8)
/-- The control word written by privileged software: VEC, EN and, while EN is 0, RLOG; HALT and SKIP where written 1. -/
def State.writeCtl (s : State) (x q v : Nat) : State :=
  let s := if bitsAt v 10 1 = 1 then s.skip x q else s
  let s := if bitsAt v 9 1 = 1 then s.setHalt x q false else s
  let old := s.qCtl x q
  let w := setBits (if s.qEn x q then old else setBits old 0 5 v) 16 11 (v / 2 ^ 16)
  s.setBar (queueOff x q 8) (if bitsAt v 8 1 = 1 ∧ !s.mayEnable x q then w else setBits w 8 1 (v / 2 ^ 8))
/-- Is there such a queue. -/
def queueOk (x q : Nat) : Bool := decide (x < 1024) && decide (q < 128)

/-- DOORBELL (R234). -/
def execDoorbell (ctx queue v : Nat) (s : State) : Host.Outcome State Fault Refusal := .next (if s.hostOpen && queueOk ctx queue then s.doorbell ctx queue v else s)
/-- SKIP (R234, R237). -/
def execSkip (ctx queue : Nat) (s : State) : Host.Outcome State Fault Refusal := .next (if s.hostOpen && queueOk ctx queue then s.skip ctx queue else s)
/-- HALT_CLEAR (R234, R237): the packet is tried again. -/
def execHaltClear (ctx queue : Nat) (s : State) : Host.Outcome State Fault Refusal :=
  .next (if s.hostOpen && queueOk ctx queue then s.setHalt ctx queue false else s)
/-- QUEUE_ENABLE (R234, R286): the control word is written. -/
def execQueueEnable (ctx queue v : Nat) (s : State) : Host.Outcome State Fault Refusal :=
  .next (if s.hostOpen && queueOk ctx queue then s.writeCtl ctx queue (v % 2 ^ 32) else s)

/-! ## The start of a packet (R235-R241, R253) -/

/-- What the packet at RDIDX comes to when it is tried. -/
inductive Tried where
  /-- a condition of R239 or R240 does not hold -/
  | no
  | wait (st : Stop)
  | reject (code : Nat)
  | launch (p : Packet) (h : Header)
  | graph (p : Packet) (hb : List Byte) (nodes : List Byte)
/-- The grid of a queue's packet. -/
def State.gridOf (s : State) (x q idx : Nat) : Option Grid := s.grids.find? (fun g => g.ctx == x && g.queue == q && g.idx == idx && g.graph.isNone)
/-- Does the previous packet let the next one start (R239): it has completed, or, for EARLY, its grid has synchronised. -/
def State.prevLets (s : State) (x q : Nat) (early : Bool) : Bool :=
  match (s.startedOf x q).getLast? with
  | none => true
  | some p => p.complete || (early && (match s.gridOf x q p.idx with
      | some g => if g.la.bridle then g.synced else s.allLnxt g
      | none => false))
/-- Is a packet's wait on another queue over (R239). -/
def State.waitqOver (s : State) (x : Nat) (w : Option (Nat × Nat)) : Bool :=
  match w with
  | none => true
  | some (q, n) => decide ((s.qDone x q + 2 ^ 32 - n) % 2 ^ 32 < 2 ^ 31)
/-- Has some die's clock reached START (R240). -/
def State.startTime (s : State) (t : Nat) : Bool := t == 0 || s.dies.any (fun d => decide (t ≤ d.time))
/-- Does the queue have a packet that no halt holds. -/
def State.posted (s : State) (x q : Nat) : Bool :=
  s.ctxEn x && s.qEn x q && !s.qHalt x q && decide (4 ≤ s.qLog x q) && decide (s.qLog x q ≤ 16) && s.qRd x q != s.qWr x q
/-- The check of a packet's content. -/
def State.checkPacket (s : State) (x : Nat) (bs : List Byte) : Tried :=
  let p := parsePacket bs
  if p.typ = 1 then
    match checkLaunch s x bs (s.fits none) with
    | .ok (p, h) => .launch p h
    | .reject c => .reject c
    | .wait st => .wait st
  else if p.typ = 2 then
    if !packetReserved bs || !graphFields bs || p.kernel % 64 != 0 then .reject 2
    else match readTable s x p.kernel with
      | .ok (hb, ns) => if 16 ≤ (s.die (bitsAt (fieldAt hb 4 4) 16 2)).graphs.length then .no else .graph p hb ns
      | .reject c => .reject c
      | .wait st => .wait st
  else .reject 1
/-- The address of the packet at RDIDX, in a ring aligned to 64 (R234, log 36). -/
def State.packetAt (s : State) (x q : Nat) : Nat := (s.bar64 (queueOff x q 0) / 64 * 64 + 64 * (s.qRd x q % 2 ^ s.qLog x q)) % 2 ^ 64
/-- The packet at RDIDX tried. -/
def State.tryPacket (s : State) (x q : Nat) : Tried :=
  if !queueOk x q || !s.posted x q then .no
  else
    match s.devRead x (s.packetAt x q) 64 with
    | .error (.fail _ _) => .reject 6
    | .error st => .wait st
    | .ok bs =>
      let p := parsePacket bs
      if !s.prevLets x q p.early || !s.waitqOver x p.waitq || !s.startTime p.start then .no
      else s.checkPacket x bs
/-- The priority at which a queue's packet may start or be rejected now. -/
def State.startPrio (s : State) (x q : Nat) : Option Nat :=
  match s.tryPacket x q with
  | .no => none
  | .wait _ => none
  | .reject _ => some 4
  | .launch p _ => some p.prio
  | .graph p _ _ => some p.prio
/-- Queues whose control word is not 0. -/
def State.queues (s : State) : List (Nat × Nat) :=
  s.bar0.filterMap (fun p => if 0x0100_0000 ≤ p.1 ∧ p.1 < 0x0140_0000 ∧ p.1 % 32 = 8 then some ((p.1 - 0x0100_0000) / 32 / 128, (p.1 - 0x0100_0000) / 32 % 128) else none)
/-- Does one startable queue go before another (R241): priority, then round-robin over contexts, then over the context's queues. -/
def State.queueBefore (s : State) (a b : Nat × Nat × Nat) : Bool :=
  let turn (n last k : Nat) : Nat := (k + n - last - 1) % n
  let ca := turn 1024 s.lastCtx a.1
  let cb := turn 1024 s.lastCtx b.1
  decide (b.2.2 < a.2.2) || (a.2.2 == b.2.2 && (decide (ca < cb) || (ca == cb &&
    decide (turn 128 (s.ctx a.1).lastQueue a.2.1 < turn 128 (s.ctx b.1).lastQueue b.2.1))))
/-- The queues whose packet may start, with its priority. -/
def State.startables (s : State) : List (Nat × Nat × Nat) := s.queues.filterMap (fun p => (s.startPrio p.1 p.2).map (fun n => (p.1, p.2, n)))
/-- Is the queue the one whose packet starts next. -/
def State.firstQueue (s : State) (x q : Nat) : Bool :=
  match s.startPrio x q with
  | none => false
  | some n => !s.startables.any (fun b => s.queueBefore b (x, q, n))
/-- The packet has started: RDIDX advances, and the front end has served the queue. -/
def State.served (s : State) (x q : Nat) (signal : Bool) : State :=
  let p : Started := ⟨s.qRd x q, false, signal⟩
  { (((s.setStarted x q (s.startedOf x q ++ [p])).advanceRd x q).modCtx x (fun c => { c with lastQueue := q })).devOver x with lastCtx := x }
/-- The grid of the queue's previous packet, while it has not ended (R246). -/
def State.predOf (s : State) (x q : Nat) : Option Nat := ((s.startedOf x q).getLast?).bind (fun p => (s.gridOf x q p.idx).map (·.gid))
/-- A graph starts on its die: node 0 is active (R253, R256). -/
def State.startGraph (s : State) (x q idx : Nat) (p : Packet) (hb ns : List Byte) : State :=
  let d := bitsAt (fieldAt hb 4 4) 16 2
  let b := fieldAt hb 8 4
  let g : Graph :=
    { id := s.nextId, ctx := x, queue := q, idx := idx, loc := p.kernel, table := ns, nodes := fieldAt hb 4 2, start := p.start, budget := b
      corecap := fieldAt hb 0xC 4, rem := 4096 * b, active := [], joins := [], loops := [], failed := false, prio := p.prio, signal := p.signal, usAt := (s.die d).time / 1000 }
  State.startNode d g.id ({ s with nextId := s.nextId + 1 }.modDie d (fun y => { y with graphs := y.graphs ++ [g] })) 0
/-- PACKET_START (R235-R241, R253): the packet at RDIDX is read, checked, and started or rejected; an absent page is requested. -/
def execPacketStart (ctx queue : Nat) (s : State) : Host.Outcome State Fault Refusal :=
  .next (
    let idx := s.qRd ctx queue
    match s.tryPacket ctx queue with
    | .no => s
    | .wait st => match s.answered ctx st with
      | .fail _ va => (s.devFail ctx va).haltQueue ctx queue 6
      | st => s.devStop ctx st
    | .reject c => ((s.devTouch ctx (s.packetAt ctx queue) 64).devOver ctx).haltQueue ctx queue c
    | .launch p h => if s.firstQueue ctx queue then ((((s.devTouch ctx (s.packetAt ctx queue) 64).headerTouch ctx p.kernel).served ctx queue p.signal).startGrid ctx queue idx p h (s.predOf ctx queue) none
        (if p.bridle then dieOf p.bfirst else (s.lastDie + 1) % 4)) else s
    | .graph p hb ns => if s.firstQueue ctx queue then
        (((s.devTouch ctx (s.packetAt ctx queue) 64).devTouch ctx p.kernel (64 + ns.length)).served ctx queue p.signal).startGraph ctx queue idx p hb ns else s)

end Sys2Proof.Machine
end

