-- ==== Sys2Proof/Machine/Tasks.lean ====
section
/-! DEFINITION. Task placement, locality bins and time slices (R247-R252, R287). -/
namespace Sys2Proof.Machine

/-! ## A task's launch (R247-R249) -/

/-- What a task takes in place of a launch packet's values. -/
def State.taskLaunch (s : State) (k : Task) (ty : TaskType) : Launch :=
  let sb := s.bar64 (taskOff k.ctx 0x20)
  let fl := s.bar (taskOff k.ctx 0x28)
  let tsb := bitsAt sb 0 36
  let e := fieldAt k.bytes 0x18 4
  let i := fieldAt k.bytes 0x1C 4
  { hdr := ty.hdr, base := (ty.entry + 2 ^ 65 - 64 - ty.hdr.hdroff) % 2 ^ 64, bridle := false, bramble := false, q := 4096, oc := ty.hdr.oc, nb := 0
    sb := tsb * 2 ^ 21, k := if tsb = 0 then 0 else 16 * (bitsAt sb 36 12 + 1), chk := bitsAt fl 0 1 == 1, param := 0
    fpctl := bitsAt (fieldAt k.bytes 4 4) 8 5, seed := fieldAt k.bytes 0xC 4, startTime := k.start, prio := k.prio, restart := bitsAt fl 1 1 == 1, verBase := 0
    verSize := 0, frame0 := 0, energy := if e = 0 then ty.hdr.energy else e, current := if i = 0 then ty.hdr.current else i }
/-- A group with the record's predicates and used registers (R248). -/
def Group.fromRecord (g : Group) (bs : List Byte) (vlive glive : Nat) : Group :=
  let g := (List.range 7).foldl (fun g k => { g with p := SMap.set 0 g.p k (BitVec.ofNat 32 (fieldAt bs (0x24 + 4 * k) 4)) }) g
  let g := (List.range glive).foldl (fun g j => g.wg (j + 1) (BitVec.ofNat 32 (fieldAt bs (0x40 + 4 * j) 4))) g
  (List.range vlive).foldl (fun g j => (List.range 32).foldl (fun g l => g.wv l j (BitVec.ofNat 32 (fieldAt bs (0x80 + 128 * j + 4 * l) 4))) g) g
/-- The team of a task. -/
def State.taskTeam (s : State) (k : Task) (ty : TaskType) (d : Nat) (sp : Spot) (slots : List Nat) : Team :=
  let la := s.charged d (s.taskLaunch k ty)
  let t := Team.start s.nextId k.ctx s.nextId 0 1 1 1 1 1 la sp sp.core slots (s.die d).time (fieldAt k.bytes 0 4) (BitVec.ofNat 32 (fieldAt k.bytes 8 4))
  { t with task := some k.id, first := fieldAt k.bytes 0x10 8, groups := t.groups.map (fun g => g.fromRecord k.bytes ty.vlive ty.glive) }

/-! ## Where a task stands (R252) -/

/-- Distance of a node from a block: to the nearest of its four nodes. -/
def blockDist (b node : Nat) : Nat :=
  let o := 32 * (b / 8) + 2 * (b % 8)
  min (min (hops o node) (hops (o + 1) node)) (min (hops (o + 16) node) (hops (o + 17) node))
/-- Cores of a die that satisfy a condition on their node, with a key to order them by. -/
def coreKeys (s : State) (d : Nat) (f : Nat → Option Nat) : List (Nat × Nat) :=
  (List.range 120).filterMap (fun i =>
    let c := 120 * d + i
    if s.unavail.contains c then none else (f (s.site c % 128)).map (fun k => (k, c)))
/-- Inserts by key; equal keys keep their order. -/
def insertKey (p : Nat × Nat) : List (Nat × Nat) → List (Nat × Nat)
  | [] => [p]
  | q :: r => if p.1 ≤ q.1 then p :: q :: r else q :: insertKey p r
/-- A bin's cores in the order they are offered: its block's, then by distance and node. -/
def State.binCores (s : State) (d bin : Nat) : List Nat :=
  let b := bin / 2
  (coreKeys s d (fun n => if blockOf n = b then some 0 else none)).map Prod.snd ++
  ((coreKeys s d (fun n => if blockOf n = b then none else some (128 * blockDist b n + n))).foldr insertKey []).map Prod.snd
/-- The spot a task gets on a core, with its stack slots. -/
def State.taskSpot (s : State) (k : Task) (la : Launch) (d core : Nat) : Option (Spot × List Nat) :=
  let (e, i) := s.chargeOf d la
  if s.poolFits core (s.classOf la) && !s.claimed (2 ^ 64) (fun _ => false) core && s.quotas k.ctx k.graph [core] && s.admitsAll d [s.coreBlock core] e i (2, k.id) then
    match s.spot core la, s.freeSlots k.ctx 1 [] with
    | some sp, some sl => some (sp, sl)
    | _, _ => none
  else none
/-- The first core of the bin's order that takes the task, once the die's clock has reached the START it descends from (R240). -/
def State.taskTakes (s : State) (k : Task) (la : Launch) : Option (Spot × List Nat) :=
  if s.dieOpen k.die && decide (k.start ≤ (s.die k.die).time) then (s.binCores k.die k.bin).findSome? (s.taskSpot k la k.die) else none
/-- Records queued in a bin, in order. -/
def State.binTasks (s : State) (d b : Nat) : List Task := s.tasks.filter (fun k => k.die == d && k.bin == b && k.st == .queued)
/-- Does a launch of equal or higher priority go before the task on its die. -/
def State.launchFirst (s : State) (k : Task) : Bool := s.nextWants.any (fun w => decide (k.prio ≤ w.la.prio) && (s.dieTakes w k.die).isSome)
/-- Has the die's dispatcher served its bin long enough. -/
def State.binSpent (s : State) (d : Nat) : Bool := decide (4096 ≤ (s.die d).binMade) || decide ((s.die d).binSince + 100000 ≤ (s.die d).time)
/-- The task runs: it acquires at SYS (R248), and what an EWT on the ticket it waited for would have acquired (R251). -/
def State.placeTask (s : State) (k : Task) (ty : TaskType) (sp : Spot) (slots : List Nat) : State :=
  let t := s.taskTeam k ty k.die sp slots
  let s : State := { s with
    teams := s.teams ++ [t]
    nextId := s.nextId + 1
    tasks := s.tasks.map (fun j => if j.id = k.id then { j with st := .running t.tid } else j) }
  (((s.modDie k.die (fun x => { x with binMade := x.binMade + 1 })).admitted k.die (2, k.id)).dropSpans sp.core k.spans).freshCore sp.core k.ctx
/-- TASK_PLACEMENT (R248, R249, R252): the head record of the die's bin, on the first core that takes it. -/
def execTaskPlacement (die : Nat) (s : State) : Host.Outcome State Fault Refusal :=
  .next (match s.binTasks die (s.die die).bin with
    | [] => s
    | k :: _ =>
      if s.binSpent die || s.launchFirst k then s
      else match s.taskType k.ctx (fieldAt k.bytes 4 4 % 64) with
        | .error e => s.devStop k.ctx e
        | .ok none => s
        | .ok (some ty) => match s.taskTakes k (s.taskLaunch k ty) with
          | none => s
          | some (sp, sl) =>
            if s.coreStuck k.ctx k.spans sp.core then s.wantCore k.ctx k.spans sp.core
            else (s.taskTouch k.ctx (fieldAt k.bytes 4 4 % 64)).placeTask k ty sp sl)
/-- The next nonempty bin after the one served, wrapping. -/
def State.nextBin (s : State) (d : Nat) : Option Nat :=
  ((List.range 64).map (fun i => ((s.die d).bin + 1 + i) % 64)).find? (fun b => s.binTasks d b != [])
/-- BIN_SWITCH (R252). -/
def execBinSwitch (die : Nat) (s : State) : Host.Outcome State Fault Refusal :=
  .next (if s.binTasks die (s.die die).bin = [] ∨ s.binSpent die then
      match s.nextBin die with
      | none => s
      | some b => s.modDie die (fun x => { x with bin := b, binMade := 0, binSince := x.time })
    else s)

/-! ## Time slices (R287) -/

/-- Would other work that waits fit once the cluster has been saved. -/
def State.wanted (s : State) (t : Team) : Bool :=
  let s' : State := { s with teams := s.teams.filter (fun u => !(s.cluster t).any (fun v => v.tid == u.tid)) }
  s.nextWants.any (fun w => w.ctx != t.ctx && decide (t.la.prio ≤ w.la.prio) && (s'.takes w).isSome) ||
  s.tasks.any (fun k => k.ctx != t.ctx && decide (t.la.prio ≤ k.prio) && (s.binTasks k.die k.bin).head? == some k &&
    (match s.taskType k.ctx (fieldAt k.bytes 4 4 % 64) with
     | .ok (some ty) => (s'.taskTakes k (s.taskLaunch k ty)).isSome
     | _ => false))
/-- A context's time slice in nanoseconds; 0 for none (R285, R287). -/
def State.tsl (s : State) (x : Nat) : Nat := 10000 * bitsAt (s.bar (ctxOff x 0x30)) 20 12
/-- Multiples of TSL that a team has held its core. -/
def State.slicesOf (s : State) (t : Team) : Nat :=
  if s.tsl t.ctx = 0 then 0 else ((s.die (dieOf t.pcore)).time - t.since) / s.tsl t.ctx
/-- Has a team reached a multiple of TSL that has not been judged. -/
def State.sliceDue (s : State) (t : Team) : Bool := !t.idle && decide (t.slices < s.slicesOf t)
/-- TIME_SLICE_EXPIRY (R287): at a multiple of TSL that it has held its core, a team gives way to other work that would fit, or where none of its
groups has a ready lane. -/
def execTimeSliceExpiry (tid : Nat) (s : State) : Host.Outcome State Fault Refusal :=
  .next (match s.team? tid with
    | none => s
    | some t =>
      if !s.sliceDue t then s
      else
        let n := s.slicesOf t
        let s' := s.modTeam tid (fun u => { u with slices := n })
        if s.wanted t || t.groups.all (fun g => g.ready == 0) then s'.preempt tid else s')

end Sys2Proof.Machine
end

