-- ==== Sys2Proof/Machine/Power.lean ====
section
/-! DEFINITION. Power, current and heat (R258-R270). -/
namespace Sys2Proof.Machine

/-! ## Pools (R259, R260) -/

/-- A waiting cluster, or a queued task at the head of its bin as a cluster of one team. -/
def State.wantOf (s : State) (gid : Nat) : Option Want :=
  match s.wants.find? (fun w => w.gid == gid) with
  | some w => some w
  | none => match s.tasks.find? (fun k => k.id == gid) with
    | none => none
    | some k => if (s.binTasks k.die k.bin).head? != some k then none
      else match s.taskType k.ctx (fieldAt k.bytes 4 4 % 64) with
        | .ok (some ty) => some { ctx := k.ctx, since := k.since, gid := k.id, lin := 0, cw := 1, ch := 1, la := s.taskLaunch k ty, graph := k.graph, start := 0
                                  pin := [], virt := [], ranks := [0], back := false }
        | _ => none
/-- The die a waiting item is bound to, if any. -/
def State.boundDie (s : State) (w : Want) : Option Nat :=
  match s.tasks.find? (fun k => k.id == w.gid) with
  | some k => some k.die
  | none => match w.graph with
    | some (g, _) => s.graphDie g
    | none => w.virt.head?.map dieOf
/-- Can blocks of its pool take the item under R242 (R259): its cores can hold it and admit it, whatever quota, budget or stack slots it lacks. -/
def State.poolTakes (s : State) (w : Want) : Bool :=
  let c := s.classOf w.la
  let fits (d : Nat) (cs : List Nat) (kind : Nat) : Bool :=
    cs.all (fun k => s.poolFits k c && !s.claimed w.gid w.owns k && (s.spot k w.la).isSome) &&
      s.admitsAll d (cs.map s.coreBlock) (s.chargeOf d w.la).1 (s.chargeOf d w.la).2 (kind, w.gid)
  match s.tasks.find? (fun k => k.id == w.gid) with
  | some k => s.dieOpen k.die && (s.binCores k.die k.bin).any (fun core => fits k.die [core] 2)
  | none => (List.range 4).any (fun d => s.dieOpen d && (s.boundDie w).all (fun j => j == d) &&
      (s.rects d w.cw w.ch).any (fun cs => fits d (w.ranks.map (fun r => (cs[r]?).getD 0)) 0))
/-- May the block move to the pool for a grid or task (R259): another pool's, empty, not being cleared for another (R244), and 100 µs after its
last move; nor one with a core that another team is being moved to (R267). -/
def State.blockMovable (s : State) (gid d b c : Nat) : Bool :=
  let last := SMap.get 0 (s.die d).power.lastMove b
  s.pool d b != c && !s.claims.any (fun p => p.1 != gid && p.2.any (fun k => dieOf k == d && s.coreBlock k == b)) && !(s.die d).power.moves.any (fun m => m.block == b) &&
  !(List.range 120).any (fun i => s.coreBlock (120 * d + i) == b && s.pinned (fun t => t.grid == gid) (120 * d + i)) &&
  !s.teams.any (fun t => dieOf t.pcore == d && s.coreBlock t.pcore == b) && (last == 0 || decide (last + 99999 ≤ (s.die d).time))
/-- Has the die cores that a cluster of the shape could stand on. -/
def State.moveFrom (s : State) (w : Want) (d : Nat) : Option Nat :=
  let c := s.classOf w.la
  if !s.dieOpen d || (s.die d).time < w.start || (s.boundDie w).any (fun j => j != d) then none
  else (List.range 32).find? (fun b => s.blockMovable w.gid d b c)
/-- POOL_MOVE (R259): a block moves for a cluster that no block of its pool can take, one move at a time. -/
def execPoolMove (gid : Nat) (s : State) : Host.Outcome State Fault Refusal :=
  .next (match s.wantOf gid with
    | none => s
    | some w =>
      if s.poolTakes w || s.dies.any (fun d => d.power.moves.any (fun m => m.gid == gid)) || (w.la.bridle && !s.virtFree w) then s
      else
        match ((List.range 4).map (fun i => (s.lastDie + 1 + i) % 4)).findSome? (fun d => (s.moveFrom w d).map (fun b => (d, b))) with
        | none => s
        | some (d, b) =>
          (s.modDie d (fun x => { x with power := { x.power with moves := x.power.moves ++ [⟨b, s.classOf w.la, gid⟩] } })).setBar (powOff d (0x10C + 16 * b))
            (setBits (s.bar (powOff d (0x10C + 16 * b))) 3 1 1))
/-- POOL_MOVE_COMPLETE (R260). DESIGN CHOICE (log 34): the 100 µs since a block's last move (R259) run from here, and a move that began before its die
halted completes there, though blocks keep their pools while it is halted (R266). -/
def execPoolMoveComplete (die block : Nat) (s : State) : Host.Outcome State Fault Refusal :=
  .next (match (s.die die).power.moves.find? (fun m => m.block == block) with
    | none => s
    | some m =>
      (s.modDie die (fun x => { x with power := { x.power with
        moves := x.power.moves.filter (fun k => k.block != block)
        lastMove := SMap.set 0 x.power.lastMove block (x.time + 1) } })).setBar (powOff die (0x10C + 16 * block)) m.pool)

/-! ## The network on chip's governor and the HBM channels (R261, R262) -/

/-- Changes the power state of a die. -/
def State.modPower (s : State) (d : Nat) (f : Power → Power) : State := s.modDie d (fun x => { x with power := f x.power })
/-- The NoC word: STEP, MAXSTEP, UPTH, DNTH. -/
def State.nocWord (s : State) (d : Nat) : Nat := s.bar (powOff d 0xC)
/-- The highest step now: MAXSTEP, 4 while throttled, 0 while halted (R261, R265, R266). -/
def State.stepCap (s : State) (d : Nat) : Nat :=
  let m := bitsAt (s.nocWord d) 8 3
  if (s.die d).power.halted then 0 else if (s.die d).power.throttled then min m 4 else m
/-- STEP set, under its cap. -/
def State.setStep (s : State) (d n : Nat) : State := s.setBar (powOff d 0xC) (setBits (s.nocWord d) 0 3 (min n (s.stepCap d)))
/-- NOC_GOVERNOR_SAMPLE (R261): `occ` is the mean occupancy in percent. Eight samples at or below DNTH lower the step, and the count begins
again. -/
def execNocGovernorSample (die occ : Nat) (s : State) : Host.Outcome State Fault Refusal :=
  .next (
    let w := s.nocWord die
    let step := bitsAt w 0 3
    if bitsAt w 16 8 ≤ occ then (s.modPower die (fun p => { p with lowRun := 0 })).setStep die (step + 1)
    else if occ ≤ bitsAt w 24 8 then
      if 7 ≤ (s.die die).power.lowRun then (s.modPower die (fun p => { p with lowRun := 0 })).setStep die (step - 1)
      else (s.modPower die (fun p => { p with lowRun := p.lowRun + 1 })).setStep die step
    else (s.modPower die (fun p => { p with lowRun := 0 })).setStep die step)
/-- The die of a channel, numbered 32 × stack + channel (R9). -/
def channelDie (ch : Nat) : Nat := ch / 96
/-- The state of a channel set. -/
def State.setChannel (s : State) (ch v : Nat) : State := s.modPower (channelDie ch) (fun p => { p with hbm := SMap.set 0 p.hbm ch v })
/-- The state of a channel. -/
def State.channel (s : State) (ch : Nat) : Nat := SMap.get 0 (s.die (channelDie ch)).power.hbm ch
/-- Has a channel been idle for a time in nanoseconds (R262). -/
def State.idleFor (s : State) (ch ns : Nat) : Bool :=
  let d := s.die (channelDie ch)
  decide (ch < 384) && !d.reinit && decide (SMap.get 0 d.power.used ch + ns ≤ d.time)
/-- HBM_POWER_DOWN (R262): an active channel has been idle for 256 ns. -/
def execHbmPowerDown (ch : Nat) (s : State) : Host.Outcome State Fault Refusal :=
  .next (if s.channel ch = 0 ∧ s.idleFor ch 256 then s.setChannel ch 1 else s)
/-- HBM_SELF_REFRESH (R262): a channel in power-down has been idle for 100 µs. -/
def execHbmSelfRefresh (ch : Nat) (s : State) : Host.Outcome State Fault Refusal :=
  .next (if s.channel ch = 1 ∧ s.idleFor ch 100000 then s.setChannel ch 2 else s)
/-- Does an access to a place need a channel. -/
def State.locNeeds (s : State) (ch : Nat) (write : Bool) : Loc → Bool
  | .phys pa _ mir _ _ => s.needs ch pa mir write
  | .shm _ => false
  | .pad .. => false
/-- Does a group's lane, or the store or atomic at the head of its queue, wait for a channel. -/
def Group.wants (s : State) (ch : Nat) (g : Group) : Bool :=
  g.lanes.any (fun l => match l.st with
    | .parked (.hold pa mir write) => s.needs ch pa mir write
    | _ => false) ||
  g.sq.head?.any (fun e => match e.act with
    | .store l _ _ => s.locNeeds ch true l
    | .rmw ks => ks.any (fun k => s.locNeeds ch true k.loc || k.pte.any (fun p => s.needs ch p false true))
    | _ => false)
/-- Has an access come to a channel (R262): of a lane, a queued store or atomic, a write in flight, a walk, a card's data, or another's that was noted as it came. -/
def State.channelWanted (s : State) (ch : Nat) : Bool :=
  (s.die (channelDie ch)).power.wanted.contains ch || s.teams.any (fun t => t.groups.any (Group.wants s ch)) ||
  s.cores.any (fun c => c.2.fly.any (fun w => s.locNeeds ch true w.loc)) ||
  s.dies.any (fun d => d.walks.any (fun w => (s.entries w.ctx w.va).any (fun a => s.needs ch a false false)) ||
    d.cards.any (fun c => c.land.any (fun w => s.locNeeds ch true w.loc)))
/-- HBM_EXIT (R262): an access that has arrived wakes the channel. -/
def execHbmExit (ch : Nat) (s : State) : Host.Outcome State Fault Refusal :=
  .next (if 384 ≤ ch ∨ (s.die (channelDie ch)).reinit ∨ s.channel ch = 0 ∨ !s.channelWanted ch then s
    else s.modPower (channelDie ch) (fun p => { p with
      hbm := SMap.set 0 p.hbm ch 0, wanted := p.wanted.filter (· != ch), used := SMap.set 0 p.used ch (s.die (channelDie ch)).time }))

/-! ## Control intervals and ageing (R263, R264, R270) -/

/-- The power registers that take effect at an interval boundary. -/
def budgetOffs : List Nat := [0, 4] ++ (List.range 16).map (fun i => 0x20 + 4 * i) ++ (List.range 16).map (fun i => 0x68 + 4 * i)
/-- The registers of a die as they are written now, in effect. -/
def State.effNow (s : State) (d : Nat) : SMap Word := budgetOffs.foldl (fun m o => SMap.set 0 m o (SMap.get 0 s.bar0 (powOff d o))) []
/-- The die with budgets and ceilings that hold nothing back. -/
def State.unbound (s : State) (d : Nat) : State :=
  s.modPower d (fun p => { p with
    overdraw := []
    aged := none
    throttled := false
    eff := ([0, 4] ++ (List.range 8).map (fun i => 0x20 + 4 * i)).foldl (fun m o => SMap.set 0 m o (0xFFFFFFFF ^^^ BitVec.ofNat 32 (powerReset s.part o))) p.eff })
/-- What waits for admission on a die: kind, identity, and since when (log 34). -/
def State.waiting (s : State) (d : Nat) : List (Nat × Nat × Nat) :=
  if (s.die d).power.halted then []
  else
    let u := s.unbound d
    (s.nextWants.filter (fun w => (s.takes w).isNone && (u.dieTakes w d).isSome)).map (fun w => (0, w.gid, w.since)) ++
    ((s.die d).cards.filter (fun c => (if kindOf c.words = 7 then s.aredReady c else s.cardReady d c) && !s.cardAdmitted d c)).map (fun c => (1, c.cid, c.since)) ++
    ((List.range 64).filterMap (fun b => (s.binTasks d b).head?)).filterMap (fun k => match s.taskType k.ctx (fieldAt k.bytes 4 4 % 64) with
      | .ok (some ty) => if (s.taskTakes k (s.taskLaunch k ty)).isNone && (u.taskTakes k (s.taskLaunch k ty)).isSome then some (2, k.id, k.since) else none
      | _ => none)
/-- Work waits for admission while time passes: the interval counts in WAITIV. -/
def State.noteWaits (s : State) (d : Nat) : State :=
  if (s.die d).power.waited || s.waiting d == [] then s else s.modPower d (fun p => { p with waited := true })
/-- One block's measured energy and peak current. -/
def State.measure (s : State) (d b e i : Nat) : State := (s.addBar64 (powOff d (0x100 + 16 * b)) e).setBar (powOff d (0x108 + 16 * b)) (i % 2 ^ 32)
/-- Has a die's time base come to an interval boundary that its governor has not met (R263). -/
def Die.intervalDue (d : Die) : Bool := d.time / 8000 != d.ctlAt
/-- The droop of each block of a die, in millivolts, enters its histogram of 16 bins of 10 mV (R294). -/
def State.noteDroop (s : State) (die : Nat) (droop : List Nat) : State :=
  { s with live := { s.live with droop := (enum (droop.take 32)).foldl (fun m p =>
      let k := (32 * die + p.1) * 16 + min 15 (p.2 / 10)
      SMap.set 0 m k (upTo 16 (SMap.get 0 m k + 1))) s.live.droop } }
/-- CONTROL_INTERVAL (R263, R269, R270), at a multiple of 8,000 ns of the die's time base: the measured energies, and the peak currents
with the droops, by block, and the die's energy; overdraw is set, WAITIV counts, and new budgets take effect. -/
def execControlInterval (die : Nat) (energy : List Nat) (peak : List (Nat × Nat)) (s : State) : Host.Outcome State Fault Refusal :=
  .next (if 4 ≤ die ∨ !(s.die die).intervalDue then s else
    let s := s.noteDroop die (peak.map (·.2))
    let e (b : Nat) : Nat := (energy[b]?).getD 0
    let total := (energy[32]?).getD (energy.take 32).sum
    let od := (List.range 32).foldl (fun m b => SMap.set 0 m b (e b - (s.committed die (some b)).1)) ([] : SMap Nat)
    let od := SMap.set 0 od 32 (total - (s.committed die none).1)
    let s1 := (List.range 32).foldl (fun s b => s.measure die b (e b) ((peak[b]?).getD (0, 0)).1) s
    let s2 := if (s.die die).power.waited then s1.addBar (powOff die 0x1C) 1 else s1
    (s2.modDie die (fun x => { x with ctlAt := x.time / 8000 })).modPower die (fun p => { p with overdraw := od, waited := false, eff := s2.effNow die }))
/-- Has anything that might wait on a die been there for 128 µs. -/
def State.longThere (s : State) (d : Nat) : Bool :=
  let old (t : Nat) : Bool := decide (t + 128000 ≤ (s.die d).time)
  s.nextWants.any (fun w => old w.since) || (s.die d).cards.any (fun c => old c.since) || s.tasks.any (fun k => old k.since)
/-- The oldest item that waits on a die ages once it has waited 128 µs (R264). This comes about by itself, with the step in which the time is over, so that
nothing younger is admitted before ADMISSION_AGEING. DESIGN CHOICE (log 34): of items equally old, a cluster before a card before a record. -/
def State.ageDie (s : State) (d : Nat) : State :=
  if !s.longThere d then s
  else
    let ws := s.waiting d
    let held : Bool := match (s.die d).power.aged with
      | some x => ws.any (fun v => (v.1, v.2.1) == x)
      | none => false
    match ws.find? (fun w => decide (w.2.2 + 128000 ≤ (s.die d).time) && ws.all (fun v => decide (w.2.2 ≤ v.2.2))) with
    | some w => if held then s else s.modPower d (fun p => { p with aged := some (w.1, w.2.1) })
    | none => s
/-- The ageing of every die. -/
def State.ageAll (s : State) : State := (List.range s.dies.length).foldl State.ageDie s
/-- ADMISSION_AGEING (R264): the oldest waiting item of a die has waited 128 µs. -/
def execAdmissionAgeing (die kind id : Nat) (s : State) : Host.Outcome State Fault Refusal :=
  .next (
    let ws := s.waiting die
    match ws.find? (fun w => w.1 == kind && w.2.1 == id) with
    | none => s
    | some w =>
      let held : Bool := match (s.die die).power.aged with
        | some x => ws.any (fun v => (v.1, v.2.1) == x)
        | none => false
      if held || decide ((s.die die).time < w.2.2 + 128000) || ws.any (fun v => decide (v.2.2 < w.2.2)) then s
      else s.modPower die (fun p => { p with aged := some (kind, id) }))

/-! ## Sensors and trips (R265, R266) -/

/-- A sensor's reading from its register, in 1/8 °C. -/
def State.temp (s : State) (d k : Nat) : Int := BitVec.toInt (BitVec.ofNat 16 (s.bar (powOff d (0x400 + 4 * k))))
/-- Are all the sensors of a die below a temperature in °C. -/
def State.cooler (s : State) (d : Nat) (c : Int) : Bool := (List.range 64).all (fun k => decide (s.temp d k < 8 * c))
/-- TRIPS, and THROT with T2. -/
def State.trips (s : State) (d : Nat) : Nat := bitsAt (s.bar (powOff d 8)) 0 4
def State.setTrip (s : State) (d k : Nat) (b : Bool) : State :=
  let w := setBits (s.bar (powOff d 8)) (k - 1) 1 (if b then 1 else 0)
  s.setBar (powOff d 8) (if k = 2 then setBits w 6 1 (if b then 1 else 0) else w)
/-- Is a trip in force. -/
def State.tripped (s : State) (d k : Nat) : Bool := (s.trips d).testBit (k - 1)
/-- A trip comes into force, and is counted (R294). -/
def State.trip (s : State) (d k : Nat) : State := (s.setTrip d k true).countEvent (evT1 + (k - 1))
/-- T3 comes into force: the record is written (R295). -/
def State.recordTrip (s : State) (d : Nat) : State := (s.trip d 3).writeLife
/-- T1: a warning to the management controller, and to the host as vector 0 (R265, R270). -/
def State.trip1 (s : State) (d : Nat) (hot : Bool) : State :=
  if hot && !s.tripped d 1 then { (s.trip d 1).irq 0 with mgmt := s.mgmt ++ [d] } else if s.tripped d 1 && s.cooler d 92 then s.setTrip d 1 false else s
/-- T2: the throttle; the time since which every sensor is below 98 °C. -/
def State.trip2 (s : State) (d : Nat) (hot : Bool) : State :=
  let s := if hot && !s.tripped d 2 then (s.trip d 2).modPower d (fun p => { p with throttled := true }) else s
  let s := s.modPower d (fun p => { p with below := if s.cooler d 98 then (match p.below with
    | some t => some t
    | none => some (s.die d).time) else none })
  s.setStep d (bitsAt (s.nocWord d) 0 3)
/-- T3: every team on the die is saved as in pre-emption, and the die halts. -/
def State.trip3 (s : State) (d : Nat) (hot : Bool) : State :=
  if hot && !s.tripped d 3 then
    let s := (s.recordTrip d).modPower d (fun p => { p with halted := true })
    ((s.teams.filter (fun t => dieOf t.pcore == d)).foldl (fun s t => s.preempt t.tid) s).setStep d 0
  else s
/-- The seconds at each temperature, counted in samples of 10 µs (R294). -/
def State.noteTemp (s : State) (d : Nat) (t : Int) : State :=
  let b := min 190 (t / 8 + 40).toNat
  let k := 191 * d + b
  { s with live := { s.live with temph := SMap.set 0 s.live.temph k (SMap.get 0 s.live.temph k + 1) } }
/-- SENSOR_SAMPLE (R265): the readings in 1/8 °C; trips T1 to T3. -/
def execSensorSample (die : Nat) (temps : List Int) (s : State) : Host.Outcome State Fault Refusal :=
  .next (
    let s := (enum (temps.take 64)).foldl (fun s p => s.setBar (powOff die (0x400 + 4 * p.1)) (BitVec.ofInt 16 p.2).toNat) s
    let hot (c : Int) : Bool := (List.range 64).any (fun k => decide (8 * c ≤ s.temp die k))
    (((s.noteTemp die (((List.range 64).map (s.temp die)).foldl max (s.temp die 0))).trip1 die (hot 95)).trip2 die (hot 103)).trip3 die (hot 110))
/-- THROTTLE_RELEASE (R265): every sensor has been below 98 °C for 1 ms. -/
def execThrottleRelease (die : Nat) (s : State) : Host.Outcome State Fault Refusal :=
  .next (match (s.die die).power.below with
    | none => s
    | some t => if (s.die die).power.throttled && decide (t + 1000000 ≤ (s.die die).time) then
        (s.setTrip die 2 false).modPower die (fun p => { p with throttled := false })
      else s)
/-- DIE_REENABLE (R265, R266): management re-enables a die once every sensor is below 95 °C. -/
def execDieReenable (die : Nat) (s : State) : Host.Outcome State Fault Refusal :=
  .next (if (s.die die).power.halted && s.cooler die 95 then (s.setTrip die 3 false).modPower die (fun p => { p with halted := false }) else s)

/-! ## Migration (R267) -/

/-- Is a sensor of the core's block at or above 90 °C. DESIGN CHOICE (log 34): the two sensors of block `b` are 2b and 2b + 1. -/
def State.hotBlock (s : State) (core : Nat) : Bool :=
  let b := s.coreBlock core
  let d := dieOf core
  decide (8 * 90 ≤ s.temp d (2 * b)) || decide (8 * 90 ≤ s.temp d (2 * b + 1))
/-- HOTSPOT_MIGRATION (R267): a team, with its cluster, is to move to idle cores of its die and pool: the rectangle that begins at `core`; not within
1 ms of its last move. The cores are kept for it (`State.pinned`). -/
def execHotspotMigration (tid core : Nat) (s : State) : Host.Outcome State Fault Refusal :=
  .next (match s.team? tid with
    | none => s
    | some t =>
      let d := dieOf t.pcore
      let cap := s.classOf t.la
      match (s.rects d t.cw t.ch).find? (fun cs => cs.head? == some core) with
      | none => s
      | some cs =>
        if t.idle || !s.hotBlock t.pcore || (t.moved != 0 && decide ((s.die d).time + 1 < t.moved + 1000000)) || s.teams.any (fun u => cs.contains u.pcore) ||
            !cs.all (fun k => s.poolFits k cap && !s.claimed (2 ^ 64) (fun _ => false) k) then s
        else
          let mates := s.cluster t
          (mates.foldl (fun s u => s.modTeam u.tid (fun u => { u with pin := cs, moved := (s.die d).time + 1 })) (s.preempt tid)).countEvent evMigration)

/-! ## Power registers (R268-R270) -/

/-- Is a power register's offset one of a budget, a ceiling, a default or a cost. -/
def powerWritable (o : Nat) : Bool := o == 0 || o == 4 || (decide (0x20 ≤ o) && decide (o < 0x60)) || (decide (0x68 ≤ o) && decide (o < 0xA8))
/-- Is it a block or die energy budget, which a write may not raise above its reset value (R268). -/
def isBudget (o : Nat) : Bool := o == 0 || (decide (0x20 ≤ o) && decide (o < 0x40) && o % 8 == 0)
/-- A budget, ceiling, default or cost is written: a budget above its reset value is clamped and sets CLAMP. -/
def State.writeBudget (s : State) (die off v : Nat) : State :=
  if 4 ≤ die ∨ off % 4 ≠ 0 ∨ !powerWritable off then s
  else
    let v := v % 2 ^ 32
    if isBudget off ∧ powerReset s.part off < v then (s.setBar (powOff die off) (powerReset s.part off)).setBar (powOff die 8) (setBits (s.bar (powOff die 8)) 7 1 1)
    else s.setBar (powOff die off) v
/-- POWER_BUDGET_WRITE (R268, R269). -/
def execPowerBudgetWrite (die off v : Nat) (s : State) : Host.Outcome State Fault Refusal := .next (if s.hostOpen then s.writeBudget die off v else s)
/-- The thresholds are written: UPTH at or below DNTH is ignored and sets CLAMP; the step stays under MAXSTEP. -/
def State.writeThresholds (s : State) (die v : Nat) : State :=
  if 4 ≤ die then s
  else if bitsAt v 16 8 ≤ bitsAt v 24 8 then s.setBar (powOff die 8) (setBits (s.bar (powOff die 8)) 7 1 1)
  else
    let s1 := s.setBar (powOff die 0xC) (bitsAt v 24 8 * 2 ^ 24 + bitsAt v 16 8 * 2 ^ 16 + bitsAt v 8 3 * 2 ^ 8 + bitsAt (s.nocWord die) 0 3)
    s1.setStep die (bitsAt (s.nocWord die) 0 3)
/-- OCCUPANCY_THRESHOLD_WRITE (R261, R269, R270). -/
def execOccupancyThresholdWrite (die v : Nat) (s : State) : Host.Outcome State Fault Refusal := .next (if s.hostOpen then s.writeThresholds die v else s)

end Sys2Proof.Machine
end

