-- ==== Sys2Proof/Machine/Boot.lean ====
section
/-! DEFINITION. The loss of power and the boot (R10, R17, R265, R295, R306), and the time base (R305). -/
namespace Sys2Proof.Machine

/-! ## Without power (R10, R265, R295) -/

/-- The newer copy of the record whose signature holds (R294). -/
def State.lifeNewest (s : State) : Lifetime :=
  let r := if s.lifeA.number < s.lifeB.number then s.lifeB else s.lifeA
  if r.good then r else Lifetime.zero
/-- What is left without power: the NOR flash's images and record copies, the fuses, and what is not the part's: the memory of the host and of
peers, and the agenda. -/
def State.powerOff (s : State) : State :=
  { State.reset with
    mem := s.mem.filter (fun p => decide (2 ^ 50 ≤ p.1))
    part := s.part
    badSites := s.badSites
    rowFuses := s.rowFuses
    trust := { State.reset.trust with slotA := s.trust.slotA, slotB := s.trust.slotB, rollback := s.trust.rollback, fused := s.trust.fused }
    lifeA := s.lifeA
    lifeB := s.lifeB
    live := s.lifeNewest
    powered := false
    free := s.free
    agenda := s.agenda }
/-- A commanded power-down: the management controller writes the lifetime record first (R295). -/
def State.powerDown (s : State) : State := s.writeLife.powerOff
/-- T4_CUTOFF (R265): a comparator removes power; counts made since the record was last written are lost (R295). DESIGN CHOICE (log 49): the trip
itself counts in what the management controller takes up at the next power-up. -/
def execT4Cutoff (s : State) : Host.Outcome State Fault Refusal := .next (s.powerOff.countEvent (evT1 + 3))
/-- POWER_LOSS (R10, R295). -/
def execPowerLoss (s : State) : Host.Outcome State Fault Refusal := .next s.powerOff

/-! ## Power-up (R17, R306) -/

/-- The enabled sites of a die that are not retired, in order of node. -/
def goodSites (bad : List Nat) (d : Nat) : List Nat := ((List.range 128).map (128 * d + ·)).filter (fun x => !bad.contains x)
/-- The sites of a die's 120 logical cores; an index with none left is unavailable. DESIGN CHOICE (log 10): of more than 120 good sites those with
the lowest nodes are bound. -/
def bindDie (bad : List Nat) (d : Nat) : List Nat × List Nat :=
  let g := goodSites bad d
  let none' := (((List.range 128).map (128 * d + ·)).find? bad.contains).getD (128 * d + 127)
  ((List.range 120).map (fun i => (g[i]?).getD none'), ((List.range 120).filter (fun i => decide (g.length ≤ i))).map (120 * d + ·))
/-- May a slot boot: its signature holds under the key whose digest is fused, and its version is not below the fused counter. -/
def Image.boots (fused rollback : Nat) (i : Image) : Bool := i.valid && i.key == fused && decide (rollback ≤ i.version)
/-- The slot that boots: the newer valid one. -/
def Trust.bootSlot (t : Trust) : Option Nat :=
  if t.slotA.boots t.fused t.rollback && (!t.slotB.boots t.fused t.rollback || decide (t.slotB.version ≤ t.slotA.version)) then some 0
  else if t.slotB.boots t.fused t.rollback then some 1
  else none
/-- The boot of a slot, or recovery. -/
def Trust.boot (t : Trust) : Trust :=
  match t.bootSlot with
  | some k => { t with running := k, recovery := false }
  | none => { t with recovery := true }
/-- POWER_UP (R306): the newer valid slot boots, and firmware binds the logical cores (R17). -/
def execPowerUp (s : State) : Host.Outcome State Fault Refusal :=
  .next (if s.powered then s
    else { s with
      powered := true
      trust := s.trust.boot
      sites := (List.range 4).flatMap (fun d => (bindDie s.badSites d).1)
      unavail := (List.range 4).flatMap (fun d => (bindDie s.badSites d).2) })

/-! ## Time (R305) -/

/-- PTP_SYNC (R305): a message gives the time that a die's clock ought to show; every die slews the difference away as time passes, so that the
dies stay within 10 ns of each other. -/
def execPtpSync (die ns : Nat) (s : State) : Host.Outcome State Fault Refusal :=
  .next { s with dies := s.dies.map (fun x => { x with slew := Int.ofNat ns - Int.ofNat (s.die die).time, slewAcc := 0 }) }

end Sys2Proof.Machine
end

