-- ==== Sys2Proof/Machine/Trust.lean ====
section
/-! DEFINITION. Firmware updates, attestation and management's messages (R306-R309; what a message's bytes are beyond that: log 11). -/
namespace Sys2Proof.Machine

/-! ## Firmware (R307) -/

/-- A new image is written to the inactive slot and verified as at boot; where it passes, the controllers switch to it. -/
def Trust.update (t : Trust) (i : Image) : Trust :=
  let go : Bool := i.boots t.fused t.rollback && !t.recovery
  if t.running = 0 then { t with slotB := i, running := if go then 1 else 0 } else { t with slotA := i, running := if go then 0 else 1 }
/-- The state with its firmware updated. -/
def State.updateFirmware (s : State) (i : Image) : State := { s with trust := s.trust.update i }
/-- An image that an update brings (R307): `signer` is the digest of the key under which its signature holds, none where it holds under none. -/
def imageSigned (version digest : Nat) (signer : Option Nat) : Image := ⟨version, digest, signer.getD 0, signer.isSome⟩
/-- LIVE_UPDATE (R307). -/
def execLiveUpdate (version digest : Nat) (signer : Option Nat) (s : State) : Host.Outcome State Fault Refusal :=
  .next (s.updateFirmware (imageSigned version digest signer))
/-- PLDM_FIRMWARE_UPDATE (R309): PLDM type 5 brings an image for a live update. -/
def execPldmFirmwareUpdate (version digest : Nat) (signer : Option Nat) (s : State) : Host.Outcome State Fault Refusal :=
  .next (s.updateFirmware (imageSigned version digest signer))
/-- ROLLBACK_COUNTER_ADVANCE (R307): fuses only rise. -/
def execRollbackCounterAdvance (v : Nat) (s : State) : Host.Outcome State Fault Refusal :=
  .next { s with trust := { s.trust with rollback := max s.trust.rollback v } }

/-! ## Replies -/

/-- The state with a reply. -/
def State.answer (s : State) (bs : List Byte) : State := { s with reply := bs }
/-- Bytes of `n` fresh free words. -/
def freshBytes (from' n : Nat) : List Byte := (List.range n).flatMap (fun i => leBytes 4 (Config.freeWord (from' + i)).toNat)
/-- A reply that ends with `n` fresh free words. -/
def State.answerFresh (s : State) (bs : List Byte) (n : Nat) : State := { s.answer (bs ++ freshBytes s.free n) with free := s.free + n }
/-- Bytes of the words, `k` to `k + n`, of something whose value is not given and does not change. -/
def fixedBytes (tag k n : Nat) : List Byte := (List.range n).flatMap (fun i => leBytes 4 (Config.freeOf tag (k + i)).toNat)

/-! ## SPDM (R308) -/

/-- GET_VERSION (R308): SPDM 1.3. -/
def execGetVersion (s : State) : Host.Outcome State Fault Refusal := .next (s.answer [0x13])
/-- GET_CAPABILITIES (R308). -/
def execGetCapabilities (s : State) : Host.Outcome State Fault Refusal := .next (s.answer (fixedBytes (2 ^ 74) 0 5))
/-- NEGOTIATE_ALGORITHMS (R308): ECDSA P-256, SHA-256 and AES-256-GCM, by their SPDM bits. -/
def execNegotiateAlgorithms (s : State) : Host.Outcome State Fault Refusal := .next (s.answer (leBytes 4 0x10 ++ leBytes 4 0x1 ++ leBytes 2 0x2))
/-- GET_DIGESTS (R308): the 32-byte digest of the certificate chain. -/
def execGetDigests (s : State) : Host.Outcome State Fault Refusal := .next (s.answer (fixedBytes (2 ^ 75) 0 8))
/-- GET_CERTIFICATE (R308): bytes of the identity key's chain. -/
def execGetCertificate (off len : Nat) (s : State) : Host.Outcome State Fault Refusal :=
  .next (s.answer (((fixedBytes (2 ^ 76) (off / 4) (len / 4 + 2)).drop (off % 4)).take len))
/-- CHALLENGE (R308): the nonce, signed with the identity key. -/
def execChallenge (nonce : List Byte) (s : State) : Host.Outcome State Fault Refusal := .next (s.answerFresh nonce 16)
/-- The slice-partition configuration, die by die. -/
def State.partBytes (s : State) : List Byte :=
  (List.range 4).flatMap (fun d => (List.range 256).flatMap (fun i => leBytes 4 (s.bar (dieOff d (0x0010_0000 + 4 * i)))))
/-- The fuses and spares: the key's digest, the sites of the logical cores and those retired, row repairs by channel, sub-bank spares by slice, and
lane spares. -/
def State.fuseMap (s : State) : List Byte :=
  leBytes 32 s.trust.fused ++ s.sites.flatMap (leBytes 2) ++ s.badSites.flatMap (leBytes 2) ++
  (List.range 384).flatMap (fun ch => leBytes 2 (SMap.get 0 s.rowFuses ch)) ++
  s.dies.flatMap (fun d => (List.range 128).flatMap (fun sl => leBytes 1 (SMap.get 0 d.spares sl))) ++ s.laneSpares.flatMap (leBytes 2)
/-- What the measurements cover: both firmware digests, the rollback counter, the fuse and spare map, the partitions. -/
def State.measured (s : State) : List Byte :=
  leBytes 32 s.trust.slotA.digest ++ leBytes 32 s.trust.slotB.digest ++ leBytes 4 s.trust.rollback ++ s.fuseMap ++ s.partBytes
/-- GET_MEASUREMENTS (R308): what they cover, the nonce, and a signature. -/
def execGetMeasurements (nonce : List Byte) (s : State) : Host.Outcome State Fault Refusal := .next (s.answerFresh (s.measured ++ nonce) 16)
/-- KEY_EXCHANGE (R308): a session begins; the reply is the device's share and a signature. DESIGN CHOICE (log 11): one session stands at a time, so that an
exchange takes the place of one that is pending, and END_SESSION ends whichever stands. -/
def execKeyExchange (_ : List Byte) (s : State) : Host.Outcome State Fault Refusal :=
  .next ({ s with trust := { s.trust with spdm := 1 } }.answerFresh [] 32)
/-- A port has the key of a session (R302). DESIGN CHOICE (log 11): a port that failures took down stays down until the power cycles, whatever session keys
it. -/
def Port.keyed (k : Option Nat) (p : Port) : Port := { p with key := k, fails := 0 }
/-- Changes the port of a session, if it has one. -/
def State.modPort (s : State) (port : Option Nat) (f : Port → Port) : State :=
  match port with
  | some k => { s with ports := updAt s.ports k f }
  | none => s
/-- FINISH (R302, R308): a session whose exchange verifies is established; with a port's partner, it sets up the port's key. -/
def execFinish (port : Option Nat) (verified : Bool) (s : State) : Host.Outcome State Fault Refusal :=
  .next (if s.trust.spdm = 1 ∧ verified then
      let k := s.trust.spdmKeys + 1
      { s with trust := { s.trust with spdm := 2, spdmKeys := k } }.modPort port (Port.keyed (some k))
    else s)
/-- END_SESSION (R302, R308): the session ends, and with it its port's key. -/
def execEndSession (port : Option Nat) (s : State) : Host.Outcome State Fault Refusal :=
  .next ({ s with trust := { s.trust with spdm := 0 } }.modPort port (Port.keyed none))

/-! ## Management (R309) -/

/-- A die's temperatures, trips and power counters. -/
def State.monitor (s : State) (d : Nat) : List Byte :=
  let w (o : Nat) : List Byte := leBytes 4 (s.bar (powOff d o))
  (List.range 64).flatMap (fun k => w (0x400 + 4 * k)) ++ w 8 ++ w 0x10 ++ w 0x14 ++ w 0x18 ++ w 0x1C ++
  (List.range 32).flatMap (fun b => w (0x100 + 16 * b) ++ w (0x104 + 16 * b) ++ w (0x108 + 16 * b)) ++
  (List.range 12).flatMap (fun k => leBytes 8 (SMap.get 0 s.live.events k))
/-- PLDM_MONITOR (R309): temperatures, trips, power counters and repair events. -/
def execPldmMonitor (die : Nat) (s : State) : Host.Outcome State Fault Refusal := .next (if die < 4 then s.answer (s.monitor die) else s)
/-- PLDM_FRU (R309). -/
def execPldmFru (s : State) : Host.Outcome State Fault Refusal := .next (s.answer (fixedBytes (2 ^ 77) 0 64))
/-- Have 10 minutes passed since the record was last written by the clock (R295). -/
def State.recordDue (s : State) : Bool := decide (s.lifeAt + 600000000000 ≤ (s.die 0).time)
/-- LIFETIME_RECORD_WRITE (R295): the 10 minutes' write. -/
def execLifetimeRecordWrite (s : State) : Host.Outcome State Fault Refusal :=
  .next (if s.recordDue then { s with lifeAt := (s.die 0).time }.writeLife else s)
/-- LIFETIME_RECORD_READ (R309): a 4 KiB piece of copy 0 (A) or 1 (B). -/
def execLifetimeRecordRead (copy piece : Nat) (s : State) : Host.Outcome State Fault Refusal :=
  .next (if 2 ≤ copy ∨ 2048 ≤ piece then s else s.answer ((if copy = 0 then s.lifeA else s.lifeB).piece piece))

end Sys2Proof.Machine
end

