-- ==== Sys2Proof/Machine/Clock.lean ====
section
/-! DEFINITION. The passing of time: the time base, the clocks of the power blocks, and what falls due on them (R17, R25, R195, R256, R263, R269,
R287, R295, R305; logs 4, 5). -/
namespace Sys2Proof.Machine

/-! ## What is due -/

/-- Has something fallen due that comes before any more time passes: a control interval, a frame boundary, a microsecond's charge, a time slice,
or the lifetime record's write (R256, R263, R287, R295). -/
def State.clockDue (s : State) : Bool :=
  (enum s.dies).any (fun p => p.2.intervalDue || s.frameDue p.1 || p.2.graphs.any (fun g => g.chargeDue p.2.time)) ||
  s.teams.any s.sliceDue || s.recordDue
/-- Nanoseconds from a die's time to its next frame boundary (R256). -/
def State.toFrame (s : State) (d : Nat) : Option Nat :=
  let o := s.bar64 (dieOff d 0x0040_0000)
  let p := s.bar64 (dieOff d 0x0040_0008)
  let t := (s.die d).time
  if p = 0 then none else some (if t < o then o + p - t else p - (t - o) % p)
/-- Nanoseconds until a team has held its core for the next multiple of its time slice (R287). -/
def State.toSlice (s : State) (t : Team) : Option Nat :=
  if s.tsl t.ctx = 0 then none else some (s.tsl t.ctx - ((s.die (dieOf t.pcore)).time - t.since) % s.tsl t.ctx)
/-- The most nanoseconds that may pass at once: to the next microsecond of the time base, frame boundary, slice or write of the record. -/
def State.room (s : State) : Nat :=
  let near (a : Nat) (x : Option Nat) : Nat := match x with
    | some n => min a n
    | none => a
  let a := s.dies.foldl (fun a x => min a (1000 - x.time % 1000)) (s.lifeAt + 600000000000 - (s.die 0).time)
  let a := (List.range s.dies.length).foldl (fun a d => near a (s.toFrame d)) a
  (s.teams.filter (fun t => !t.idle)).foldl (fun a t => near a (s.toSlice t)) a

/-! ## Time (R305) -/

/-- The stall clocks of a speculating group that is stalled, until the phase completes (R55, R192, R195). -/
def Group.stallFor (clocks : Nat) (g : Group) : Group :=
  if g.bram.any (fun b => b.stalled && !b.past) then
    { g with specStall := min (g.specStall + (g.specRem + clocks) / 256) 255, specRem := (g.specRem + clocks) % 256 }
  else g
/-- The correction of a die's time made while `ns` nanoseconds pass: at most 100 parts per million (R305). -/
def Die.correction (x : Die) (ns : Nat) : Int :=
  let m : Int := ((x.slewAcc + ns) / 10000 : Nat)
  max (-m) (min m x.slew)
/-- A die's time after `ns` nanoseconds, corrected. -/
def Die.tick (ns : Nat) (x : Die) : Die :=
  let c := x.correction ns
  { x with
    time := (Int.ofNat (x.time + ns) + c).toNat % 2 ^ 64
    slew := x.slew - c
    slewAcc := if x.slew - c = 0 then 0 else (x.slewAcc + ns) % 10000 }
/-- The nanoseconds that a throttled die counts (R269). -/
def State.throttledFor (s : State) (ns : Nat) : State :=
  (List.range s.dies.length).foldl (fun s d => if (s.die d).power.throttled then s.addBar64 (powOff d 0x10) ns else s) s
/-- Nanoseconds pass on every die alike, so that the dies agree (R305); what waits for admission meanwhile is noted for WAITIV (R269). -/
def State.passTime (s : State) (ns : Nat) : State :=
  if ns = 0 then s
  else
    let s := (List.range s.dies.length).foldl State.noteWaits s
    ({ s with dies := s.dies.map (Die.tick ns) }).throttledFor ns

/-! ## Clocks (R17, R25) -/

/-- Of `n` clocks from count `c`, the last count that is a multiple of 4, before the count they lead to. -/
def lastFourth (c n : Nat) : Option Nat := if n = 0 then none else
  let m := (c + n - 1) / 4 * 4
  if c ≤ m then some m else none
/-- The formers of a core with a team in free mode, at the counts that `n` clocks pass (R25): that of the last one leaves what they all would. -/
def State.formFor (s : State) (n core : Nat) : State :=
  match lastFourth (s.blockClk core) n with
  | none => s
  | some m => if (s.core core).formed = m + 1 then s else (s.formCore core).modCore core (fun c => { c with formed := m + 1 })
/-- The clocks of a die's blocks advance, its formers run, and groups that stall count (R17, R25, R195). -/
def State.passClocks (s : State) (d n : Nat) : State :=
  if n = 0 then s
  else
    let s := ((s.coresOf (fun t => dieOf t.pcore == d && !t.la.bridle)).foldl (fun s core => s.formFor n core) s).modDie d (fun x => { x with
      clk := (List.range 32).foldl (fun m b => SMap.set 0 m b ((SMap.get 0 m b + n) % 2 ^ 64)) x.clk })
    { s with teams := s.teams.map (fun t => if dieOf t.pcore = d ∧ t.la.bramble then { t with groups := t.groups.map (Group.stallFor n) } else t) }
/-- Time passes: nanoseconds on every die, no further than what falls due next, and clocks on the blocks of one; nothing while something is due. -/
def State.elapse (s : State) (d ns clocks : Nat) : State :=
  if s.clockDue then s else (s.passTime (min ns s.room)).passClocks d clocks

end Sys2Proof.Machine
end

