-- ==== Sys2Proof/Machine/Atomic.lean ====
section
/-! DEFINITION. The atomics and reductions (R169, R205, R314-R316, R410). -/
namespace Sys2Proof.Machine

/-- What an atomic does: operation, type, SR, operand registers, acquire, release (R81, R315). -/
structure Atom where
  op : Nat
  ty : Ty
  sr : Bool
  b : Nat
  c : Nat
  acq : Bool
  rel : Bool
  deriving DecidableEq, Repr

/-- Access width. -/
def Atom.width (k : Atom) : Nat := atomWidth k.op k.ty
/-- An operand of a lane: a register, or a pair for I64. -/
def Atom.operand (k : Atom) (g : Group) (l r : Nat) : Nat := if k.ty = .i64 then g.rv64 l r else (g.rv l r).toNat
/-- The random bits of the lane's draw at a place (R105, R315). -/
def Atom.bits (k : Atom) (g : Group) (l : Nat) (loc : Loc) : Option Nat :=
  if k.sr then some (srBits g.seed.toNat loc.elem (g.lane l).seq) else none
/-- The register writes of the old value. -/
def Atom.returns (k : Atom) (d old : Nat) : List Wr := if k.ty = .i64 then wr64 d old else [.v d (BitVec.ofNat 32 old)]
/-- Operations bridle mode cannot fold: CAS, INC, DEC (R205). -/
def Atom.unfoldable (k : Atom) : Bool := k.op == 7 || k.op == 8 || k.op == 9

/-- Does a held entry touch any of the `n` bytes at a place. -/
def Held.touches (l : Loc) (n : Nat) : Held → Bool
  | .bytes x => x.loc.sp == l.sp && (List.range n).any (fun i => decide (x.loc.at ≤ l.at + i) && decide (l.at + i < x.loc.at + 32) && x.mask.has (l.at + i - x.loc.at))
  | .part p => p.loc.sp == l.sp && decide (p.loc.at < l.at + n) && decide (l.at < p.loc.at + p.width)
/-- Is the entry a partial. -/
def Held.isPart : Held → Bool
  | .part _ => true
  | .bytes _ => false
/-- Has the team written every one of the bytes plainly, with no partial over them (R205). DESIGN CHOICE (log 50): a
location of which only some bytes are written plainly is not written plainly, and a reduction to it starts a partial. -/
def plainly (h : List Held) (l : Loc) (n : Nat) : Bool :=
  (List.range n).all (fun i => h.any (fun e => !e.isPart && e.touches (l.plus i) 1)) && !h.any (fun e => e.isPart && e.touches l n)
/-- The partial folded into: one of the same place, OP, T and width, where no other partial that touches the bytes is of another (R205). -/
def latestPart (h : List Held) (l : Loc) (k : Atom) : Option Nat :=
  let es := (enum h).reverse.filter (fun e => e.2.isPart && e.2.touches l k.width)
  let same (e : Nat × Held) : Bool := match e.2 with
    | .part p => p.loc.sp == l.sp && decide (p.loc.at = l.at) && p.op == k.op && p.ty == k.ty && p.width == k.width
    | .bytes _ => false
  let beside (e : Nat × Held) : Bool := match e.2 with
    | .part p => p.loc.at != l.at
    | .bytes _ => false
  if es.any beside then none else (es.head?.filter same).map Prod.fst
/-- One reduction of a bridle team on its view (R205): applied to a value it wrote plainly, folded into the place's latest partial, or the
start of a new one; `old` are the versions that stood at its LNXT, which stay. -/
def foldHeld (old h : List Held) (k : Atom) (g : Group) (lane : Nat) (l : Loc) (view : Nat) (b : Nat) : List Held :=
  let sr := if k.sr then some (g.seed.toNat, (g.lane lane).seq) else none
  if plainly (old ++ h) l k.width then
    (mergeSector [] l (leBytes k.width (atomNew k.op k.ty (k.bits g lane l) view b 0))).foldl commitOne h
  else match latestPart h l k with
    | some i => updAt h i (fun e => match e with
        | .part p => .part { p with val := foldStep k.op k.ty p.val b, sr := if p.sr.isSome then p.sr else sr }
        | e => e)
    | none => h ++ [.part ⟨l, k.op, k.ty, k.width, foldStep k.op k.ty (foldId k.op k.ty) b, sr⟩]

/-- One lane's atomic at its place (R315): the state after it and the value from before. -/
def State.atomLane (s : State) (k : Atom) (tid gi l : Nat) (sp : Space) (a : Nat) : State × Nat :=
  match s.tg tid gi with
  | none => (s, 0)
  | some (t, g) => match s.resolve t g l sp a k.width true with
    | .ok ((loc, w) :: _) =>
      let b := k.operand g l k.b
      let s := (s.fromMirror [(loc, w)]).dirtied t gi g l sp a
      if bridled t loc then
        let view := leNat ((List.range w).map (fun i => s.teamView t loc.sp (loc.at + i)))
        ((s.modTeam tid (fun t => { t with held := foldHeld t.merged t.held k g l loc view b })).raiseWm tid gi loc.dom, view)
      else
        let s := s.landLine t.pcore loc
        let old := leNat (s.pointBytes t loc w)
        let new := atomNew k.op k.ty (k.bits g l loc) old b (k.operand g l k.c)
        ((s.pointWrite tid gi loc (leBytes w new)).raiseWm tid gi loc.dom, old)
    | _ => (s, 0)

/-- One lane's atomic that waits in the store queue (R166): its operands and random bits are those of its issue. -/
def State.atomPart (s : State) (k : Atom) (t : Team) (g : Group) (gi l : Nat) (sp : Space) (a : Nat) (ret : Option Nat) : State × Option Rmw :=
  match s.resolve t g l sp a k.width true with
  | .ok ((loc, w) :: _) =>
    (((s.fromMirror [(loc, w)]).dirtied t gi g l sp a).raiseWm t.tid gi loc.dom,
      some ⟨gi, l, loc, w, k.op, k.ty, k.bits g l loc, k.operand g l k.b, k.operand g l k.c, ret, none⟩)
  | _ => (s, none)

/-- The returning atomics (`ret` is the destination) and the reductions (R314-R316, R410). A reduction's lanes still count for SEQ
(R105). -/
def atomBody (sp : Space) (k : Atom) (ret : Option Nat) (a : Group → Nat → Nat) : Body :=
  { prep := drainPrep
    pre := fun s x => if k.acq && pointWait k.rel s x then .wait .queue else .go
    lane := if ret.isSome || k.unfoldable then ownAcc sp k.width true a else laneAcc sp k.width true true a
    run := fun s x =>
      if !k.acq && pointWait k.rel s x then
        let r := s.queueRmw x k.rel (fun s t g gi l => s.atomPart k t g gi l sp (a g l) ret)
        (if sp = .shared || x.lanes.isEmpty then r.1 else r.1.irrevocable x.tid, r.2)
      else
      let r := s.lanesDo x (fun s g gi l =>
        let (s', old) := s.atomLane k x.tid gi l sp (a g l)
        (s', match ret with
          | some d => k.returns d old
          | none => []))
      let s := if sp = .shared || r.2.isEmpty then r.1 else r.1.irrevocable x.tid
      (if k.acq && !r.2.isEmpty then s.acquireFor x else s, { lanes := r.2 }) }

/-- ATOMG (R314-R316). -/
def execAtomg (h : Head) (g : Guard) (d : BitVec 7) (a : BitVec 7) (b : BitVec 7) (c : BitVec 7) (k : BitVec 4) (x : Bool) (r : BitVec 3) (t : Ty) (s : State) : Host.Outcome State Fault Refusal :=
  issue (.atomg h g d a b c k x r t) (atomBody .global ⟨k.toNat, t, x, b.toNat, c.toNat, r.toNat % 2 == 1, r.toNat / 2 == 1⟩ (some d.toNat) (globalAddr a.toNat 0)) s

/-- ATOMS (R314-R316). -/
def execAtoms (h : Head) (g : Guard) (d : BitVec 7) (a : BitVec 7) (b : BitVec 7) (c : BitVec 7) (k : BitVec 4) (x : Bool) (r : BitVec 3) (t : Ty) (s : State) : Host.Outcome State Fault Refusal :=
  issue (.atoms h g d a b c k x r t) (atomBody .shared ⟨k.toNat, t, x, b.toNat, c.toNat, r.toNat % 2 == 1, r.toNat / 2 == 1⟩ (some d.toNat) (localAddr a.toNat 0)) s

/-- ATOMP (R314-R316). -/
def execAtomp (h : Head) (g : Guard) (d : BitVec 7) (a : BitVec 7) (b : BitVec 7) (c : BitVec 7) (k : BitVec 4) (x : Bool) (r : BitVec 3) (t : Ty) (s : State) : Host.Outcome State Fault Refusal :=
  issue (.atomp h g d a b c k x r t) (atomBody .pad ⟨k.toNat, t, x, b.toNat, c.toNat, r.toNat % 2 == 1, r.toNat / 2 == 1⟩ (some d.toNat) (localAddr a.toNat 0)) s

/-- REDG (R410). -/
def execRedg (h : Head) (g : Guard) (a : BitVec 7) (b : BitVec 7) (c : BitVec 7) (k : BitVec 4) (x : Bool) (r : BitVec 3) (t : Ty) (s : State) : Host.Outcome State Fault Refusal :=
  issue (.redg h g a b c k x r t) (atomBody .global ⟨k.toNat, t, x, b.toNat, c.toNat, r.toNat % 2 == 1, r.toNat / 2 == 1⟩ none (globalAddr a.toNat 0)) s

/-- REDS (R410). -/
def execReds (h : Head) (g : Guard) (a : BitVec 7) (b : BitVec 7) (c : BitVec 7) (k : BitVec 4) (x : Bool) (r : BitVec 3) (t : Ty) (s : State) : Host.Outcome State Fault Refusal :=
  issue (.reds h g a b c k x r t) (atomBody .shared ⟨k.toNat, t, x, b.toNat, c.toNat, r.toNat % 2 == 1, r.toNat / 2 == 1⟩ none (localAddr a.toNat 0)) s

/-- REDP (R410). -/
def execRedp (h : Head) (g : Guard) (a : BitVec 7) (b : BitVec 7) (c : BitVec 7) (k : BitVec 4) (x : Bool) (r : BitVec 3) (t : Ty) (s : State) : Host.Outcome State Fault Refusal :=
  issue (.redp h g a b c k x r t) (atomBody .pad ⟨k.toNat, t, x, b.toNat, c.toNat, r.toNat % 2 == 1, r.toNat / 2 == 1⟩ none (localAddr a.toNat 0)) s

end Sys2Proof.Machine
end

