-- ==== Sys2Proof/Machine/Barrier.lean ====
section
/-! DEFINITION. The barrier and phase instructions (R183-R188, R317, R398, R399). -/
namespace Sys2Proof.Machine

/-- The results a switch marker on a barrier instruction waits for are written before it acts (R94, R317). -/
def swPrep (sw : Bool) (s : State) (x : Site) : State := if sw then s.eachGroup x.tid x.mem (fun _ _ g => g.deliver) else s

/-- Lanes of a group whose arrival at barrier `b` is counted, or is in its store queue (R184). -/
def Group.counted (g : Group) (r : Barrier) (b gi : Nat) : Mask :=
  g.sq.foldl (fun m e => match e.act with
    | .arrive k ls _ _ _ => if k = b then ls.foldl (fun m q => if q.1 = gi then m ||| q.2.1 else m) m else m
    | _ => m) (r.lanes gi)

/-- The explicit count of an arriving group (R184). -/
def Group.expects (g : Group) (cg : Option Nat) : Option Nat := cg.map (fun k => (g.rg k).toNat)

/-- The state a lane of the participants is put into directly, at a bridle round end (R203). -/
def State.setLanes (s : State) (tid : Nat) (ms : List (Nat × Mask)) (st : LaneSt) : State :=
  s.eachGroup tid ms (fun _ m g => g.modLanes m (fun l => { l with st := st }))

/-- One wait status for every lane of the groups. -/
def waitAll (ms : List (Nat × Mask)) (st : Nat → LaneSt) : List (Nat × Nat × LaneSt) :=
  ms.flatMap (fun p => (lanesOf p.2).map (fun l => (p.1, l, st p.1)))

/-- An arrival (R184): a lane already counted is held; the others arrive, in free mode through the store queues as a release, at a
bridle round end at once. -/
def arriveRun (b : Nat) (cg : Option Nat) (spec wait : Bool) (s : State) (x : Site) : State × Res :=
  match s.team? x.tid with
  | none => (s, {})
  | some t =>
    let r := (t.bars[b]?).getD ⟨false, false, 0, 0, 0⟩
    let cnt (j : Nat) : Option Nat := (t.groups[j]?).bind (·.expects cg)
    let heldM (j : Nat) (m : Mask) : Mask := match t.groups[j]? with
      | some g => m &&& g.counted r b j
      | none => 0
    let held := (x.part.map (fun p => (p.1, heldM p.1 p.2))).filter (fun p => decide (p.2 ≠ 0))
    let go := (x.part.map (fun p => (p.1, p.2 &&& ~~~heldM p.1 p.2))).filter (fun p => decide (p.2 ≠ 0))
    let ls := go.map (fun p => (p.1, p.2, cnt p.1))
    let k := s.nextId
    let s := if held = [] then s else { s with nextId := s.nextId + 1 }
    if t.la.bridle then
      let s := held.foldl (fun s p => s.setLanes x.tid [p] (.barred b (.held (cnt p.1) wait false k))) s
      let s := if wait then s.setLanes x.tid go (.barred b (.phase false)) else s
      ((s.countLanes x.tid b ls false wait x.pc).testBars x.tid, {})
    else
      let s := s.enqueue x.tid (go.map Prod.fst) true (.arrive b ls spec wait x.pc)
      (s, { wait := waitAll held (fun j => .barred b (.held (cnt j) wait spec k)) ++
        (if wait then waitAll go (fun _ => .barred b .release) else []) })

/-- BAR and BARA: the explicit count is checked at issue, before the release (R184). -/
def arriveBody (sw : Bool) (b : Nat) (cg : Option Nat) (spec wait : Bool) : Body :=
  { prep := swPrep sw
    pre := fun s x =>
      if x.mem.any (fun p => match (s.group? x.tid p.1).bind (·.expects cg) with
        | some e => e == 0 || decide (1024 < e)
        | none => false) then .trap { code := tBOUNDS } else .go
    run := arriveRun b cg spec wait }

/-- BARW: every participant waits on the open phase (R187). -/
def barwBody (sw : Bool) (b : Nat) : Body :=
  { prep := swPrep sw
    run := fun s x =>
      if (s.team? x.tid).any (·.la.bridle) then (s.setLanes x.tid x.part (.barred b (.phase false)), {})
      else (s, { wait := waitAll x.part (fun _ => .barred b (.phase false)) }) }

/-- Is the barrier's phase bit `h`. -/
def Team.phaseIs (t : Team) (b : Nat) (h : Bool) : Bool := ((t.bars[b]?).map (·.phase)).getD false == h
/-- The widest watermark of the participating groups (R164). -/
def State.wmOf (s : State) (x : Site) : Dom := x.part.foldl (fun d p => match s.group? x.tid p.1 with
  | some g => d.wider g.wm
  | none => d) .core

/-- PHW (R188): an acquire once PHASE equals PH; otherwise the lanes wait at it. -/
def phwBody (sw : Bool) (b : Nat) (h : Bool) : Body :=
  { prep := swPrep sw
    run := fun s x =>
      match s.team? x.tid with
      | none => (s, {})
      | some t =>
        if t.phaseIs b h then
          (if t.la.bridle then s else (s.acquire t.pcore (s.wmOf x)).trigger3s x.tid (x.mem.map Prod.fst), {})
        else if t.la.bridle then
          (s.eachGroup x.tid x.part (fun _ m g => g.modLanes m (fun l => { l with st := .barred b (.phw h), pc := x.pc })), {})
        else (s, { jump := x.lanes.map (fun q => (q.1, q.2, x.pc)), wait := waitAll x.part (fun _ => .barred b (.phw h)) }) }

/-- PHF (R188, R399): a release, then the completion of the open phase. -/
def phfBody (sw : Bool) (b : Nat) : Body :=
  { prep := swPrep sw
    run := fun s x =>
      match s.team? x.tid with
      | none => (s, {})
      | some t =>
        if t.la.bridle then (s.completeBar x.tid b, {})
        else
          let gs := x.mem.map Prod.fst
          (s.enqueue x.tid gs true (.phf b gs), {}) }

/-- BAR (R183, R184, R317). -/
def execBar (h : Head) (n : BitVec 5) (r : Bool) (g : BitVec 6) (q : Bool) (s : State) : Host.Outcome State Fault Refusal :=
  issue (.bar h n r g q) (arriveBody h.sw n.toNat (if r then some g.toNat else none) q true) s

/-- BARA (R183, R184, R317). -/
def execBara (h : Head) (n : BitVec 5) (r : Bool) (g : BitVec 6) (s : State) : Host.Outcome State Fault Refusal :=
  issue (.bara h n r g) (arriveBody h.sw n.toNat (if r then some g.toNat else none) false false) s

/-- BARW (R183, R187, R317). -/
def execBarw (h : Head) (n : BitVec 5) (s : State) : Host.Outcome State Fault Refusal :=
  issue (.barw h n) (barwBody h.sw n.toNat) s

/-- PHW (R188, R398, R399). -/
def execPhw (h : Head) (n : BitVec 5) (f : Bool) (s : State) : Host.Outcome State Fault Refusal :=
  issue (.phw h n f) (phwBody h.sw n.toNat f) s

/-- PHF (R188, R398, R399). -/
def execPhf (h : Head) (n : BitVec 5) (s : State) : Host.Outcome State Fault Refusal :=
  issue (.phf h n) (phfBody h.sw n.toNat) s

end Sys2Proof.Machine
end

