-- ==== Sys2Proof/Machine/Flags.lean ====
section
/-! DEFINITION. What the integer instructions compute: sums, carries, comparisons, saturation, fields, shifts and byte work. -/
namespace Sys2Proof.Machine

/-- The elements of a register under an integer type: one of 32 bits, or two of 16 (R75, R364). -/
def elemWise (t : Ty) (f : Nat → Bool → Nat → Nat → Nat) (a b : Word) : Word :=
  match t with
  | .i16 | .n16 =>
    let sg := t == .i16
    BitVec.ofNat 32 (f 16 sg (a.toNat % 2 ^ 16) (b.toNat % 2 ^ 16) + 2 ^ 16 * f 16 sg (a.toNat / 2 ^ 16) (b.toNat / 2 ^ 16))
  | _ => BitVec.ofNat 32 (f 32 (t == .i32) a.toNat b.toNat)
/-- An exact integer put into `w` bits: wrapped, or clamped to the type's range with `sat` (R364). -/
def putInt (w : Nat) (sg sat : Bool) (i : Int) : Nat := wrapW w (if sat then clampI (minW w sg) (maxW w sg) i else i)
/-- IADD (R364). -/
def iadd (t : Ty) (sat : Bool) : Word → Word → Word :=
  elemWise t (fun w sg a b => putInt w sg sat (toIntW w sg a + toIntW w sg b))
/-- ISUB (R364). -/
def isub (t : Ty) (sat : Bool) : Word → Word → Word :=
  elemWise t (fun w sg a b => putInt w sg sat (toIntW w sg a - toIntW w sg b))
/-- IMIN (R364). -/
def imin (t : Ty) : Word → Word → Word := elemWise t (fun w sg a b => if toIntW w sg b < toIntW w sg a then b else a)
/-- IMAX (R364). -/
def imax (t : Ty) : Word → Word → Word := elemWise t (fun w sg a b => if toIntW w sg a < toIntW w sg b then b else a)
/-- A sign-extended 7-bit immediate (R73). -/
def imm7s (i : VReg) : Word := i.signExtend 32
/-- A zero-extended 7-bit immediate (R73). -/
def imm7z (i : VReg) : Word := i.zeroExtend 32

/-- The integer conditions of R366 on `w`-bit values. -/
def icc (w cc a b : Nat) : Bool :=
  let x := toIntW w true a
  let y := toIntW w true b
  match cc with
  | 0 => a == b
  | 1 => a != b
  | 2 => x < y
  | 3 => x ≤ y
  | 4 => y < x
  | 5 => y ≤ x
  | 6 => a < b
  | 7 => a ≤ b
  | 8 => b < a
  | _ => b ≤ a

/-- Shifts with amounts of 32 and more (R417). -/
def shl (a s : Word) : Word := if s.toNat < 32 then a <<< s.toNat else 0
def shr (a s : Word) : Word := if s.toNat < 32 then a >>> s.toNat else 0
def shra (a s : Word) : Word := if s.toNat < 32 then a.sshiftRight s.toNat else a.sshiftRight 31

/-- Position and length of a bit field after clamping (R318). -/
def fieldPos (b : Word) : Nat × Nat :=
  let p := min (b.toNat % 256) 32
  (p, min (b.toNat / 256 % 256) (32 - p))
/-- BFX (R318). -/
def bfx (t : Ty) (a b : Word) : Word :=
  let (p, n) := fieldPos b
  if n = 0 then 0
  else
    let f := a.toNat / 2 ^ p % 2 ^ n
    BitVec.ofNat 32 (if t = .i32 ∧ f.testBit (n - 1) then f + (2 ^ 32 - 2 ^ n) else f)
/-- BFI (R318). -/
def bfi (a b c : Word) : Word :=
  let (p, n) := fieldPos b
  let mask : Word := BitVec.ofNat 32 ((2 ^ n - 1) * 2 ^ p)
  (c &&& ~~~mask) ||| ((a <<< p) &&& mask)
/-- BREV (R322). -/
def brev (a : Word) : Word := a.reverse
/-- CLZ (R327). -/
def clz (a : Word) : Word := BitVec.ofNat 32 (32 - bitLen a.toNat)
/-- POPC (R401). -/
def popc (a : Word) : Word := BitVec.ofNat 32 (lanesOf a).length
/-- FSHF (R353). -/
def fshf (right : Bool) (a b c : Word) : Word :=
  let z := b.toNat * 2 ^ 32 + a.toNat
  let s := min c.toNat 32
  BitVec.ofNat 32 (if right then z / 2 ^ s else z * 2 ^ s / 2 ^ 32)
/-- PSWZ (R402). -/
def pswz (a b c : Word) : Word :=
  let src (k : Nat) : Nat := if k < 4 then bitsAt a.toNat (8 * k) 8 else bitsAt b.toNat (8 * (k - 4)) 8
  let one (i : Nat) : Nat :=
    let s := bitsAt c.toNat (8 * i) 8
    let x := src (s % 8)
    let y := match s / 16 % 4 with
      | 0 => x
      | 1 => 0
      | 2 => if 128 ≤ x then 255 else 0
      | _ => (BitVec.ofNat 8 x).reverse.toNat
    if s / 8 % 2 = 1 then 255 - y else y
  BitVec.ofNat 32 (one 0 + 2 ^ 8 * one 1 + 2 ^ 16 * one 2 + 2 ^ 24 * one 3)
/-- IDP4 (R367). -/
def idp4 (t : Ty) (a b c : Word) : Word :=
  let e (x : Word) (k : Nat) : Int := toIntW 8 (t == .i8) (bitsAt x.toNat (8 * k) 8)
  BitVec.ofInt 32 (c.toNat + ((List.range 4).map (fun k => e a k * e b k)).sum)
/-- IMULH (R368). -/
def imulh (t : Ty) (a b : Word) : Word :=
  BitVec.ofInt 32 (toIntW 32 (t == .i32) a.toNat * toIntW 32 (t == .i32) b.toNat / 2 ^ 32)
/-- IMADW (R368): the 64-bit result. -/
def imadw (t : Ty) (a b : Word) (c : Nat) : Nat :=
  wrapW 64 (toIntW 32 (t == .i32) a.toNat * toIntW 32 (t == .i32) b.toNat + c)
/-- IABS (R362). -/
def iabs (sat : Bool) (a : Word) : Word := BitVec.ofNat 32 (putInt 32 true sat (a.toInt.natAbs : Int))
/-- LEA (R377). -/
def lea (t : Ty) (base : Nat) (b : Word) (sh : Nat) : Nat := wrapW 64 (base + toIntW 32 (t == .i32) b.toNat * 2 ^ sh)
/-- IADDX (R365): sum and carry. -/
def iaddx (a b : Word) (cin : Bool) : Word × Bool :=
  let t := a.toNat + b.toNat + (if cin then 1 else 0)
  (BitVec.ofNat 32 t, decide (2 ^ 32 ≤ t))
/-- The conditions of UCMP (R434). -/
def ucc (k : Nat) (a b : Word) : Bool :=
  match k with
  | 0 => a == b
  | 1 => a != b
  | 2 => a.slt b
  | 3 => a.sle b
  | 4 => b.slt a
  | 5 => b.sle a
  | 6 => a.ult b
  | _ => b.ule a

end Sys2Proof.Machine
end

