-- ==== Sys2Proof/Machine/Collective.lean ====
section
/-! DEFINITION. The collectives across lanes (R119-R121, R354-R357, R379, R415, R416, R441, R442). -/
namespace Sys2Proof.Machine

/-- One lane of a collective: its index among the lanes combined, its group and its lane. -/
structure Slot where
  idx : Nat
  gi : Nat
  lane : Nat
  deriving DecidableEq, Repr

/-- The lanes combined with each other (R354): the participants of each group, or, joined, those of all the groups of the set under
their span-lane indices (R42). -/
def collUnits (k : Header) (x : Site) (join : Bool) : List (List Slot) :=
  if join then
    let z := max (setSize k.setcode) 1
    [x.lanes.map (fun q => ⟨32 * (q.1 % z) + q.2, q.1, q.2⟩)]
  else x.part.map (fun p => (lanesOf p.2).map (fun l => ⟨l, p.1, l⟩))

/-- The register behind an operand: span register wk is v(N − 16 + k) (R42). -/
def spanReg (k : Header) (span : Bool) (r : Nat) : Nat := if span then k.vregs - 16 + r else r

/-- A collective: every participant's value is read at issue, and each receives what `f` makes of the values, by index, of the
lanes combined with it; `n` is the number of indices. -/
def collBody {α : Type} (join : Bool) (val : Header → Group → Nat → α)
    (f : Header → Nat → List (Nat × α) → Nat → α → List Wr) : Body :=
  { run := fun s x => (s, match s.team? x.tid with
      | none => {}
      | some t =>
        let k := t.la.hdr
        let n := if join then 32 * max (setSize k.setcode) 1 else 32
        { lanes := (collUnits k x join).flatMap (fun u =>
            let vs := u.filterMap (fun q => (t.groups[q.gi]?).map (fun g => (q, val k g q.lane)))
            let ws := vs.map (fun q => (q.1.idx, q.2))
            vs.map (fun q => ⟨q.1.gi, q.1.lane, f k n ws q.1.idx q.2, 0⟩)) }) }

/-- What lane `j` of `n` receives from SHFL (R416): `a` is its own value, `b` its operand. -/
def shfl (m n : Nat) (vs : List (Nat × Word)) (j : Nat) (a b : Word) : Word :=
  let k : Int := match m with
    | 0 => (b.toNat % n : Nat)
    | 1 => (j : Int) - b.toNat
    | 2 => (j : Int) + b.toNat
    | _ => (Nat.xor j (b.toNat % n) : Nat)
  match vs.find? (fun q => (q.1 : Int) == k) with
  | some q => q.2
  | none => a

/-- The combination of two GRED slots (R356). -/
def gredOp (m : Nat) (t : Ty) (a b : Word) : Word :=
  match t, m with
  | .f32, 0 => BitVec.ofNat 32 (addF32 a.toNat b.toNat)
  | .f32, 1 => BitVec.ofNat 32 (fmtF32.fmin a.toNat b.toNat)
  | .f32, _ => BitVec.ofNat 32 (fmtF32.fmax a.toNat b.toNat)
  | _, 0 => a + b
  | _, 1 => imin t a b
  | _, 2 => imax t a b
  | _, 3 => a &&& b
  | _, 4 => a ||| b
  | _, _ => a ^^^ b
/-- Combining with an empty slot leaves the other (R119). -/
def optOp (f : Word → Word → Word) : Option Word → Option Word → Option Word
  | some a, some b => some (f a b)
  | some a, none => some a
  | none, b => b
/-- One step of the tree: neighbours combine (R119). -/
def treeStep (f : Word → Word → Word) : List (Option Word) → List (Option Word)
  | a :: b :: r => optOp f a b :: treeStep f r
  | l => l
/-- Slot 0 after `k` steps. -/
def treeFold (f : Word → Word → Word) : Nat → List (Option Word) → Option Word
  | 0, l => l.headD none
  | k + 1, l => treeFold f k (treeStep f l)
/-- An F32 value with a NaN made canonical (R119, R120). -/
def canonF32 (w : Word) : Word := if (fmtF32.val w.toNat).isNan then BitVec.ofNat 32 fmtF32.qnan else w
/-- GRED's result (R119, R356). -/
def gred (m : Nat) (t : Ty) (n : Nat) (vs : List (Nat × Word)) : Word :=
  let r := (treeFold (gredOp m t) 7 ((List.range n).map (fun i => (vs.find? (fun q => q.1 == i)).map (·.2)))).getD 0
  if t = .f32 then canonF32 r else r

/-- GSCAN's result at index `j` over the participants in ascending order (R120). -/
def gscan (m : Nat) (t : Ty) (vs : List (Nat × Word)) (j : Nat) : Word :=
  let fl := t == .f32
  let first (x : Word) : Word := if fl then canonF32 x else x
  let add (a x : Word) : Word := if fl then BitVec.ofNat 32 (addF32 a.toNat x.toNat) else a + x
  let mx (a x : Word) : Word := if fl then BitVec.ofNat 32 (fmtF32.fmax a.toNat x.toNat) else imax t a x
  let op := if m = 2 then mx else add
  let acc (l : List (Nat × Word)) : Option Word := l.foldl (fun a q => match a with
    | none => some (first q.2)
    | some y => some (op y q.2)) none
  if m = 1 then (acc (vs.filter (fun q => decide (q.1 < j)))).getD 0
  else (acc (vs.filter (fun q => decide (q.1 ≤ j)))).getD 0

/-- GARGX's winning key (R121, R355). -/
def gargx (m : Nat) (vs : List (Nat × Nat)) : Nat :=
  if m = 0 then (vs.map (fun q => maxKey q.2 q.1)).foldl max 0
  else ((vs.map (fun q => minKey q.2 q.1)).min?).getD 0

/-- SHFL (R415, R416). -/
def execShfl (h : Head) (g : Guard) (d : BitVec 7) (a : BitVec 7) (b : BitVec 7) (c : BitVec 7) (x : Bool) (m : BitVec 3) (w : Bool) (s : State) : Host.Outcome State Fault Refusal :=
  issue (.shfl h g d a b c x m w) (collBody w (fun k gr l => (gr.rv l (spanReg k w a.toNat), gr.rv l b.toNat))
    (fun k n vs j v => [.v (spanReg k w d.toNat) (shfl m.toNat n (vs.map (fun q => (q.1, q.2.1))) j v.1 v.2)])) s

/-- VOTE (R441, R442). -/
def execVote (h : Head) (g : Guard) (d : BitVec 7) (a : BitVec 3) (c : BitVec 7) (x : Bool) (m : BitVec 3) (n : Bool) (s : State) : Host.Outcome State Fault Refusal :=
  issue (.vote h g d a c x m n) (collBody false (fun _ gr l => xor (gr.rp l a.toNat) n)
    (fun _ _ vs _ _ => match m.toNat with
      | 0 => [.p d.toNat (vs.any (·.2))]
      | 1 => [.p d.toNat (vs.all (·.2))]
      | _ => [.v d.toNat (maskOf ((vs.filter (·.2)).map (·.1)))])) s

/-- MATCH (R379). -/
def execMatchLanes (h : Head) (g : Guard) (d : BitVec 7) (a : BitVec 7) (c : BitVec 7) (x : Bool) (t : Ty) (s : State) : Host.Outcome State Fault Refusal :=
  issue (.matchLanes h g d a c x t) (collBody false (fun _ gr l => if t = .i64 then gr.rv64 l a.toNat else (gr.rv l a.toNat).toNat)
    (fun _ _ vs _ v => [.v d.toNat (maskOf ((vs.filter (fun q => q.2 == v)).map (·.1)))])) s

/-- GRED (R356). -/
def execGred (h : Head) (g : Guard) (d : BitVec 7) (a : BitVec 7) (c : BitVec 7) (x : Bool) (m : BitVec 3) (t : Ty) (w : Bool) (s : State) : Host.Outcome State Fault Refusal :=
  issue (.gred h g d a c x m t w) (collBody w (fun k gr l => gr.rv l (spanReg k w a.toNat))
    (fun k n vs _ _ => [.v (spanReg k w d.toNat) (gred m.toNat t n vs)])) s

/-- GSCAN (R357). -/
def execGscan (h : Head) (g : Guard) (d : BitVec 7) (a : BitVec 7) (c : BitVec 7) (x : Bool) (m : BitVec 3) (t : Ty) (s : State) : Host.Outcome State Fault Refusal :=
  issue (.gscan h g d a c x m t) (collBody false (fun _ gr l => gr.rv l a.toNat)
    (fun _ _ vs j _ => [.v d.toNat (gscan m.toNat t (vs.map (fun q => (q.1, q.2))) j)])) s

/-- GARGX (R355): at set scope over all lanes of the set. -/
def execGargx (h : Head) (g : Guard) (d : BitVec 7) (a : BitVec 7) (c : BitVec 7) (x : Bool) (m : BitVec 3) (s : State) : Host.Outcome State Fault Refusal :=
  issue (.gargx h g d a c x m) (collBody (h.scope == .set) (fun _ gr l => (gr.rv l a.toNat).toNat)
    (fun _ _ vs _ _ => [.v d.toNat (BitVec.ofNat 32 (gargx m.toNat vs))])) s

end Sys2Proof.Machine
end

