-- ==== Sys2Proof/Machine/Control.lean ====
section
/-! DEFINITION. Branches, calls, exits, traps and the instructions that only steer issue (R319-R325, R342, R370, R393, R411, R428, R446). -/
namespace Sys2Proof.Machine

/-- A branch target from a signed word offset (R71). -/
def relTarget (pc : Nat) (o : BitVec 21) : Int := (pc : Int) + 4 * o.toInt
/-- The check of a target (R71): a multiple of 4 inside the code segment. -/
def targetChk (la : Launch) (p : Int) : Chk :=
  let a := wrapW 32 p
  if p % 4 ≠ 0 then .fault tALIGN a
  else if p < 0 ∨ (la.hdr.codesz : Int) ≤ p then .fault tBOUNDS a
  else .ok
/-- The check of one lane of a branch. -/
def chkLane (f : Team → Group → Nat → Chk) (s : State) (x : Site) (gi l : Nat) : Chk :=
  match s.team? x.tid with
  | none => .ok
  | some t => match t.groups[gi]? with
    | none => .ok
    | some g => f t g l
/-- The participants' next addresses. -/
def jumps (s : State) (x : Site) (f : Team → Group → Nat → Nat) : List (Nat × Nat × Nat) :=
  match s.team? x.tid with
  | none => []
  | some t => x.lanes.map (fun q => (q.1, q.2, match t.groups[q.1]? with
    | some g => f t g q.2
    | none => 0))
/-- A branch of each participant to its own target (R320, R321, R323). -/
def braBody (tgt : Site → Group → Nat → Int) : Body :=
  { whole := true
    lane := fun s x => chkLane (fun t g l => targetChk t.la (tgt x g l)) s x
    run := fun s x => (s, { jump := jumps s x (fun _ g l => (tgt x g l).toNat) }) }
/-- A lane of a group enters a call: its return address and depth (R30, R324). -/
def Group.enter (k : Header) (back l : Nat) (g : Group) : Group :=
  let r := k.free + (g.lane l).depth
  ((g.shadow [r]).wv l r (BitVec.ofNat 32 back)).modLane l (fun q => { q with depth := q.depth + 1 })
/-- A call (R324, R325): a participant with no return register left stops the issue before any target is judged. -/
def callBody (tgt : Site → Group → Nat → Int) : Body :=
  { whole := true
    lane := fun s x =>
      let full (q : Nat × Nat) : Bool := match s.team? x.tid with
        | none => false
        | some t => (t.groups[q.1]?).any (fun g => decide (t.la.hdr.depth ≤ (g.lane q.2).depth))
      let deep := x.lanes.any full
      fun gi l => if deep then (if full (gi, l) then .fault tDEPTH 0 else .ok) else chkLane (fun t g l => targetChk t.la (tgt x g l)) s x gi l
    run := fun s x =>
      let js := jumps s x (fun _ g l => (tgt x g l).toNat)
      match s.team? x.tid with
      | none => (s, {})
      | some t => (x.lanes.foldl (fun s q => s.modGroup x.tid q.1 (Group.enter t.la.hdr (x.pc + x.len) q.2)) s, { jump := js }) }
/-- The return address of a lane (R30, R411). -/
def retAddr (k : Header) (g : Group) (l : Nat) : Nat := (g.rv l (k.free + (g.lane l).depth - 1)).toNat
/-- RET (R411): a participant with no caller stops the issue before any target is read. -/
def retBody : Body :=
  { whole := true
    lane := fun s x =>
      let empty (q : Nat × Nat) : Bool := (s.group? x.tid q.1).any (fun g => (g.lane q.2).depth == 0)
      let deep := x.lanes.any empty
      fun gi l => if deep then (if empty (gi, l) then .fault tDEPTH 0 else .ok) else chkLane (fun t g l => targetChk t.la (retAddr t.la.hdr g l)) s x gi l
    run := fun s x =>
      let js := jumps s x (fun t g l => retAddr t.la.hdr g l)
      (x.lanes.foldl (fun s q => s.modGroup x.tid q.1 (fun g => g.modLane q.2 (fun l => { l with depth := l.depth - 1 }))) s, { jump := js }) }
/-- A lane that exits; its reservation is lost, but for that of an STC still queued. -/
def Lane.exit (owes : Bool) (l : Lane) : Lane := { l with st := .exited, resv := if owes then l.resv else none }
/-- Lanes of a group exit (R342): outstanding results discarded, reservations lost. -/
def Group.exitLanes (m : Mask) (g : Group) : Group :=
  { g with
    lanes := (enum g.lanes).map (fun p => if m.has p.1 then p.2.exit (g.owesStc p.1) else p.2)
    pend := g.pend.map (fun p => { p with lanes := p.lanes.filter (fun q => !m.has q.1) })
    pendV := pendClear g.pendV m
    pendP := pendClear g.pendP m }
/-- A barrier without the exited lanes of a group (R186). -/
def Barrier.deduct (gi : Nat) (m : Mask) (b : Barrier) : Barrier :=
  let gone := b.lanes gi &&& m
  { b with arrived := b.arrived - popMask gone, mask := b.mask - laneBits gi gone }
/-- EXIT (R342): the participants leave every membership and barrier, whose tests run again. -/
def exitBody : Body :=
  { run := fun s x =>
      let s := x.part.foldl (fun s p => (s.modGroup x.tid p.1 (Group.exitLanes p.2)).modTeam x.tid (fun t =>
        { t with bars := t.bars.map (Barrier.deduct p.1 p.2) })) s
      ((s.testBars x.tid).splitCheck x.tid x.gi, {}) }
/-- YLD (R446): at lane scope the group's next selection goes as when the timer expires (R28), and its quarter passes each member group over
once; in a cinch window nothing (R29), and in bridle mode nothing between groups. -/
def yldBody : Body :=
  { run := fun s x =>
    let bridle := (s.team? x.tid).any (·.la.bridle)
    (s.eachGroup x.tid x.mem (fun _ _ g => if g.cinch.isSome then g
      else { g with issued := if x.scope = .lane then 32 else g.issued, yield := !bridle }), {}) }
/-- Clears the loop buffers of the member groups and the core's instruction cache (R370). -/
def isyncBody : Body :=
  { run := fun s x =>
    match s.team? x.tid with
    | none => (s, {})
    | some t => ((s.eachGroup x.tid x.mem (fun _ _ g => { g with loopbuf := [] })).modCore t.pcore (fun c => { c with icache := [] }), {}) }

/-- BRA (R320). -/
def execBra (h : Head) (o : BitVec 21) (s : State) : Host.Outcome State Fault Refusal :=
  issue (.bra h o) (braBody (fun x _ _ => relTarget x.pc o)) s

/-- BRA under a guard (R320). -/
def execBraGuarded (h : Head) (g : Guard) (o : BitVec 21) (s : State) : Host.Outcome State Fault Refusal :=
  issue (.braGuarded h g o) (braBody (fun x _ _ => relTarget x.pc o)) s

/-- BRX (R323). -/
def execBrx (h : Head) (a : BitVec 7) (s : State) : Host.Outcome State Fault Refusal :=
  issue (.brx h a) (braBody (fun _ gr l => ((gr.rv l a.toNat).toNat : Int))) s

/-- BRX under a guard (R323). -/
def execBrxGuarded (h : Head) (g : Guard) (a : BitVec 7) (s : State) : Host.Outcome State Fault Refusal :=
  issue (.brxGuarded h g a) (braBody (fun _ gr l => ((gr.rv l a.toNat).toNat : Int))) s

/-- CALL (R324). -/
def execCall (h : Head) (o : BitVec 21) (s : State) : Host.Outcome State Fault Refusal :=
  issue (.call h o) (callBody (fun x _ _ => relTarget x.pc o)) s

/-- CALL under a guard (R324). -/
def execCallGuarded (h : Head) (g : Guard) (o : BitVec 21) (s : State) : Host.Outcome State Fault Refusal :=
  issue (.callGuarded h g o) (callBody (fun x _ _ => relTarget x.pc o)) s

/-- CALX (R325). -/
def execCalx (h : Head) (a : BitVec 7) (s : State) : Host.Outcome State Fault Refusal :=
  issue (.calx h a) (callBody (fun _ gr l => ((gr.rv l a.toNat).toNat : Int))) s

/-- CALX under a guard (R325). -/
def execCalxGuarded (h : Head) (g : Guard) (a : BitVec 7) (s : State) : Host.Outcome State Fault Refusal :=
  issue (.calxGuarded h g a) (callBody (fun _ gr l => ((gr.rv l a.toNat).toNat : Int))) s

/-- RET (R411). -/
def execRet (h : Head) (s : State) : Host.Outcome State Fault Refusal :=
  issue (.ret h) (retBody) s

/-- EXIT (R342, R343). -/
def execExit (h : Head) (s : State) : Host.Outcome State Fault Refusal :=
  issue (.exit h) (exitBody) s

/-- TRAP (R428). -/
def execTrap (h : Head) (x : BitVec 16) (s : State) : Host.Outcome State Fault Refusal :=
  issue (.trap h x) (trapBody { code := tTRAP, ticket := x.toNat }) s

/-- BPT (R319). -/
def execBpt (h : Head) (s : State) : Host.Outcome State Fault Refusal :=
  issue (.bpt h) (trapBody { code := tBPT }) s

/-- NOP (R393). -/
def execNop (h : Head) (s : State) : Host.Outcome State Fault Refusal :=
  issue (.nop h) (nopBody) s

/-- YLD (R446). -/
def execYld (h : Head) (s : State) : Host.Outcome State Fault Refusal :=
  issue (.yld h) (yldBody) s

/-- ISYNC (R370, R179). -/
def execIsync (h : Head) (s : State) : Host.Outcome State Fault Refusal :=
  issue (.isync h) (isyncBody) s

end Sys2Proof.Machine
end

