-- ==== Sys2Proof/Machine/Convert.lean ====
section
/-! DEFINITION. The conversion instructions (R334-R336). -/
namespace Sys2Proof.Machine

/-- The mode of field M for element `k` of lane `l`, with its random bits (R105). -/
def Group.roundMode (g : Group) (m : BitVec 3) (l k : Nat) : RMode :=
  .ofM m (srBits g.seed.toNat (8 * l + k) (g.lane l).seq)

/-- The elements a packing conversion takes from A and B (R335): two, four or eight, with the width of a place. -/
def packPlan (t : Ty) : Nat × Nat :=
  match t with
  | .f16 | .bf16 | .i16 | .n16 => (1, 16)
  | .e2m1 => (4, 4)
  | .i32 | .n32 | .f32 | .e8m0 | .i64 | .e4m3 | .e5m2 | .i8 | .n8 | .e3m2 | .e2m3 => (2, 8)
/-- The packed result and the flags of all elements (R335). -/
def cvtPack (t : Ty) (one : Nat → Word → FRes) (a b : Nat → Word) : FRes :=
  let (n, w) := packPlan t
  (List.range (2 * n)).foldl (fun acc k =>
    let r := one k (if k < n then a k else b (k - n))
    (acc.1 + r.1 % 2 ^ w * 2 ^ (w * k), acc.2 ||| r.2)) (0, fNone)

/-- CVT (R334). -/
def execCvt (h : Head) (u : Bool) (g : Guard) (d : BitVec 7) (a : BitVec 7) (t : Ty) (m : BitVec 3) (f : Ty) (x : Bool) (s : State) : Host.Outcome State Fault Refusal :=
  issue (.cvt h u g d a t m f x) (laneBody (fun gr l =>
    let x0 := if f = .i64 then gr.rv64 l a.toNat else (gr.rv l a.toNat).toNat
    let r := cvt t f (gr.roundMode m l 0) x x0
    (if t = .i64 then wr64 d.toNat r.1 else [.v d.toNat (BitVec.ofNat 32 (fillHigh t r.1))], r.2))) s

/-- CVTP (R335). -/
def execCvtp (h : Head) (u : Bool) (g : Guard) (d : BitVec 7) (a : BitVec 7) (b : BitVec 7) (t : Ty) (m : BitVec 3) (x : Bool) (s : State) : Host.Outcome State Fault Refusal :=
  issue (.cvtp h u g d a b t m x) (laneBody (fun gr l =>
    let r := cvtPack t (fun k y => cvt t .f32 (gr.roundMode m l k) x y.toNat) (fun k => gr.rv l (a.toNat + k)) (fun k => gr.rv l (b.toNat + k))
    ([.v d.toNat (BitVec.ofNat 32 r.1)], r.2))) s

/-- CVTX (R336). -/
def execCvtx (h : Head) (u : Bool) (g : Guard) (d : BitVec 7) (a : BitVec 7) (b : BitVec 7) (t : Ty) (m : BitVec 3) (f : Ty) (x : Bool) (s : State) : Host.Outcome State Fault Refusal :=
  issue (.cvtx h u g d a b t m f x) (laneBody (fun gr l =>
    let r := cvtx t f (gr.roundMode m l 0) x (gr.rv l a.toNat).toNat (gr.rv l b.toNat).toNat
    ([.v d.toNat (BitVec.ofNat 32 (fillHigh t r.1))], r.2))) s

end Sys2Proof.Machine
end

