-- ==== Sys2Proof/Machine/FloatAlu.lean ====
section
/-! DEFINITION. The F32 and packed 16-bit float instructions and the special functions (R344-R352, R359). -/
namespace Sys2Proof.Machine

/-- An operation on both halves of registers, the flags of both ORed (R108, R359). -/
def halves (t : Ty) (op : Fmt → Nat → Nat → Nat → FRes) (a b c : Word) : FRes :=
  let f := (fmtOf t).getD fmtF16
  let lo := op f (a.toNat % 2 ^ 16) (b.toNat % 2 ^ 16) (c.toNat % 2 ^ 16)
  let hi := op f (a.toNat / 2 ^ 16) (b.toNat / 2 ^ 16) (c.toNat / 2 ^ 16)
  (lo.1 + 2 ^ 16 * hi.1, lo.2 ||| hi.2)

/-- FADD, RNE (R344, R345). -/
def execFaddLr (h : Head) (u : Bool) (d : BitVec 7) (a : BitVec 7) (b : BitVec 7) (s : State) : Host.Outcome State Fault Refusal :=
  issue (.faddLr h u d a b) (fpBody d.toNat (fun g l => fmtF32.fadd .rne (g.rv l a.toNat).toNat (g.rv l b.toNat).toNat)) s

/-- FADD under M (R344, R345). -/
def execFaddXf (h : Head) (u : Bool) (g : Guard) (d : BitVec 7) (a : BitVec 7) (b : BitVec 7) (m : BitVec 3) (s : State) : Host.Outcome State Fault Refusal :=
  issue (.faddXf h u g d a b m) (fpBody d.toNat (fun g l => fmtF32.fadd (.ofM m 0) (g.rv l a.toNat).toNat (g.rv l b.toNat).toNat)) s

/-- FMUL, RNE (R344, R345). -/
def execFmulLr (h : Head) (u : Bool) (d : BitVec 7) (a : BitVec 7) (b : BitVec 7) (s : State) : Host.Outcome State Fault Refusal :=
  issue (.fmulLr h u d a b) (fpBody d.toNat (fun g l => fmtF32.fmul .rne (g.rv l a.toNat).toNat (g.rv l b.toNat).toNat)) s

/-- FMUL under M (R344, R345). -/
def execFmulXf (h : Head) (u : Bool) (g : Guard) (d : BitVec 7) (a : BitVec 7) (b : BitVec 7) (m : BitVec 3) (s : State) : Host.Outcome State Fault Refusal :=
  issue (.fmulXf h u g d a b m) (fpBody d.toNat (fun g l => fmtF32.fmul (.ofM m 0) (g.rv l a.toNat).toNat (g.rv l b.toNat).toNat)) s

/-- FMIN (R344, R345). -/
def execFminLr (h : Head) (u : Bool) (d : BitVec 7) (a : BitVec 7) (b : BitVec 7) (s : State) : Host.Outcome State Fault Refusal :=
  issue (.fminLr h u d a b) (fpBody d.toNat (fun g l => (fmtF32.fmin (g.rv l a.toNat).toNat (g.rv l b.toNat).toNat, fNone))) s

/-- FMIN (R344, R345). -/
def execFminXf (h : Head) (u : Bool) (g : Guard) (d : BitVec 7) (a : BitVec 7) (b : BitVec 7) (s : State) : Host.Outcome State Fault Refusal :=
  issue (.fminXf h u g d a b) (fpBody d.toNat (fun g l => (fmtF32.fmin (g.rv l a.toNat).toNat (g.rv l b.toNat).toNat, fNone))) s

/-- FMAX (R344, R345). -/
def execFmaxLr (h : Head) (u : Bool) (d : BitVec 7) (a : BitVec 7) (b : BitVec 7) (s : State) : Host.Outcome State Fault Refusal :=
  issue (.fmaxLr h u d a b) (fpBody d.toNat (fun g l => (fmtF32.fmax (g.rv l a.toNat).toNat (g.rv l b.toNat).toNat, fNone))) s

/-- FMAX (R344, R345). -/
def execFmaxXf (h : Head) (u : Bool) (g : Guard) (d : BitVec 7) (a : BitVec 7) (b : BitVec 7) (s : State) : Host.Outcome State Fault Refusal :=
  issue (.fmaxXf h u g d a b) (fpBody d.toNat (fun g l => (fmtF32.fmax (g.rv l a.toNat).toNat (g.rv l b.toNat).toNat, fNone))) s

/-- FCMP of F32 (R346, R347). -/
def execFcmpLc (h : Head) (u : Bool) (p : BitVec 3) (a : BitVec 7) (b : BitVec 7) (k : BitVec 4) (s : State) : Host.Outcome State Fault Refusal :=
  issue (.fcmpLc h u p a b k) (laneBody (fun gr l =>
    let r := fmtF32.fcmp k.toNat (gr.rv l a.toNat).toNat (gr.rv l b.toNat).toNat
    ([.p p.toNat r.1], r.2))) s

/-- FCMP of F32, or of the low halves as F16 or BF16 (R346, R347). -/
def execFcmpXf (h : Head) (u : Bool) (g : Guard) (p : BitVec 3) (a : BitVec 7) (b : BitVec 7) (t : Ty) (k : BitVec 4) (s : State) : Host.Outcome State Fault Refusal :=
  issue (.fcmpXf h u g p a b t k) (laneBody (fun gr l =>
    let r := ((fmtOf t).getD fmtF32).fcmp k.toNat (gr.rv l a.toNat).toNat (gr.rv l b.toNat).toNat
    ([.p p.toNat r.1], r.2))) s

/-- FRCP: 1 / x (R348). -/
def execFrcp (h : Head) (u : Bool) (g : Guard) (d : BitVec 7) (a : BitVec 7) (s : State) : Host.Outcome State Fault Refusal :=
  issue (.frcp h u g d a) (fpBody d.toNat (fun g l => fmtF32.fdiv .rne F32.one (g.rv l a.toNat).toNat)) s

/-- FRSQ: 1 / √x (R348). -/
def execFrsq (h : Head) (u : Bool) (g : Guard) (d : BitVec 7) (a : BitVec 7) (s : State) : Host.Outcome State Fault Refusal :=
  issue (.frsq h u g d a) (fpBody d.toNat (fun g l => frsqF32 (g.rv l a.toNat).toNat)) s

/-- FSQRT: √x (R348). -/
def execFsqrt (h : Head) (u : Bool) (g : Guard) (d : BitVec 7) (a : BitVec 7) (s : State) : Host.Outcome State Fault Refusal :=
  issue (.fsqrt h u g d a) (fpBody d.toNat (fun g l => fmtF32.fsqrt .rne (g.rv l a.toNat).toNat)) s

/-- FEX2: 2^x (R348). -/
def execFex2 (h : Head) (u : Bool) (g : Guard) (d : BitVec 7) (a : BitVec 7) (s : State) : Host.Outcome State Fault Refusal :=
  issue (.fex2 h u g d a) (fpBody d.toNat (fun g l => fex2F32 (g.rv l a.toNat).toNat)) s

/-- FLG2: log2 x (R348). -/
def execFlg2 (h : Head) (u : Bool) (g : Guard) (d : BitVec 7) (a : BitVec 7) (s : State) : Host.Outcome State Fault Refusal :=
  issue (.flg2 h u g d a) (fpBody d.toNat (fun g l => flg2F32 (g.rv l a.toNat).toNat)) s

/-- FSIN: sin(2πx) (R348). -/
def execFsin (h : Head) (u : Bool) (g : Guard) (d : BitVec 7) (a : BitVec 7) (s : State) : Host.Outcome State Fault Refusal :=
  issue (.fsin h u g d a) (fpBody d.toNat (fun g l => fsinF32 (g.rv l a.toNat).toNat)) s

/-- FCOS: cos(2πx) (R348). -/
def execFcos (h : Head) (u : Bool) (g : Guard) (d : BitVec 7) (a : BitVec 7) (s : State) : Host.Outcome State Fault Refusal :=
  issue (.fcos h u g d a) (fpBody d.toNat (fun g l => fcosF32 (g.rv l a.toNat).toNat)) s

/-- FFMA (R351). -/
def execFfma (h : Head) (u : Bool) (g : Guard) (d : BitVec 7) (a : BitVec 7) (b : BitVec 7) (c : BitVec 7) (m : BitVec 3) (s : State) : Host.Outcome State Fault Refusal :=
  issue (.ffma h u g d a b c m) (fpBody d.toNat (fun g l => fmtF32.ffma (.ofM m 0) (g.rv l a.toNat).toNat (g.rv l b.toNat).toNat (g.rv l c.toNat).toNat)) s

/-- FRND (R352). -/
def execFrnd (h : Head) (u : Bool) (g : Guard) (d : BitVec 7) (a : BitVec 7) (m : BitVec 3) (s : State) : Host.Outcome State Fault Refusal :=
  issue (.frnd h u g d a m) (fpBody d.toNat (fun g l => (frndF32 (.ofM m 0) (g.rv l a.toNat).toNat, fNone))) s

/-- HADD2 (R359). -/
def execHadd2 (h : Head) (u : Bool) (g : Guard) (d : BitVec 7) (a : BitVec 7) (b : BitVec 7) (t : Ty) (m : BitVec 3) (s : State) : Host.Outcome State Fault Refusal :=
  issue (.hadd2 h u g d a b t m) (fpBody d.toNat (fun g l => halves t (fun f x y _ => f.fadd (.ofM m 0) x y) (g.rv l a.toNat) (g.rv l b.toNat) 0)) s

/-- HMUL2 (R359). -/
def execHmul2 (h : Head) (u : Bool) (g : Guard) (d : BitVec 7) (a : BitVec 7) (b : BitVec 7) (t : Ty) (m : BitVec 3) (s : State) : Host.Outcome State Fault Refusal :=
  issue (.hmul2 h u g d a b t m) (fpBody d.toNat (fun g l => halves t (fun f x y _ => f.fmul (.ofM m 0) x y) (g.rv l a.toNat) (g.rv l b.toNat) 0)) s

/-- HFMA2 (R359). -/
def execHfma2 (h : Head) (u : Bool) (g : Guard) (d : BitVec 7) (a : BitVec 7) (b : BitVec 7) (c : BitVec 7) (t : Ty) (m : BitVec 3) (s : State) : Host.Outcome State Fault Refusal :=
  issue (.hfma2 h u g d a b c t m) (fpBody d.toNat (fun g l => halves t (fun f x y z => f.ffma (.ofM m 0) x y z) (g.rv l a.toNat) (g.rv l b.toNat) (g.rv l c.toNat))) s

end Sys2Proof.Machine
end

