-- ==== Sys2Proof/Machine/IntAlu.lean ====
section
/-! DEFINITION. The integer, logic, shift, select and move instructions (R310-R312, R318, R322, R327, R353, R362-R369, R377, R389-R391,
R396, R400-R402, R417, R445): each participating lane writes its own destination. -/
namespace Sys2Proof.Machine

/-- AND of two registers (R311). -/
def execAndLr (h : Head) (u : Bool) (d : BitVec 7) (a : BitVec 7) (b : BitVec 7) (s : State) : Host.Outcome State Fault Refusal :=
  issue (.andLr h u d a b) (aluBody d.toNat (fun g l => (g.rv l a.toNat) &&& (g.rv l b.toNat))) s

/-- AND with an immediate (R311). -/
def execAndLi (h : Head) (u : Bool) (d : BitVec 7) (a : BitVec 7) (i : BitVec 7) (s : State) : Host.Outcome State Fault Refusal :=
  issue (.andLi h u d a i) (aluBody d.toNat (fun g l => (g.rv l a.toNat) &&& imm7z i)) s

/-- AND, long form (R311). -/
def execAndXi (h : Head) (u : Bool) (g : Guard) (d : BitVec 7) (a : BitVec 7) (b : BitVec 7) (t : Ty) (s : State) : Host.Outcome State Fault Refusal :=
  issue (.andXi h u g d a b t) (aluBody d.toNat (fun g l => (g.rv l a.toNat) &&& (g.rv l b.toNat))) s

/-- OR of two registers (R396). -/
def execOrLr (h : Head) (u : Bool) (d : BitVec 7) (a : BitVec 7) (b : BitVec 7) (s : State) : Host.Outcome State Fault Refusal :=
  issue (.orLr h u d a b) (aluBody d.toNat (fun g l => (g.rv l a.toNat) ||| (g.rv l b.toNat))) s

/-- OR with an immediate (R396). -/
def execOrLi (h : Head) (u : Bool) (d : BitVec 7) (a : BitVec 7) (i : BitVec 7) (s : State) : Host.Outcome State Fault Refusal :=
  issue (.orLi h u d a i) (aluBody d.toNat (fun g l => (g.rv l a.toNat) ||| imm7z i)) s

/-- OR, long form (R396). -/
def execOrXi (h : Head) (u : Bool) (g : Guard) (d : BitVec 7) (a : BitVec 7) (b : BitVec 7) (t : Ty) (s : State) : Host.Outcome State Fault Refusal :=
  issue (.orXi h u g d a b t) (aluBody d.toNat (fun g l => (g.rv l a.toNat) ||| (g.rv l b.toNat))) s

/-- XOR of two registers (R445). -/
def execXorLr (h : Head) (u : Bool) (d : BitVec 7) (a : BitVec 7) (b : BitVec 7) (s : State) : Host.Outcome State Fault Refusal :=
  issue (.xorLr h u d a b) (aluBody d.toNat (fun g l => (g.rv l a.toNat) ^^^ (g.rv l b.toNat))) s

/-- XOR with an immediate (R445). -/
def execXorLi (h : Head) (u : Bool) (d : BitVec 7) (a : BitVec 7) (i : BitVec 7) (s : State) : Host.Outcome State Fault Refusal :=
  issue (.xorLi h u d a i) (aluBody d.toNat (fun g l => (g.rv l a.toNat) ^^^ imm7z i)) s

/-- XOR, long form (R445). -/
def execXorXi (h : Head) (u : Bool) (g : Guard) (d : BitVec 7) (a : BitVec 7) (b : BitVec 7) (t : Ty) (s : State) : Host.Outcome State Fault Refusal :=
  issue (.xorXi h u g d a b t) (aluBody d.toNat (fun g l => (g.rv l a.toNat) ^^^ (g.rv l b.toNat))) s

/-- ANDN (R312). -/
def execAndn (h : Head) (u : Bool) (g : Guard) (d : BitVec 7) (a : BitVec 7) (b : BitVec 7) (s : State) : Host.Outcome State Fault Refusal :=
  issue (.andn h u g d a b) (aluBody d.toNat (fun g l => (g.rv l a.toNat) &&& ~~~(g.rv l b.toNat))) s

/-- BFX (R318). -/
def execBfx (h : Head) (u : Bool) (g : Guard) (d : BitVec 7) (a : BitVec 7) (b : BitVec 7) (t : Ty) (s : State) : Host.Outcome State Fault Refusal :=
  issue (.bfx h u g d a b t) (aluBody d.toNat (fun g l => bfx t (g.rv l a.toNat) (g.rv l b.toNat))) s

/-- BFI (R318). -/
def execBfi (h : Head) (u : Bool) (g : Guard) (d : BitVec 7) (a : BitVec 7) (b : BitVec 7) (c : BitVec 7) (s : State) : Host.Outcome State Fault Refusal :=
  issue (.bfi h u g d a b c) (aluBody d.toNat (fun g l => bfi (g.rv l a.toNat) (g.rv l b.toNat) (g.rv l c.toNat))) s

/-- BREV (R322). -/
def execBrev (h : Head) (u : Bool) (g : Guard) (d : BitVec 7) (a : BitVec 7) (s : State) : Host.Outcome State Fault Refusal :=
  issue (.brev h u g d a) (aluBody d.toNat (fun g l => brev (g.rv l a.toNat))) s

/-- CLZ (R327). -/
def execClz (h : Head) (u : Bool) (g : Guard) (d : BitVec 7) (a : BitVec 7) (s : State) : Host.Outcome State Fault Refusal :=
  issue (.clz h u g d a) (aluBody d.toNat (fun g l => clz (g.rv l a.toNat))) s

/-- POPC (R401). -/
def execPopc (h : Head) (u : Bool) (g : Guard) (d : BitVec 7) (a : BitVec 7) (s : State) : Host.Outcome State Fault Refusal :=
  issue (.popc h u g d a) (aluBody d.toNat (fun g l => popc (g.rv l a.toNat))) s

/-- FSHF (R353). -/
def execFshf (h : Head) (u : Bool) (g : Guard) (d : BitVec 7) (a : BitVec 7) (b : BitVec 7) (c : BitVec 7) (x : Bool) (s : State) : Host.Outcome State Fault Refusal :=
  issue (.fshf h u g d a b c x) (aluBody d.toNat (fun g l => fshf x (g.rv l a.toNat) (g.rv l b.toNat) (g.rv l c.toNat))) s

/-- IABS (R362). -/
def execIabs (h : Head) (u : Bool) (g : Guard) (d : BitVec 7) (a : BitVec 7) (x : Bool) (s : State) : Host.Outcome State Fault Refusal :=
  issue (.iabs h u g d a x) (aluBody d.toNat (fun g l => iabs x (g.rv l a.toNat))) s

/-- IADD of two registers (R363, R364). -/
def execIaddLr (h : Head) (u : Bool) (d : BitVec 7) (a : BitVec 7) (b : BitVec 7) (s : State) : Host.Outcome State Fault Refusal :=
  issue (.iaddLr h u d a b) (aluBody d.toNat (fun g l => iadd .i32 false (g.rv l a.toNat) (g.rv l b.toNat))) s

/-- IADD with an immediate (R363, R364). -/
def execIaddLi (h : Head) (u : Bool) (d : BitVec 7) (a : BitVec 7) (i : BitVec 7) (s : State) : Host.Outcome State Fault Refusal :=
  issue (.iaddLi h u d a i) (aluBody d.toNat (fun g l => iadd .i32 false (g.rv l a.toNat) (imm7s i))) s

/-- IADD, long form (R363, R364). -/
def execIaddXi (h : Head) (u : Bool) (g : Guard) (d : BitVec 7) (a : BitVec 7) (b : BitVec 7) (t : Ty) (x : Bool) (s : State) : Host.Outcome State Fault Refusal :=
  issue (.iaddXi h u g d a b t x) (aluBody d.toNat (fun g l => iadd t x (g.rv l a.toNat) (g.rv l b.toNat))) s

/-- ISUB (R363, R364). -/
def execIsubLr (h : Head) (u : Bool) (d : BitVec 7) (a : BitVec 7) (b : BitVec 7) (s : State) : Host.Outcome State Fault Refusal :=
  issue (.isubLr h u d a b) (aluBody d.toNat (fun g l => isub .i32 false (g.rv l a.toNat) (g.rv l b.toNat))) s

/-- ISUB, long form (R363, R364). -/
def execIsubXi (h : Head) (u : Bool) (g : Guard) (d : BitVec 7) (a : BitVec 7) (b : BitVec 7) (t : Ty) (x : Bool) (s : State) : Host.Outcome State Fault Refusal :=
  issue (.isubXi h u g d a b t x) (aluBody d.toNat (fun g l => isub t x (g.rv l a.toNat) (g.rv l b.toNat))) s

/-- IMUL: the low 32 bits (R363, R364). -/
def execImulLr (h : Head) (u : Bool) (d : BitVec 7) (a : BitVec 7) (b : BitVec 7) (s : State) : Host.Outcome State Fault Refusal :=
  issue (.imulLr h u d a b) (aluBody d.toNat (fun g l => (g.rv l a.toNat) * (g.rv l b.toNat))) s

/-- IMUL, long form (R363, R364). -/
def execImulXi (h : Head) (u : Bool) (g : Guard) (d : BitVec 7) (a : BitVec 7) (b : BitVec 7) (t : Ty) (s : State) : Host.Outcome State Fault Refusal :=
  issue (.imulXi h u g d a b t) (aluBody d.toNat (fun g l => (g.rv l a.toNat) * (g.rv l b.toNat))) s

/-- IMIN, signed (R363, R364). -/
def execIminLr (h : Head) (u : Bool) (d : BitVec 7) (a : BitVec 7) (b : BitVec 7) (s : State) : Host.Outcome State Fault Refusal :=
  issue (.iminLr h u d a b) (aluBody d.toNat (fun g l => imin .i32 (g.rv l a.toNat) (g.rv l b.toNat))) s

/-- IMIN, long form (R363, R364). -/
def execIminXi (h : Head) (u : Bool) (g : Guard) (d : BitVec 7) (a : BitVec 7) (b : BitVec 7) (t : Ty) (s : State) : Host.Outcome State Fault Refusal :=
  issue (.iminXi h u g d a b t) (aluBody d.toNat (fun g l => imin t (g.rv l a.toNat) (g.rv l b.toNat))) s

/-- IMAX, signed (R363, R364). -/
def execImaxLr (h : Head) (u : Bool) (d : BitVec 7) (a : BitVec 7) (b : BitVec 7) (s : State) : Host.Outcome State Fault Refusal :=
  issue (.imaxLr h u d a b) (aluBody d.toNat (fun g l => imax .i32 (g.rv l a.toNat) (g.rv l b.toNat))) s

/-- IMAX, long form (R363, R364). -/
def execImaxXi (h : Head) (u : Bool) (g : Guard) (d : BitVec 7) (a : BitVec 7) (b : BitVec 7) (t : Ty) (s : State) : Host.Outcome State Fault Refusal :=
  issue (.imaxXi h u g d a b t) (aluBody d.toNat (fun g l => imax t (g.rv l a.toNat) (g.rv l b.toNat))) s

/-- IADDX (R365): carry-in index 7 supplies 0. -/
def execIaddx (h : Head) (u : Bool) (g : Guard) (d : BitVec 7) (a : BitVec 7) (b : BitVec 7) (ci : BitVec 3) (co : BitVec 3) (s : State) : Host.Outcome State Fault Refusal :=
  issue (.iaddx h u g d a b ci co) (laneBody (fun g l =>
    let r := iaddx (g.rv l a.toNat) (g.rv l b.toNat) (ci != 7 && g.rp l ci.toNat)
    ([.v d.toNat r.1, .p co.toNat r.2], 0))) s

/-- ICMP (R366). -/
def execIcmpLc (h : Head) (u : Bool) (p : BitVec 3) (a : BitVec 7) (b : BitVec 7) (k : BitVec 4) (s : State) : Host.Outcome State Fault Refusal :=
  issue (.icmpLc h u p a b k) (laneBody (fun g l => ([.p p.toNat (icc 32 k.toNat (g.rv l a.toNat).toNat (g.rv l b.toNat).toNat)], 0))) s

/-- ICMP, long form (R366). -/
def execIcmpXi (h : Head) (u : Bool) (g : Guard) (p : BitVec 3) (a : BitVec 7) (b : BitVec 7) (t : Ty) (k : BitVec 4) (s : State) : Host.Outcome State Fault Refusal :=
  issue (.icmpXi h u g p a b t k) (laneBody (fun g l =>
    let r := if t = .i64 then icc 64 k.toNat (g.rv64 l a.toNat) (g.rv64 l b.toNat)
      else icc 32 k.toNat (g.rv l a.toNat).toNat (g.rv l b.toNat).toNat
    ([.p p.toNat r], 0))) s

/-- IDP4 (R367). -/
def execIdp4 (h : Head) (u : Bool) (g : Guard) (d : BitVec 7) (a : BitVec 7) (b : BitVec 7) (c : BitVec 7) (t : Ty) (s : State) : Host.Outcome State Fault Refusal :=
  issue (.idp4 h u g d a b c t) (aluBody d.toNat (fun g l => idp4 t (g.rv l a.toNat) (g.rv l b.toNat) (g.rv l c.toNat))) s

/-- IMAD (R368). -/
def execImad (h : Head) (u : Bool) (g : Guard) (d : BitVec 7) (a : BitVec 7) (b : BitVec 7) (c : BitVec 7) (t : Ty) (s : State) : Host.Outcome State Fault Refusal :=
  issue (.imad h u g d a b c t) (aluBody d.toNat (fun g l => (g.rv l a.toNat) * (g.rv l b.toNat) + (g.rv l c.toNat))) s

/-- IMADW (R368). -/
def execImadw (h : Head) (u : Bool) (g : Guard) (d : BitVec 7) (a : BitVec 7) (b : BitVec 7) (c : BitVec 7) (t : Ty) (s : State) : Host.Outcome State Fault Refusal :=
  issue (.imadw h u g d a b c t) (laneBody (fun g l => (wr64 d.toNat (imadw t (g.rv l a.toNat) (g.rv l b.toNat) (g.rv64 l c.toNat)), 0))) s

/-- IMULH (R368). -/
def execImulh (h : Head) (u : Bool) (g : Guard) (d : BitVec 7) (a : BitVec 7) (b : BitVec 7) (t : Ty) (s : State) : Host.Outcome State Fault Refusal :=
  issue (.imulh h u g d a b t) (aluBody d.toNat (fun g l => imulh t (g.rv l a.toNat) (g.rv l b.toNat))) s

/-- ISEL (R369). -/
def execIsel (h : Head) (u : Bool) (g : Guard) (d : BitVec 7) (a : BitVec 7) (b : BitVec 7) (n : Bool) (p : BitVec 3) (s : State) : Host.Outcome State Fault Refusal :=
  issue (.isel h u g d a b n p) (aluBody d.toNat (fun g l => if xor (g.rp l p.toNat) n then (g.rv l a.toNat) else (g.rv l b.toNat))) s

/-- LEA (R377). -/
def execLea (h : Head) (u : Bool) (g : Guard) (d : BitVec 7) (a : BitVec 7) (b : BitVec 7) (t : Ty) (x : BitVec 4) (s : State) : Host.Outcome State Fault Refusal :=
  issue (.lea h u g d a b t x) (laneBody (fun g l => (wr64 d.toNat (lea t (g.rv64 l a.toNat) (g.rv l b.toNat) x.toNat), 0))) s

/-- MOV (R389). -/
def execMovLr (h : Head) (u : Bool) (d : BitVec 7) (a : BitVec 7) (s : State) : Host.Outcome State Fault Refusal :=
  issue (.movLr h u d a) (aluBody d.toNat (fun g l => (g.rv l a.toNat))) s

/-- MOV, guarded form (R389). -/
def execMovXi (h : Head) (u : Bool) (g : Guard) (d : BitVec 7) (a : BitVec 7) (t : Ty) (s : State) : Host.Outcome State Fault Refusal :=
  issue (.movXi h u g d a t) (aluBody d.toNat (fun g l => (g.rv l a.toNat))) s

/-- MOVG: every participant receives G(A) (R390). -/
def execMovg (h : Head) (u : Bool) (d : BitVec 7) (a : BitVec 6) (s : State) : Host.Outcome State Fault Refusal :=
  issue (.movg h u d a) (aluBody d.toNat (fun g l => let _ := l; g.rg a.toNat)) s

/-- MOVI (R391). -/
def execMovi (h : Head) (u : Bool) (d : BitVec 7) (i : BitVec 32) (s : State) : Host.Outcome State Fault Refusal :=
  issue (.movi h u d i) (aluBody d.toNat (fun g l => let _ := (g, l); i)) s

/-- PLOP (R400). -/
def execPlop (h : Head) (u : Bool) (g : Guard) (d : BitVec 3) (a : BitVec 3) (b : BitVec 3) (x : BitVec 4) (w : Bool) (s : State) : Host.Outcome State Fault Refusal :=
  issue (.plop h u g d a b x w) (laneBody (fun g l =>
    let x := x.toNat.testBit ((if g.rp l a.toNat then 2 else 0) + (if g.rp l b.toNat then 1 else 0))
    ([.p d.toNat (if w then g.rp l d.toNat && x else x)], 0))) s

/-- PSWZ (R402). -/
def execPswz (h : Head) (u : Bool) (g : Guard) (d : BitVec 7) (a : BitVec 7) (b : BitVec 7) (c : BitVec 7) (s : State) : Host.Outcome State Fault Refusal :=
  issue (.pswz h u g d a b c) (aluBody d.toNat (fun g l => pswz (g.rv l a.toNat) (g.rv l b.toNat) (g.rv l c.toNat))) s

/-- SHL (R417). -/
def execShlLr (h : Head) (u : Bool) (d : BitVec 7) (a : BitVec 7) (b : BitVec 7) (s : State) : Host.Outcome State Fault Refusal :=
  issue (.shlLr h u d a b) (aluBody d.toNat (fun g l => shl (g.rv l a.toNat) (g.rv l b.toNat))) s

/-- SHL by an immediate (R417). -/
def execShlLi (h : Head) (u : Bool) (d : BitVec 7) (a : BitVec 7) (i : BitVec 7) (s : State) : Host.Outcome State Fault Refusal :=
  issue (.shlLi h u d a i) (aluBody d.toNat (fun g l => shl (g.rv l a.toNat) (imm7z i))) s

/-- SHL, long form (R417). -/
def execShlXi (h : Head) (u : Bool) (g : Guard) (d : BitVec 7) (a : BitVec 7) (b : BitVec 7) (t : Ty) (s : State) : Host.Outcome State Fault Refusal :=
  issue (.shlXi h u g d a b t) (aluBody d.toNat (fun g l => shl (g.rv l a.toNat) (g.rv l b.toNat))) s

/-- SHR (R417). -/
def execShrLr (h : Head) (u : Bool) (d : BitVec 7) (a : BitVec 7) (b : BitVec 7) (s : State) : Host.Outcome State Fault Refusal :=
  issue (.shrLr h u d a b) (aluBody d.toNat (fun g l => shr (g.rv l a.toNat) (g.rv l b.toNat))) s

/-- SHR by an immediate (R417). -/
def execShrLi (h : Head) (u : Bool) (d : BitVec 7) (a : BitVec 7) (i : BitVec 7) (s : State) : Host.Outcome State Fault Refusal :=
  issue (.shrLi h u d a i) (aluBody d.toNat (fun g l => shr (g.rv l a.toNat) (imm7z i))) s

/-- SHR, long form (R417). -/
def execShrXi (h : Head) (u : Bool) (g : Guard) (d : BitVec 7) (a : BitVec 7) (b : BitVec 7) (t : Ty) (s : State) : Host.Outcome State Fault Refusal :=
  issue (.shrXi h u g d a b t) (aluBody d.toNat (fun g l => shr (g.rv l a.toNat) (g.rv l b.toNat))) s

/-- SHRA (R417). -/
def execShraLr (h : Head) (u : Bool) (d : BitVec 7) (a : BitVec 7) (b : BitVec 7) (s : State) : Host.Outcome State Fault Refusal :=
  issue (.shraLr h u d a b) (aluBody d.toNat (fun g l => shra (g.rv l a.toNat) (g.rv l b.toNat))) s

/-- SHRA by an immediate (R417). -/
def execShraLi (h : Head) (u : Bool) (d : BitVec 7) (a : BitVec 7) (i : BitVec 7) (s : State) : Host.Outcome State Fault Refusal :=
  issue (.shraLi h u d a i) (aluBody d.toNat (fun g l => shra (g.rv l a.toNat) (imm7z i))) s

/-- SHRA, long form (R417). -/
def execShraXi (h : Head) (u : Bool) (g : Guard) (d : BitVec 7) (a : BitVec 7) (b : BitVec 7) (t : Ty) (s : State) : Host.Outcome State Fault Refusal :=
  issue (.shraXi h u g d a b t) (aluBody d.toNat (fun g l => shra (g.rv l a.toNat) (g.rv l b.toNat))) s

end Sys2Proof.Machine
end

