-- ==== Sys2Proof/Machine/Matrix.lean ====
section
/-! DEFINITION. The matrix and MX instructions (R109-R118, R338, R339, R380-R388, R403, R404). -/
namespace Sys2Proof.Machine

/-! ## Fragments (R116, R118) -/

/-- K positions of one lane's half of a row, and elements per register. -/
def fragHalf (t : Ty) : Nat := match t with
  | .f16 | .bf16 => 8
  | .e2m1 => 32
  | .i32 | .n32 | .i16 | .n16 | .i8 | .n8 | .f32 | .e4m3 | .e5m2 | .e3m2 | .e2m3 | .e8m0 | .i64 => 16
def fragPer (t : Ty) : Nat := match t with
  | .f16 | .bf16 => 2
  | .e2m1 => 8
  | .i32 | .n32 | .i16 | .n16 | .i8 | .n8 | .f32 | .e4m3 | .e5m2 | .e3m2 | .e2m3 | .e8m0 | .i64 => 4
/-- The code of element `k` of row or column `r` of a fragment at register `a` (R116). -/
def fragElem (g : Group) (t : Ty) (a r k : Nat) : Nat :=
  let h := fragHalf t
  let n := fragPer t
  let w := 32 / n
  bitsAt (g.rv (2 * r + k / h) (a + k % h / n)).toNat (w * (k % n)) w
/-- Element B[k][c] of the span block at span register `b` of a set of size `z` (R118). -/
def spanElem (k : Header) (gs : List Group) (z b kk c : Nat) : Nat :=
  let i := kk / (4 * z)
  let rem := kk % (4 * z)
  let sl := 16 * (rem / 2) + c
  match gs[sl / 32]? with
  | some g => bitsAt (g.rv (sl % 32) (k.vregs - 16 + b + i)).toNat (16 * (rem % 2)) 16
  | none => 0

/-- The exact sum of products (R113), infinities and NaNs as R115 combines them. -/
def dotVal (l : List (Val × Val)) : Val :=
  match l with
  | [] => .fin false 0 0
  | p :: r => r.foldl (fun s q => (s.add false (q.1.mul q.2).1).1) (p.1.mul p.2).1
/-- One output element of the F32 accumulators (R113, R115). -/
def mmaOut (c : Nat) (l : List (Val × Val)) : Nat := (fmtF32.round .rne false ((fmtF32.val c).add false (dotVal l)).1).1
/-- One output element of the I32 accumulators (R113). -/
def mmaOutI (c : Nat) (l : List (Int × Int)) : Nat := wrapW 32 ((c : Int) + (l.map (fun p => p.1 * p.2)).sum)

/-- The writes of lane `l` of D's eight registers: columns 8h to 8h + 7 of row l / 2 (R116). -/
def accWrites (d l : Nat) (out : Nat → Nat → Nat) : List Wr :=
  (List.range 8).map (fun j => .v (d + j) (BitVec.ofNat 32 (out (l / 2) (8 * (l % 2) + j))))
/-- Element C[r][j] of an accumulator block. -/
def accElem (g : Group) (c r j : Nat) : Nat := (g.rv (2 * r + j / 8) (c + j % 8)).toNat

/-- One group's MMA (R384): `part` are its participating lanes, `bElem` gives B[k][j]. -/
def mmaLanes (gi : Nat) (g : Group) (part : Mask) (t : Ty) (d a c : Nat) (bElem : Nat → Nat → Nat) : List LRes :=
  let kk := 2 * fragHalf t
  let out (r j : Nat) : Nat :=
    if t = .i8 then mmaOutI (accElem g c r j) ((List.range kk).map (fun k =>
      (toIntW 8 true (fragElem g t a r k), toIntW 8 true (bElem k j))))
    else mmaOut (accElem g c r j) ((List.range kk).map (fun k => (srcVal t (fragElem g t a r k), srcVal t (bElem k j))))
  (lanesOf part).map (fun l => ⟨gi, l, accWrites d l out, 0⟩)

/-- The groups of the set a group belongs to, by %setrank. -/
def setGroups (t : Team) (gi : Nat) : List Group := (unitGroups t gi .set).filterMap (fun j => t.groups[j]?)

/-- MMA (R113, R116-R118, R384): within each group a guard-false lane's B column is zero; at set scope B is read as it stands. -/
def mmaBody (sc : Scope) (d a b c : Nat) (ty : Ty) : Body :=
  { run := fun s x => (s, match s.team? x.tid with
      | none => {}
      | some t => { lanes := x.part.flatMap (fun p => match t.groups[p.1]? with
          | none => []
          | some g =>
            let gs := setGroups t p.1
            let bElem (k j : Nat) : Nat :=
              if sc = .set then spanElem t.la.hdr gs (setSize t.la.hdr.setcode) b k j
              else if p.2.has (2 * j) then fragElem g ty b j k else 0
            mmaLanes p.1 g p.2 ty d a c bElem) }) }

/-! ## Permutation tables (R112) -/

/-- What reading a table of `n` entries at an address of team shared memory meets, or its entries. -/
inductive Perm where
  | ok (l : List Nat)
  | stop (p : Pre)

/-- The permutation table of a group (R112): its alignment, its place in the allotment, presence, what a load of it waits for (R157,
R191), and its entries below the step's count. -/
def State.permTable (s : State) (tid gi base n : Nat) : Perm :=
  match s.tg tid gi with
  | none => .ok []
  | some (t, g) =>
    if base % 2 ≠ 0 then .stop (.trap { code := tALIGN, addr := base })
    else if t.la.hdr.shared < base + 2 * n then .stop (.trap { code := tBOUNDS, addr := base })
    else match (List.range n).find? (fun i => !t.present (base + 2 * i)) with
      | some i => .stop (.wait (.presence ((base + 2 * i) / 128)))
      | none =>
        let late : Option Park := match g.bram with
          | some b => if lateStore t gi b [(.shm base, 2 * n)] then some .spec else none
          | none => if g.owesTo [(.shm base, 2 * n)] then some .queue else none
        let l := (List.range n).map (fun i => leNat (s.readLoc t g (.shm (base + 2 * i)) 2))
        if let some c := late then .stop (.wait c) else
        match l.find? (fun e => decide (n ≤ e)) with
        | some _ => .stop (.trap { code := tBOUNDS, addr := base })
        | none => .ok l
/-- The first obstacle among the tables of the groups that take part. -/
def permPre (use : Bool) (n : Nat) (base : Group → Nat) (s : State) (x : Site) : Pre :=
  if !use then .go
  else (x.part.filter (fun p => decide (p.2 ≠ 0))).foldl (fun acc p => match acc with
    | .go => match s.group? x.tid p.1 with
      | none => .go
      | some g => match s.permTable x.tid p.1 (base g) n with
        | .ok _ => .go
        | .stop r => r
    | r => r) Pre.go
/-- A group's table, or the identity. -/
def State.permOf (s : State) (use : Bool) (tid gi base n : Nat) : List Nat :=
  if use then match s.permTable tid gi base n with
    | .ok l => l
    | .stop _ => List.range n
  else List.range n

/-- A read of the tables is a load: a speculating group records their sectors (R191). -/
def State.permTouch (s : State) (use : Bool) (x : Site) (n : Nat) (base : Group → Nat) : State :=
  if !use then s
  else (x.part.filter (fun p => decide (p.2 ≠ 0))).foldl (fun s p => match s.group? x.tid p.1 with
    | none => s
    | some g => (List.range n).foldl (fun s i => s.touchRead x.tid p.1 (.shm (base g + 2 * i)) 2 0) s) s

/-! ## MX formats (R109-R114) -/

/-- The value of an MX element before its scale (R98, R109). -/
def mxVal (t : Ty) (c : Nat) : Val := (srcVal t c).scale (if t = .i8 then -6 else 0)
/-- A value under an E8M0 scale byte; a NaN scale makes it NaN (R115). -/
def scaled (v : Val) (s : Nat) : Val := if s = 255 then .nan else v.scale ((s : Int) - 127)

/-- MMAX (R114, R115, R385): the scale of an element of B read through the permutation is that of the block it is read from. -/
def mmaxBody (d a b c : Nat) (ty : Ty) (asel bsel : Nat) (perm : Bool) : Body :=
  let kk := 2 * fragHalf ty
  { pre := permPre perm kk (fun g => g.permBase.toNat)
    run := fun s x => (s.permTouch perm x kk (fun g => g.permBase.toNat), match s.team? x.tid with
      | none => {}
      | some t => { lanes := x.part.flatMap (fun p => match t.groups[p.1]? with
          | none => []
          | some g =>
            let pm := s.permOf perm x.tid p.1 g.permBase.toNat kk
            let sLane (r k : Nat) : Nat := if ty = .e2m1 then 2 * r + k / 32 else 2 * r
            let sa (r k : Nat) : Nat := bitsAt (g.rv (sLane r k) c).toNat (8 * asel) 8
            let sb (j k : Nat) : Nat := bitsAt (g.rv (sLane j k) (c + 1)).toNat (8 * bsel) 8
            let bv (k j : Nat) : Val :=
              let q := (pm[k]?).getD k
              if p.2.has (2 * j) then scaled (mxVal ty (fragElem g ty b j q)) (sb j q) else .fin false 0 0
            let out (r j : Nat) : Nat := mmaOut (accElem g d r j) ((List.range kk).map (fun k =>
              (scaled (mxVal ty (fragElem g ty a r k)) (sa r k), bv k j)))
            (lanesOf p.2).map (fun l => ⟨p.1, l, accWrites d l out, 0⟩)) }) }

/-- emax of an MX element format (R110). -/
def mxEmax (t : Ty) : Int := match t with
  | .e4m3 => 8
  | .e5m2 => 15
  | .e3m2 => 4
  | .e2m3 => 2
  | .e2m1 => 2
  | .i8 | .i32 | .n32 | .i16 | .n16 | .n8 | .f32 | .f16 | .bf16 | .e8m0 | .i64 => 0
/-- The magnitude of a finite F32 value as a comparable number: n × 2^(e + 149). -/
def magOf : Val → Nat
  | .fin _ n e => n * 2 ^ (e + 149).toNat
  | .nan => 0
  | .inf _ => 0
/-- One element of a block with exponent X (R110). -/
def mxElem (t : Ty) (md : RMode) (x : Int) (v : Val) : Nat :=
  match fmtOf t with
  | some f => (f.round md true (v.scale (-x))).1
  | none => match v.scale (6 - x) with
    | .fin neg n e =>
      let k := (roundAt md neg n e 0 false).1
      wrapW 8 (clampI (-127) 127 (if neg then -(k : Int) else k))
    | .nan => 0
    | .inf _ => 0
/-- The scale and the exponent of a block, or none where its elements are all 0 (R110): its scale comes first. -/
def mxScale (t : Ty) (vs : List Val) : Nat × Option Int :=
  if vs.any (fun v => match v with
    | .fin .. => false
    | .nan => true
    | .inf _ => true) then (255, none)
  else
    let amax := (vs.map magOf).foldl max 0
    if amax = 0 then (0, none)
    else
      let x := clampI (-127) 127 ((bitLen amax : Int) - 1 - 149 - mxEmax t)
      ((x + 127).toNat, some x)

/-- What one lane of QMX writes (R111): `val q` is the source value of the row at K position q, `pm` the permutation, `md` the
rounding mode by position in the destination register. -/
def qmxLane (t : Ty) (h : Nat) (val : Nat → Val) (pm : List Nat) (md : Nat → RMode) (d c : Nat) (oldC : Word) : List Wr :=
  let half := if t = .e2m1 then 32 else 16
  let per := fragPer t
  let w := 32 / per
  let src (k : Nat) : Val := val ((pm[k]?).getD k)
  let block := if t = .e2m1 then (List.range 32).map (fun i => src (32 * h + i)) else (List.range 32).map src
  let (sc, x) := mxScale t block
  let elem (i : Nat) : Nat := match x with
    | some x => mxElem t (md (i % per)) x (src (half * h + i))
    | none => 0
  let reg (j : Nat) : Nat := ((List.range per).map (fun i => elem (per * j + i) % 2 ^ w * 2 ^ (w * i))).sum
  (List.range 4).map (fun j => .v (d + j) (BitVec.ofNat 32 (reg j))) ++ [.v c (oldC >>> 8 ||| BitVec.ofNat 32 (sc * 2 ^ 24))]

/-- QMX (R110-R112, R403, R404); with a permutation it latches the group's base. -/
def qmxBody (d a b c : Nat) (t : Ty) (m : BitVec 3) (perm : Bool) : Body :=
  let half := if t = .e2m1 then 32 else 16
  let kk := 2 * half
  { pre := permPre perm kk (fun g => (g.rg b).toNat)
    run := fun s x =>
      let r : Res := match s.team? x.tid with
        | none => {}
        | some tm => { lanes := x.part.flatMap (fun p => match tm.groups[p.1]? with
            | none => []
            | some g =>
              let pm := s.permOf perm x.tid p.1 (g.rg b).toNat kk
              (lanesOf p.2).map (fun l => ⟨p.1, l,
                qmxLane t (l % 2) (fun q => fmtF32.val (g.rv (l / 2 * 2 + q / half) (a + q % half)).toNat) pm
                  (fun k => .ofM m (srBits g.seed.toNat (8 * l + k) (g.lane l).seq)) d c (g.rv l c), 0⟩)) }
      let s := s.permTouch perm x kk (fun g => (g.rg b).toNat)
      (if perm then s.eachGroup x.tid x.part (fun _ m g => if m = 0 then g else { g with permBase := g.rg b }) else s, r) }

/-- What one lane of DQMX writes (R338): `f` the output format, `sc` its scale byte, `a` its fragment registers. -/
def dqmxLane (t f : Ty) (md : Nat → RMode) (d : Nat) (a : Nat → Word) (sc : Nat) : List Wr :=
  let per := fragPer t
  let w := 32 / per
  let n := 4 * per
  let y (k : Nat) : Nat := (cvtx f t (md k) false (bitsAt (a (k / per)).toNat (w * (k % per)) w) sc).1
  if f = .f32 then (List.range n).map (fun k => .v (d + k) (BitVec.ofNat 32 (y k)))
  else (List.range (n / 2)).map (fun j => .v (d + j) (BitVec.ofNat 32 (y (2 * j) % 2 ^ 16 + y (2 * j + 1) % 2 ^ 16 * 2 ^ 16)))

/-! ## Fragment loads and stores (R381, R382, R386) -/

/-- The first of several accesses of a lane that does not go through. -/
def chkAll : List Chk → Chk
  | [] => .ok
  | .ok :: r => chkAll r
  | c :: _ => c
/-- Words a span block's lane loads (R382). -/
def spanWords (t : Team) : Nat := 4 / max (setSize t.la.hdr.setcode) 1
/-- MLD (R381, R382). -/
def mldBody (sc : Scope) (d a role : Nat) : Body :=
  let span := sc = .set ∧ role = 1
  let n := if role = 2 then 32 else 16
  { lane := fun s x gi l => match s.tg x.tid gi with
      | none => .ok
      | some (t, g) =>
        let at0 := (g.rv l a).toNat
        if span then chkAll ((List.range (spanWords t)).map (fun i => s.accChk t gi g l .shared (at0 + 4 * i) 4 false true))
        else s.accChk t gi g l .shared at0 n false true
    run := fun s x =>
      let r := s.lanesDo x (fun s g gi l =>
        let at0 := (g.rv l a).toNat
        if span then match s.team? x.tid with
          | none => (s, [])
          | some t =>
            let ws := (List.range (spanWords t)).map (fun i => (s.readLane x.tid gi l .shared (at0 + 4 * i) 4 0).2)
            let s' := (List.range (spanWords t)).foldl (fun s i => (s.readLane x.tid gi l .shared (at0 + 4 * i) 4 0).1) s
            (s', (enum ws).map (fun w => .v (t.la.hdr.vregs - 16 + d + w.1) (BitVec.ofNat 32 (leNat w.2))))
        else
          let (s', bs) := s.readLane x.tid gi l .shared at0 n 0
          (s', (List.range (n / 4)).map (fun j => .v (d + j) (BitVec.ofNat 32 (leNat ((bs.drop (4 * j)).take 4))))))
      (r.1, { lanes := r.2 }) }

/-- The bytes MST stores for a lane (R386). -/
def mstBytes (t : Ty) (v : Nat → Word) : List Byte :=
  match t with
  | .f16 | .bf16 => (List.range 8).flatMap (fun j => leBytes 2 (((fmtOf t).getD fmtF16).round .rne false (fmtF32.val (v j).toNat)).1)
  | .i32 | .n32 | .i16 | .n16 | .i8 | .n8 | .f32 | .e4m3 | .e5m2 | .e3m2 | .e2m3 | .e2m1 | .e8m0 | .i64 =>
    (List.range 8).flatMap (fun j => leBytes 4 (v j).toNat)
/-- MST (R386): plain stores of 4 bytes each, in ascending address. -/
def mstBody (d a : Nat) (t : Ty) : Body :=
  let n := if t = .f32 then 32 else 16
  { lane := fun s x gi l => match s.tg x.tid gi with
      | none => .ok
      | some (tm, g) => s.accChk tm gi g l .shared (g.rv l a).toNat n true false
    run := fun s x =>
      (s.lanesEach x (fun s g gi l =>
        let bs := mstBytes t (fun j => g.rv l (d + j))
        (List.range (n / 4)).foldl (fun s i =>
          s.writeLane x.tid gi l false .shared ((g.rv l a).toNat + 4 * i) 4 ((bs.drop (4 * i)).take 4)) s), {}) }

/-- MLD (R381, R382). -/
def execMld (h : Head) (g : Guard) (d : BitVec 7) (a : BitVec 7) (t : Ty) (x : BitVec 2) (s : State) : Host.Outcome State Fault Refusal :=
  issue (.mld h g d a t x) (mldBody h.scope d.toNat a.toNat x.toNat) s

/-- MMA (R383, R384). -/
def execMma (h : Head) (g : Guard) (d : BitVec 7) (a : BitVec 7) (b : BitVec 7) (c : BitVec 7) (t : Ty) (s : State) : Host.Outcome State Fault Refusal :=
  issue (.mma h g d a b c t) (mmaBody h.scope d.toNat a.toNat b.toNat c.toNat t) s

/-- MMAX (R385). -/
def execMmax (h : Head) (g : Guard) (d : BitVec 7) (a : BitVec 7) (b : BitVec 7) (c : BitVec 7) (t : Ty) (m : BitVec 2) (n : BitVec 2) (x : Bool) (s : State) : Host.Outcome State Fault Refusal :=
  issue (.mmax h g d a b c t m n x) (mmaxBody d.toNat a.toNat b.toNat c.toNat t m.toNat n.toNat x) s

/-- MST (R386). -/
def execMst (h : Head) (g : Guard) (d : BitVec 7) (a : BitVec 7) (t : Ty) (s : State) : Host.Outcome State Fault Refusal :=
  issue (.mst h g d a t) (mstBody d.toNat a.toNat t) s

/-- MZRO (R387). -/
def execMzro (h : Head) (g : Guard) (d : BitVec 7) (s : State) : Host.Outcome State Fault Refusal :=
  issue (.mzro h g d) (laneBody (fun _ _ => ((List.range 8).map (fun j => .v (d.toNat + j) 0), 0))) s

/-- QMX (R110-R112, R403, R404). -/
def execQmx (h : Head) (g : Guard) (d : BitVec 7) (a : BitVec 7) (b : BitVec 6) (c : BitVec 7) (t : Ty) (m : BitVec 3) (x : Bool) (s : State) : Host.Outcome State Fault Refusal :=
  issue (.qmx h g d a b c t m x) (qmxBody d.toNat a.toNat b.toNat c.toNat t m x) s

/-- DQMX (R338, R339). -/
def execDqmx (h : Head) (g : Guard) (d : BitVec 7) (a : BitVec 7) (c : BitVec 7) (t : Ty) (m : BitVec 3) (f : Ty) (s : State) : Host.Outcome State Fault Refusal :=
  issue (.dqmx h g d a c t m f) (laneBody (fun gr l =>
    (dqmxLane t f (fun k => gr.roundMode m l (if f = .f32 then 0 else k % 2)) d.toNat (fun j => gr.rv l (a.toNat + j))
      ((gr.rv l c.toNat).toNat / 2 ^ 24), 0))) s

end Sys2Proof.Machine
end

