-- ==== Sys2Proof/Machine/Optim.lean ====
section
/-! DEFINITION. The optimiser steps (R124, R125, R394, R395). -/
namespace Sys2Proof.Machine

/-- F32 steps in RNE that gather their flags (R124). -/
def stepMul (a b : FRes) : FRes := withFlags (fmtF32.fmul .rne a.1 b.1) (a.2 ||| b.2)
def stepAdd (a b : FRes) : FRes := withFlags (fmtF32.fadd .rne a.1 b.1) (a.2 ||| b.2)
def stepSub (a b : FRes) : FRes := withFlags (fmtF32.fadd .rne a.1 (negF32 b.1)) (a.2 ||| b.2)
def stepFma (a b c : FRes) : FRes := withFlags (fmtF32.ffma .rne a.1 b.1 c.1) (a.2 ||| b.2 ||| c.2)
def stepDiv (a b : FRes) : FRes := withFlags (fmtF32.fdiv .rne a.1 b.1) (a.2 ||| b.2)
def stepSqrt (a : FRes) : FRes := withFlags (fmtF32.fsqrt .rne a.1) a.2
/-- The BF16 copy of an F32 value, in bits [15:0]. -/
def stepBf16 (a : FRes) : FRes := withFlags (fmtBF16.round .rne false (fmtF32.val a.1)) a.2
/-- An operand with no flags. -/
def opnd (x : Nat) : FRes := (x, fNone)

/-- OADM (R124): weight, first and second moment, BF16 copy; `k` reads β1, β2, c1, c2, lr, ε. -/
def oadm (k : Nat → Nat) (w m v g d a : Nat) : List Wr × Flags :=
  let one := opnd F32.one
  let a1 := stepSub one (opnd (k 0))
  let a2 := stepSub one (opnd (k 1))
  let m' := stepFma (opnd (k 0)) (opnd m) (stepMul a1 (opnd g))
  let v' := stepFma (opnd (k 1)) (opnd v) (stepMul a2 (stepMul (opnd g) (opnd g)))
  let mh := stepMul m' (opnd (k 2))
  let vh := stepMul v' (opnd (k 3))
  let den := stepAdd (stepSqrt vh) (opnd (k 5))
  let w' := stepSub (opnd w) (stepDiv (stepMul (opnd (k 4)) mh) den)
  let c := stepBf16 w'
  ([.v d (BitVec.ofNat 32 w'.1), .v (d + 1) (BitVec.ofNat 32 c.1), .v a (BitVec.ofNat 32 m'.1), .v (a + 1) (BitVec.ofNat 32 v'.1)], c.2)
/-- OSGD (R125): weight, momentum, BF16 copy; `k` reads μ, lr, λ. -/
def osgd (k : Nat → Nat) (w mom g d a : Nat) : List Wr × Flags :=
  let u := stepFma (opnd (k 2)) (opnd w) (opnd g)
  let m' := stepFma (opnd (k 0)) (opnd mom) u
  let w' := stepSub (opnd w) (stepMul (opnd (k 1)) m')
  let c := stepBf16 w'
  ([.v d (BitVec.ofNat 32 w'.1), .v (d + 1) (BitVec.ofNat 32 c.1), .v a (BitVec.ofNat 32 m'.1)], c.2)

/-- OADM (R124, R394). -/
def execOadm (h : Head) (g : Guard) (d : BitVec 7) (a : BitVec 7) (b : BitVec 7) (c : BitVec 6) (s : State) : Host.Outcome State Fault Refusal :=
  issue (.oadm h g d a b c) (laneBody (fun gr l =>
    oadm (fun k => (gr.rg (c.toNat + k)).toNat) (gr.rv l d.toNat).toNat (gr.rv l a.toNat).toNat (gr.rv l (a.toNat + 1)).toNat
      (gr.rv l b.toNat).toNat d.toNat a.toNat)) s

/-- OSGD (R125, R394). -/
def execOsgd (h : Head) (g : Guard) (d : BitVec 7) (a : BitVec 7) (b : BitVec 7) (c : BitVec 6) (s : State) : Host.Outcome State Fault Refusal :=
  issue (.osgd h g d a b c) (laneBody (fun gr l =>
    osgd (fun k => (gr.rg (c.toNat + k)).toNat) (gr.rv l d.toNat).toNat (gr.rv l a.toNat).toNat (gr.rv l b.toNat).toNat d.toNat a.toNat)) s

end Sys2Proof.Machine
end

