-- ==== Sys2Proof/Machine/Ray.lean ====
section
/-! DEFINITION. The ray tests (R127, R128, R412, R413). -/
namespace Sys2Proof.Machine

/-- Rne of x / y in F32. -/
def divF32 (x y : Nat) : Nat := (fmtF32.fdiv .rne x y).1
/-- RXBOX (R127): tnear, tfar and the hit. The ray is origin, tmin, direction, tmax; the box lo, hi. -/
def rxbox (r b : Nat → Nat) : Nat × Nat × Bool :=
  let axis (k : Nat) : Nat × Nat :=
    let inv := divF32 F32.one (r (4 + k))
    let t0 := mulF32 (subF32 (b k) (r k)) inv
    let t1 := mulF32 (subF32 (b (3 + k)) (r k)) inv
    (fmtF32.fmin t0 t1, fmtF32.fmax t0 t1)
  let near := fmtF32.fmax (fmtF32.fmax (fmtF32.fmax (r 3) (axis 0).1) (axis 1).1) (axis 2).1
  let far := fmtF32.fmin (fmtF32.fmin (fmtF32.fmin (r 7) (axis 0).2) (axis 1).2) (axis 2).2
  (near, far, (fmtF32.fcmp 13 near far).1)

/-- A triangle hit. -/
structure RayHit where
  t : Nat
  u : Nat
  v : Nat
  back : Bool
  deriving DecidableEq, Repr

/-- Exact a·b − c·d of F32 codes. -/
def crossVal (a b c d : Nat) : Val :=
  (((fmtF32.val a).mul (fmtF32.val b)).1.add false ((fmtF32.val c).mul (fmtF32.val d)).1.neg).1
/-- Is a value below, above zero. -/
def Val.isNeg (v : Val) : Bool := v.lt (.fin false 0 0)
def Val.isPos (v : Val) : Bool := (Val.fin false 0 0).lt v
/-- Rounds an exact value to F32 in RNE. -/
def rneF32 (v : Val) : Nat := (fmtF32.round .rne false v).1
/-- a ≤ b in F32, false with a NaN. -/
def leF32 (a b : Nat) : Bool := (fmtF32.fcmp 13 a b).1
/-- |x| of an F32 code. -/
def absF32 (x : Nat) : Nat := x % 2 ^ 31

/-- RXTRI (R128): the hit, if any. The triangle is vertices A, B, C. -/
def rxtri (r b : Nat → Nat) : Option RayHit :=
  if (List.range 8).any (fun k => (fmtF32.val (r k)).isNan) || (List.range 9).any (fun k => (fmtF32.val (b k)).isNan) then none
  else
    let dir (k : Nat) : Nat := r (4 + k)
    let kz := if absF32 (dir 1) ≤ absF32 (dir 0) ∧ absF32 (dir 2) ≤ absF32 (dir 0) then 0
      else if absF32 (dir 2) ≤ absF32 (dir 1) then 1 else 2
    let k1 := (kz + 1) % 3
    let k2 := (k1 + 1) % 3
    let swap := (fmtF32.val (dir kz)).isNeg
    let kx := if swap then k2 else k1
    let ky := if swap then k1 else k2
    let sx := divF32 (dir kx) (dir kz)
    let sy := divF32 (dir ky) (dir kz)
    let sz := divF32 F32.one (dir kz)
    let vert (v : Nat) : Nat × Nat × Nat :=
      let p (k : Nat) : Nat := subF32 (b (3 * v + k)) (r k)
      (fmaF32 (negF32 sx) (p kz) (p kx), fmaF32 (negF32 sy) (p kz) (p ky), mulF32 sz (p kz))
    let (ax, ay, az) := vert 0
    let (bx, bY, bz) := vert 1
    let (cx, cy, cz) := vert 2
    let uE := crossVal cx bY cy bx
    let vE := crossVal ax cy ay cx
    let wE := crossVal bx ay bY ax
    let mixed := (uE.isNeg || vE.isNeg || wE.isNeg) && (uE.isPos || vE.isPos || wE.isPos)
    let u := fmtF32.val (rneF32 uE)
    let v := fmtF32.val (rneF32 vE)
    let w := fmtF32.val (rneF32 wE)
    let det := rneF32 ((u.add false v).1.add false w).1
    let num := rneF32 (((u.mul (fmtF32.val az)).1.add false (v.mul (fmtF32.val bz)).1).1.add false (w.mul (fmtF32.val cz)).1).1
    let t := divF32 num det
    if !mixed && !(fmtF32.val det).isZero && leF32 (r 3) t && leF32 t (r 7) then
      some ⟨t, divF32 (rneF32 vE) det, divF32 (rneF32 wE) det, (fmtF32.val det).isNeg⟩
    else none

/-- RXBOX (R127, R413). -/
def execRxbox (h : Head) (g : Guard) (d : BitVec 7) (a : BitVec 7) (b : BitVec 7) (p : BitVec 3) (s : State) : Host.Outcome State Fault Refusal :=
  issue (.rxbox h g d a b p) (laneBody (fun gr l =>
    let r := rxbox (fun k => (gr.rv l (a.toNat + k)).toNat) (fun k => (gr.rv l (b.toNat + k)).toNat)
    ([.v d.toNat (BitVec.ofNat 32 r.1), .v (d.toNat + 1) (BitVec.ofNat 32 r.2.1), .p p.toNat r.2.2], 0))) s

/-- RXTRI (R128, R413). -/
def execRxtri (h : Head) (g : Guard) (d : BitVec 7) (a : BitVec 7) (b : BitVec 7) (p : BitVec 3) (s : State) : Host.Outcome State Fault Refusal :=
  issue (.rxtri h g d a b p) (laneBody (fun gr l =>
    match rxtri (fun k => (gr.rv l (a.toNat + k)).toNat) (fun k => (gr.rv l (b.toNat + k)).toNat) with
    | none => ([.p p.toNat false], 0)
    | some h => ([.v d.toNat (BitVec.ofNat 32 h.t), .v (d.toNat + 1) (BitVec.ofNat 32 h.u), .v (d.toNat + 2) (BitVec.ofNat 32 h.v),
        .v (d.toNat + 3) (if h.back then 1 else 0), .p p.toNat true], 0))) s

end Sys2Proof.Machine
end

