-- ==== Sys2Proof/Machine/Saving.lean ====
section
/-! DEFINITION. The end of a stop: a save, or a run again from launch (R273, R282, R289, R290). -/
namespace Sys2Proof.Machine

/-- May a team that met #MCHK run again from launch (R289, R290). -/
def Team.rerunnable (t : Team) : Bool :=
  t.la.restart && !t.irrev && decide (t.reruns < 2) && t.halt.any (fun h => h.kind == 0 && h.code == tMCHK)
/-- The team at its start again where it stands: a launched one by its launch, a task by its record. -/
def State.again (s : State) (t : Team) : Except Stop Team :=
  let units := ((enum t.groups).filter (fun p => p.1 % t.la.hdr.unit == 0)).map (fun p => (p.2.quarter, p.2.vat))
  let sp : Spot := ⟨t.pcore, t.shmAt, t.barAt, units⟩
  let now := (s.die (dieOf t.pcore)).time
  let mk (pc : Nat) (live : Mask) : Team :=
    let u := Team.start t.tid t.ctx t.grid t.lin t.gx t.gy t.gz t.cw t.ch t.la sp t.core (t.groups.map (·.slot)) now pc live
    { u with msgs := t.msgs, reruns := t.reruns + 1, pin := t.pin, moved := t.moved, layer1 := ((s.grid? t.grid).map (·.layer)).getD [] }
  match (t.task).bind (fun id => s.tasks.find? (fun k => k.id == id)) with
  | none => .ok (mk t.la.entry 0xFFFFFFFF)
  | some k => match s.taskType k.ctx (fieldAt k.bytes 4 4 % 64) with
    | .ok (some ty) =>
      let u := mk (fieldAt k.bytes 0 4) (BitVec.ofNat 32 (fieldAt k.bytes 8 4))
      .ok { u with task := t.task, first := t.first, groups := u.groups.map (fun g => g.fromRecord k.bytes ty.vlive ty.glive) }
    | .ok none => .error (.fail 1 0)
    | .error e => .error e
/-- The cluster is saved; a saving that meets an absent page waits. -/
def State.saveCluster (s : State) (t : Team) : State :=
  let ts := s.cluster t
  let kind := if ts.any (fun u => u.halt.any (fun h => h.kind == 0)) then 2 else 1
  if ts.all (fun u => s.shmQuiet u.tid) then
    match (ts.map (·.tid)).foldlM (State.saveOne · kind) (ts.foldl (fun s u => s.modTeam u.tid (Team.stop kind)) s) with
    | .ok s' => s'.wakeMates ts
    | .error e => s.devStop t.ctx e
  else s
/-- TEAM_SAVE_COMPLETE (R282): a halted or pre-empted team is saved with its cluster, once the cards into their shared memory have landed; one
that #MCHK halted and that is restartable runs again from launch instead (R289). -/
def execTeamSaveComplete (tid : Nat) (s : State) : Host.Outcome State Fault Refusal :=
  .next (match s.team? tid with
    | none => s
    | some t =>
      if t.halt.isNone then s
      else if t.rerunnable then
        if s.shmQuiet tid && t.tickets.all (fun k => !k.busy) then
          match s.again t with
          | .ok u => ((s.drainTeam t).modTeam tid (fun _ => u)).countEvent evRerun
          | .error (.fail _ _) => s.saveCluster t
          | .error e => s.devStop t.ctx e
        else s
      else s.saveCluster t)

end Sys2Proof.Machine
end

