-- ==== Sys2Proof/Machine/Resume.lean ====
section
/-! DEFINITION. What software answers: page replies, RESUME, the trap queue, and the enabling of contexts (R136, R277, R279, R280, R285). -/
namespace Sys2Proof.Machine

/-! ## The high words (R280) -/

/-- A 64-bit register written by its low word: with the high word of the same write, else with the latched one. -/
def joined (latch lo : Word) (hi : Option Word) : Nat := lo.toNat + 2 ^ 32 * (hi.getD latch).toNat
/-- The latch after a write of the low word: a 4-byte write has used it. -/
def latchAfter (latch : Word) (hi : Option Word) : Word := if hi.isSome then latch else 0
/-- Is there such a context. -/
def ctxOk (x : Nat) : Bool := decide (x < 1024)
/-- REPLY_HIGH_WORD_LATCH (R280). -/
def execReplyHighWordLatch (ctx : Nat) (pgreply : Bool) (v : Word) (s : State) : Host.Outcome State Fault Refusal :=
  .next (if s.hostOpen && ctxOk ctx then s.modCtx ctx (fun c => if pgreply then { c with pgreplyHi := v } else { c with resumeHi := v }) else s)

/-! ## PGREPLY (R150, R280) -/

/-- A lane parked on the page retries; after a decline it does so once. -/
def Lane.reply (page : Nat) (decline : Bool) (l : Lane) : Lane :=
  if l.st = .parked (.page page) then { l with st := .ready, declined := if decline then some page else none } else l
/-- A team's lanes that a reply reaches. -/
def Team.reply (x page : Nat) (decline : Bool) (t : Team) : Team :=
  if t.ctx = x then { t with groups := t.groups.map (fun g => { g with lanes := g.lanes.map (Lane.reply page decline) }) } else t
/-- A card that waits on the page for its service, not for a walk. -/
def Card.reply (d : Die) (x page : Nat) (decline : Bool) (c : Card) : Card :=
  if c.ctx = x ∧ c.page = some page ∧ !d.walks.any (fun w => w.ctx == x && pageOf w.va == page) then
    { c with page := none, fail := if decline then some (1, page * 2 ^ 12) else c.fail }
  else c
/-- What the reply leaves of a context's requests: a declined page stays noted for the device's own access that waits for it. -/
def Ctx.replied (page : Nat) (decline : Bool) (hi : Option Word) (c : Ctx) : Ctx :=
  { c with
    pgreplyHi := latchAfter c.pgreplyHi hi
    asked := c.asked.filter (· != page)
    devAsked := c.devAsked.filter (· != page)
    refused := (if decline && c.devAsked.contains page then [page] else []) ++ c.refused.filter (· != page) }
/-- PGREPLY's low word is written (R280). -/
def State.pgreply (s : State) (x : Nat) (lo : Word) (hi : Option Word) : State :=
  let page := pageOf (joined (s.ctx x).pgreplyHi lo hi)
  let dec := lo.getLsbD 0
  let s' : State := { s with
    teams := s.teams.map (Team.reply x page dec)
    saved := s.saved.map (fun k => { k with team := k.team.reply x page dec })
    dies := s.dies.map (fun d => { d with cards := d.cards.map (Card.reply d x page dec) }) }
  s'.modCtx x (Ctx.replied page dec hi)
/-- PGREPLY_RETRY (R280): DECLINE is 0. -/
def execPgreplyRetry (ctx : Nat) (lo : Word) (hi : Option Word) (s : State) : Host.Outcome State Fault Refusal :=
  .next (if s.hostOpen && ctxOk ctx && !lo.getLsbD 0 then s.pgreply ctx lo hi else s)
/-- PGREPLY_DECLINE (R280): DECLINE is 1. -/
def execPgreplyDecline (ctx : Nat) (lo : Word) (hi : Option Word) (s : State) : Host.Outcome State Fault Refusal :=
  .next (if s.hostOpen && ctxOk ctx && lo.getLsbD 0 then s.pgreply ctx lo hi else s)

/-! ## RESUME (R277, R280) -/

/-- The length of the instruction at an offset of a team's code: as a loop buffer of the team holds it, else as memory does. -/
def State.lengthAt (s : State) (t : Team) (pc : Nat) : Nat :=
  let w : Nat := match t.groups.findSome? (fun g => g.loopWords pc) with
    | some w => w.1.toNat
    | none => match s.devRead t.ctx (t.la.base + pc) 4 with
      | .ok bs => leNat bs
      | .error _ => 0
  if twoWords w then 8 else 4
/-- Does SKIP pass the instruction for the lanes of an entry: a faulting fragment, or the reported instruction at wider scope. -/
def Ent.skips (pc : Nat) (e : Ent) : Bool := e.ecode != 0 && (e.ty == 1 || e.epc == pc)
/-- The lanes of an entry resume at the next instruction. -/
def State.skipEnt (s : State) (t : Team) (e : Ent) : Team :=
  let go (l : Lane) : Bool := l.st != .exited && l.pc == e.epc
  { t.modGroup e.group (fun g => g.modLanes e.mask (fun l => if go l then { l with st := .ready, pc := e.epc + s.lengthAt t e.epc } else l)) with
    skips := t.skips ++ ((lanesOf e.mask).filter (fun l => (t.groups[e.group]?).any (fun g => go (g.lane l)))).map (fun l => (e.group, l)) }
/-- The team with its faulting lanes past their instructions. -/
def State.skipTeam (s : State) (t : Team) : Team :=
  match t.halt with
  | none => t
  | some h => (h.ents.filter (Ent.skips h.pc)).foldl s.skipEnt t
/-- The halted team of a context whose save block the address names. -/
def State.halted? (s : State) (x a : Nat) : Option Saved := s.saved.find? (fun k => k.team.ctx == x && k.trapped && k.addr / 4096 == a / 4096)
/-- The halted team is answered: it, and once no team of its cluster is halted the others, wait for placement together. -/
def State.release (s : State) (k : Saved) (f : Saved → Saved) : State :=
  let ts := (s.savedMates k.team).map (·.team)
  let s' : State := { s with saved := s.saved.map (fun j => if j.team.tid = k.team.tid then f j else j) }
  s'.wakeMates ts
/-- Withdrawn ARED cards stand in their die's queue again (R230). -/
def State.reissue (s : State) (k : Saved) : State :=
  if k.ared = [] then s else s.modDie (dieOf k.team.pcore) (fun x => { x with cards := x.cards ++ k.ared })
/-- A saved team ends: it retires once its tickets complete. -/
def Saved.ended (k : Saved) : Saved := { k with team := k.team.finished, trapped := false, sibling := false, waiting := false, ared := [] }
/-- RESUME END for a halted team (R280). -/
def State.endSaved (s : State) (k : Saved) : State := (s.reissue k).release k Saved.ended
/-- Every queued packet of a queue is discarded, and counts in DONE in order (R238, R280). -/
def State.discard (s : State) (x q : Nat) : State :=
  let n := (s.qWr x q + 2 ^ 32 - s.qRd x q) % 2 ^ 32
  if n = 0 then s
  else
    let ps := (List.range n).map (fun i => (⟨(s.qRd x q + i) % 2 ^ 32, true, false⟩ : Started))
    ((s.setBar (queueOff x q 0x10) (s.qWr x q)).setStarted x q (s.startedOf x q ++ ps)).advanceDone x q
/-- A team of a context that is killed. -/
def Team.killed (x : Nat) (t : Team) : Team := if t.ctx = x then { t.finished with back := none } else t
/-- The graphs of a context fail, and those with nothing under way are complete. -/
def State.killGraphs (s : State) (x : Nat) : State :=
  let gs := (enum s.dies).flatMap (fun p => (p.2.graphs.filter (fun g => g.ctx == x)).map (fun g => (p.1, g.id)))
  gs.foldl (fun s q => (s.failGraph q.2).closeGraph q.1 q.2) s
/-- RESUME KILL (R280): every team of the context ends, with its queued records, graphs and packets. -/
def State.killCtx (s : State) (x : Nat) : State :=
  let s := (s.saved.filter (fun k => k.team.ctx == x)).foldl State.reissue s
  let s : State := { s with
    teams := s.teams.map (Team.killed x)
    saved := s.saved.map (fun k => if k.team.ctx = x then k.ended else k)
    grids := s.grids.map (fun g => if g.ctx = x then { g with killed := true } else g)
    tasks := s.tasks.filter (fun k => k.ctx != x || (match k.st with
      | .running _ => true
      | _ => false)) }
  let s : State := { s with claims := s.claims.filter (fun p => !s.grids.any (fun g => g.gid == p.1 && g.killed)) }
  let s := (s.syncTasks x).killGraphs x
  let s := (s.grids.filter (fun g => g.ctx == x && g.over && !g.la.bridle)).foldl State.endGrid s
  (List.range 128).foldl (fun s q => s.discard x q) s
/-- RESUME's low word is written (R280): one that names no halted team, or no action, does nothing. -/
def State.resume (s : State) (x : Nat) (lo : Word) (hi : Option Word) : State :=
  let a := joined (s.ctx x).resumeHi lo hi
  let s := s.modCtx x (fun c => { c with resumeHi := latchAfter c.resumeHi hi })
  match s.halted? x a with
  | none => s
  | some k =>
    let act := lo.toNat % 8
    if act = 1 then s.release k (fun j => { j with trapped := false, sibling := true })
    else if act = 2 then s.release k (fun j => { j with team := s.skipTeam j.team, trapped := false, sibling := true })
    else if act = 3 then s.endSaved k
    else if act = 4 then s.killCtx x
    else s
/-- RESUME_CONTINUE (R280). -/
def execResumeContinue (ctx : Nat) (lo : Word) (hi : Option Word) (s : State) : Host.Outcome State Fault Refusal :=
  .next (if s.hostOpen && ctxOk ctx && lo.toNat % 8 == 1 then s.resume ctx lo hi else s)
/-- RESUME_SKIP (R280). -/
def execResumeSkip (ctx : Nat) (lo : Word) (hi : Option Word) (s : State) : Host.Outcome State Fault Refusal :=
  .next (if s.hostOpen && ctxOk ctx && lo.toNat % 8 == 2 then s.resume ctx lo hi else s)
/-- RESUME_END (R280). -/
def execResumeEnd (ctx : Nat) (lo : Word) (hi : Option Word) (s : State) : Host.Outcome State Fault Refusal :=
  .next (if s.hostOpen && ctxOk ctx && lo.toNat % 8 == 3 then s.resume ctx lo hi else s)
/-- RESUME_KILL (R280). -/
def execResumeKill (ctx : Nat) (lo : Word) (hi : Option Word) (s : State) : Host.Outcome State Fault Refusal :=
  .next (if s.hostOpen && ctxOk ctx && lo.toNat % 8 == 4 then s.resume ctx lo hi else s)

/-! ## The trap queue (R279, R285) -/

/-- Held notices are tried again, unless an error of the queue holds them. -/
def State.retryNotices (s : State) (x : Nat) : State :=
  if s.bar (ctxOff x 0x34) % 2 = 1 then s else State.flushNotices x (s.ctx x).heldNotices.length s
/-- TQRD is written: never beyond TQWR. -/
def State.writeTqrd (s : State) (x v : Nat) : State :=
  let old := s.bar (ctxOff x 0x28)
  if (v % 2 ^ 32 + 2 ^ 32 - old) % 2 ^ 32 ≤ s.tqUsed x then (s.setBar (ctxOff x 0x28) (v % 2 ^ 32)).retryNotices x else s
/-- TQERR is written 1. -/
def State.clearTqerr (s : State) (x : Nat) : State := (s.setBar (ctxOff x 0x34) 0).retryNotices x
/-- TQRD_WRITE (R285). -/
def execTqrdWrite (ctx v : Nat) (s : State) : Host.Outcome State Fault Refusal := .next (if s.hostOpen && ctxOk ctx then s.writeTqrd ctx v else s)
/-- TQERR_RETRY (R279). -/
def execTqerrRetry (ctx : Nat) (s : State) : Host.Outcome State Fault Refusal := .next (if s.hostOpen && ctxOk ctx then s.clearTqerr ctx else s)

/-! ## Contexts (R136, R285, R306) -/

/-- The slices of a partition on a die, and its pad share: whether a pad byte by key is in them. -/
def State.inPad (s : State) (k key : Nat) : Bool :=
  let d := key / 2 ^ 31
  let sl := key / 2 ^ 24 % 128
  let fixed (n : Nat) : Nat := ((List.range 7).filter (fun i => !(s.freeBits d k).contains i && n.testBit i)).foldl (fun a i => a + 2 ^ i) 0
  fixed sl == fixed (s.shc d k) && decide (key % 2 ^ 24 < s.padStep d k * 131072)
/-- The pad of a partition is allotted: it reads as zero, with every line present. -/
def State.allotPad (s : State) (k : Nat) : State :=
  { s with pad := s.pad.filter (fun p => !s.inPad k p.1), padCnt := s.padCnt.filter (fun p => !s.inPad k (p.1 * 128)) }
/-- Has a partition pad on any die. -/
def State.partPads (s : State) (k : Nat) : Bool := (List.range 4).any (fun d => decide (0 < s.padStep d k))
/-- Does the context hold nothing (R285). -/
def State.ctxIdle (s : State) (x : Nat) : Bool :=
  !s.allTeams.any (fun t => t.ctx == x) && !s.tasks.any (fun k => k.ctx == x) && !s.dies.any (fun d => d.cards.any (fun c => c.ctx == x)) &&
  !s.saved.any (fun k => k.ared.any (fun c => c.ctx == x)) && (List.range 128).all (fun q => s.startedOf x q == [])
/-- The word of PART, PRIV, EN, PADSAVE, CHK and PASID is written. -/
def State.writeMode (s : State) (x v : Nat) : State :=
  let o := ctxOff x 0x2C
  let w := v % 2 ^ 32 - bitsAt v 20 4 * 2 ^ 20
  let en := bitsAt v 26 1 == 1
  if s.ctxEn x then (if en || !s.ctxIdle x then s else s.setBar o (setBits (s.bar o) 26 1 0))
  else if !en then s.setBar o w
  else
    let k := bitsAt v 28 4
    if s.trust.recovery || (s.partPads k && s.bar64 (ctxOff x 0x48) == 0) then s
    else (if s.partHeld k then s else s.allotPad k).setBar o w
/-- CONTEXT_ENABLE (R136, R285, R306): a write of the word with EN = 1. -/
def execContextEnable (ctx v : Nat) (s : State) : Host.Outcome State Fault Refusal :=
  .next (if s.hostOpen && ctxOk ctx && bitsAt v 26 1 == 1 then s.writeMode ctx v else s)
/-- CONTEXT_DISABLE (R285): a write of the word with EN = 0. -/
def execContextDisable (ctx v : Nat) (s : State) : Host.Outcome State Fault Refusal :=
  .next (if s.hostOpen && ctxOk ctx && bitsAt v 26 1 == 0 then s.writeMode ctx v else s)

end Sys2Proof.Machine
end

