-- ==== Sys2Proof/Machine/Registers.lean ====
section
/-! DEFINITION. BAR 0 as software reads and writes it: one register word to its behaviour (R144, R146, R154, R234, R247, R256, R269, R285,
R299, R303, R459). -/
namespace Sys2Proof.Machine

/-! ## Words of the package space -/

/-- A task register's word (R247): TFREE and TLIVE are read-only, POOLN is at most 2^20 and TTN at most 64. -/
def State.writeTask (s : State) (x o v : Nat) : State :=
  if o < 0x10 then s.setBar (taskOff x o) v
  else if o = 0x10 then (if 2 ^ 20 < v then s else (s.setBar (taskOff x o) v).syncTasks x)
  else if o = 0x14 then (if 64 < v % 128 then s else s.setBar (taskOff x o) (v % 128))
  else if o = 0x20 then s.setBar (taskOff x o) v
  else if o = 0x24 then s.setBar (taskOff x o) (v % 2 ^ 16)
  else if o = 0x28 then s.setBar (taskOff x o) (v % 4)
  else s
/-- The bits of a descriptor word that are not reserved (R285). -/
def ctxBits (o v : Nat) : Nat :=
  if o = 0x10 then v / 2 ^ 16 * 2 ^ 16
  else if o = 0x20 then bitsAt v 16 11 * 2 ^ 16 + bitsAt v 0 5
  else if o = 0x30 then bitsAt v 20 12 * 2 ^ 20 + bitsAt v 0 17
  else v
/-- A descriptor word that is written only while EN = 0. -/
def ctxPlain (o : Nat) : Bool := decide (o < 0x24) || o == 0x30 || o == 0x48 || o == 0x4C
/-- A context descriptor's word (R280, R285). -/
def State.writeCtx (s : State) (x o v : Nat) : State :=
  let w : Word := BitVec.ofNat 32 v
  if o = 0x28 then s.writeTqrd x v
  else if o = 0x2C then s.writeMode x v
  else if o = 0x34 then (if v % 2 = 1 then s.clearTqerr x else s)
  else if o = 0x38 then s.resume x w none
  else if o = 0x3C then s.modCtx x (fun c => { c with resumeHi := w })
  else if o = 0x40 then s.pgreply x w none
  else if o = 0x44 then s.modCtx x (fun c => { c with pgreplyHi := w })
  else if ctxPlain o && !s.ctxEn x then s.setBar (ctxOff x o) (ctxBits o v)
  else s
/-- A queue register's word (R234). -/
def State.writeQueue (s : State) (x q o v : Nat) : State :=
  if o < 8 then (if s.qEn x q then s else s.setBar (queueOff x q o) v)
  else if o = 8 then s.writeCtl x q v
  else if o = 0xC then s.doorbell x q v
  else s
/-- A word of the package space; the peer map is read-only (R459). -/
def State.writePackage (s : State) (o v : Nat) : State :=
  if 0x0030_0000 ≤ o ∧ o < 0x0031_0000 then s.writeTask ((o - 0x0030_0000) / 64) (o % 64) v
  else if 0x0070_0000 ≤ o ∧ o < 0x0072_0000 then s.writeCtx ((o - 0x0070_0000) / 128) (o % 128) v
  else if 0x0080_0000 ≤ o ∧ o < 0x0080_2000 then s.setBar o (if o % 8 = 0 then v % 2 ^ 20 else v)
  else s

/-! ## Words of a die's space -/

/-- A power register that is cleared by writing 0 (R269). -/
def zeroable (o : Nat) : Bool := (decide (0x10 ≤ o) && decide (o < 0x20)) || (decide (0x100 ≤ o) && decide (o < 0x300) && decide (o % 16 < 8))
/-- A power register's word (R268-R270). -/
def State.writePower (s : State) (d o v : Nat) : State :=
  if o = 8 then (if bitsAt v 7 1 = 1 then s.setBar (powOff d 8) (setBits (s.bar (powOff d 8)) 7 1 0) else s)
  else if o = 0xC then s.writeThresholds d v
  else if zeroable o then (if v = 0 then s.setBar (powOff d o) 0 else s)
  else s.writeBudget d o v
/-- A word of die `d`'s space. -/
def State.writeDie (s : State) (d o v : Nat) : State :=
  if 0x0010_0000 ≤ o ∧ o < 0x0010_0400 then s.writePart d ((o - 0x0010_0000) / 64) (o % 64) v false
  else if 0x0011_0000 ≤ o ∧ o < 0x0011_004C then s.writeMap d (o - 0x0011_0000) v
  else if o = 0x0011_004C then s.writeMirror d v
  else if 0x0020_0000 ≤ o ∧ o < 0x0021_0000 then (if o % 64 < 0x28 ∧ v = 0 then s.setBar (dieOff d o) 0 else s)
  else if 0x0040_0000 ≤ o ∧ o < 0x0040_0010 then s.setBar (dieOff d o) v
  else if 0x0050_0000 ≤ o ∧ o < 0x0050_0500 then s.writePower d (o - 0x0050_0000) v
  else s

/-! ## The write (R299) -/

/-- One aligned word of BAR 0. -/
def State.writeBar (s : State) (off v : Nat) : State :=
  if off < 0x0100_0000 then s.writePackage off v
  else if off < 0x0140_0000 then
    let k := (off - 0x0100_0000) / 32
    s.writeQueue (k / 128) (k % 128) (off % 32) v
  else if 0x0200_0000 ≤ off ∧ off < 0x0600_0000 then s.writeDie ((off - 0x0200_0000) / 0x0100_0000) (off % 0x0100_0000) v
  else s
/-- An aligned 8-byte write: RESUME and PGREPLY act at once, other registers word by word. -/
def State.writeBar8 (s : State) (off v : Nat) : State :=
  let lo : Word := BitVec.ofNat 32 v
  let hi : Word := BitVec.ofNat 32 (v / 2 ^ 32)
  let inCtx : Bool := decide (0x0070_0000 ≤ off) && decide (off < 0x0072_0000)
  let x := (off - 0x0070_0000) / 128
  if inCtx && off % 128 == 0x38 then s.resume x lo (some hi)
  else if inCtx && off % 128 == 0x40 then s.pgreply x lo (some hi)
  else (s.writeBar off lo.toNat).writeBar (off + 4) hi.toNat
/-- Is a word one of the work-queue registers of a context, all that its user mapping reaches (R299). -/
def userSees (x off : Nat) : Bool := decide (0x0100_0000 ≤ off) && decide (off < 0x0140_0000) && (off - 0x0100_0000) / 32 / 128 == x
/-- A word written from the user mapping of context `x`: SKIP, HALT and WRIDX act, and the fields that R234 marks privileged stay. -/
def State.writeUser (s : State) (x off v : Nat) : State :=
  let q := (off - 0x0100_0000) / 32 % 128
  if !userSees x off then s
  else if off % 32 = 8 then s.writeCtl x q (setBits (s.qCtl x q) 9 2 (v / 2 ^ 9))
  else if off % 32 = 0xC then s.doorbell x q v
  else s
/-- Is the path of a register access open: the host's is closed in recovery, management's is not (R299, R306). -/
def State.pathOpen (s : State) (who : RegBy) : Bool := match who with
  | .mgmt => true
  | .host => s.hostOpen
  | .user _ => s.hostOpen
/-- REGISTER_WRITE (R299): a 4-byte or 8-byte write of privileged software, of software in the user mapping of a context, or of management through
its register messages, which write the peer map too (R459); one that is not aligned, or of the host in recovery (R306), has no effect. -/
def execRegisterWrite (who : RegBy) (off v : Nat) (wide : Bool) (s : State) : Host.Outcome State Fault Refusal :=
  .next (if !s.pathOpen who || off % (if wide then 8 else 4) != 0 then s
    else match who with
      | .user x =>
        let t := s.writeUser x off (v % 2 ^ 32)
        if wide then t.writeUser x (off + 4) (v / 2 ^ 32 % 2 ^ 32) else t
      | .mgmt =>
        if 0x0090_0000 ≤ off ∧ off < 0x0090_0100 then
          let t := s.writePeerMap (off - 0x0090_0000) (v % 2 ^ 32)
          if wide then t.writePeerMap (off + 4 - 0x0090_0000) (v / 2 ^ 32 % 2 ^ 32) else t
        else if wide then s.writeBar8 off v else s.writeBar off (v % 2 ^ 32)
      | .host => if wide then s.writeBar8 off v else s.writeBar off (v % 2 ^ 32))

/-! ## The read (R299) -/

/-- One word as its reader sees it: RESUME and PGREPLY are write-only and read 0 (R285); a user mapping sees HALT, WRIDX and the fields that are
read only (R234). -/
def State.readWord (s : State) (who : RegBy) (off : Nat) : Nat :=
  match who with
  | .host => s.bar off
  | .mgmt => s.bar off
  | .user x =>
    if !userSees x off || decide (off % 32 < 8) then 0
    else if off % 32 = 8 then bitsAt (s.bar off) 9 1 * 2 ^ 9
    else s.bar off
/-- What a read of `n` bytes returns; it changes nothing. An access of another size, an unaligned one, and one of the host in recovery (R306) reads
0. -/
def State.readBar (s : State) (who : RegBy) (off n : Nat) : Nat :=
  if !s.pathOpen who || !(n == 4 || n == 8) || off % n != 0 then 0
  else s.readWord who off + (if n = 8 then 2 ^ 32 * s.readWord who (off + 4) else 0)

end Sys2Proof.Machine
end

