-- ==== Sys2Proof/Machine/Repair.lean ====
section
/-! DEFINITION. Errors of storage and repair while in service (R17, R136, R288-R293, R301). -/
namespace Sys2Proof.Machine

/-! ## Uncorrectable data (R289, R301) -/

/-- Has the page of the address a mirror copy (R140, R289 step 2). -/
def State.mirrored (s : State) (core ctx pa : Nat) : Bool := (s.entryOf core ctx pa).any (·.mir)
/-- The sector's primary is rewritten from its mirror copy (R289 step 2). -/
def State.fromCopy (s : State) (pa : Nat) : State :=
  let b := pa / 32 * 32
  ({ s with mem := setBytes s.mem b (s.memBytes (s.mirrorOf b) 32) }).unlose [pa / 32]
/-- #MCHK in a team, of no instruction of its own, with the address (R289). -/
def State.mchkTeam (s : State) (tid addr : Nat) : State :=
  match s.group? tid 0 with
  | none => s
  | some g => s.raise tid [0] g.pcStop 0 { code := tMCHK, addr := addr } [] []
/-- A lane's access fails. -/
def State.laneError (s : State) (mirror : Bool) (tid gi lane pa : Nat) : State :=
  match s.team? tid with
  | none => s
  | some t =>
    if t.back.isSome then s
    else if mirror && s.mirrored t.pcore t.ctx pa then s.fromCopy pa
    else s.mchkLane tid gi lane (s.vaOf t.pcore t.ctx pa)
/-- A running card's access fails with cause DATA (R220). -/
def State.cardError (s : State) (mirror : Bool) (die cid pa : Nat) : State :=
  match s.card? die cid with
  | none => s
  | some c =>
    if c.st ≠ .running ∨ c.fail.isSome then s
    else if mirror && s.mirrored c.core c.ctx pa then s.fromCopy pa
    else s.modCard die cid (fun c => { c with fail := some (5, s.vaOf c.core c.ctx pa) })
/-- A core is to be retired: it takes no placement, and its teams stop to be saved; they come back under its logical index (R292). -/
def State.emptyCore (s : State) (core : Nat) : State :=
  if 480 ≤ core then s
  else
    let s : State := { s with unavail := if s.unavail.contains core then s.unavail else core :: s.unavail }
    (s.teams.filter (fun t => t.pcore == core)).foldl (fun s t => (s.modTeam t.tid (fun u => { u with pin := [core] })).preempt t.tid) s
/-- UNCORRECTABLE_ERROR (R289): a read whose retry succeeds, or whose page has a mirror copy that can be read, is served; else #MCHK, or a failed card. A core with
such an error in its own state is retired (R292). -/
def execUncorrectableError (who : ErrAt) (retried : Bool) (s : State) : Host.Outcome State Fault Refusal :=
  .next (if retried then s
    else match who with
      | .lane tid gi lane pa copy => s.laneError (!copy) tid gi lane pa
      | .card die cid pa copy => s.cardError (!copy) die cid pa
      | .core core tids addr =>
        ((s.teams.filter (fun t => t.pcore == core && tids.contains t.tid && t.back.isNone)).foldl (fun s t => s.mchkTeam t.tid addr) s).emptyCore core)
/-- PEER_TIMEOUT (R301): a peer has not answered for 10 ms. -/
def execPeerTimeout (who : ErrAt) (s : State) : Host.Outcome State Fault Refusal :=
  .next (match who with
    | .lane tid gi lane pa _ => s.laneError false tid gi lane pa
    | .card die cid pa _ => s.cardError false die cid pa
    | .core .. => s)

/-! ## Lost sectors (R291) -/

/-- Fresh free values stand in the sector. -/
def State.scramble (s : State) (sec : Nat) : State :=
  { s with mem := setBytes s.mem (32 * sec) ((List.range 8).flatMap (fun i => leBytes 4 (Config.freeWord (s.free + i)).toNat)), free := s.free + 8 }
/-- The report of a sector that its slice cannot hold: what WHERE and INFO say is not given. Every resident team of the context on the die receives
#MCHK; none is run again from launch instead (R291). DESIGN CHOICE (log 35): nor by a later #MCHK. -/
def State.reportLost (s : State) (die x pa : Nat) : State :=
  let w (i : Nat) : Nat := (Config.freeWord (s.free + i)).toNat
  let s' := ({ s with free := s.free + 3 }).post x ⟨w 0 + 2 ^ 32 * w 1, 2, 0, w 2⟩
  (s'.teams.filter (fun t => t.ctx == x && dieOf t.pcore == die)).foldl (fun s t => (s.mchkTeam t.tid (s.vaOf t.pcore x pa)).irrevocable t.tid) s'
/-- LOST_SECTOR (R291): a dirty line's sector is held as lost, or reported where its slice holds 16. -/
def execLostSector (pa : Nat) (s : State) : Host.Outcome State Fault Refusal :=
  .next (
    let d := homeDie pa
    match (s.l2Find (pa / 128)).bind (·.dctx) with
    | none => s
    | some x =>
      let l := (s.die d).lost
      if l.any (fun e => e.1 == pa / 32) then s
      else if (l.filter (fun e => s.homeNode (e.1 / 4) == s.homeNode (pa / 128))).length < 16 then
        (s.modDie d (fun y => { y with lost := y.lost ++ [(pa / 32, x)] })).countEvent evLost
      else ((s.scramble (pa / 32)).reportLost d x pa).countEvent evLost)
/-- A corrected error of a core site: more than 64 of its core in 1 s retire the core (R292). -/
def State.siteError (s : State) (site : Nat) : State :=
  match s.sites.findIdx? (· == site) with
  | none => s
  | some core =>
    let now := (s.die (dieOf core)).time
    let s : State := { s with coreErrs := (core, now) :: s.coreErrs.filter (fun e => decide (now < e.2 + 1000000000)) }
    if 64 < (s.coreErrs.filter (fun e => e.1 == core)).length ∧ !s.unavail.contains core then s.emptyCore core else s
/-- CORRECTED_ERROR (R288, R292, R294): the count of a unit: core sites, slices, HBM channels, and links, in this order; on a link it is a retry. -/
def execCorrectedError (unit : Nat) (s : State) : Host.Outcome State Fault Refusal :=
  let s : State := { s with live := { s.live with corr := SMap.set 0 s.live.corr unit (upTo 64 (SMap.get 0 s.live.corr unit + 1)) } }
  .next (if unit < 512 then s.siteError unit else if 1408 ≤ unit then s.countRetry (unit - 1408) else s)

/-! ## Cores (R17, R292) -/

/-- The spare site of a die that a repaired index takes. DESIGN CHOICE (log 10): the lowest. -/
def State.spareSite (s : State) (d : Nat) : Option Nat :=
  (goodSites s.badSites d).find? (fun x => !(List.range 120).any (fun i => s.site (120 * d + i) == x))
/-- Nothing is cached on a core, its dirty data written back. -/
def State.blankCore (s : State) (core : Nat) : State :=
  let s := s.loseL1 core (fun _ => true)
  s.modCore core (fun k => { k with tlb := [], icache := [] })
/-- The logical index is bound to a spare site, or where none is left stays unavailable. -/
def State.rebind (s : State) (core : Nat) : State :=
  let s := s.blankCore core
  let s : State := { s with badSites := s.site core :: s.badSites }
  match s.spareSite (dieOf core) with
  | some x => { s with sites := updAt s.sites core (fun _ => x), unavail := s.unavail.filter (· != core) }
  | none => ({ s with unavail := if s.unavail.contains core then s.unavail else core :: s.unavail })
/-- CORE_RETIRE (R292): a core that is to be retired is emptied; once it is, its index moves to a spare site. -/
def execCoreRetire (core : Nat) (s : State) : Host.Outcome State Fault Refusal :=
  .next (
    if 480 ≤ core ∨ s.badSites.contains (s.site core) ∨ !s.unavail.contains core then s
    else if s.teams.any (fun t => t.pcore == core) || (s.core core).fly != [] || (s.core core).kept != [] then s.emptyCore core
    else if (s.stuckIn core (fun _ => true)).isSome then s.wantIn core (fun _ => true)
    else (s.rebind core).recordEvent evRetire)

/-! ## Other units (R293) -/

/-- SUBBANK_SPARE (R293): one of a slice's two spare sub-banks takes the place of one that fails; values are unchanged. -/
def execSubbankSpare (die slice : Nat) (s : State) : Host.Outcome State Fault Refusal :=
  .next (if 128 ≤ slice ∨ 4 ≤ die ∨ 2 ≤ SMap.get 0 (s.die die).spares slice then s
    else (s.modDie die (fun x => { x with spares := SMap.set 0 x.spares slice (SMap.get 0 x.spares slice + 1) })).recordEvent evSubbank)
/-- HBM_ROW_REPAIR (R293): a channel is held for 2 µs while a row moves to a spare row. -/
def execHbmRowRepair (ch : Nat) (s : State) : Host.Outcome State Fault Refusal :=
  .next (if 384 ≤ ch ∨ (s.die (channelDie ch)).rowHold.contains ch then s
    else s.modDie (channelDie ch) (fun x => { x with rowHold := ch :: x.rowHold }))
/-- HBM_ROW_REPAIR_COMPLETE (R293): the hold ends, and the fuses name the row's spare (R10). -/
def execHbmRowRepairComplete (ch : Nat) (s : State) : Host.Outcome State Fault Refusal :=
  .next (if (s.die (channelDie ch)).rowHold.contains ch then
      ({ s with rowFuses := SMap.set 0 s.rowFuses ch (SMap.get 0 s.rowFuses ch + 1) }.modDie (channelDie ch)
        (fun x => { x with rowHold := x.rowHold.filter (· != ch) })).recordEvent evRow
    else s)
/-- LINK_LANE_SPARE (R293): the spare of 16 lanes of a die-to-die link takes one's place, and the traffic is sent again. -/
def execLinkLaneSpare (link : Nat) (s : State) : Host.Outcome State Fault Refusal :=
  .next (if s.laneSpares.contains link then s else ({ s with laneSpares := link :: s.laneSpares }.countRetry (24 + link)).recordEvent evLane)

/-! ## A die (R136, R293) -/

/-- The lines of a partition's pad on a die, in the order of the interleaved address, by key. -/
def State.padLines (s : State) (d k : Nat) : List Nat :=
  (List.range (2 ^ (s.freeBits d k).length * s.padStep d k * 1024)).filterMap (fun i => match s.padAddr d k (128 * i) with
    | .ok ((l, _) :: _) => some l.at
    | _ => none)
/-- Start of a context's image of its pad on a die (R285). -/
def State.padImage (s : State) (x d : Nat) : Nat := s.bar64 (ctxOff x 0x48) + d * 0x06000000
/-- The enabled contexts with pad on a die. -/
def State.padCtxs (s : State) (d : Nat) : List Nat := (List.range 1024).filter (fun x => s.ctxEn x && decide (0 < s.padStep d (s.ctxPart x)))
/-- A context's pad on a die copied to its image area. -/
def State.imageOut (s : State) (d x : Nat) : Except Stop State :=
  (enum (s.padLines d (s.ctxPart x))).foldlM (fun (s : State) p =>
    s.devWrite x (s.padImage x d + 128 * p.1) ((List.range 128).map (fun i => SMap.get 0 s.pad (p.2 + i)))) s
/-- The image copied back. -/
def State.imageIn (s : State) (d x : Nat) : Except Stop State :=
  (enum (s.padLines d (s.ctxPart x))).foldlM (fun (s : State) p => do
    let bs ← s.devRead x (s.padImage x d + 128 * p.1) 128
    let s := s.devTouch x (s.padImage x d + 128 * p.1) 128
    pure { s with pad := setBytes s.pad p.2 bs }) s
/-- Copies for contexts in turn; one whose image may not be accessed is left out; a wait names its context. -/
def copyEach (f : State → Nat → Except Stop State) : List Nat → State → List Nat → Except (Nat × Stop) (State × List Nat)
  | [], s, done => .ok (s, done)
  | x :: r, s, done => match f s x with
    | .ok s' => copyEach f r s' (done ++ [x])
    | .error e => match s.answered x e with
      | .fail _ _ => copyEach f r s done
      | e => .error (x, e)
/-- The channels of a die in a power state (R262). -/
def setChannels (die v : Nat) (m : SMap Nat) : SMap Nat := (List.range 96).foldl (fun m c => SMap.set 0 m (96 * die + c) v) m
/-- The die's caches and pad are empty, its HBM in self-refresh, and accesses to its memory wait. DESIGN CHOICE (log 35): the presence bits and counts of the
pad's lines, of which R136 says nothing, stay: a copy outstanding into a line is still to land (R134). -/
def State.clearDie (s : State) (die : Nat) (out : List Nat) : State :=
  let s := (List.range 120).foldl (fun s i => s.blankCore (120 * die + i)) s
  let s : State := { s with pad := s.pad.filter (fun p => p.1 / 2 ^ 31 != die) }
  s.modDie die (fun x => { x with
    l2 := [], fwd := [], l2tlb := [], walks := [], cards := x.cards.map (fun c => { c with page := none }), reinit := true, padOut := out
    power := { x.power with hbm := setChannels die 2 x.power.hbm } })
/-- DIE_REINIT (R293): the die is emptied; then the pads of the enabled contexts go to their images (R136), and it is re-initialised. -/
def execDieReinit (die : Nat) (s : State) : Host.Outcome State Fault Refusal :=
  .next (
    let on (t : Team) : Bool := dieOf t.pcore == die
    if 4 ≤ die ∨ (s.die die).reinit ∨ (s.die die).padOut ≠ [] then s
    else
      let s := s.modDie die (fun x => { x with emptying := true })
      if s.teams.any on then (s.teams.filter on).foldl (fun s t => s.preempt t.tid) s
      else if (s.die die).cards.any (fun c => c.st == .running) then s
      else if (List.range 120).any (fun i => (s.stuckIn (120 * die + i) (fun _ => true)).isSome) then
        (List.range 120).foldl (fun s i => s.wantIn (120 * die + i) (fun _ => true)) s
      else match copyEach (fun s x => s.imageOut die x) (s.padCtxs die) s [] with
        | .ok (s', out) => (out.foldl State.devOver s').clearDie die out
        | .error (x, e) => s.devStop x e)
/-- The images of a die's pads copied back; then it takes placements again. -/
def State.refill (s : State) (die : Nat) : State :=
  match copyEach (fun s x => s.imageIn die x) ((s.die die).padOut.filter s.ctxEn) s [] with
  | .ok (s', _) => (((s.die die).padOut.foldl State.devOver s').modDie die (fun x => { x with padOut := [], emptying := false })).writeLife
  | .error (x, e) => s.devStop x e
/-- The logical cores of a die bound anew. -/
def State.bindAgain (s : State) (die : Nat) : State :=
  let b := bindDie s.badSites die
  { s with
    sites := (enum s.sites).map (fun p => if dieOf p.1 = die then (b.1[p.1 % 120]?).getD p.2 else p.2)
    unavail := s.unavail.filter (fun c => dieOf c != die) ++ b.2 }
/-- DIE_REINIT_COMPLETE (R293): accesses to the die's memory proceed, and the pads are filled from their images. -/
def execDieReinitComplete (die : Nat) (s : State) : Host.Outcome State Fault Refusal :=
  .next (
    if (s.die die).reinit then
      ((s.modDie die (fun x => { x with reinit := false, power := { x.power with hbm := setChannels die 0 x.power.hbm } })).bindAgain die).refill die
    else if (s.die die).padOut ≠ [] then s.refill die
    else s)

end Sys2Proof.Machine
end

