-- ==== Sys2Proof/Machine/Sync.lean ====
section
/-! DEFINITION. Fences, channels and dependent launch within a grid (R168, R180, R206, R349, R350, R358, R378, R406-R409). -/
namespace Sys2Proof.Machine

/-- One group's fence (R168, R349): a release alone goes through the store queue; one that acquires, or whose members wait for each
other, holds the group. The watermark returns to CORE. -/
def Group.fenced (rel acq x wide : Bool) (gs : List Nat) (m : Mask) (g : Group) : Group :=
  if !acq && !wide then { g with sq := g.sq ++ [⟨true, g.sn, .fence⟩], sn := g.sn + 1, wm := .core }
  else { g with fence := some ⟨rel, acq, x, g.wm, g.sn, gs, if wide then m else 0⟩, wm := .core }
/-- FENCE (R168, R349, R350); at a bridle round end it completes at once, FENCE.X with its write-back (R203), for whose memory it waits there (R262). -/
def fenceBody (rel acq x : Bool) : Body :=
  { pre := fun s st => match (s.team? st.tid).bind (fun t =>
        if t.la.bridle && x && st.mem.any (fun p => (t.groups[p.1]?).any (·.ended.isSome)) then s.stuckIn t.pcore (fun y => y.ctx == t.ctx) else none) with
      | some y => .wait (.hold (y.sec * 32) y.mir true)
      | none => .go
    run := fun s st =>
      match s.team? st.tid with
      | none => (s, {})
      | some t =>
      if t.la.bridle then
        ((if x then s.cleanL1 t.pcore (fun y => y.ctx == t.ctx) else s).eachGroup st.tid st.mem (fun _ _ g => { g with wm := .core }), {})
      else
        let wide := st.scope == .set || st.scope == .team
        let gs := st.mem.map Prod.fst
        let s := s.eachGroup st.tid st.mem (fun j m g => g.fenced rel acq x wide (if wide then gs else [j]) m)
        (if acq then s.trigger3s st.tid gs else s,
          { wait := if wide then st.members.map (fun q => (q.1, q.2, .parked .fence)) else [] }) }

/-- Is the declaration of a channel that of the instruction: an entry, with the same bytes (R66, R409). -/
def Team.chanOk (t : Team) (ch y : Nat) : Bool := t.la.hdr.chans.any (fun c => c.id == ch && c.bytes == 4 * 2 ^ y)
/-- The waits a SEND or RECV queues: one for each member group, ascending (R408). -/
def chanWaits (send : Bool) (ch v y : Nat) (x : Site) : List ChanWait := x.mem.map (fun p => ⟨send, ch, p.1, p.2, v, 2 ^ y, x.pc⟩)
/-- The lanes of a SEND or RECV park until it is served; it is irrevocable (R290). In bridle mode its lanes already wait for the
round end. -/
def chanRun (send : Bool) (ch v y : Nat) (s : State) (x : Site) : State × Res :=
  let s := s.modTeam x.tid (fun t => { t with chanq := t.chanq ++ chanWaits send ch v y x, irrev := true })
  if (s.team? x.tid).any (·.la.bridle) then
    ((s.eachGroup x.tid x.mem (fun _ m g => g.modLanes m (fun l => { l with st := .parked (.chan ch send) }))).serveChan x.tid, {})
  else (s, { wait := x.members.map (fun q => (q.1, q.2, .parked (.chan ch send))) })
/-- Has the issue writes that a release must wait for (R166). -/
def unreleased (s : State) (x : Site) : Bool :=
  match s.team? x.tid with
  | none => false
  | some t => !t.la.bridle && x.mem.any (fun p => match t.groups[p.1]? with
    | some g => g.sq != [] || s.unacked x.tid p.1
    | none => false)
/-- SEND: a release at DIE, then a message from each member group. -/
def sendBody (ch v y : Nat) : Body :=
  { prep := fun s x => x.mem.foldl (fun s p => s.drainAll x.tid p.1) s
    pre := fun s x => match s.team? x.tid with
      | none => .go
      | some t =>
        if !t.chanOk ch y then .trap { code := tCHAN }
        else if t.la.bridle && decide (ch < 16) then .trap { code := tBRIDLE, cause := 1 }
        else if (s.sendTo t ch).isNone then .trap { code := tCHAN }
        else if unreleased s x then .wait .queue
        else .go
    run := chanRun true ch v y }
/-- RECV: each member group takes a message. -/
def recvBody (ch v y : Nat) : Body :=
  { pre := fun s x => match s.team? x.tid with
      | none => .go
      | some t => if t.chanOk ch y then .go else .trap { code := tCHAN }
    run := chanRun false ch v y }

/-- GWAIT: the predecessor grid has ended; an acquire at SYS. In bridle mode memory as its merge left it becomes layer 1 (R206). -/
def gwaitBody : Body :=
  { pre := fun s x => match s.team? x.tid with
      | none => .go
      | some t => if s.predDone t then .go else .wait .gwait
    run := fun s x => match s.team? x.tid with
      | none => (s, {})
      | some t =>
        if t.la.bridle then (s.modTeam x.tid (fun t => { t with layer1 := [] }), {})
        else ((s.acquire t.pcore .sys).trigger3s x.tid (x.mem.map Prod.fst), {}) }
/-- LNXT: a release at SYS that counts the member groups (R245); in bridle mode it counts at the end of the round. -/
def lnxtBody : Body :=
  { run := fun s x =>
      ((s.enqueue x.tid (x.mem.map Prod.fst) true .lnxt).irrevocable x.tid, {}) }

/-- FENCE.ACQ (R168, R349). -/
def execFenceAcq (h : Head) (s : State) : Host.Outcome State Fault Refusal :=
  issue (.fenceAcq h) (fenceBody false true false) s

/-- FENCE.REL (R168, R349). -/
def execFenceRel (h : Head) (s : State) : Host.Outcome State Fault Refusal :=
  issue (.fenceRel h) (fenceBody true false false) s

/-- FENCE.FULL (R168, R349). -/
def execFenceFull (h : Head) (s : State) : Host.Outcome State Fault Refusal :=
  issue (.fenceFull h) (fenceBody true true false) s

/-- FENCE.X (R168, R349). -/
def execFenceX (h : Head) (s : State) : Host.Outcome State Fault Refusal :=
  issue (.fenceX h) (fenceBody true true true) s

/-- SEND (R406-R409). -/
def execSend (h : Head) (v : BitVec 7) (n : BitVec 5) (y : BitVec 3) (s : State) : Host.Outcome State Fault Refusal :=
  issue (.send h v n y) (sendBody n.toNat v.toNat y.toNat) s

/-- RECV (R406-R409). -/
def execRecv (h : Head) (v : BitVec 7) (n : BitVec 5) (y : BitVec 3) (s : State) : Host.Outcome State Fault Refusal :=
  issue (.recv h v n y) (recvBody n.toNat v.toNat y.toNat) s

/-- GWAIT (R358, R180, R206). -/
def execGwait (h : Head) (s : State) : Host.Outcome State Fault Refusal :=
  issue (.gwait h) (gwaitBody) s

/-- LNXT (R378, R180, R245). -/
def execLnxt (h : Head) (s : State) : Host.Outcome State Fault Refusal :=
  issue (.lnxt h) (lnxtBody) s

end Sys2Proof.Machine
end

