-- ==== Sys2Proof/Machine/Rounds.lean ====
section
/-! DEFINITION. The end of a bridle team's round (R201, R203, R206, R245). -/
namespace Sys2Proof.Machine

/-! ## The instructions that end quanta (R201) -/

/-- The operation, type and modes of an atomic's encoding (R315). -/
def atomOf (b c : BitVec 7) (k : BitVec 4) (x : Bool) (r : BitVec 3) (t : Ty) : Atom :=
  ⟨k.toNat, t, x, b.toNat, c.toNat, r.toNat % 2 == 1, r.toNat / 2 == 1⟩
/-- The effect of an instruction that ends a quantum, and whether it runs in step 2 of the round end, with the atomics (R203). -/
def endBody : Instr → Option (Bool × Body)
  | .atomg _ _ d a b c k x r t => some (true, atomBody .global (atomOf b c k x r t) (some d.toNat) (globalAddr a.toNat 0))
  | .atoms _ _ d a b c k x r t => some (true, atomBody .shared (atomOf b c k x r t) (some d.toNat) (localAddr a.toNat 0))
  | .atomp _ _ d a b c k x r t => some (true, atomBody .pad (atomOf b c k x r t) (some d.toNat) (localAddr a.toNat 0))
  | .redg _ _ a b c k x r t => some (true, atomBody .global (atomOf b c k x r t) none (globalAddr a.toNat 0))
  | .reds _ _ a b c k x r t => some (true, atomBody .shared (atomOf b c k x r t) none (localAddr a.toNat 0))
  | .redp _ _ a b c k x r t => some (true, atomBody .pad (atomOf b c k x r t) none (localAddr a.toNat 0))
  | .ldr _ _ d a w r o => some (true, ldrBody w.toNat d.toNat (r == 1) (globalAddr a.toNat o.toInt))
  | .stc _ _ d a w r p => some (true, stcBody w.toNat d.toNat (r == 1) p.toNat (globalAddr a.toNat 0))
  | .fenceAcq _ => some (false, fenceBody false true false)
  | .fenceRel _ => some (false, fenceBody true false false)
  | .fenceFull _ => some (false, fenceBody true true false)
  | .fenceX _ => some (false, fenceBody true true true)
  | .bar h n r g q => some (false, arriveBody h.sw n.toNat (if r then some g.toNat else none) q true)
  | .bara h n r g => some (false, arriveBody h.sw n.toNat (if r then some g.toNat else none) false false)
  | .barw h n => some (false, barwBody h.sw n.toNat)
  | .phw h n f => some (false, phwBody h.sw n.toNat f)
  | .phf h n => some (false, phfBody h.sw n.toNat)
  | .cpy _ d a i => some (false, cmdBody 1 d.toNat a.toNat i.toNat)
  | .cpyt _ d a i => some (false, cmdBody 2 d.toNat a.toNat i.toNat)
  | .cpyg _ d a i => some (false, cmdBody 3 d.toNat a.toNat i.toNat)
  | .cpyr _ d a i => some (false, cmdBody 4 d.toNat a.toNat i.toNat)
  | .hgf _ d a i => some (false, cmdBody 5 d.toNat a.toNat i.toNat)
  | .hgb _ d a i => some (false, cmdBody 6 d.toNat a.toNat i.toNat)
  | .ared _ d a i => some (false, cmdBody 7 d.toNat a.toNat i.toNat)
  | .rast _ d a i => some (false, cmdBody 8 d.toNat a.toNat i.toNat)
  | .ewt _ a => some (false, ewtBody a.toNat)
  | .send _ v n y => some (false, sendBody n.toNat v.toNat y.toNat)
  | .recv _ v n y => some (false, recvBody n.toNat v.toNat y.toNat)
  | _ => none

/-! ## One deferred effect (R203 steps 2 and 3) -/

/-- Is the effect of a group's deferred instruction still to come. -/
def Group.owes (g : Group) : Bool := g.ended.any (fun d => !d.done)
/-- The site of the instruction that group `gi` deferred, over every group that issued it. -/
def Team.endSite (t : Team) (d : Deferred) : Site :=
  let ms := (enum t.groups).filterMap (fun p => match p.2.ended with
    | some e => if !e.done && e.lead == d.lead && e.pc == d.pc then some (p.1, e) else none
    | none => none)
  ⟨d.i, t.tid, (ms.head?.map Prod.fst).getD d.lead, d.pc, 4 * d.i.words, ms.map (fun p => (p.1, p.2.lanes)), ms.map (fun p => (p.1, p.2.part))⟩
/-- The member groups of the site, changed. -/
def State.endMembers (s : State) (x : Site) (f : Mask → Group → Group) : State := s.eachGroup x.tid x.mem (fun _ m g => f m g)
/-- The lanes that wait for the round end. -/
def Group.roundLanes (st : LaneSt) (m : Mask) (g : Group) : Group := g.modLanes m (fun l => if l.st = .exited then l else { l with st := st })
/-- The lanes stand at the instruction again, as when it is raised at issue (R72, R211). -/
def Group.undone (k : Header) (i : Instr) (pc : Nat) (m : Mask) (g : Group) : Group :=
  { (g.untrack k i m).modLanes m (fun l => if l.st = .exited then l else { l with st := .ready, pc := pc }) with ended := none }
/-- The effect is complete. -/
def Group.paid (_ : Mask) (g : Group) : Group := { g with ended := g.ended.map (fun d => { d with done := true }) }
/-- A trap of a deferred instruction: nothing of it is performed. -/
def State.endTrap (s : State) (x : Site) (k : Header) (t : Trap) : State := (s.endMembers x (Group.undone k x.i x.pc)).trapWhole x t
/-- Results and completion of a deferred instruction; its destinations have been pending since its issue (R201). -/
def State.endDone (s : State) (x : Site) (t : Team) (r : Res) : State :=
  (s.eachGroup x.tid x.mem (fun gi _ g => g.results t.la.hdr true x.i gi r)).endMembers x Group.paid
/-- Runs a deferred instruction: the new state, and whether the round end goes on. It waits where a lane's access does (R272); its faults are
reported as at issue (R275); reductions that would exceed the version area perform nothing (R208). -/
def State.runEnd (s : State) (b : Body) (x : Site) (t : Team) : State × Bool :=
  let s := (s.endMembers x (Group.roundLanes (.parked .round)))
  match b.pre s x with
  | .trap tr => (s.endTrap x t.la.hdr tr, false)
  | .wait r => (s.endMembers x (Group.roundLanes (.parked r)), false)
  | .go =>
    let os := outcomes b s x
    let ps := os.filterMap (fun q => match q.2.2 with
      | .park r => some (q.1, q.2.1, r)
      | _ => none)
    let fs := os.filterMap (fun q => match q.2.2 with
      | .fault c a => some (q.1, q.2.1, c, a)
      | _ => none)
    if ps ≠ [] then (ps.foldl (fun s q => s.modGroup x.tid q.1 (Group.roundLanes (.parked q.2.2) (laneBit q.2.1))) s, false)
    else
      let bad := fs.map (fun f => (f.1, f.2.1))
      let y := { x with part := dropLanes x.part bad }
      let (s1, r) := b.run s y
      match s1.team? x.tid with
      | none => (s1, false)
      | some t1 =>
        if t1.held ≠ t.held && t1.verOver t1.held then (s.endTrap x t.la.hdr { code := tBRIDLE, cause := 3 }, false)
        else
          let s2 := s1.endDone y t r
          match firstFault (fs.map (fun f => (32 * f.1 + f.2.1, f.2.2.1, f.2.2.2))) with
          | none => (s2, t1.halt.isNone)
          | some (low, c, a) =>
            let es := fragEnts x.gi x.pc ((lanesIn' x.mem).map (fun l => match fs.find? (fun f => f.2.1 == l) with
              | some f => (l, f.2.2.1, f.2.2.2)
              | none => (l, 0, 0)))
            let s3 := bad.foldl (fun s q => s.modGroup x.tid q.1 (Group.undone t.la.hdr x.i x.pc (laneBit q.2))) s2
            (s3.raise x.tid [x.gi] x.pc low { code := c, addr := a } es [], false)
where
  lanesIn' (m : List (Nat × Mask)) : List Nat := match m with
    | p :: _ => lanesOf p.2
    | [] => []

/-- Runs the deferred instructions of one step in group order, from group `gi` on, at most `n`; it answers whether it came to the end. -/
def State.runEnds (two : Bool) (tid : Nat) : Nat → Nat → State → State × Bool
  | 0, _, s => (s, true)
  | n + 1, gi, s =>
    match s.team? tid with
    | none => (s, false)
    | some t =>
      match (t.groups[gi]?).bind (·.ended) with
      | none => State.runEnds two tid n (gi + 1) s
      | some d =>
        match endBody d.i with
        | none => State.runEnds two tid n (gi + 1) s
        | some (k, b) =>
          if d.done || k != two then State.runEnds two tid n (gi + 1) s
          else match s.runEnd b (t.endSite d) t with
            | (s', true) => State.runEnds two tid n (gi + 1) s'
            | (s', false) => (s', false)

/-! ## The round end -/

/-- Step 1 for one group: its saddlebag and uncommitted versions are committed (R203, R208). -/
def State.commitGroup (s : State) (tid gi : Nat) : State :=
  match s.group? tid gi with
  | none => s
  | some g =>
    if g.sad = [] ∧ g.unc = [] then s
    else
      let s' := s.commitHeld tid gi ((g.ended.map (·.pc)).getD 0) (g.unc ++ g.sad)
      if ((s'.team? tid).bind (·.halt)).isSome then s' else s'.modGroup tid gi (fun g => { g with sad := [], unc := [] })
/-- Step 1 in group order. -/
def State.commitGroups (s : State) (tid n : Nat) : State :=
  (List.range n).foldl (fun s gi => if ((s.team? tid).bind (·.halt)).isSome then s else s.commitGroup tid gi) s
/-- LNXT takes effect (R245): a team that counts leaves the versions it has committed to the merge (R206). -/
def State.countLnxt (s : State) (tid : Nat) : State :=
  let s := s.modTeam tid (fun t => { t with groups := t.groups.map (fun g =>
    if g.sq.any (fun e => e.act == .lnxt) then { g with lnxt := true, sq := [] } else g) })
  match s.team? tid with
  | none => s
  | some t =>
    let had : Bool := (s.grid? t.grid).all (fun g => g.snaps.any (fun p => p.1 == t.lin))
    if t.groups.all (fun g => g.lnxt || g.live == 0) && t.groups.any (·.lnxt) && !had then
      (s.modGrid t.grid (fun g => { g with snaps := g.snaps ++ [(t.lin, t.held)] })).modTeam tid (fun t => { t with merged := t.held, held := [] })
    else s
/-- Does a lane wait for something other than the round end. -/
def LaneSt.elsewhere : LaneSt → Bool
  | .parked .round => false
  | .parked _ => true
  | _ => false
/-- Is a team's round to end (R201): no group runs its quantum, one has ended its own, and no deferred effect waits. -/
def Team.roundOver (t : Team) : Bool :=
  t.la.bridle && !t.idle && t.groups.all (fun g => !g.running && !(g.owes && g.lanes.any (·.st.elsewhere))) &&
  t.groups.any (fun g => g.ended.isSome && !g.atBarrier)
/-- The next step of the round end. -/
def Team.atStep (k : Nat) (t : Team) : Team := { t with roundStep := k }
/-- ROUND_END (R203 steps 1 to 3, R210): the steps that remain; an effect that must wait or traps leaves the rest for later. -/
def execRoundEnd (tid : Nat) (s : State) : Host.Outcome State Fault Refusal :=
  .next (match s.team? tid with
    | none => s
    | some t =>
      if !t.roundOver || decide (3 ≤ t.roundStep) then s
      else
        let n := t.groups.length
        let stopped (s : State) : Bool := ((s.team? tid).bind (·.halt)).isSome
        let s1 := if t.roundStep = 0 then (let s := s.commitGroups tid n; if stopped s then s else (s.countLnxt tid).modTeam tid (Team.atStep 1)) else s
        if stopped s1 then s1
        else match (if t.roundStep < 2 then State.runEnds true tid n 0 s1 else (s1, true)) with
          | (s2, false) => s2
          | (s2, true) => match State.runEnds false tid n 0 (s2.modTeam tid (Team.atStep 2)) with
            | (s3, false) => s3
            | (s3, true) => (s3.testBars tid).modTeam tid (Team.atStep 3))

/-- Does a lane wait for a SEND, a RECV or an EWT of the round end (R203 step 4). -/
def LaneSt.ends : LaneSt → Bool
  | .parked (.chan _ _) => true
  | .parked (.ticket _) => true
  | _ => false
/-- A group after step 5: a new quantum, unless it waits at a barrier or PHW. -/
def Group.resume (g : Group) : Group :=
  if g.atBarrier then g
  else
    { g with
      ended := none
      quantum := 0
      turn := false
      lanes := g.lanes.map (fun l => if l.st = .parked .round then { l with st := .ready } else l) }
/-- The groups whose EWTs this round waited for: the instruction's address and the ticket, which the issuing group's gA names (R341). -/
def Team.ewts (t : Team) : List (Nat × Nat × Nat) :=
  (enum t.groups).filterMap (fun p => p.2.ended.bind (fun d => match d.i with
    | .ewt _ a => (t.groups[d.lead]?).map (fun g => (p.1, d.pc, (g.rg a.toNat).toNat))
    | _ => none))
/-- ROUND_RESUME (R203 steps 4 and 5). What the cards waited for have written joins the team's versions. -/
def execRoundResume (tid : Nat) (s : State) : Host.Outcome State Fault Refusal :=
  .next (match s.team? tid with
    | none => s
    | some t =>
      if t.roundStep = 3 ∧ !t.idle ∧ t.chanq = [] ∧ t.groups.all (fun g => g.ended.isNone || g.lanes.all (fun l => !l.st.ends)) then
        let s := t.ewts.foldl (fun s e => s.joinCards tid e.1 e.2.1 e.2.2) s
        if ((s.team? tid).bind (·.halt)).isSome then s
        else
          let s := t.ewts.foldl (fun s e => s.ewtAcquire t e.1 e.2.2) s
          s.modTeam tid (fun t => { t with groups := t.groups.map Group.resume, round := t.round + 1, roundStep := 0 })
      else s)

end Sys2Proof.Machine
end

