-- ==== Sys2Proof/Machine/Uniform.lean ====
section
/-! DEFINITION. The uniform arithmetic, moves and branches (R431-R434, R437-R440). -/
namespace Sys2Proof.Machine

/-- A target in the code segment from a signed word offset (R71, R433). -/
def uniTarget (la : Launch) (pc : Nat) (o : BitVec 32) : Nat := (((pc : Int) + 4 * o.toInt) % (la.hdr.codesz : Int)).toNat
/-- UMOVV: the lowest live lane of the first member group (R439). -/
def umovvBody (d v : Nat) : Body :=
  { run := fun s x => match x.members with
      | [] => (s, {})
      | q :: _ => match s.group? x.tid q.1 with
        | none => (s, {})
        | some g => (s, { gs := [(d, g.rv q.2 v)] }) }
/-- UBRA: every member lane goes the one way. -/
def ubraBody (a : Nat) (z : Bool) (o : BitVec 32) : Body :=
  { run := fun s x => match s.team? x.tid with
      | none => (s, {})
      | some t => match t.groups[x.gi]? with
        | none => (s, {})
        | some g => (s, if xor (g.rg a != 0) z then
            { jump := x.members.map (fun q => (q.1, q.2, uniTarget t.la x.pc o)) } else {}) }
/-- ULOOP. -/
def uloopBody (d : Nat) (o : BitVec 32) : Body :=
  { run := fun s x => match s.team? x.tid with
      | none => (s, {})
      | some t => match t.groups[x.gi]? with
        | none => (s, {})
        | some g =>
          let c := g.rg d - 1
          (s, { gs := [(d, c)]
                jump := if c != 0 then x.members.map (fun q => (q.1, q.2, uniTarget t.la x.pc o)) else [] }) }

/-- UADD (R432). -/
def execUadd (h : Head) (d : BitVec 6) (a : BitVec 6) (b : BitVec 6) (s : State) : Host.Outcome State Fault Refusal :=
  issue (.uadd h d a b) (uniBody (fun _ _ gr => [(d.toNat, gr.rg a.toNat + gr.rg b.toNat)])) s

/-- USUB (R432). -/
def execUsub (h : Head) (d : BitVec 6) (a : BitVec 6) (b : BitVec 6) (s : State) : Host.Outcome State Fault Refusal :=
  issue (.usub h d a b) (uniBody (fun _ _ gr => [(d.toNat, gr.rg a.toNat - gr.rg b.toNat)])) s

/-- UMUL (R432). -/
def execUmul (h : Head) (d : BitVec 6) (a : BitVec 6) (b : BitVec 6) (s : State) : Host.Outcome State Fault Refusal :=
  issue (.umul h d a b) (uniBody (fun _ _ gr => [(d.toNat, gr.rg a.toNat * gr.rg b.toNat)])) s

/-- UAND (R432). -/
def execUand (h : Head) (d : BitVec 6) (a : BitVec 6) (b : BitVec 6) (s : State) : Host.Outcome State Fault Refusal :=
  issue (.uand h d a b) (uniBody (fun _ _ gr => [(d.toNat, gr.rg a.toNat &&& gr.rg b.toNat)])) s

/-- UOR (R432). -/
def execUor (h : Head) (d : BitVec 6) (a : BitVec 6) (b : BitVec 6) (s : State) : Host.Outcome State Fault Refusal :=
  issue (.uor h d a b) (uniBody (fun _ _ gr => [(d.toNat, gr.rg a.toNat ||| gr.rg b.toNat)])) s

/-- UXOR (R432). -/
def execUxor (h : Head) (d : BitVec 6) (a : BitVec 6) (b : BitVec 6) (s : State) : Host.Outcome State Fault Refusal :=
  issue (.uxor h d a b) (uniBody (fun _ _ gr => [(d.toNat, gr.rg a.toNat ^^^ gr.rg b.toNat)])) s

/-- USHL (R432). -/
def execUshl (h : Head) (d : BitVec 6) (a : BitVec 6) (b : BitVec 6) (s : State) : Host.Outcome State Fault Refusal :=
  issue (.ushl h d a b) (uniBody (fun _ _ gr => [(d.toNat, shl (gr.rg a.toNat) (gr.rg b.toNat))])) s

/-- USHR (R432). -/
def execUshr (h : Head) (d : BitVec 6) (a : BitVec 6) (b : BitVec 6) (f : Bool) (s : State) : Host.Outcome State Fault Refusal :=
  issue (.ushr h d a b f) (uniBody (fun _ _ gr => [(d.toNat, if f then shra (gr.rg a.toNat) (gr.rg b.toNat) else shr (gr.rg a.toNat) (gr.rg b.toNat))])) s

/-- UCMP (R434). -/
def execUcmp (h : Head) (d : BitVec 6) (a : BitVec 6) (b : BitVec 6) (k : BitVec 3) (s : State) : Host.Outcome State Fault Refusal :=
  issue (.ucmp h d a b k) (uniBody (fun _ _ gr => [(d.toNat, if ucc k.toNat (gr.rg a.toNat) (gr.rg b.toNat) then 1 else 0)])) s

/-- UMOV (R438). -/
def execUmov (h : Head) (d : BitVec 6) (a : BitVec 6) (s : State) : Host.Outcome State Fault Refusal :=
  issue (.umov h d a) (uniBody (fun _ _ gr => [(d.toNat, gr.rg a.toNat)])) s

/-- UMOVI (R438). -/
def execUmovi (h : Head) (d : BitVec 6) (i : BitVec 32) (s : State) : Host.Outcome State Fault Refusal :=
  issue (.umovi h d i) (uniBody (fun _ _ _ => [(d.toNat, i)])) s

/-- USEL (R440). -/
def execUsel (h : Head) (d : BitVec 6) (a : BitVec 6) (b : BitVec 6) (s : State) : Host.Outcome State Fault Refusal :=
  issue (.usel h d a b) (uniBody (fun _ _ gr => [(d.toNat, if gr.rg d.toNat ≠ 0 then gr.rg a.toNat else gr.rg b.toNat)])) s

/-- UMOVV (R439). -/
def execUmovv (h : Head) (d : BitVec 6) (v : BitVec 7) (s : State) : Host.Outcome State Fault Refusal :=
  issue (.umovv h d v) (umovvBody d.toNat v.toNat) s

/-- UBRA (R433). -/
def execUbra (h : Head) (a : BitVec 6) (n : Bool) (i : BitVec 32) (s : State) : Host.Outcome State Fault Refusal :=
  issue (.ubra h a n i) (ubraBody a.toNat n i) s

/-- ULOOP (R437). -/
def execUloop (h : Head) (d : BitVec 6) (i : BitVec 32) (s : State) : Host.Outcome State Fault Refusal :=
  issue (.uloop h d i) (uloopBody d.toNat i) s

end Sys2Proof.Machine
end

