-- ==== Sys2Proof/Machine/Dispatch.lean ====
section
/-! DEFINITION. One arm per row of the opcode table: its meaning. -/
namespace Sys2Proof.Machine

/-- The meaning of a row of the opcode table. -/
def exec (i : Instr) (s : State) : Host.Outcome State Fault Refusal :=
  match i with
  | .andLr h u d a b => Sys2Proof.Machine.execAndLr h u d a b s
  | .andLi h u d a im => Sys2Proof.Machine.execAndLi h u d a im s
  | .andXi h u g d a b t => Sys2Proof.Machine.execAndXi h u g d a b t s
  | .andn h u g d a b => Sys2Proof.Machine.execAndn h u g d a b s
  | .ared h d a im => Sys2Proof.Machine.execAred h d a im s
  | .atomg h g d a b c k x r t => Sys2Proof.Machine.execAtomg h g d a b c k x r t s
  | .atomp h g d a b c k x r t => Sys2Proof.Machine.execAtomp h g d a b c k x r t s
  | .atoms h g d a b c k x r t => Sys2Proof.Machine.execAtoms h g d a b c k x r t s
  | .bar h n r g q => Sys2Proof.Machine.execBar h n r g q s
  | .bara h n r g => Sys2Proof.Machine.execBara h n r g s
  | .barw h n => Sys2Proof.Machine.execBarw h n s
  | .bfi h u g d a b c => Sys2Proof.Machine.execBfi h u g d a b c s
  | .bfx h u g d a b t => Sys2Proof.Machine.execBfx h u g d a b t s
  | .bpt h => Sys2Proof.Machine.execBpt h s
  | .bra h o => Sys2Proof.Machine.execBra h o s
  | .braGuarded h g o => Sys2Proof.Machine.execBraGuarded h g o s
  | .brev h u g d a => Sys2Proof.Machine.execBrev h u g d a s
  | .brx h a => Sys2Proof.Machine.execBrx h a s
  | .brxGuarded h g a => Sys2Proof.Machine.execBrxGuarded h g a s
  | .call h o => Sys2Proof.Machine.execCall h o s
  | .callGuarded h g o => Sys2Proof.Machine.execCallGuarded h g o s
  | .calx h a => Sys2Proof.Machine.execCalx h a s
  | .calxGuarded h g a => Sys2Proof.Machine.execCalxGuarded h g a s
  | .clk h d => Sys2Proof.Machine.execClk h d s
  | .clz h u g d a => Sys2Proof.Machine.execClz h u g d a s
  | .cpy h d a im => Sys2Proof.Machine.execCpy h d a im s
  | .cpyg h d a im => Sys2Proof.Machine.execCpyg h d a im s
  | .cpyr h d a im => Sys2Proof.Machine.execCpyr h d a im s
  | .cpyt h d a im => Sys2Proof.Machine.execCpyt h d a im s
  | .cvt h u g d a t m f x => Sys2Proof.Machine.execCvt h u g d a t m f x s
  | .cvtp h u g d a b t m x => Sys2Proof.Machine.execCvtp h u g d a b t m x s
  | .cvtx h u g d a b t m f x => Sys2Proof.Machine.execCvtx h u g d a b t m f x s
  | .dqmx h g d a c t m f => Sys2Proof.Machine.execDqmx h g d a c t m f s
  | .eqry h d a => Sys2Proof.Machine.execEqry h d a s
  | .ewt h a => Sys2Proof.Machine.execEwt h a s
  | .exit h => Sys2Proof.Machine.execExit h s
  | .faddLr h u d a b => Sys2Proof.Machine.execFaddLr h u d a b s
  | .faddXf h u g d a b m => Sys2Proof.Machine.execFaddXf h u g d a b m s
  | .fcmpLc h u p a b k => Sys2Proof.Machine.execFcmpLc h u p a b k s
  | .fcmpXf h u g p a b t k => Sys2Proof.Machine.execFcmpXf h u g p a b t k s
  | .fcos h u g d a => Sys2Proof.Machine.execFcos h u g d a s
  | .fex2 h u g d a => Sys2Proof.Machine.execFex2 h u g d a s
  | .flg2 h u g d a => Sys2Proof.Machine.execFlg2 h u g d a s
  | .frcp h u g d a => Sys2Proof.Machine.execFrcp h u g d a s
  | .frsq h u g d a => Sys2Proof.Machine.execFrsq h u g d a s
  | .fsin h u g d a => Sys2Proof.Machine.execFsin h u g d a s
  | .fsqrt h u g d a => Sys2Proof.Machine.execFsqrt h u g d a s
  | .fenceAcq h => Sys2Proof.Machine.execFenceAcq h s
  | .fenceRel h => Sys2Proof.Machine.execFenceRel h s
  | .fenceFull h => Sys2Proof.Machine.execFenceFull h s
  | .fenceX h => Sys2Proof.Machine.execFenceX h s
  | .ffma h u g d a b c m => Sys2Proof.Machine.execFfma h u g d a b c m s
  | .fmaxLr h u d a b => Sys2Proof.Machine.execFmaxLr h u d a b s
  | .fmaxXf h u g d a b => Sys2Proof.Machine.execFmaxXf h u g d a b s
  | .fminLr h u d a b => Sys2Proof.Machine.execFminLr h u d a b s
  | .fminXf h u g d a b => Sys2Proof.Machine.execFminXf h u g d a b s
  | .fmulLr h u d a b => Sys2Proof.Machine.execFmulLr h u d a b s
  | .fmulXf h u g d a b m => Sys2Proof.Machine.execFmulXf h u g d a b m s
  | .frnd h u g d a m => Sys2Proof.Machine.execFrnd h u g d a m s
  | .fshf h u g d a b c x => Sys2Proof.Machine.execFshf h u g d a b c x s
  | .gargx h g d a c x m => Sys2Proof.Machine.execGargx h g d a c x m s
  | .gred h g d a c x m t w => Sys2Proof.Machine.execGred h g d a c x m t w s
  | .gscan h g d a c x m t => Sys2Proof.Machine.execGscan h g d a c x m t s
  | .gwait h => Sys2Proof.Machine.execGwait h s
  | .hadd2 h u g d a b t m => Sys2Proof.Machine.execHadd2 h u g d a b t m s
  | .hfma2 h u g d a b c t m => Sys2Proof.Machine.execHfma2 h u g d a b c t m s
  | .hmul2 h u g d a b t m => Sys2Proof.Machine.execHmul2 h u g d a b t m s
  | .hgb h d a im => Sys2Proof.Machine.execHgb h d a im s
  | .hgf h d a im => Sys2Proof.Machine.execHgf h d a im s
  | .iabs h u g d a x => Sys2Proof.Machine.execIabs h u g d a x s
  | .iaddLr h u d a b => Sys2Proof.Machine.execIaddLr h u d a b s
  | .iaddLi h u d a im => Sys2Proof.Machine.execIaddLi h u d a im s
  | .iaddXi h u g d a b t x => Sys2Proof.Machine.execIaddXi h u g d a b t x s
  | .imaxLr h u d a b => Sys2Proof.Machine.execImaxLr h u d a b s
  | .imaxXi h u g d a b t => Sys2Proof.Machine.execImaxXi h u g d a b t s
  | .iminLr h u d a b => Sys2Proof.Machine.execIminLr h u d a b s
  | .iminXi h u g d a b t => Sys2Proof.Machine.execIminXi h u g d a b t s
  | .imulLr h u d a b => Sys2Proof.Machine.execImulLr h u d a b s
  | .imulXi h u g d a b t => Sys2Proof.Machine.execImulXi h u g d a b t s
  | .isubLr h u d a b => Sys2Proof.Machine.execIsubLr h u d a b s
  | .isubXi h u g d a b t x => Sys2Proof.Machine.execIsubXi h u g d a b t x s
  | .iaddx h u g d a b ci co => Sys2Proof.Machine.execIaddx h u g d a b ci co s
  | .icmpLc h u p a b k => Sys2Proof.Machine.execIcmpLc h u p a b k s
  | .icmpXi h u g p a b t k => Sys2Proof.Machine.execIcmpXi h u g p a b t k s
  | .idp4 h u g d a b c t => Sys2Proof.Machine.execIdp4 h u g d a b c t s
  | .imad h u g d a b c t => Sys2Proof.Machine.execImad h u g d a b c t s
  | .imadw h u g d a b c t => Sys2Proof.Machine.execImadw h u g d a b c t s
  | .imulh h u g d a b t => Sys2Proof.Machine.execImulh h u g d a b t s
  | .isel h u g d a b n p => Sys2Proof.Machine.execIsel h u g d a b n p s
  | .isync h => Sys2Proof.Machine.execIsync h s
  | .ldg h u g d a w r ch o => Sys2Proof.Machine.execLdg h u g d a w r ch o s
  | .ldkLm h u d a im => Sys2Proof.Machine.execLdkLm h u d a im s
  | .ldkXm h u g d a w ch o => Sys2Proof.Machine.execLdkXm h u g d a w ch o s
  | .ldpLm h u d a im => Sys2Proof.Machine.execLdpLm h u d a im s
  | .ldpXm h u g d a w r o => Sys2Proof.Machine.execLdpXm h u g d a w r o s
  | .ldsLm h u d a im => Sys2Proof.Machine.execLdsLm h u d a im s
  | .ldsXm h u g d a w o => Sys2Proof.Machine.execLdsXm h u g d a w o s
  | .ldr h g d a w r o => Sys2Proof.Machine.execLdr h g d a w r o s
  | .lea h u g d a b t x => Sys2Proof.Machine.execLea h u g d a b t x s
  | .lnxt h => Sys2Proof.Machine.execLnxt h s
  | .matchLanes h g d a c x t => Sys2Proof.Machine.execMatchLanes h g d a c x t s
  | .mld h g d a t x => Sys2Proof.Machine.execMld h g d a t x s
  | .mma h g d a b c t => Sys2Proof.Machine.execMma h g d a b c t s
  | .mmax h g d a b c t m n x => Sys2Proof.Machine.execMmax h g d a b c t m n x s
  | .mst h g d a t => Sys2Proof.Machine.execMst h g d a t s
  | .mzro h g d => Sys2Proof.Machine.execMzro h g d s
  | .movLr h u d a => Sys2Proof.Machine.execMovLr h u d a s
  | .movXi h u g d a t => Sys2Proof.Machine.execMovXi h u g d a t s
  | .movg h u d a => Sys2Proof.Machine.execMovg h u d a s
  | .movi h u d im => Sys2Proof.Machine.execMovi h u d im s
  | .movs h u d a => Sys2Proof.Machine.execMovs h u d a s
  | .nop h => Sys2Proof.Machine.execNop h s
  | .oadm h g d a b c => Sys2Proof.Machine.execOadm h g d a b c s
  | .osgd h g d a b c => Sys2Proof.Machine.execOsgd h g d a b c s
  | .orLr h u d a b => Sys2Proof.Machine.execOrLr h u d a b s
  | .orLi h u d a im => Sys2Proof.Machine.execOrLi h u d a im s
  | .orXi h u g d a b t => Sys2Proof.Machine.execOrXi h u g d a b t s
  | .pfg h g a ch o => Sys2Proof.Machine.execPfg h g a ch o s
  | .phf h n => Sys2Proof.Machine.execPhf h n s
  | .phw h n f => Sys2Proof.Machine.execPhw h n f s
  | .plop h u g d a b x w => Sys2Proof.Machine.execPlop h u g d a b x w s
  | .popc h u g d a => Sys2Proof.Machine.execPopc h u g d a s
  | .pswz h u g d a b c => Sys2Proof.Machine.execPswz h u g d a b c s
  | .qmx h g d a b c t m x => Sys2Proof.Machine.execQmx h g d a b c t m x s
  | .rast h d a im => Sys2Proof.Machine.execRast h d a im s
  | .recv h v n y => Sys2Proof.Machine.execRecv h v n y s
  | .send h v n y => Sys2Proof.Machine.execSend h v n y s
  | .redg h g a b c k x r t => Sys2Proof.Machine.execRedg h g a b c k x r t s
  | .redp h g a b c k x r t => Sys2Proof.Machine.execRedp h g a b c k x r t s
  | .reds h g a b c k x r t => Sys2Proof.Machine.execReds h g a b c k x r t s
  | .ret h => Sys2Proof.Machine.execRet h s
  | .rxbox h g d a b p => Sys2Proof.Machine.execRxbox h g d a b p s
  | .rxtri h g d a b p => Sys2Proof.Machine.execRxtri h g d a b p s
  | .sets h d a => Sys2Proof.Machine.execSets h d a s
  | .shfl h g d a b c x m w => Sys2Proof.Machine.execShfl h g d a b c x m w s
  | .shlLr h u d a b => Sys2Proof.Machine.execShlLr h u d a b s
  | .shlLi h u d a im => Sys2Proof.Machine.execShlLi h u d a im s
  | .shlXi h u g d a b t => Sys2Proof.Machine.execShlXi h u g d a b t s
  | .shrLr h u d a b => Sys2Proof.Machine.execShrLr h u d a b s
  | .shrLi h u d a im => Sys2Proof.Machine.execShrLi h u d a im s
  | .shrXi h u g d a b t => Sys2Proof.Machine.execShrXi h u g d a b t s
  | .shraLr h u d a b => Sys2Proof.Machine.execShraLr h u d a b s
  | .shraLi h u d a im => Sys2Proof.Machine.execShraLi h u d a im s
  | .shraXi h u g d a b t => Sys2Proof.Machine.execShraXi h u g d a b t s
  | .stc h g d a w r p => Sys2Proof.Machine.execStc h g d a w r p s
  | .stg h g d a w r ch o => Sys2Proof.Machine.execStg h g d a w r ch o s
  | .stkLm h d a im => Sys2Proof.Machine.execStkLm h d a im s
  | .stkXm h g d a w ch o => Sys2Proof.Machine.execStkXm h g d a w ch o s
  | .stpLm h d a im => Sys2Proof.Machine.execStpLm h d a im s
  | .stpXm h g d a w r o => Sys2Proof.Machine.execStpXm h g d a w r o s
  | .stsLm h d a im => Sys2Proof.Machine.execStsLm h d a im s
  | .stsXm h g d a w o => Sys2Proof.Machine.execStsXm h g d a w o s
  | .texg h g d a c x => Sys2Proof.Machine.execTexg h g d a c x s
  | .texl h g d a b c => Sys2Proof.Machine.execTexl h g d a b c s
  | .texs h g d a c => Sys2Proof.Machine.execTexs h g d a c s
  | .time h d => Sys2Proof.Machine.execTime h d s
  | .tlbiPage h a => Sys2Proof.Machine.execTlbiPage h a s
  | .tlbiCtx h a => Sys2Proof.Machine.execTlbiCtx h a s
  | .tlbiAll h => Sys2Proof.Machine.execTlbiAll h s
  | .trap h x => Sys2Proof.Machine.execTrap h x s
  | .tspn h d a b => Sys2Proof.Machine.execTspn h d a b s
  | .tsus h a b => Sys2Proof.Machine.execTsus h a b s
  | .uadd h d a b => Sys2Proof.Machine.execUadd h d a b s
  | .usub h d a b => Sys2Proof.Machine.execUsub h d a b s
  | .umul h d a b => Sys2Proof.Machine.execUmul h d a b s
  | .uand h d a b => Sys2Proof.Machine.execUand h d a b s
  | .uor h d a b => Sys2Proof.Machine.execUor h d a b s
  | .uxor h d a b => Sys2Proof.Machine.execUxor h d a b s
  | .ushl h d a b => Sys2Proof.Machine.execUshl h d a b s
  | .ushr h d a b f => Sys2Proof.Machine.execUshr h d a b f s
  | .ubra h a n im => Sys2Proof.Machine.execUbra h a n im s
  | .ucmp h d a b k => Sys2Proof.Machine.execUcmp h d a b k s
  | .uldShared h d a b => Sys2Proof.Machine.execUldShared h d a b s
  | .uldPad h d a b => Sys2Proof.Machine.execUldPad h d a b s
  | .uldGlobal h d a b => Sys2Proof.Machine.execUldGlobal h d a b s
  | .ustShared h d a b => Sys2Proof.Machine.execUstShared h d a b s
  | .ustPad h d a b => Sys2Proof.Machine.execUstPad h d a b s
  | .ustGlobal h d a b => Sys2Proof.Machine.execUstGlobal h d a b s
  | .uloop h d im => Sys2Proof.Machine.execUloop h d im s
  | .umov h d a => Sys2Proof.Machine.execUmov h d a s
  | .umovi h d im => Sys2Proof.Machine.execUmovi h d im s
  | .umovv h d v => Sys2Proof.Machine.execUmovv h d v s
  | .usel h d a b => Sys2Proof.Machine.execUsel h d a b s
  | .vote h g d a c x m n => Sys2Proof.Machine.execVote h g d a c x m n s
  | .wbak h d a => Sys2Proof.Machine.execWbak h d a s
  | .wpin h d a => Sys2Proof.Machine.execWpin h d a s
  | .wpub h d a => Sys2Proof.Machine.execWpub h d a s
  | .wunp h a b => Sys2Proof.Machine.execWunp h a b s
  | .xorLr h u d a b => Sys2Proof.Machine.execXorLr h u d a b s
  | .xorLi h u d a im => Sys2Proof.Machine.execXorLi h u d a im s
  | .xorXi h u g d a b t => Sys2Proof.Machine.execXorXi h u g d a b t s
  | .yld h => Sys2Proof.Machine.execYld h s
  | .powerUp => Sys2Proof.Machine.execPowerUp s
  | .bundleFormation core => Sys2Proof.Machine.execBundleFormation core s
  | .fairnessTimer tid gi => Sys2Proof.Machine.execFairnessTimer tid gi s
  | .cinchWindowClose tid gi => Sys2Proof.Machine.execCinchWindowClose tid gi s
  | .variableLatencyWriteback tid gi k lanes => Sys2Proof.Machine.execVariableLatencyWriteback tid gi k lanes s
  | .writeAcknowledge core k => Sys2Proof.Machine.execWriteAcknowledge core k s
  | .brambleCommit tid gi => Sys2Proof.Machine.execBrambleCommit tid gi s
  | .clusterPlacement gid => Sys2Proof.Machine.execClusterPlacement gid s
  | .bridleClusterPlacement gid => Sys2Proof.Machine.execBridleClusterPlacement gid s
  | .teamRetire tid => Sys2Proof.Machine.execTeamRetire tid s
  | .cardLineLanded die cid line => Sys2Proof.Machine.execCardLineLanded die cid line s
  | .pageWalkComplete die ctx page => Sys2Proof.Machine.execPageWalkComplete die ctx page s
  | .atsTranslation ctx page host a => Sys2Proof.Machine.execAtsTranslation ctx page host a s
  | .lineMigration die line => Sys2Proof.Machine.execLineMigration die line s
  | .partitionWrite die k off v wide => Sys2Proof.Machine.execPartitionWrite die k off v wide s
  | .granuleMapWrite die off v => Sys2Proof.Machine.execGranuleMapWrite die off v s
  | .granuleRemapComplete die => Sys2Proof.Machine.execGranuleRemapComplete die s
  | .mirrorSizeWrite die v => Sys2Proof.Machine.execMirrorSizeWrite die v s
  | .hostPostedWrite pa bs => Sys2Proof.Machine.execHostPostedWrite pa bs s
  | .hostRead pa n => Sys2Proof.Machine.execHostRead pa n s
  | .cxlSnoop pa => Sys2Proof.Machine.execCxlSnoop pa s
  | .atsInvalidation pasid page => Sys2Proof.Machine.execAtsInvalidation pasid page s
  | .roundEnd tid => Sys2Proof.Machine.execRoundEnd tid s
  | .roundResume tid => Sys2Proof.Machine.execRoundResume tid s
  | .gridSyncMerge gid => Sys2Proof.Machine.execGridSyncMerge gid s
  | .gridEndMerge gid => Sys2Proof.Machine.execGridEndMerge gid s
  | .cardStart die cid => Sys2Proof.Machine.execCardStart die cid s
  | .aredMeet ctx id peers => Sys2Proof.Machine.execAredMeet ctx id peers s
  | .cardComplete die cid => Sys2Proof.Machine.execCardComplete die cid s
  | .cardFail die cid => Sys2Proof.Machine.execCardFail die cid s
  | .channelMessageArrive tid k => Sys2Proof.Machine.execChannelMessageArrive tid k s
  | .doorbell ctx queue v => Sys2Proof.Machine.execDoorbell ctx queue v s
  | .skip ctx queue => Sys2Proof.Machine.execSkip ctx queue s
  | .haltClear ctx queue => Sys2Proof.Machine.execHaltClear ctx queue s
  | .queueEnable ctx queue v => Sys2Proof.Machine.execQueueEnable ctx queue v s
  | .packetStart ctx queue => Sys2Proof.Machine.execPacketStart ctx queue s
  | .realtimePreempt gid => Sys2Proof.Machine.execRealtimePreempt gid s
  | .taskPlacement die => Sys2Proof.Machine.execTaskPlacement die s
  | .binSwitch die => Sys2Proof.Machine.execBinSwitch die s
  | .graphNodeComplete die graph node => Sys2Proof.Machine.execGraphNodeComplete die graph node s
  | .waitNodeExpiry die graph node => Sys2Proof.Machine.execWaitNodeExpiry die graph node s
  | .frameBoundary die => Sys2Proof.Machine.execFrameBoundary die s
  | .budgetCharge die graph => Sys2Proof.Machine.execBudgetCharge die graph s
  | .issueAgeLimit tid gi u => Sys2Proof.Machine.execIssueAgeLimit tid gi u s
  | .poolMove gid => Sys2Proof.Machine.execPoolMove gid s
  | .poolMoveComplete die block => Sys2Proof.Machine.execPoolMoveComplete die block s
  | .nocGovernorSample die occ => Sys2Proof.Machine.execNocGovernorSample die occ s
  | .hbmPowerDown ch => Sys2Proof.Machine.execHbmPowerDown ch s
  | .hbmSelfRefresh ch => Sys2Proof.Machine.execHbmSelfRefresh ch s
  | .hbmExit ch => Sys2Proof.Machine.execHbmExit ch s
  | .controlInterval die energy peak => Sys2Proof.Machine.execControlInterval die energy peak s
  | .admissionAgeing die kind id => Sys2Proof.Machine.execAdmissionAgeing die kind id s
  | .sensorSample die temps => Sys2Proof.Machine.execSensorSample die temps s
  | .t4Cutoff => Sys2Proof.Machine.execT4Cutoff s
  | .throttleRelease die => Sys2Proof.Machine.execThrottleRelease die s
  | .dieReenable die => Sys2Proof.Machine.execDieReenable die s
  | .hotspotMigration tid core => Sys2Proof.Machine.execHotspotMigration tid core s
  | .powerBudgetWrite die off v => Sys2Proof.Machine.execPowerBudgetWrite die off v s
  | .occupancyThresholdWrite die v => Sys2Proof.Machine.execOccupancyThresholdWrite die v s
  | .preemption tid => Sys2Proof.Machine.execPreemption tid s
  | .timeSliceExpiry tid => Sys2Proof.Machine.execTimeSliceExpiry tid s
  | .teamSaveComplete tid => Sys2Proof.Machine.execTeamSaveComplete tid s
  | .pgreplyRetry ctx lo hi => Sys2Proof.Machine.execPgreplyRetry ctx lo hi s
  | .pgreplyDecline ctx lo hi => Sys2Proof.Machine.execPgreplyDecline ctx lo hi s
  | .resumeContinue ctx lo hi => Sys2Proof.Machine.execResumeContinue ctx lo hi s
  | .resumeSkip ctx lo hi => Sys2Proof.Machine.execResumeSkip ctx lo hi s
  | .resumeEnd ctx lo hi => Sys2Proof.Machine.execResumeEnd ctx lo hi s
  | .resumeKill ctx lo hi => Sys2Proof.Machine.execResumeKill ctx lo hi s
  | .replyHighWordLatch ctx pgreply v => Sys2Proof.Machine.execReplyHighWordLatch ctx pgreply v s
  | .tqrdWrite ctx v => Sys2Proof.Machine.execTqrdWrite ctx v s
  | .tqerrRetry ctx => Sys2Proof.Machine.execTqerrRetry ctx s
  | .contextEnable ctx v => Sys2Proof.Machine.execContextEnable ctx v s
  | .contextDisable ctx v => Sys2Proof.Machine.execContextDisable ctx v s
  | .uncorrectableError who retried => Sys2Proof.Machine.execUncorrectableError who retried s
  | .lostSector pa => Sys2Proof.Machine.execLostSector pa s
  | .correctedError unit => Sys2Proof.Machine.execCorrectedError unit s
  | .coreRetire core => Sys2Proof.Machine.execCoreRetire core s
  | .subbankSpare die slice => Sys2Proof.Machine.execSubbankSpare die slice s
  | .hbmRowRepair ch => Sys2Proof.Machine.execHbmRowRepair ch s
  | .linkLaneSpare link => Sys2Proof.Machine.execLinkLaneSpare link s
  | .dieReinit die => Sys2Proof.Machine.execDieReinit die s
  | .dieReinitComplete die => Sys2Proof.Machine.execDieReinitComplete die s
  | .lifetimeRecordWrite => Sys2Proof.Machine.execLifetimeRecordWrite s
  | .enmerFlitReceive port crc auth => Sys2Proof.Machine.execEnmerFlitReceive port crc auth s
  | .enmerRemoteRequest pkg req => Sys2Proof.Machine.execEnmerRemoteRequest pkg req s
  | .peerTimeout who => Sys2Proof.Machine.execPeerTimeout who s
  | .peerMapWrite off v => Sys2Proof.Machine.execPeerMapWrite off v s
  | .rdmaWrite qp op bs => Sys2Proof.Machine.execRdmaWrite qp op bs s
  | .ptpSync die ns => Sys2Proof.Machine.execPtpSync die ns s
  | .liveUpdate version digest signer => Sys2Proof.Machine.execLiveUpdate version digest signer s
  | .rollbackCounterAdvance v => Sys2Proof.Machine.execRollbackCounterAdvance v s
  | .getVersion => Sys2Proof.Machine.execGetVersion s
  | .getCapabilities => Sys2Proof.Machine.execGetCapabilities s
  | .negotiateAlgorithms => Sys2Proof.Machine.execNegotiateAlgorithms s
  | .getDigests => Sys2Proof.Machine.execGetDigests s
  | .getCertificate off len => Sys2Proof.Machine.execGetCertificate off len s
  | .challenge nonce => Sys2Proof.Machine.execChallenge nonce s
  | .getMeasurements nonce => Sys2Proof.Machine.execGetMeasurements nonce s
  | .keyExchange share => Sys2Proof.Machine.execKeyExchange share s
  | .finish port verified => Sys2Proof.Machine.execFinish port verified s
  | .endSession port => Sys2Proof.Machine.execEndSession port s
  | .pldmMonitor die => Sys2Proof.Machine.execPldmMonitor die s
  | .pldmFru => Sys2Proof.Machine.execPldmFru s
  | .pldmFirmwareUpdate version digest signer => Sys2Proof.Machine.execPldmFirmwareUpdate version digest signer s
  | .lifetimeRecordRead copy piece => Sys2Proof.Machine.execLifetimeRecordRead copy piece s
  | .registerWrite who off v wide => Sys2Proof.Machine.execRegisterWrite who off v wide s
  | .powerLoss => Sys2Proof.Machine.execPowerLoss s
  | .hbmRowRepairComplete ch => Sys2Proof.Machine.execHbmRowRepairComplete ch s
  | .teamRestoreComplete tid => Sys2Proof.Machine.execTeamRestoreComplete tid s

end Sys2Proof.Machine
end

