-- ==== Sys2Proof/Machine/Run.lean ====
section
/-! DEFINITION. One move of the machine: what it does and what comes about with it (log 4). -/
namespace Sys2Proof.Machine

/-- Is the row an event, which no word encodes. -/
def isEvent (i : Instr) : Bool := (encode i).isEmpty
/-- What comes about with a move's own effect belongs to the same step (R314): the teams settle, held notices are written, invalidations of
host translations complete, and what waits for admission ages (R264, R279, R297). -/
def settled : Host.Outcome State Fault Refusal → Host.Outcome State Fault Refusal
  | .next s => .next s.settle.retryHeld.atsDone.ageAll
  | .fault f => .fault f
  | .refused r => .refused r

/-- Is it known for which pipe the group's next instruction is: a loop buffer or the instruction cache holds it (R69). -/
def State.knowsPipe (s : State) (tid gi : Nat) : Bool :=
  ((s.team? tid).bind (fun t0 =>
    let t := if t0.la.bridle then t0.newTurn else t0
    (t.groups[gi]?).bind (s.nextPipe t))).isSome
/-- The state after a fetch alone: what `s'`, the state with the instruction about to issue, has fetched. -/
def State.fetchedOnly (s s' : State) (tid gi : Nat) : State :=
  ({ s' with cur := s.cur, teams := s.teams } : State).modGroup tid gi (fun g => { g with loopbuf := ((s'.group? tid gi).map (·.loopbuf)).getD g.loopbuf })
/-- The issue of a lane's bundle of a group that its pipe chooses: the fetch and the meaning of the instruction found (R24-R29, R257). An
instruction not yet fetched is fetched first, and issues with its fetch only where its group is the choice of the pipe that it turns out to need. -/
def issueMove (s : State) (tid gi lane : Nat) : Host.Outcome State Fault Refusal :=
  if !s.mayIssue tid gi then .next s
  else match attempt s tid gi lane with
  | .stop s' => settled (.next s')
  | .run s' i =>
    if s.knowsPipe tid gi || (s.fetchedOnly s' tid gi).mayIssue tid gi then settled (exec i s')
    else settled (.next (s.fetchedOnly s' tid gi))

/-- One move: an event of the table, an issue, or another; without power nothing moves but the power-up (R265, R306). -/
def runMove (m : Move) (s : State) : Host.Outcome State Fault Refusal :=
  if s.powered then
    match m with
    | .event i => if isEvent i then settled (exec i s) else .next s
    | .issue tid gi lane => issueMove s tid gi lane
    | .fillL1 tid gi va => settled (.next (s.prefetch tid gi 0 (va / 128 * 128) 0))
    | .readEarly d cid sp sec => settled (.next (s.readEarly d cid sp sec))
    | .elapse d ns clocks => settled (.next (s.elapse d ns clocks))
    | .powerDown => .next s.powerDown
    | _ => settled (.next (s.side m))
  else
    match m with
    | .event .powerUp => settled (exec .powerUp s)
    | _ => .next s

end Sys2Proof.Machine
end

