-- ==== Sys2Proof/Machine/Auto.lean ====
section
/-! DEFINITION. What moves next when the agenda says nothing: the first pending move of the machine's own that changes something, else an
issue (log 4). -/
namespace Sys2Proof.Machine

/-- What a move of the machine's own does. -/
abbrev Act := State → Host.Outcome State Fault Refusal
/-- The head of a store queue leaves. -/
def drainAct (tid gi : Nat) : Act := fun s => .next (s.side (.drain tid gi))
/-- Pairs of a team's identity and a group's index, for groups that satisfy `p`. -/
def State.groupsWhere (s : State) (p : Group → Bool) : List (Nat × Nat) :=
  s.teams.flatMap (fun t => ((enum t.groups).filter (fun q => p q.2)).map (fun q => (t.tid, q.1)))
/-- The dies by index. -/
def State.dieList (s : State) : List (Nat × Die) := enum s.dies
/-- Writes, acknowledgements, results, walks and messages. -/
def State.flowMoves (s : State) : List Act :=
  (s.groupsWhere (fun g => g.sq != [])).map (fun q => drainAct q.1 q.2) ++
  s.cores.flatMap (fun c => (List.range c.2.fly.length).map (fun k => execWriteAcknowledge c.1 k)) ++
  (s.groupsWhere (fun g => g.pend != [])).map (fun q => execVariableLatencyWriteback q.1 q.2 0 0xFFFFFFFF) ++
  s.dieList.flatMap (fun d => d.2.walks.map (fun w => execPageWalkComplete d.1 w.ctx (pageOf w.va))) ++
  s.teams.flatMap (fun t => (List.range t.msgs.length).map (fun k => execChannelMessageArrive t.tid k)) ++
  (s.groupsWhere (fun g => g.bram.isSome)).map (fun q => execBrambleCommit q.1 q.2)
/-- Rounds, saves, restores and retirements. -/
def State.teamMoves (s : State) : List Act :=
  s.teams.flatMap (fun t =>
    (if t.la.bridle then [execRoundEnd t.tid, execRoundResume t.tid] else []) ++
    (if t.halt.isSome then [execTeamSaveComplete t.tid] else []) ++
    (if t.back.isSome then [execTeamRestoreComplete t.tid] else [])) ++
  (s.allTeams.filter (fun t => t.groups.all (·.retired))).map (fun t => execTeamRetire t.tid)
/-- What one card may do. -/
def cardMove (d : Nat) (c : Card) : List Act :=
  if c.fail.isSome then [execCardFail d c.cid]
  else if c.st = .running then [execCardComplete d c.cid]
  else if kindOf c.words = 7 then (if cw c.words 1 % 2 = 0 then [execAredMeet c.ctx (cw c.words 3 % 2 ^ 16) []] else [])
  else [execCardStart d c.cid]
/-- Cards and grids' merges. -/
def State.workMoves (s : State) : List Act :=
  s.dieList.flatMap (fun d => d.2.cards.flatMap (cardMove d.1)) ++
  (s.grids.filter (·.la.bridle)).flatMap (fun g => [execGridSyncMerge g.gid, execGridEndMerge g.gid])
/-- Repairs and changes under way. -/
def State.unitMoves (s : State) : List Act :=
  s.dieList.flatMap (fun d =>
    (if d.2.remap = [] then [] else [execGranuleRemapComplete d.1]) ++
    (if d.2.reinit || d.2.padOut != [] then [execDieReinitComplete d.1] else if d.2.emptying then [execDieReinit d.1] else []) ++
    d.2.power.moves.map (fun m => execPoolMoveComplete d.1 m.block) ++
    d.2.rowHold.map (fun c => execHbmRowRepairComplete c)) ++
  s.unavail.map (fun c => execCoreRetire c)
/-- Channels that wake, where an access waits for one (R262). -/
def State.wakeMoves (s : State) : List Act := s.dieList.flatMap (fun d => d.2.power.hbm.map (fun c => execHbmExit c.1))
/-- Graphs, packets, placements and tasks. -/
def State.startMoves (s : State) : List Act :=
  s.dieList.flatMap (fun d => d.2.graphs.flatMap (fun g => if g.active = [] then [execGraphNodeComplete d.1 g.id 0xFFFF]
    else g.active.map (fun a => execGraphNodeComplete d.1 g.id a.node))) ++
  s.queues.map (fun q => execPacketStart q.1 q.2) ++
  s.wants.flatMap (fun w => if w.la.bridle then [execBridleClusterPlacement w.gid] else [execClusterPlacement w.gid]) ++
  (if s.tasks = [] then [] else (List.range 4).flatMap (fun d => [execTaskPlacement d, execBinSwitch d])) ++
  (s.wants.map (·.gid) ++ s.tasks.map (·.id)).map (fun g => execPoolMove g)
/-- What has fallen due on the clocks and needs no measurement: frame boundaries, charges, time slices, and the record's write. -/
def State.dueMoves (s : State) : List Act :=
  s.dieList.flatMap (fun d => execFrameBoundary d.1 :: d.2.graphs.map (fun g => execBudgetCharge d.1 g.id)) ++
  (s.teams.filter s.sliceDue).map (fun t => execTimeSliceExpiry t.tid) ++ [execLifetimeRecordWrite]
/-- Does a path of the group's hold two bundles. -/
def Group.unformed (g : Group) : Bool :=
  let l := (g.lanes.filter (fun l => decide (l.st = .ready))).map (fun l => (l.pc, l.bundle))
  l.any (fun p => l.any (fun q => p.1 == q.1 && p.2 != q.2))
/-- The formers run where a path holds two bundles (R25). -/
def State.formMoves (s : State) : List Act :=
  ((s.teams.filter (fun t => !t.la.bridle && t.groups.any Group.unformed)).map (·.pcore)).eraseDups.map (fun c => execBundleFormation c)
/-- The moves that do not issue, in the order they are tried. -/
def State.innerMoves (s : State) : List Act :=
  s.dueMoves ++ s.flowMoves ++ s.teamMoves ++ s.workMoves ++ s.unitMoves ++ s.wakeMoves ++ s.startMoves ++ s.formMoves
/-- What a move gives, if it changes anything. -/
def State.changed (s : State) (a : Act) : Option (Host.Outcome State Fault Refusal) :=
  match settled (a s) with
  | .next s' => if s' = s then none else some (.next s')
  | .fault f => some (.fault f)
  | .refused r => some (.refused r)
/-- The machine's own move: the first that changes anything, else an issue, else nothing. -/
def State.ownMove (s : State) : Host.Outcome State Fault Refusal :=
  if s.powered then
    match s.innerMoves.findSome? s.changed with
    | some o => o
    | none => match s.pick with
      | some m => runMove m s
      | none => .next s
  else .next s

end Sys2Proof.Machine
end

