-- ==== Sys2Proof/Machine/Step.lean ====
section
/-! DEFINITION. One step of the part, and the placing of an instruction where the next step fetches. -/
namespace Sys2Proof.Machine

/-- One step: the first move of the agenda; with none given, the machine's own next move; with none pending, nothing (log 4). -/
def step (s : State) : Host.Outcome State Fault Refusal :=
  match s.agenda with
  | m :: r => runMove m { s with agenda := r }
  | [] => s.ownMove

/-- The state with an instruction where the next step fetches (log 3): a team of one group is launched on core 0 for context 0, its code
segment mapped, and the instruction's bytes at its entry point. -/
def State.withFetchWord (s : State) (_nbits w : Nat) : State := s.launchOne (leBytes 8 w)

end Sys2Proof.Machine
end

