-- ==== Sys2Proof/Safety.lean ====
section
/-! DEFINITION. What counts as a safe state, and what an instruction meets and leaves, in the terms the statements use. -/
namespace Sys2Proof
open Machine

/-! ## Canonical forms -/

/-- Memory in its canonical form: addresses strictly rising, and no byte listed that is 0, which an unlisted byte reads as (log 2). -/
abbrev Machine.Memory.wf (m : List Host.Cell) : Bool := SMap.wf 0 m
/-- Memory and pads are in canonical form. -/
def Machine.State.memWf (s : State) : Bool := Memory.wf s.mem && Memory.wf s.pad
/-- The registers of a group are in canonical form. -/
def Machine.Group.regsWf (g : Group) : Bool := SMap.wf 0 g.v && SMap.wf 0 g.g && SMap.wf 0 g.p

/-! ## The issue of an instruction -/

/-- The issue at hand, where nothing stands between it and its effect: the state with the members arrived, the site with its participants,
and the team. The decode checks of R72 pass, the rendezvous is complete, no checked-mode trap is due, no fence of a member holds the
instruction, and no member speculates. -/
def Machine.State.performing (i : Instr) (s : State) : Option (State × Site × Team) :=
  match s.issuer with
  | none => none
  | some (c, t, g) =>
    if (screen i s t c.gi).isSome ∨ g.bram.isSome then none
    else match gather i s c t g with
      | .stop _ => none
      | .go s1 y =>
        let u := (s1.team? c.tid).getD t
        let x := { y with part := participants s1 i y }
        if hindrance i s1 x u ≠ .go ∨ speculates x u then none
        else some (s1, x, u)

/-- The lane whose registers give a participant its result: its own, or, under UNI, the lowest participant (R91). -/
def Machine.Site.source (x : Site) (q : Nat × Nat) : Nat × Nat := if uniOf x.i then x.lanes.headD q else q
/-- The results of an instruction that works lane by lane: `f` gives a lane's writes and flags from its group and its number. -/
def Machine.laneRes (t : Team) (x : Site) (f : Nat → Group → Nat → List Wr × Flags) : Res :=
  { lanes := x.lanes.map (fun q => match t.groups[(x.source q).1]? with
      | some g => ⟨q.1, q.2, (f (x.source q).1 g (x.source q).2).1, (f (x.source q).1 g (x.source q).2).2⟩
      | none => ⟨q.1, q.2, [], 0⟩) }
/-- The results of an instruction whose participants in each group meet there: `f` gives a lane's writes from its group, the
participants there, and its number. -/
def Machine.groupRes (t : Team) (x : Site) (f : Nat → Group → Mask → Nat → List Wr) : Res :=
  { lanes := x.part.flatMap (fun p => match t.groups[p.1]? with
      | some g => (lanesOf p.2).map (fun l => ⟨p.1, l, f p.1 g p.2 l, 0⟩)
      | none => []) }
/-- The values of all the participants of a set, each under its span-lane index (R42). -/
def Machine.spanVals {α : Type} (t : Team) (x : Site) (val : Group → Nat → α) : List (Nat × α) :=
  x.lanes.filterMap (fun q => (t.groups[q.1]?).map (fun g => (32 * (q.1 % max (setSize t.la.hdr.setcode) 1) + q.2, val g q.2)))
/-- The results of an instruction whose participants meet across the set: `f` gives a lane's writes from its group, its span-lane index
and its number. -/
def Machine.spanRes (t : Team) (x : Site) (f : Group → Nat → Nat → List Wr) : Res :=
  { lanes := x.lanes.filterMap (fun q => (t.groups[q.1]?).map (fun g =>
      ⟨q.1, q.2, f g (32 * (q.1 % max (setSize t.la.hdr.setcode) 1) + q.2) q.2, 0⟩)) }

/-! ## What it is for an instruction to complete -/

/-- An instruction completes at every issue that nothing stands before, with the writes `f` gives each participant and no flags. -/
def Machine.Computes (i : Instr) (f : Group → Nat → List Wr) : Prop :=
  ∀ (s s1 : State) (x : Site) (t : Team), s.performing i = some (s1, x, t) →
    exec i s = .next (s1.finish x (laneRes t x (fun _ g l => (f g l, 0))))
/-- One that raises flags completes where no participant raises a flag enabled in its group's %fpctl (R102). -/
def Machine.ComputesF (i : Instr) (f : Group → Nat → List Wr × Flags) : Prop :=
  ∀ (s s1 : State) (x : Site) (t : Team), s.performing i = some (s1, x, t) → fpxLanes s1 x.tid (laneRes t x (fun _ g l => f g l)) = [] →
    exec i s = .next (s1.finish x (laneRes t x (fun _ g l => f g l)))
/-- One that writes uniform registers completes with the values `f` gives from the issuing group (R431). -/
def Machine.ComputesU (i : Instr) (f : State → Team → Group → List (Nat × Word)) : Prop :=
  ∀ (s s1 : State) (x : Site) (t : Team) (g : Group), s.performing i = some (s1, x, t) → t.groups[x.gi]? = some g →
    exec i s = .next (s1.finish x { gs := f s1 t g })
/-- One whose participants meet within each group completes with the writes `f` gives. -/
def Machine.ComputesG (i : Instr) (f : Team → Nat → Group → Mask → Nat → List Wr) : Prop :=
  ∀ (s s1 : State) (x : Site) (t : Team), s.performing i = some (s1, x, t) →
    exec i s = .next (s1.finish x (groupRes t x (f t)))
/-- One whose participants meet across the set completes with the writes `f` gives. -/
def Machine.ComputesS (i : Instr) (f : Team → Site → Group → Nat → Nat → List Wr) : Prop :=
  ∀ (s s1 : State) (x : Site) (t : Team), s.performing i = some (s1, x, t) →
    exec i s = .next (s1.finish x (spanRes t x (f t x)))

/-- A branch completes where every participant's target lies in the code segment on a word boundary; each goes to its own target. -/
def Machine.Branches (i : Instr) (tgt : Site → Group → Nat → Int) : Prop :=
  ∀ (s s1 : State) (x : Site) (t : Team), s.performing i = some (s1, x, t) →
    (∀ q ∈ x.lanes, ∀ g, t.groups[q.1]? = some g → targetChk t.la (tgt x g q.2) = .ok) →
    exec i s = .next (s1.finish x { jump := x.lanes.map (fun q => (q.1, q.2, match t.groups[q.1]? with
      | some g => (tgt x g q.2).toNat
      | none => 0)) })
/-- A call completes where the targets are as for a branch and every participant has a call level left: each lane's return address is
stored, its depth rises by one, and it goes to its target (R30, R324). -/
def Machine.Calls (i : Instr) (tgt : Site → Group → Nat → Int) : Prop :=
  ∀ (s s1 : State) (x : Site) (t : Team), s.performing i = some (s1, x, t) →
    (∀ q ∈ x.lanes, ∀ g, t.groups[q.1]? = some g → targetChk t.la (tgt x g q.2) = .ok ∧ (g.lane q.2).depth < t.la.hdr.depth) →
    exec i s = .next ((x.lanes.foldl (fun s q => s.modGroup x.tid q.1 (Group.enter t.la.hdr (x.pc + x.len) q.2)) s1).finish x
      { jump := x.lanes.map (fun q => (q.1, q.2, match t.groups[q.1]? with
          | some g => (tgt x g q.2).toNat
          | none => 0)) })

/-- A branch or call for which some participant's own check, of its target or of its call level, fails takes the trap of such a check for the whole
issue: what the issue becomes is that trap's state (R71, R321). -/
def Machine.BranchTraps (i : Instr) (chk : Team → Site → Group → Nat → Chk) : Prop :=
  ∀ (s s1 : State) (x : Site) (t : Team), s.performing i = some (s1, x, t) →
    (∃ q ∈ x.lanes, ∃ g, t.groups[q.1]? = some g ∧ chk t x g q.2 ≠ .ok) →
    ∃ (low : Nat) (tr : Trap) (es : List Ent), exec i s = .next ((s1.skidded x.tid (x.mem.map Prod.fst)).raise x.tid (x.mem.map Prod.fst) x.pc low tr es []) ∧
      ∃ q ∈ x.lanes, ∃ g, t.groups[q.1]? = some g ∧ chk t x g q.2 = .fault tr.code tr.addr
/-- The check of a call: #DEPTH with no level left, and else its target's (R30, R324). -/
def Machine.callChk (tgt : Site → Group → Nat → Int) (t : Team) (x : Site) (g : Group) (l : Nat) : Chk :=
  if t.la.hdr.depth ≤ (g.lane l).depth then .fault tDEPTH 0 else targetChk t.la (tgt x g l)

/-- A load completes where every participant's access passes the checks of its space: each lane in turn reads its bytes at its address,
under UNI the lowest participant for all; one that acquires then does so, if any lane took part. -/
def Machine.Loads (i : Instr) (sp : Space) (w d : Nat) (acq : Bool) (ch : Nat) (a : Group → Nat → Nat) : Prop :=
  ∀ (s s1 : State) (x : Site) (t : Team), s.performing i = some (s1, x, t) →
    (∀ q ∈ (x.lead (uniOf i)).lanes, laneAcc sp (wBytes w) false true a s1 (x.lead (uniOf i)) q.1 q.2 = .ok) →
    ∃ r : State × List LRes, r = s1.lanesDo (x.lead (uniOf i)) (fun s g gi l =>
        ((s.readLane x.tid gi l sp (a g l) (wBytes w) ch).1, loadWrites d w (s.readLane x.tid gi l sp (a g l) (wBytes w) ch).2)) ∧
      exec i s = .next ((if acq && !r.2.isEmpty then r.1.acquireFor (x.lead (uniOf i)) else r.1).finish x
        (spread x (uniOf i) { lanes := r.2 }))
/-- A store completes where every participant's access passes the checks of its space: each lane in turn stores its bytes at its
address, under the instruction's cache hint. -/
def Machine.Stores (i : Instr) (sp : Space) (w d : Nat) (rel : Bool) (a : Group → Nat → Nat) (ch : Nat := 0) : Prop :=
  ∀ (s s1 : State) (x : Site) (t : Team), s.performing i = some (s1, x, t) →
    (∀ q ∈ x.lanes, laneAcc sp (wBytes w) true false a s1 x q.1 q.2 = .ok) →
    exec i s = .next ((s1.lanesEach x (fun s g gi l =>
      s.writeLane x.tid gi l rel sp (a g l) (wBytes w) (storeBytes g l d (wBytes w)) ch)).finish x {})
/-- The issue at hand of an instruction that acts at the coherence point, its groups' own stores drained before it (R157, R169): the
state, the site and the team. -/
def Machine.State.atPoint (i : Instr) (s : State) : Option (State × Site × Team) :=
  match s.performing i with
  | none => none
  | some (s1, x, t) => some (drainPrep s1 x, x, ((drainPrep s1 x).team? x.tid).getD t)
/-- An atomic completes outside the cases bridle mode keeps for the round end or traps, where every participant's access passes: the lanes in
turn, each seeing what the earlier did, then its ordering (R315); or, where its groups' earlier stores or, for a release, their writes are still
awaited, an atomic that does not acquire joins the store queue and its lanes go on (R166). -/
def Machine.Atomics (i : Instr) (sp : Space) (k : Atom) (ret : Option Nat) (a : Group → Nat → Nat) : Prop :=
  ∀ (s s1 : State) (x : Site) (t : Team), s.atPoint i = some (s1, x, t) → t.la.bridle = false →
    (∀ q ∈ x.lanes, laneAcc sp k.width true true a s1 x q.1 q.2 = .ok) →
    (pointWait k.rel s1 x = false → ∃ (r : State × List LRes) (s2 : State), r = s1.lanesDo x (fun s g gi l =>
        ((s.atomLane k x.tid gi l sp (a g l)).1, match ret with
          | some d => k.returns d (s.atomLane k x.tid gi l sp (a g l)).2
          | none => [])) ∧
      s2 = (if sp = .shared || r.2.isEmpty then r.1 else r.1.irrevocable x.tid) ∧
      exec i s = .next ((if k.acq && !r.2.isEmpty then s2.acquireFor x else s2).finish x { lanes := r.2 })) ∧
    (pointWait k.rel s1 x = true → k.acq = false → ∃ r : State × Res,
      r = s1.queueRmw x k.rel (fun s t g gi l => s.atomPart k t g gi l sp (a g l) ret) ∧
      exec i s = .next ((if sp = .shared || x.lanes.isEmpty then r.1 else r.1.irrevocable x.tid).finish x r.2))
/-- An engine command completes where its card and successor pass the checks, a ticket slot is free and the die takes another: it
becomes the last of the die's commands, with the ticket written to the destination (R217, R221, R328). -/
def Machine.Commands (i : Instr) (kind d a succ : Nat) : Prop :=
  ∀ (s s1 : State) (x : Site) (t : Team) (g : Group), s.performing i = some (s1, x, t) → t.groups[x.gi]? = some g →
    cmdPre kind a succ s1 x = .go → t.la.bridle = false →
    ∃ (slot : Nat) (s2 : State) (c : Card), t.freeSlot = some slot ∧
      exec i s = .next (s2.finish x { gs := [(d, BitVec.ofNat 32 (slot * 2 ^ 26 + t.nextSeq))] }) ∧
      (dieOf t.pcore < s1.dies.length → (s2.die (dieOf t.pcore)).cards = (s1.die (dieOf t.pcore)).cards ++ [c]) ∧
      c.tid = some t.tid ∧ c.slot = slot ∧ c.seq = t.nextSeq ∧ c.ctx = t.ctx ∧ c.core = t.pcore ∧ c.st = .waiting ∧
      kindOf c.words = kind ∧ s1.readCard t g (g.rg a).toNat = .ok c.words c.desc ∧
      s2.mem = s1.mem ∧ s2.pad = s1.pad
/-- One of the weight instructions completes in free mode where the descriptor's address is a multiple of 64 of an accessible page whose SHR is
PKG or SYS, the groups' stores are done, and the descriptor lets it: the words and registers `mv` gives are written, and the
instruction orders as the release or acquire it is (R233, R443). -/
def Machine.Weights (i : Instr) (ga : Nat) (rel : Bool) (mv : Group → WDesc → WMove) : Prop :=
  ∀ (s s1 s2 : State) (x : Site) (t : Team) (g : Group) (l : Loc) (n : Nat) (r : List (Loc × Nat)) (w0 ws : List (Nat × Nat)) (g0 gs : List (Nat × Word)),
    s.atPoint i = some (s1, x, t) → t.groups[x.gi]? = some g → t.la.bridle = false → g.rg64 ga % 64 = 0 →
    s1.resolve t g x.uniLane .global (g.rg64 ga) 4 true = .ok ((l, n) :: r) →
    (∀ e, s1.tlb t.pcore t.ctx (g.rg64 ga) = some e → Dom.pkg.rank ≤ e.shr.rank) →
    s1.lostIn [(l, 4), (l.plus 32, 4)] = false → pointWait rel s1 x = false → mv g (s1.wread t l) = .go w0 g0 →
    s2 = ((s1.fromMirror [(l, 4), (l.plus 32, 4)]).landLine t.pcore l).dirtied t x.gi g x.uniLane .global (g.rg64 ga) →
    mv g (wdesc (s2.pointBytes t l 64)) = .go ws gs →
    ∃ s3 : State, s3 = x.mem.foldl (fun s p => s.raiseWm x.tid p.1 l.dom)
        (ws.foldl (fun s w => s.pointWrite x.tid x.gi (l.plus w.1) (leBytes 4 w.2)) s2) ∧
      exec i s = .next (((if rel then s3 else (s3.acquire t.pcore l.dom).trigger3s x.tid (x.mem.map Prod.fst)).irrevocable x.tid).finish x { gs := gs })
/-- A TLBI completes once its groups' stores are done and no walk that `walk` names is in flight, where `sel` gives what it removes: no TLB then holds an
entry it names, every other entry stays, and its lanes wait for the stores and cards of the contexts concerned, and for what other bridle grids of theirs have
still to merge (R427); a speculating group of such a context that holds a translated write or read rolls back (log 33). -/
def Machine.Invalidates (i : Instr) (walk : State → Group → Nat → Nat → Bool) (sel : Group → Option TlbSel) : Prop :=
  ∀ (s s1 s2 s3 : State) (x : Site) (t : Team) (g : Group) (p : TlbSel), s.atPoint i = some (s1, x, t) → t.groups[x.gi]? = some g →
    sel g = some p → pointWait true s1 x = false → s1.walksFor (walk s1 g) = [] →
    s2 = s1.markBram (fun t _ b => p.ctx t.ctx && (b.sad != [] || b.rset != [])) →
    s3 = (s2.cores.map Prod.fst).foldl (fun s k => s.modCore k (fun c => { c with tlb := c.tlb.filter (fun e => !p.ent e) })) s2 →
    ∀ w : List (Nat × Nat × LaneSt), (w = if s1.pendingStores p.ctx = [] ∧ s1.pendingCards p.ctx = [] ∧ s1.pendingGrids t.grid p.ctx = [] then [] else
      x.members.map (fun q => (q.1, q.2, .parked (.tlbi (s1.pendingStores p.ctx) (s1.pendingCards p.ctx) [] (s1.pendingGrids t.grid p.ctx))))) →
    exec i s = .next (({ s3 with dies := s3.dies.map (fun d => { d with l2tlb := d.l2tlb.filter (fun e => !p.ent e) }) } : State).finish x { wait := w })
/-- A texture instruction completes where the descriptors of its groups are valid and each participant's texels are accessible. -/
def Machine.Samples (i : Instr) (d a : Nat) (lod : Option Nat) (c : Nat) (gather : Option Nat) : Prop :=
  ∀ (s s1 : State) (x : Site) (t : Team), s.performing i = some (s1, x, t) → texPre c s1 x = .go →
    (∀ q ∈ x.lanes, ∀ g tx, t.groups[q.1]? = some g → s1.texDesc x.tid q.1 c = some tx →
      ∀ qs, (tx.lane g q.2 a lod gather.isSome).2 = some qs → ∀ f ∈ qs, ∀ ad, some ad ∈ f.1 →
        s1.accChk t q.1 g q.2 .global ad tx.z false true = .ok) →
    ∃ r : State × List LRes, r = s1.lanesDo x (fun s g gi l => match s.texDesc x.tid gi c with
        | none => (s, [])
        | some tx => s.texLane tx (tx.lane g l a lod gather.isSome) gather x.tid gi l d) ∧
      exec i s = .next (r.1.finish x { lanes := r.2 })

/-- Instructions that read and write registers, predicates, flags and program counters only, or take their own trap. -/
def Machine.registerOnly : Instr → Bool
  | .andLr .. | .andLi .. | .andXi .. | .andn .. | .bfi .. | .bfx .. | .bpt .. | .bra .. | .braGuarded .. | .brev .. | .brx ..
  | .brxGuarded .. | .call .. | .callGuarded .. | .calx .. | .calxGuarded .. | .clk .. | .clz .. | .cvt .. | .cvtp .. | .cvtx ..
  | .dqmx .. | .faddLr .. | .faddXf .. | .fcmpLc .. | .fcmpXf .. | .fcos .. | .fex2 .. | .flg2 .. | .frcp .. | .frsq .. | .fsin ..
  | .fsqrt .. | .ffma .. | .fmaxLr .. | .fmaxXf .. | .fminLr .. | .fminXf .. | .fmulLr .. | .fmulXf .. | .frnd .. | .fshf .. | .gargx ..
  | .gred .. | .gscan .. | .hadd2 .. | .hfma2 .. | .hmul2 .. | .iabs .. | .iaddLr .. | .iaddLi .. | .iaddXi .. | .imaxLr .. | .imaxXi ..
  | .iminLr .. | .iminXi .. | .imulLr .. | .imulXi .. | .isubLr .. | .isubXi .. | .iaddx .. | .icmpLc .. | .icmpXi .. | .idp4 ..
  | .imad .. | .imadw .. | .imulh .. | .isel .. | .lea .. | .matchLanes .. | .mma .. | .mmax .. | .mzro .. | .movLr .. | .movXi ..
  | .movg .. | .movi .. | .movs .. | .nop .. | .oadm .. | .osgd .. | .orLr .. | .orLi .. | .orXi .. | .plop .. | .popc .. | .pswz ..
  | .qmx .. | .ret .. | .rxbox .. | .rxtri .. | .sets .. | .shfl .. | .shlLr .. | .shlLi .. | .shlXi .. | .shrLr .. | .shrLi ..
  | .shrXi .. | .shraLr .. | .shraLi .. | .shraXi .. | .time .. | .trap .. | .uadd .. | .usub .. | .umul .. | .uand .. | .uor ..
  | .uxor .. | .ushl .. | .ushr .. | .ubra .. | .ucmp .. | .uloop .. | .umov .. | .umovi .. | .umovv .. | .usel .. | .vote ..
  | .xorLr .. | .xorLi .. | .xorXi .. | .yld .. => true
  | _ => false
/-- An instruction that raises a flag enabled in its group's %fpctl takes #FPX: every flag is ORed in, and nothing else is written (R102, R276). -/
def Machine.TrapsF (i : Instr) (f : Group → Nat → List Wr × Flags) : Prop :=
  ∀ (s s1 : State) (x : Site) (t : Team) (q : Nat × Nat) (l : List (Nat × Nat)), s.performing i = some (s1, x, t) →
    fpxLanes s1 x.tid { lanes := (laneRes t x (fun _ g l => f g l)).lanes.take (if uniOf i then 1 else x.lanes.length) } = q :: l →
    exec i s = .next (s1.trapFpx x (laneRes t x (fun _ g l => f g l)) (q :: l))


/-! ## The selection of a path (R28) -/

/-- A group, its team and the state with the path at an address selected, anew or as before; the team of a trap taken uses an issue slot of its
skid (R273). -/
def Machine.Group.selecting (g : Group) (halted : Bool) (pc : Nat) (new : Bool) : Group :=
  { g with yield := false, path := some pc, issued := if new then 0 else g.issued, slots := if halted then g.slots + 1 else g.slots }
def Machine.Team.selecting (t : Team) (gi : Nat) (g : Group) (pc : Nat) (new : Bool) : Team :=
  t.modGroup gi (fun _ => g.selecting t.halt.isSome pc new)
def Machine.State.selected (s : State) (tid : Nat) (t : Team) (gi : Nat) (g : Group) (pc : Nat) (new : Bool) : State :=
  s.modTeam tid (fun _ => t.selecting gi g pc new)

end Sys2Proof
end

