-- ==== Sys2Proof/Certificates/Slice0/Obligations.lean ====
section
/-! DEFINITION. The statements about the model, from the rules of the spec. -/
section
open Sys2Proof Sys2Proof.Machine

/-- AND, ANDN, OR, XOR (R311, R312, R396, R445): at every issue that nothing stands before, each participant's destination is given the bitwise result
of its own operands, or of the immediate zero-extended. SHL, SHR, SHRA in their three forms (R417): the amount is V(B) unsigned, or the immediate;
for amounts of 32 and more SHL and SHR give 0 and SHRA the sign in every bit. -/
def Obligations.LogicAndShiftInstructionsComplete : Prop :=
  (∀ (h : Head) (u : Bool) (k : Guard) (d a b i : VReg) (t : Ty),
    Computes (.andLr h u d a b) (fun g l => [.v d.toNat (g.rv l a.toNat &&& g.rv l b.toNat)]) ∧
    Computes (.andLi h u d a i) (fun g l => [.v d.toNat (g.rv l a.toNat &&& i.zeroExtend 32)]) ∧
    Computes (.andXi h u k d a b t) (fun g l => [.v d.toNat (g.rv l a.toNat &&& g.rv l b.toNat)]) ∧
    Computes (.andn h u k d a b) (fun g l => [.v d.toNat (g.rv l a.toNat &&& ~~~(g.rv l b.toNat))]) ∧
    Computes (.orLr h u d a b) (fun g l => [.v d.toNat (g.rv l a.toNat ||| g.rv l b.toNat)]) ∧
    Computes (.orLi h u d a i) (fun g l => [.v d.toNat (g.rv l a.toNat ||| i.zeroExtend 32)]) ∧
    Computes (.orXi h u k d a b t) (fun g l => [.v d.toNat (g.rv l a.toNat ||| g.rv l b.toNat)]) ∧
    Computes (.xorLr h u d a b) (fun g l => [.v d.toNat (g.rv l a.toNat ^^^ g.rv l b.toNat)]) ∧
    Computes (.xorLi h u d a i) (fun g l => [.v d.toNat (g.rv l a.toNat ^^^ i.zeroExtend 32)]) ∧
    Computes (.xorXi h u k d a b t) (fun g l => [.v d.toNat (g.rv l a.toNat ^^^ g.rv l b.toNat)])) ∧
  (∀ (h : Head) (u : Bool) (k : Guard) (d a b i : VReg) (t : Ty),
    Computes (.shlLr h u d a b) (fun g l => [.v d.toNat (g.rv l a.toNat <<< (g.rv l b.toNat).toNat)]) ∧
    Computes (.shlLi h u d a i) (fun g l => [.v d.toNat (g.rv l a.toNat <<< i.toNat)]) ∧
    Computes (.shlXi h u k d a b t) (fun g l => [.v d.toNat (g.rv l a.toNat <<< (g.rv l b.toNat).toNat)]) ∧
    Computes (.shrLr h u d a b) (fun g l => [.v d.toNat (g.rv l a.toNat >>> (g.rv l b.toNat).toNat)]) ∧
    Computes (.shrLi h u d a i) (fun g l => [.v d.toNat (g.rv l a.toNat >>> i.toNat)]) ∧
    Computes (.shrXi h u k d a b t) (fun g l => [.v d.toNat (g.rv l a.toNat >>> (g.rv l b.toNat).toNat)]) ∧
    Computes (.shraLr h u d a b) (fun g l => [.v d.toNat ((g.rv l a.toNat).sshiftRight (g.rv l b.toNat).toNat)]) ∧
    Computes (.shraLi h u d a i) (fun g l => [.v d.toNat ((g.rv l a.toNat).sshiftRight i.toNat)]) ∧
    Computes (.shraXi h u k d a b t) (fun g l => [.v d.toNat ((g.rv l a.toNat).sshiftRight (g.rv l b.toNat).toNat)]))

/-- IADD, ISUB, IMUL, IMIN and IMAX (R363, R364): the one-word forms are I32; the long forms work as their type says. -/
def Obligations.ArithmeticInstructionsComplete : Prop :=
  ∀ (h : Head) (u : Bool) (k : Guard) (d a b i : VReg) (t : Ty) (x : Bool),
    Computes (.iaddLr h u d a b) (fun g l => [.v d.toNat (g.rv l a.toNat + g.rv l b.toNat)]) ∧
    Computes (.iaddLi h u d a i) (fun g l => [.v d.toNat (g.rv l a.toNat + i.signExtend 32)]) ∧
    Computes (.iaddXi h u k d a b t x) (fun g l => [.v d.toNat (iadd t x (g.rv l a.toNat) (g.rv l b.toNat))]) ∧
    Computes (.isubLr h u d a b) (fun g l => [.v d.toNat (g.rv l a.toNat - g.rv l b.toNat)]) ∧
    Computes (.isubXi h u k d a b t x) (fun g l => [.v d.toNat (isub t x (g.rv l a.toNat) (g.rv l b.toNat))]) ∧
    Computes (.imulLr h u d a b) (fun g l => [.v d.toNat (g.rv l a.toNat * g.rv l b.toNat)]) ∧
    Computes (.imulXi h u k d a b t) (fun g l => [.v d.toNat (g.rv l a.toNat * g.rv l b.toNat)]) ∧
    Computes (.iminLr h u d a b) (fun g l => [.v d.toNat (if (g.rv l b.toNat).slt (g.rv l a.toNat) then g.rv l b.toNat else g.rv l a.toNat)]) ∧
    Computes (.iminXi h u k d a b t) (fun g l => [.v d.toNat (imin t (g.rv l a.toNat) (g.rv l b.toNat))]) ∧
    Computes (.imaxLr h u d a b) (fun g l => [.v d.toNat (if (g.rv l a.toNat).slt (g.rv l b.toNat) then g.rv l b.toNat else g.rv l a.toNat)]) ∧
    Computes (.imaxXi h u k d a b t) (fun g l => [.v d.toNat (imax t (g.rv l a.toNat) (g.rv l b.toNat))])

/-- What IADD and ISUB compute under each type (R364): modulo 2³², with `.sat` clamped to the type's range, signed for I32 and I16 and unsigned for N32
and N16, and the halves of a register apart for I16 and N16. IMIN and IMAX under each type (R364): the smaller or larger value in the order of the
type, the halves apart for I16 and N16. IDP4 adds to V(C) the products of the four pairs of bytes, signed for I8 and unsigned for N8, modulo 2³²
(R367). The I8 product adds the exact sum of its products to the accumulator modulo 2³² (R113). -/
def Obligations.IntegerResultsByType : Prop :=
  (∀ (a b : Word),
    iadd .i32 false a b = a + b ∧ iadd .n32 false a b = a + b ∧ isub .i32 false a b = a - b ∧ isub .n32 false a b = a - b ∧
    (iadd .i32 true a b).toInt = max (-2147483648) (min 2147483647 (a.toInt + b.toInt)) ∧
    (isub .i32 true a b).toInt = max (-2147483648) (min 2147483647 (a.toInt - b.toInt)) ∧
    (iadd .n32 true a b).toNat = min (a.toNat + b.toNat) 4294967295 ∧
    (isub .n32 true a b).toNat = a.toNat - b.toNat ∧
    (∀ t, t = .i16 ∨ t = .n16 →
      (iadd t false a b).extractLsb' 0 16 = a.extractLsb' 0 16 + b.extractLsb' 0 16 ∧
      (iadd t false a b).extractLsb' 16 16 = a.extractLsb' 16 16 + b.extractLsb' 16 16 ∧
      (isub t false a b).extractLsb' 0 16 = a.extractLsb' 0 16 - b.extractLsb' 0 16 ∧
      (isub t false a b).extractLsb' 16 16 = a.extractLsb' 16 16 - b.extractLsb' 16 16) ∧
    (∀ k, k = 0 ∨ k = 16 →
      ((iadd .i16 true a b).extractLsb' k 16).toInt = max (-32768) (min 32767 ((a.extractLsb' k 16).toInt + (b.extractLsb' k 16).toInt)) ∧
      ((isub .i16 true a b).extractLsb' k 16).toInt = max (-32768) (min 32767 ((a.extractLsb' k 16).toInt - (b.extractLsb' k 16).toInt)) ∧
      ((iadd .n16 true a b).extractLsb' k 16).toNat = min ((a.extractLsb' k 16).toNat + (b.extractLsb' k 16).toNat) 65535 ∧
      ((isub .n16 true a b).extractLsb' k 16).toNat = (a.extractLsb' k 16).toNat - (b.extractLsb' k 16).toNat)) ∧
  (∀ (a b : Word),
    imin .i32 a b = (if b.toInt < a.toInt then b else a) ∧ imax .i32 a b = (if a.toInt < b.toInt then b else a) ∧
    imin .n32 a b = (if b.toNat < a.toNat then b else a) ∧ imax .n32 a b = (if a.toNat < b.toNat then b else a) ∧
    (∀ k, k = 0 ∨ k = 16 →
      ((imin .i16 a b).extractLsb' k 16).toInt = min (a.extractLsb' k 16).toInt (b.extractLsb' k 16).toInt ∧
      ((imax .i16 a b).extractLsb' k 16).toInt = max (a.extractLsb' k 16).toInt (b.extractLsb' k 16).toInt ∧
      ((imin .n16 a b).extractLsb' k 16).toNat = min (a.extractLsb' k 16).toNat (b.extractLsb' k 16).toNat ∧
      ((imax .n16 a b).extractLsb' k 16).toNat = max (a.extractLsb' k 16).toNat (b.extractLsb' k 16).toNat)) ∧
  (∀ (a b c : Word),
    idp4 .n8 a b c = c + (a.extractLsb' 0 8).zeroExtend 32 * (b.extractLsb' 0 8).zeroExtend 32 +
      (a.extractLsb' 8 8).zeroExtend 32 * (b.extractLsb' 8 8).zeroExtend 32 +
      (a.extractLsb' 16 8).zeroExtend 32 * (b.extractLsb' 16 8).zeroExtend 32 +
      (a.extractLsb' 24 8).zeroExtend 32 * (b.extractLsb' 24 8).zeroExtend 32 ∧
    idp4 .i8 a b c = c + (a.extractLsb' 0 8).signExtend 32 * (b.extractLsb' 0 8).signExtend 32 +
      (a.extractLsb' 8 8).signExtend 32 * (b.extractLsb' 8 8).signExtend 32 +
      (a.extractLsb' 16 8).signExtend 32 * (b.extractLsb' 16 8).signExtend 32 +
      (a.extractLsb' 24 8).signExtend 32 * (b.extractLsb' 24 8).signExtend 32) ∧
  (∀ (c : Word) (l : List (BitVec 8 × BitVec 8)),
    BitVec.ofNat 32 (mmaOutI c.toNat (l.map (fun p => (p.1.toInt, p.2.toInt)))) =
      l.foldl (fun w p => w + p.1.signExtend 32 * p.2.signExtend 32) c)

/-- The other multiplies and sums (R362, R365, R367, R368, R377): high words and carries are those of the exact values; an index 7 as IADDX's carry-in
supplies 0. -/
def Obligations.WideArithmeticInstructionsComplete : Prop :=
  ∀ (h : Head) (u : Bool) (k : Guard) (d a b c : VReg) (ci co : BitVec 3) (x : Bool) (n : BitVec 4),
    Computes (.imulh h u k d a b .i32) (fun g l => [.v d.toNat (BitVec.ofInt 32 ((g.rv l a.toNat).toInt * (g.rv l b.toNat).toInt / 2 ^ 32))]) ∧
    Computes (.imulh h u k d a b .n32) (fun g l => [.v d.toNat (BitVec.ofNat 32 ((g.rv l a.toNat).toNat * (g.rv l b.toNat).toNat / 2 ^ 32))]) ∧
    (∀ t, Computes (.imad h u k d a b c t) (fun g l => [.v d.toNat (g.rv l a.toNat * g.rv l b.toNat + g.rv l c.toNat)])) ∧
    Computes (.imadw h u k d a b c .n32) (fun g l => wr64 d.toNat
      (((g.rv l a.toNat).toNat * (g.rv l b.toNat).toNat + g.rv64 l c.toNat) % 2 ^ 64)) ∧
    Computes (.imadw h u k d a b c .i32) (fun g l => wr64 d.toNat
      (((g.rv l a.toNat).toInt * (g.rv l b.toNat).toInt + (g.rv64 l c.toNat : Int)) % 2 ^ 64).toNat) ∧
    (∀ t, Computes (.idp4 h u k d a b c t) (fun g l => [.v d.toNat (idp4 t (g.rv l a.toNat) (g.rv l b.toNat) (g.rv l c.toNat))])) ∧
    Computes (.iaddx h u k d a b ci co) (fun g l =>
      [.v d.toNat (g.rv l a.toNat + g.rv l b.toNat + (if ci ≠ 7 ∧ g.rp l ci.toNat then 1 else 0)),
       .p co.toNat (decide (2 ^ 32 ≤ (g.rv l a.toNat).toNat + (g.rv l b.toNat).toNat + (if ci ≠ 7 ∧ g.rp l ci.toNat then 1 else 0)))]) ∧
    Computes (.iabs h u k d a x) (fun g l => [.v d.toNat (if g.rv l a.toNat = 0x80000000 then (if x then 0x7FFFFFFF else 0x80000000)
      else if (g.rv l a.toNat).slt 0 then -(g.rv l a.toNat) else g.rv l a.toNat)]) ∧
    Computes (.lea h u k d a b .n32 n) (fun g l => wr64 d.toNat ((g.rv64 l a.toNat + (g.rv l b.toNat).toNat * 2 ^ n.toNat) % 2 ^ 64)) ∧
    Computes (.lea h u k d a b .i32 n) (fun g l => wr64 d.toNat (((g.rv64 l a.toNat : Int) + (g.rv l b.toNat).toInt * 2 ^ n.toNat) % 2 ^ 64).toNat) ∧
    (∀ t, Computes (.imulh h u k d a b t) (fun g l => [.v d.toNat (imulh t (g.rv l a.toNat) (g.rv l b.toNat))])) ∧
    (∀ t, Computes (.imadw h u k d a b c t) (fun g l => wr64 d.toNat (imadw t (g.rv l a.toNat) (g.rv l b.toNat) (g.rv64 l c.toNat)))) ∧
    (∀ t, Computes (.lea h u k d a b t n) (fun g l => wr64 d.toNat (lea t (g.rv64 l a.toNat) (g.rv l b.toNat) n.toNat)))

/-- The comparisons, moves, selects and predicate tables (R366, R369, R389, R390, R391, R400): ICMP's result by condition, and a table's entry at twice
the first predicate plus the second. -/
def Obligations.CompareSelectMoveInstructionsComplete : Prop :=
  ∀ (h : Head) (u : Bool) (k : Guard) (d a b : VReg) (ga : GReg) (w : BitVec 32) (p q r : BitVec 3) (cc n : BitVec 4) (t : Ty) (x : Bool),
    Computes (.icmpLc h u p a b cc) (fun g l => [.p p.toNat (icc 32 cc.toNat (g.rv l a.toNat).toNat (g.rv l b.toNat).toNat)]) ∧
    Computes (.icmpXi h u k p a b t cc) (fun g l => [.p p.toNat (if t = .i64 then icc 64 cc.toNat (g.rv64 l a.toNat) (g.rv64 l b.toNat)
      else icc 32 cc.toNat (g.rv l a.toNat).toNat (g.rv l b.toNat).toNat)]) ∧
    Computes (.isel h u k d a b x p) (fun g l => [.v d.toNat (if g.rp l p.toNat != x then g.rv l a.toNat else g.rv l b.toNat)]) ∧
    Computes (.movLr h u d a) (fun g l => [.v d.toNat (g.rv l a.toNat)]) ∧
    Computes (.movXi h u k d a t) (fun g l => [.v d.toNat (g.rv l a.toNat)]) ∧
    Computes (.movg h u d ga) (fun g _ => [.v d.toNat (g.rg ga.toNat)]) ∧
    Computes (.movi h u d w) (fun _ _ => [.v d.toNat w]) ∧
    Computes (.plop h u k p q r n x) (fun g l =>
      [.p p.toNat (if x then g.rp l p.toNat && n.getLsbD ((if g.rp l q.toNat then 2 else 0) + (if g.rp l r.toNat then 1 else 0))
        else n.getLsbD ((if g.rp l q.toNat then 2 else 0) + (if g.rp l r.toNat then 1 else 0)))])

/-- The ten conditions of ICMP on 32-bit values (R366): EQ, NE, then LT to GE signed and LTN to GEN unsigned. What the bit functions compute, bit by bit
(R318, R322, R327, R353, R401): a field of N bits at P after clamping, its sign spread for I32; a field put under a mask; the bits in reverse; the
position of the highest 1; the number of 1 bits; a funnel shift of B:A by at most 32. -/
def Obligations.ConditionsAndBitFunctionsByValue : Prop :=
  (∀ (a b : Word),
    icc 32 0 a.toNat b.toNat = (a == b) ∧ icc 32 1 a.toNat b.toNat = (a != b) ∧
    icc 32 2 a.toNat b.toNat = a.slt b ∧ icc 32 3 a.toNat b.toNat = a.sle b ∧
    icc 32 4 a.toNat b.toNat = b.slt a ∧ icc 32 5 a.toNat b.toNat = b.sle a ∧
    icc 32 6 a.toNat b.toNat = a.ult b ∧ icc 32 7 a.toNat b.toNat = a.ule b ∧
    icc 32 8 a.toNat b.toNat = b.ult a ∧ icc 32 9 a.toNat b.toNat = b.ule a) ∧
  (∀ (a b c : Word) (j p n : Nat), j < 32 → p = min (b.toNat % 256) 32 → n = min (b.toNat / 256 % 256) (32 - p) →
    (bfx .n32 a b).getLsbD j = (decide (j < n) && a.getLsbD (p + j)) ∧
    (bfx .i32 a b).getLsbD j = (if j < n then a.getLsbD (p + j) else decide (0 < n) && a.getLsbD (p + n - 1)) ∧
    (bfi a b c).getLsbD j = (if p ≤ j ∧ j < p + n then a.getLsbD (j - p) else c.getLsbD j) ∧
    (brev a).getLsbD j = a.getLsbD (31 - j) ∧
    ((clz a).toNat = j ↔ a.getLsbD (31 - j) = true ∧ ∀ m, 31 - j < m → m < 32 → a.getLsbD m = false) ∧
    ((clz a).toNat = 32 ↔ a = 0) ∧
    (popc a).toNat = ((List.range 32).filter a.getLsbD).length ∧
    (fshf false a b c).getLsbD j = (if c.toNat < 32 then (if c.toNat ≤ j then b.getLsbD (j - c.toNat) else a.getLsbD (32 + j - c.toNat)) else a.getLsbD j) ∧
    (fshf true a b c).getLsbD j = (if c.toNat < 32 then (if j + c.toNat < 32 then a.getLsbD (j + c.toNat) else b.getLsbD (j + c.toNat - 32)) else b.getLsbD j))

/-- The bit-field and bit-count instructions complete with their functions of the operands (R318, R322, R327, R353, R401, R402). -/
def Obligations.BitInstructionsComplete : Prop :=
  ∀ (h : Head) (u : Bool) (k : Guard) (d a b c : VReg) (t : Ty) (x : Bool),
    Computes (.bfx h u k d a b t) (fun g l => [.v d.toNat (bfx t (g.rv l a.toNat) (g.rv l b.toNat))]) ∧
    Computes (.bfi h u k d a b c) (fun g l => [.v d.toNat (bfi (g.rv l a.toNat) (g.rv l b.toNat) (g.rv l c.toNat))]) ∧
    Computes (.brev h u k d a) (fun g l => [.v d.toNat (brev (g.rv l a.toNat))]) ∧
    Computes (.clz h u k d a) (fun g l => [.v d.toNat (clz (g.rv l a.toNat))]) ∧
    Computes (.popc h u k d a) (fun g l => [.v d.toNat (popc (g.rv l a.toNat))]) ∧
    Computes (.fshf h u k d a b c x) (fun g l => [.v d.toNat (fshf x (g.rv l a.toNat) (g.rv l b.toNat) (g.rv l c.toNat))]) ∧
    Computes (.pswz h u k d a b c) (fun g l => [.v d.toNat (pswz (g.rv l a.toNat) (g.rv l b.toNat) (g.rv l c.toNat))])

/-- FADD, FMUL, FFMA, FMIN, FMAX, FRND and the packed 16-bit forms (R345, R351, R352, R359): where no enabled flag is raised, each participant's
destination is given the result rounded once, and its flags the flags of the operation; the one-word forms round to nearest even. -/
def Obligations.FloatInstructionsComplete : Prop :=
  ∀ (h : Head) (u : Bool) (k : Guard) (d a b c : VReg) (m : BitVec 3) (t : Ty),
    ComputesF (.faddLr h u d a b) (fun g l => ([.v d.toNat (BitVec.ofNat 32 (fmtF32.fadd .rne (g.rv l a.toNat).toNat (g.rv l b.toNat).toNat).1)],
      (fmtF32.fadd .rne (g.rv l a.toNat).toNat (g.rv l b.toNat).toNat).2)) ∧
    ComputesF (.faddXf h u k d a b m) (fun g l => ([.v d.toNat (BitVec.ofNat 32 (fmtF32.fadd (.ofM m 0) (g.rv l a.toNat).toNat (g.rv l b.toNat).toNat).1)],
      (fmtF32.fadd (.ofM m 0) (g.rv l a.toNat).toNat (g.rv l b.toNat).toNat).2)) ∧
    ComputesF (.fmulLr h u d a b) (fun g l => ([.v d.toNat (BitVec.ofNat 32 (fmtF32.fmul .rne (g.rv l a.toNat).toNat (g.rv l b.toNat).toNat).1)],
      (fmtF32.fmul .rne (g.rv l a.toNat).toNat (g.rv l b.toNat).toNat).2)) ∧
    ComputesF (.fmulXf h u k d a b m) (fun g l => ([.v d.toNat (BitVec.ofNat 32 (fmtF32.fmul (.ofM m 0) (g.rv l a.toNat).toNat (g.rv l b.toNat).toNat).1)],
      (fmtF32.fmul (.ofM m 0) (g.rv l a.toNat).toNat (g.rv l b.toNat).toNat).2)) ∧
    ComputesF (.ffma h u k d a b c m) (fun g l =>
      ([.v d.toNat (BitVec.ofNat 32 (fmtF32.ffma (.ofM m 0) (g.rv l a.toNat).toNat (g.rv l b.toNat).toNat (g.rv l c.toNat).toNat).1)],
      (fmtF32.ffma (.ofM m 0) (g.rv l a.toNat).toNat (g.rv l b.toNat).toNat (g.rv l c.toNat).toNat).2)) ∧
    Computes (.fminLr h u d a b) (fun g l => [.v d.toNat (BitVec.ofNat 32 (fmtF32.fmin (g.rv l a.toNat).toNat (g.rv l b.toNat).toNat))]) ∧
    Computes (.fminXf h u k d a b) (fun g l => [.v d.toNat (BitVec.ofNat 32 (fmtF32.fmin (g.rv l a.toNat).toNat (g.rv l b.toNat).toNat))]) ∧
    Computes (.fmaxLr h u d a b) (fun g l => [.v d.toNat (BitVec.ofNat 32 (fmtF32.fmax (g.rv l a.toNat).toNat (g.rv l b.toNat).toNat))]) ∧
    Computes (.fmaxXf h u k d a b) (fun g l => [.v d.toNat (BitVec.ofNat 32 (fmtF32.fmax (g.rv l a.toNat).toNat (g.rv l b.toNat).toNat))]) ∧
    Computes (.frnd h u k d a m) (fun g l => [.v d.toNat (BitVec.ofNat 32 (frndF32 (.ofM m 0) (g.rv l a.toNat).toNat))]) ∧
    ComputesF (.hadd2 h u k d a b t m) (fun g l =>
      ([.v d.toNat (BitVec.ofNat 32 (halves t (fun f x y _ => f.fadd (.ofM m 0) x y) (g.rv l a.toNat) (g.rv l b.toNat) 0).1)],
      (halves t (fun f x y _ => f.fadd (.ofM m 0) x y) (g.rv l a.toNat) (g.rv l b.toNat) 0).2)) ∧
    ComputesF (.hmul2 h u k d a b t m) (fun g l =>
      ([.v d.toNat (BitVec.ofNat 32 (halves t (fun f x y _ => f.fmul (.ofM m 0) x y) (g.rv l a.toNat) (g.rv l b.toNat) 0).1)],
      (halves t (fun f x y _ => f.fmul (.ofM m 0) x y) (g.rv l a.toNat) (g.rv l b.toNat) 0).2)) ∧
    ComputesF (.hfma2 h u k d a b c t m) (fun g l =>
      ([.v d.toNat (BitVec.ofNat 32 (halves t (fun f x y z => f.ffma (.ofM m 0) x y z) (g.rv l a.toNat) (g.rv l b.toNat) (g.rv l c.toNat)).1)],
      (halves t (fun f x y z => f.ffma (.ofM m 0) x y z) (g.rv l a.toNat) (g.rv l b.toNat) (g.rv l c.toNat)).2))

/-- The special functions and FCMP (R346-R348): each result is that of the function of the one operand, or the condition of the two. -/
def Obligations.SpecialFunctionAndCompareInstructionsComplete : Prop :=
  ∀ (h : Head) (u : Bool) (k : Guard) (d a b : VReg) (p : BitVec 3) (cc : BitVec 4),
    (∀ i f, (i, f) ∈ [(Instr.frcp h u k d a, fun x => fmtF32.fdiv .rne F32.one x), (.frsq h u k d a, frsqF32),
        (.fsqrt h u k d a, fun x => fmtF32.fsqrt .rne x), (.fex2 h u k d a, fex2F32), (.flg2 h u k d a, flg2F32),
        (.fsin h u k d a, fsinF32), (.fcos h u k d a, fcosF32)] →
      ComputesF i (fun g l => ([.v d.toNat (BitVec.ofNat 32 (f (g.rv l a.toNat).toNat).1)], (f (g.rv l a.toNat).toNat).2))) ∧
    ComputesF (.fcmpLc h u p a b cc) (fun g l => ([.p p.toNat (fmtF32.fcmp cc.toNat (g.rv l a.toNat).toNat (g.rv l b.toNat).toNat).1],
      (fmtF32.fcmp cc.toNat (g.rv l a.toNat).toNat (g.rv l b.toNat).toNat).2)) ∧
    (∀ t f, (t, f) ∈ [(Ty.f32, fmtF32), (.f16, fmtF16), (.bf16, fmtBF16)] →
      ComputesF (.fcmpXf h u k p a b t cc) (fun g l => ([.p p.toNat (f.fcmp cc.toNat (g.rv l a.toNat).toNat (g.rv l b.toNat).toNat).1],
        (f.fcmp cc.toNat (g.rv l a.toNat).toNat (g.rv l b.toNat).toNat).2)))

/-- FMIN, FMAX and the conditions of FCMP on NaNs and zeros (R103), in each format with NaNs that they take: FEQ is condition 10, FNE 11, FLT 12, FLE
13, FUN 14 and FORD 15 (R346). -/
def Obligations.MinimumMaximumCompareWithNanAndZero : Prop :=
  ∀ (f : Fmt) (a b n m : Nat), f ∈ [fmtF32, fmtF16, fmtBF16] → (f.val n).isNan = true → (f.val m).isNan = true →
    a < 2 ^ f.bits → b < 2 ^ f.bits → (f.val a).isNan = false → (f.val b).isNan = false →
    f.fmin a n = a ∧ f.fmin n a = a ∧ f.fmax a n = a ∧ f.fmax n a = a ∧ f.fmin n m = f.qnan ∧ f.fmax n m = f.qnan ∧
    f.fmin 0 f.signBit = f.signBit ∧ f.fmin f.signBit 0 = f.signBit ∧ f.fmax 0 f.signBit = 0 ∧ f.fmax f.signBit 0 = 0 ∧
    (∀ cc, 10 ≤ cc → cc ≤ 15 → f.fcmp cc 0 f.signBit = f.fcmp cc 0 0 ∧ f.fcmp cc f.signBit 0 = f.fcmp cc 0 0) ∧
    (f.fcmp 10 0 0).1 = true ∧
    (∀ cc, cc = 10 ∨ cc = 12 ∨ cc = 13 → (f.fcmp cc n b).1 = false ∧ (f.fcmp cc a n).1 = false ∧ (f.fcmp cc n m).1 = false) ∧
    (∀ cc, cc = 11 ∨ cc = 14 → (f.fcmp cc n b).1 = true ∧ (f.fcmp cc a n).1 = true ∧ (f.fcmp cc n m).1 = true) ∧
    (f.fcmp 15 a b).1 = true ∧ (f.fcmp 14 a b).1 = false ∧ (f.fcmp 15 n b).1 = false

/-- A NaN operand of an F32 sum, product or fused product gives the canonical NaN with no flag, whatever its payload (R101, R345), where no infinity is
multiplied by zero; and ∞ − ∞ and 0 × ∞ give it with NV (R102, R345). Rounding an F32 value to F32 changes nothing and raises no flag, subnormals
included, in every mode (R99, R100). -/
def Obligations.FloatFormatsRoundAndGiveTheirNan : Prop :=
  (∀ (n a : Nat) (md : RMode), (fmtF32.val n).isNan = true →
    fmtF32.fadd md n a = (0x7FC00000, fNone) ∧ fmtF32.fadd md a n = (0x7FC00000, fNone) ∧
    fmtF32.fmul md n a = (0x7FC00000, fNone) ∧ fmtF32.fmul md a n = (0x7FC00000, fNone) ∧
    fmtF32.ffma md n a a = (0x7FC00000, fNone) ∧
    fmtF32.fadd md 0x7F800000 0xFF800000 = (0x7FC00000, fNV) ∧ fmtF32.fmul md 0 0x7F800000 = (0x7FC00000, fNV) ∧
    fmtF32.ffma md 0x80000000 0x7F800000 n = (0x7FC00000, fNV)) ∧
  (∀ (c : Nat) (md : RMode) (sat : Bool), c < 2 ^ 32 → (fmtF32.val c).isNan = false →
    (∀ neg, fmtF32.val c = .inf neg → sat = false) → fmtF32.round md sat (fmtF32.val c) = (c, fNone))

/-- The conversions and the dequantiser (R104, R105, R334-R336, R338): each participant's destination is given its own converted elements, the random
bits of `.sr` by lane and element, and a word of high bits filled as the format asks (R98). MZRO, the optimiser steps and the ray tests (R124, R125,
R127, R128, R387): results and flags come from the lane's own registers and, for the steps, from the uniform registers that hold the coefficients. -/
def Obligations.ConversionOptimiserRayInstructionsComplete : Prop :=
  (∀ (h : Head) (u : Bool) (k : Guard) (d a b c : VReg) (t f : Ty) (m : BitVec 3) (x : Bool),
    ComputesF (.cvt h u k d a t m f x) (fun g l =>
      let r := cvt t f (g.roundMode m l 0) x (if f = .i64 then g.rv64 l a.toNat else (g.rv l a.toNat).toNat)
      (if t = .i64 then wr64 d.toNat r.1 else [.v d.toNat (BitVec.ofNat 32 (fillHigh t r.1))], r.2)) ∧
    ComputesF (.cvtp h u k d a b t m x) (fun g l =>
      let r := cvtPack t (fun e y => cvt t .f32 (g.roundMode m l e) x y.toNat) (fun e => g.rv l (a.toNat + e)) (fun e => g.rv l (b.toNat + e))
      ([.v d.toNat (BitVec.ofNat 32 r.1)], r.2)) ∧
    ComputesF (.cvtx h u k d a b t m f x) (fun g l =>
      let r := cvtx t f (g.roundMode m l 0) x (g.rv l a.toNat).toNat (g.rv l b.toNat).toNat
      ([.v d.toNat (BitVec.ofNat 32 (fillHigh t r.1))], r.2)) ∧
    Computes (.dqmx h k d a c t m f) (fun g l => dqmxLane t f (fun e => g.roundMode m l (if f = .f32 then 0 else e % 2)) d.toNat
      (fun j => g.rv l (a.toNat + j)) ((g.rv l c.toNat).toNat / 2 ^ 24))) ∧
  (∀ (h : Head) (k : Guard) (d a b : VReg) (c : GReg) (p : BitVec 3),
    Computes (.mzro h k d) (fun _ _ => (List.range 8).map (fun j => .v (d.toNat + j) 0)) ∧
    ComputesF (.oadm h k d a b c) (fun g l => oadm (fun n => (g.rg (c.toNat + n)).toNat) (g.rv l d.toNat).toNat (g.rv l a.toNat).toNat
      (g.rv l (a.toNat + 1)).toNat (g.rv l b.toNat).toNat d.toNat a.toNat) ∧
    ComputesF (.osgd h k d a b c) (fun g l => osgd (fun n => (g.rg (c.toNat + n)).toNat) (g.rv l d.toNat).toNat (g.rv l a.toNat).toNat
      (g.rv l b.toNat).toNat d.toNat a.toNat) ∧
    Computes (.rxbox h k d a b p) (fun g l =>
      let r := rxbox (fun n => (g.rv l (a.toNat + n)).toNat) (fun n => (g.rv l (b.toNat + n)).toNat)
      [.v d.toNat (BitVec.ofNat 32 r.1), .v (d.toNat + 1) (BitVec.ofNat 32 r.2.1), .p p.toNat r.2.2]) ∧
    Computes (.rxtri h k d a b p) (fun g l =>
      match rxtri (fun n => (g.rv l (a.toNat + n)).toNat) (fun n => (g.rv l (b.toNat + n)).toNat) with
      | none => [.p p.toNat false]
      | some q => [.v d.toNat (BitVec.ofNat 32 q.t), .v (d.toNat + 1) (BitVec.ofNat 32 q.u), .v (d.toNat + 2) (BitVec.ofNat 32 q.v),
          .v (d.toNat + 3) (if q.back then 1 else 0), .p p.toNat true]))

/-- The uniform arithmetic and moves (R432, R434, R438-R440), read from the issuing group and written in every member group. CLK, TIME, MOVS and SETS
(R54, R56, R200, R326, R392, R414, R426): in free mode CLK reads the clock of the core's power block and TIME that of its die, in bridle mode the
group's issue count and the launch time; a participant reads its special register; SETS writes that of every member group. -/
def Obligations.UniformAndSpecialRegisterInstructionsComplete : Prop :=
  (∀ (h : Head) (d a b : GReg) (v : VReg) (cc : BitVec 3) (w : BitVec 32),
    ComputesU (.uadd h d a b) (fun _ _ g => [(d.toNat, g.rg a.toNat + g.rg b.toNat)]) ∧
    ComputesU (.usub h d a b) (fun _ _ g => [(d.toNat, g.rg a.toNat - g.rg b.toNat)]) ∧
    ComputesU (.umul h d a b) (fun _ _ g => [(d.toNat, g.rg a.toNat * g.rg b.toNat)]) ∧
    ComputesU (.uand h d a b) (fun _ _ g => [(d.toNat, g.rg a.toNat &&& g.rg b.toNat)]) ∧
    ComputesU (.uor h d a b) (fun _ _ g => [(d.toNat, g.rg a.toNat ||| g.rg b.toNat)]) ∧
    ComputesU (.uxor h d a b) (fun _ _ g => [(d.toNat, g.rg a.toNat ^^^ g.rg b.toNat)]) ∧
    ComputesU (.ushl h d a b) (fun _ _ g => [(d.toNat, g.rg a.toNat <<< (g.rg b.toNat).toNat)]) ∧
    ComputesU (.ushr h d a b false) (fun _ _ g => [(d.toNat, g.rg a.toNat >>> (g.rg b.toNat).toNat)]) ∧
    ComputesU (.ushr h d a b true) (fun _ _ g => [(d.toNat, (g.rg a.toNat).sshiftRight (g.rg b.toNat).toNat)]) ∧
    ComputesU (.ucmp h d a b cc) (fun _ _ g => [(d.toNat, if ucc cc.toNat (g.rg a.toNat) (g.rg b.toNat) then 1 else 0)]) ∧
    ComputesU (.umov h d a) (fun _ _ g => [(d.toNat, g.rg a.toNat)]) ∧
    ComputesU (.umovi h d w) (fun _ _ _ => [(d.toNat, w)]) ∧
    ComputesU (.usel h d a b) (fun _ _ g => [(d.toNat, if g.rg d.toNat ≠ 0 then g.rg a.toNat else g.rg b.toNat)]) ∧
    (∀ s s1 x t q r g, s.performing (.umovv h d v) = some (s1, x, t) → x.members = q :: r → t.groups[q.1]? = some g →
      exec (.umovv h d v) s = .next (s1.finish x { gs := [(d.toNat, g.rv q.2 v.toNat)] }))) ∧
  (∀ (h : Head) (u : Bool) (d a : GReg) (v k : VReg),
    ComputesU (.clk h d) (fun s t g =>
      let n := if t.la.bridle then g.issues else SMap.get 0 (s.die (s.site t.pcore / 128)).clk (blockOf (s.site t.pcore % 128))
      [(d.toNat, BitVec.ofNat 32 n), (d.toNat + 1, BitVec.ofNat 32 (n / 2 ^ 32))]) ∧
    ComputesU (.time h d) (fun s t _ =>
      let n := if t.la.bridle then t.la.startTime else (s.die (dieOf t.pcore)).time
      [(d.toNat, BitVec.ofNat 32 n), (d.toNat + 1, BitVec.ofNat 32 (n / 2 ^ 32))]) ∧
    (∀ s s1 x t, s.performing (.movs h u v k) = some (s1, x, t) →
      exec (.movs h u v k) s = .next (s1.finish x (laneRes t x (fun gi g l => ([.v v.toNat (BitVec.ofNat 32 (s1.special t gi g l k.toNat))], 0))))) ∧
    (∀ s s1 x t g, s.performing (.sets h d a) = some (s1, x, t) → t.groups[x.gi]? = some g →
      exec (.sets h d a) s = .next ((s1.eachGroup x.tid x.mem (fun _ m g' => g'.setSpecial m d.toNat (g.rg a.toNat))).finish x {})))

/-- The collectives within a group (R119-R121, R354-R357, R379, R415, R416, R441, R442): the participants of each group combine their values, and SHFL
takes that of the lane its operand names, or its own where that lane is no participant. The collectives across a set (R42, R354-R356, R416): the
participants of all the set's groups combine under their span-lane indices, in the vector registers behind the span registers. -/
def Obligations.CollectivesComplete : Prop :=
  (∀ (h : Head) (k : Guard) (d a b c : VReg) (p : BitVec 3) (x n : Bool) (m : BitVec 3) (t : Ty),
    ComputesG (.shfl h k d a b c x m false) (fun _ _ g part l =>
      let o := (g.rv l b.toNat).toNat
      let j : Int := if m = 0 then ((o % 32 : Nat) : Int) else if m = 1 then (l : Int) - o else if m = 2 then (l : Int) + o else ((Nat.xor l (o % 32) : Nat) : Int)
      [.v d.toNat (if 0 ≤ j ∧ j < 32 ∧ part.has j.toNat then g.rv j.toNat a.toNat else g.rv l a.toNat)]) ∧
    ComputesG (.vote h k d p c x 0 n) (fun _ _ g part _ => [.p d.toNat ((lanesOf part).any (fun j => xor (g.rp j p.toNat) n))]) ∧
    ComputesG (.vote h k d p c x 1 n) (fun _ _ g part _ => [.p d.toNat ((lanesOf part).all (fun j => xor (g.rp j p.toNat) n))]) ∧
    (2 ≤ m.toNat → ComputesG (.vote h k d p c x m n) (fun _ _ g part _ => [.v d.toNat (maskOf ((lanesOf part).filter (fun j => xor (g.rp j p.toNat) n)))])) ∧
    (t ≠ .i64 → ComputesG (.matchLanes h k d a c x t) (fun _ _ g part l =>
      [.v d.toNat (maskOf ((lanesOf part).filter (fun j => g.rv j a.toNat == g.rv l a.toNat)))])) ∧
    ComputesG (.matchLanes h k d a c x .i64) (fun _ _ g part l =>
      [.v d.toNat (maskOf ((lanesOf part).filter (fun j => g.rv64 j a.toNat == g.rv64 l a.toNat)))]) ∧
    ComputesG (.gred h k d a c x m t false) (fun _ _ g part _ => [.v d.toNat (gred m.toNat t 32 ((lanesOf part).map (fun j => (j, g.rv j a.toNat))))]) ∧
    ComputesG (.gscan h k d a c x m t) (fun _ _ g part l => [.v d.toNat (gscan m.toNat t ((lanesOf part).map (fun j => (j, g.rv j a.toNat))) l)]) ∧
    (h.scope ≠ .set → ComputesG (.gargx h k d a c x m) (fun _ _ g part _ =>
      [.v d.toNat (BitVec.ofNat 32 (gargx m.toNat ((lanesOf part).map (fun j => (j, (g.rv j a.toNat).toNat)))))]))) ∧
  (∀ (h : Head) (k : Guard) (d a b c : VReg) (x : Bool) (m : BitVec 3) (t : Ty),
    ComputesS (.shfl h k d a b c x m true) (fun t y g j l =>
      [.v (t.la.hdr.vregs - 16 + d.toNat) (shfl m.toNat (32 * max (setSize t.la.hdr.setcode) 1)
        (spanVals t y (fun g l => g.rv l (t.la.hdr.vregs - 16 + a.toNat))) j (g.rv l (t.la.hdr.vregs - 16 + a.toNat)) (g.rv l b.toNat))]) ∧
    ComputesS (.gred h k d a c x m t true) (fun u y _ _ _ =>
      [.v (u.la.hdr.vregs - 16 + d.toNat) (gred m.toNat t (32 * max (setSize u.la.hdr.setcode) 1)
        (spanVals u y (fun g l => g.rv l (u.la.hdr.vregs - 16 + a.toNat))))]) ∧
    (h.scope = .set → ComputesS (.gargx h k d a c x m) (fun u y _ _ _ =>
      [.v d.toNat (BitVec.ofNat 32 (gargx m.toNat (spanVals u y (fun g l => (g.rv l a.toNat).toNat))))])))

/-- The branches and calls with their guarded forms complete wherever nothing stands before them and every participant's target, formed from the offset
or from its register, is legal, and for a call a level is left (R71, R320, R323-R325). -/
def Obligations.BranchesAndCallsComplete : Prop :=
  ∀ (h : Head) (k : Guard) (o : BitVec 21) (a : VReg),
    Branches (.bra h o) (fun x _ _ => x.pc + 4 * o.toInt) ∧ Branches (.braGuarded h k o) (fun x _ _ => x.pc + 4 * o.toInt) ∧
    Branches (.brx h a) (fun _ g l => (g.rv l a.toNat).toNat) ∧ Branches (.brxGuarded h k a) (fun _ g l => (g.rv l a.toNat).toNat) ∧
    Calls (.call h o) (fun x _ _ => x.pc + 4 * o.toInt) ∧ Calls (.callGuarded h k o) (fun x _ _ => x.pc + 4 * o.toInt) ∧
    Calls (.calx h a) (fun _ g l => (g.rv l a.toNat).toNat) ∧ Calls (.calxGuarded h k a) (fun _ g l => (g.rv l a.toNat).toNat)

/-- A target is refused by `#ALIGN` where it is no multiple of 4, else by `#BOUNDS` where it lies outside the code segment (R71, in the order of R72),
and a call with no level left by `#DEPTH`, before any participant's target is judged (R30, R324); one refused participant stops the whole issue,
which takes a refused participant's trap (R321). That the report's address is the target is the model's choice (log 25). -/
def Obligations.BranchTargetChecks : Prop :=
  (∀ (la : Launch) (p : Int),
    (p % 4 ≠ 0 → targetChk la p = .fault tALIGN (wrapW 32 p)) ∧
    (p % 4 = 0 → (p < 0 ∨ (la.hdr.codesz : Int) ≤ p) → targetChk la p = .fault tBOUNDS (wrapW 32 p)) ∧
    (p % 4 = 0 → 0 ≤ p → p < (la.hdr.codesz : Int) → targetChk la p = .ok)) ∧
  (∀ (h : Head) (k : Guard) (o : BitVec 21) (a : VReg),
    BranchTraps (.bra h o) (fun t x _ _ => targetChk t.la (x.pc + 4 * o.toInt)) ∧
    BranchTraps (.braGuarded h k o) (fun t x _ _ => targetChk t.la (x.pc + 4 * o.toInt)) ∧
    BranchTraps (.brx h a) (fun t _ g l => targetChk t.la (g.rv l a.toNat).toNat) ∧
    BranchTraps (.brxGuarded h k a) (fun t _ g l => targetChk t.la (g.rv l a.toNat).toNat) ∧
    BranchTraps (.call h o) (callChk (fun x _ _ => x.pc + 4 * o.toInt)) ∧ BranchTraps (.callGuarded h k o) (callChk (fun x _ _ => x.pc + 4 * o.toInt)) ∧
    BranchTraps (.calx h a) (callChk (fun _ g l => (g.rv l a.toNat).toNat)) ∧ BranchTraps (.calxGuarded h k a) (callChk (fun _ g l => (g.rv l a.toNat).toNat))) ∧
  (∀ (h : Head) (k : Guard) (o : BitVec 21) (a : VReg) (i : Instr), i ∈ [Instr.call h o, .callGuarded h k o, .calx h a, .calxGuarded h k a] →
    ∀ (s s1 : State) (x : Site) (t : Team), s.performing i = some (s1, x, t) →
      (∃ q ∈ x.lanes, ∃ g, t.groups[q.1]? = some g ∧ t.la.hdr.depth ≤ (g.lane q.2).depth) →
      ∃ (low : Nat) (es : List Ent), exec i s = .next ((s1.skidded x.tid (x.mem.map Prod.fst)).raise x.tid (x.mem.map Prod.fst) x.pc low { code := tDEPTH } es []))

/-- RET, EXIT, NOP, YLD, ISYNC, UBRA and ULOOP (R28, R342, R370, R393, R411, R433, R437, R446): a lane returns to its stored address one level up;
participants that exit leave their barriers, whose tests run again; a lane-scope YLD spends the path's 32 bundles and, in free mode, a YLD passes
its groups over at their quarters' next choice, but for a group in a cinch window (the clock at which the pass-over counts is the model's reading,
log 20); ISYNC empties the loop buffers and the core's instruction cache; the uniform branches send every member the one way. -/
def Obligations.ReturnExitAndUniformBranchesComplete : Prop :=
  ∀ (h : Head) (a d : GReg) (z : Bool) (o : BitVec 32) (s s1 : State) (x : Site) (t : Team),
    (s.performing (.ret h) = some (s1, x, t) →
      (∀ q ∈ x.lanes, ∀ g, t.groups[q.1]? = some g → (g.lane q.2).depth ≠ 0 ∧ targetChk t.la (retAddr t.la.hdr g q.2) = .ok) →
      exec (.ret h) s = .next ((x.lanes.foldl (fun s q => s.modGroup x.tid q.1 (fun g => g.modLane q.2 (fun l => { l with depth := l.depth - 1 }))) s1).finish x
        { jump := x.lanes.map (fun q => (q.1, q.2, match t.groups[q.1]? with
            | some g => retAddr t.la.hdr g q.2
            | none => 0)) })) ∧
    (s.performing (.exit h) = some (s1, x, t) →
      exec (.exit h) s = .next ((((x.part.foldl (fun s p => (s.modGroup x.tid p.1 (Group.exitLanes p.2)).modTeam x.tid (fun u =>
        { u with bars := u.bars.map (Barrier.deduct p.1 p.2) })) s1).testBars x.tid).splitCheck x.tid x.gi).finish x {})) ∧
    (s.performing (.nop h) = some (s1, x, t) → exec (.nop h) s = .next (s1.finish x {})) ∧
    (s.performing (.yld h) = some (s1, x, t) → exec (.yld h) s = .next ((s1.eachGroup x.tid x.mem (fun _ _ g =>
      if g.cinch.isSome then g else { g with issued := if h.scope = .lane then 32 else g.issued, yield := !t.la.bridle })).finish x {})) ∧
    (s.performing (.isync h) = some (s1, x, t) → exec (.isync h) s = .next
      (((s1.eachGroup x.tid x.mem (fun _ _ g => { g with loopbuf := [] })).modCore t.pcore (fun c => { c with icache := [] })).finish x {})) ∧
    (∀ g, s.performing (.ubra h a z o) = some (s1, x, t) → t.groups[x.gi]? = some g →
      exec (.ubra h a z o) s = .next (s1.finish x (if (g.rg a.toNat != 0) != z then
        { jump := x.members.map (fun q => (q.1, q.2, ((x.pc + 4 * o.toInt) % (t.la.hdr.codesz : Int)).toNat)) } else {}))) ∧
    (∀ g, s.performing (.uloop h d o) = some (s1, x, t) → t.groups[x.gi]? = some g →
      exec (.uloop h d o) s = .next (s1.finish x
        { gs := [(d.toNat, g.rg d.toNat - 1)]
          jump := if g.rg d.toNat = 1 then [] else
            x.members.map (fun q => (q.1, q.2, ((x.pc + 4 * o.toInt) % (t.la.hdr.codesz : Int)).toNat)) }))

/-- TRAP and BPT take their trap (R273, R319, R428): code TRAP with the word's own code, and code BPT. -/
def Obligations.TrapInstructionsTakeTheirTrap : Prop :=
  ∀ (h : Head) (c : BitVec 16) (s s1 : State) (x : Site) (t : Team),
    (s.performing (.trap h c) = some (s1, x, t) → exec (.trap h c) s = .next (s1.trapWhole x { code := tTRAP, ticket := c.toNat })) ∧
    (s.performing (.bpt h) = some (s1, x, t) → exec (.bpt h) s = .next (s1.trapWhole x { code := tBPT }))

/-- The loads (R373-R375): width, destination, ordering, caching hint, and the address from the lane's registers and the offset. -/
def Obligations.LoadInstructionsComplete : Prop :=
  ∀ (h : Head) (u : Bool) (k : Guard) (d a i : VReg) (w : BitVec 3) (r ch : BitVec 2) (o : BitVec 20),
    Loads (.ldg h u k d a w r ch o) .global w.toNat d.toNat (r == 1) ch.toNat (fun g l => wrapW 64 ((g.rv64 l a.toNat : Int) + o.toInt)) ∧
    Loads (.ldsLm h u d a i) .shared 2 d.toNat false 0 (fun g l => ((g.rv l a.toNat).toNat + 4 * i.toNat) % 2 ^ 32) ∧
    Loads (.ldpLm h u d a i) .pad 2 d.toNat false 0 (fun g l => ((g.rv l a.toNat).toNat + 4 * i.toNat) % 2 ^ 32) ∧
    Loads (.ldkLm h u d a i) .stack 2 d.toNat false 0 (fun g l => ((g.rv l a.toNat).toNat + 4 * i.toNat) % 2 ^ 32) ∧
    Loads (.ldsXm h u k d a w o) .shared w.toNat d.toNat false 0 (fun g l => wrapW 32 (((g.rv l a.toNat).toNat : Int) + o.toInt)) ∧
    Loads (.ldpXm h u k d a w r o) .pad w.toNat d.toNat (r == 1) 0 (fun g l => wrapW 32 (((g.rv l a.toNat).toNat : Int) + o.toInt)) ∧
    Loads (.ldkXm h u k d a w ch o) .stack w.toNat d.toNat false ch.toNat (fun g l => wrapW 32 (((g.rv l a.toNat).toNat : Int) + o.toInt))

/-- The stores (R419, R420): width, source, ordering, caching hint, and the address from the lane's registers and the offset. ULD and UST (R435): one
access for the whole group, at the sum of two uniform registers, or of a pair and a signed one. -/
def Obligations.StoreAndUniformAccessInstructionsComplete : Prop :=
  (∀ (h : Head) (k : Guard) (d a i : VReg) (w : BitVec 3) (r ch : BitVec 2) (o : BitVec 20),
    Stores (.stg h k d a w r ch o) .global w.toNat d.toNat (r == 1) (fun g l => wrapW 64 ((g.rv64 l a.toNat : Int) + o.toInt)) ch.toNat ∧
    Stores (.stsLm h d a i) .shared 2 d.toNat false (fun g l => ((g.rv l a.toNat).toNat + 4 * i.toNat) % 2 ^ 32) ∧
    Stores (.stpLm h d a i) .pad 2 d.toNat false (fun g l => ((g.rv l a.toNat).toNat + 4 * i.toNat) % 2 ^ 32) ∧
    Stores (.stkLm h d a i) .stack 2 d.toNat false (fun g l => ((g.rv l a.toNat).toNat + 4 * i.toNat) % 2 ^ 32) ∧
    Stores (.stsXm h k d a w o) .shared w.toNat d.toNat false (fun g l => wrapW 32 (((g.rv l a.toNat).toNat : Int) + o.toInt)) ∧
    Stores (.stpXm h k d a w r o) .pad w.toNat d.toNat (r == 1) (fun g l => wrapW 32 (((g.rv l a.toNat).toNat : Int) + o.toInt)) ∧
    Stores (.stkXm h k d a w ch o) .stack w.toNat d.toNat false (fun g l => wrapW 32 (((g.rv l a.toNat).toNat : Int) + o.toInt)) ch.toNat) ∧
  (∀ (h : Head) (d a b : GReg) (s s1 : State) (x : Site) (t : Team) (g : Group) (sp : Space) (ad : Group → Nat),
    (∀ i, (i, sp, ad) ∈ [(Instr.uldShared h d a b, Space.shared, fun g => (g.rg a.toNat + g.rg b.toNat).toNat),
        (.uldPad h d a b, .pad, fun g => (g.rg a.toNat + g.rg b.toNat).toNat),
        (.uldGlobal h d a b, .global, fun g => wrapW 64 ((g.rg64 a.toNat : Int) + (g.rg b.toNat).toInt))] →
      s.performing i = some (s1, x, t) → t.groups[x.gi]? = some g → uniPre sp false ad s1 x = .go →
      exec i s = .next ((s1.readLane x.tid x.gi x.uniLane sp (ad g) 4 0).1.finish x
        { gs := [(d.toNat, BitVec.ofNat 32 (leNat (s1.readLane x.tid x.gi x.uniLane sp (ad g) 4 0).2))] })) ∧
    (∀ i, (i, sp, ad) ∈ [(Instr.ustShared h d a b, Space.shared, fun g => (g.rg a.toNat + g.rg b.toNat).toNat),
        (.ustPad h d a b, .pad, fun g => (g.rg a.toNat + g.rg b.toNat).toNat),
        (.ustGlobal h d a b, .global, fun g => wrapW 64 ((g.rg64 a.toNat : Int) + (g.rg b.toNat).toInt))] →
      s.performing i = some (s1, x, t) → t.groups[x.gi]? = some g → uniPre sp true ad s1 x = .go →
      exec i s = .next ((s1.writeLane x.tid x.gi x.uniLane false sp (ad g) 4 (leBytes 4 (g.rg d.toNat).toNat)).finish x {})))

/-- LDR, STC and PFG (R29, R142, R166, R170, R376, R397, R418), with what the groups' own store queues can give up drained: an LDR outside the bridle
round end's cases reads for each lane at the coherence point and takes its reservation, where the lane owes no store to the line; a conditional
store is performed lane by lane and writes its predicate, or, where its groups' earlier stores or, for a release, their writes are still awaited,
joins the store queue, which is the model's reading of R166 (log 7); a prefetch runs lane by lane and writes no register. -/
def Obligations.ReservedAndPrefetchInstructionsComplete : Prop :=
  ∀ (h : Head) (k : Guard) (d a : VReg) (w : BitVec 3) (r ch : BitVec 2) (p : BitVec 3) (o : BitVec 20) (s s1 : State) (x : Site) (t : Team),
    (s.atPoint (.ldr h k d a w r o) = some (s1, x, t) → anyOwn .global (wBytes w.toNat) (globalAddr a.toNat o.toInt) s1 x = false →
      (∀ q ∈ x.lanes, ldrChk (wBytes w.toNat) (globalAddr a.toNat o.toInt) s1 x q.1 q.2 = .ok) →
      ∃ v : State × List LRes, v = s1.lanesDo x (fun s g gi l =>
          ((s.ldrLane x.tid gi l (globalAddr a.toNat o.toInt g l) (wBytes w.toNat)).1,
            loadWrites d.toNat w.toNat (s.ldrLane x.tid gi l (globalAddr a.toNat o.toInt g l) (wBytes w.toNat)).2)) ∧
        exec (.ldr h k d a w r o) s = .next ((if r == 1 && !v.2.isEmpty then v.1.acquireFor x else v.1).finish x { lanes := v.2 })) ∧
    (s.atPoint (.stc h k d a w r p) = some (s1, x, t) → anyOwn .global (wBytes w.toNat) (globalAddr a.toNat 0) s1 x = false →
      (∀ q ∈ x.lanes, ownAcc .global (wBytes w.toNat) false (globalAddr a.toNat 0) s1 x q.1 q.2 = .ok) →
      (pointWait (r == 1) s1 x = true → ∃ v : State × Res, v = s1.queueRmw x (r == 1) (fun s t g gi l =>
          s.stcPart t g gi l (globalAddr a.toNat 0 g l) (wBytes w.toNat) (storeBytes g l d.toNat (wBytes w.toNat)) p.toNat) ∧
        exec (.stc h k d a w r p) s = .next ((if x.lanes = [] then v.1 else v.1.irrevocable x.tid).finish x v.2)) ∧
      (pointWait (r == 1) s1 x = false → ∃ v : State × List LRes, v = s1.lanesDo x (fun s g gi l =>
          ((s.stcLane x.tid gi l (globalAddr a.toNat 0 g l) (wBytes w.toNat) (storeBytes g l d.toNat (wBytes w.toNat))).1,
            [.p p.toNat (s.stcLane x.tid gi l (globalAddr a.toNat 0 g l) (wBytes w.toNat) (storeBytes g l d.toNat (wBytes w.toNat))).2])) ∧
        exec (.stc h k d a w r p) s = .next ((if v.2.isEmpty then v.1 else v.1.irrevocable x.tid).finish x { lanes := v.2 }))) ∧
    (s.performing (.pfg h k a ch o) = some (s1, x, t) →
      exec (.pfg h k a ch o) s = .next ((s1.lanesEach x (fun s g gi l => s.prefetch x.tid gi l (globalAddr a.toNat o.toInt g l) ch.toNat)).finish x {}))

/-- The atomics and reductions in free mode (R166, R314-R316, R410): operation, type, rounding, operand registers and ordering from the fields; the old
value is returned by ATOMG, ATOMS and ATOMP. That one which does not acquire joins the store queue where earlier stores are awaited is the model's
reading (log 7). -/
def Obligations.AtomicInstructionsComplete : Prop :=
  ∀ (h : Head) (g : Guard) (d a b c : VReg) (k : BitVec 4) (x : Bool) (r : BitVec 3) (t : Ty) (y : Atom),
    y = ⟨k.toNat, t, x, b.toNat, c.toNat, r.toNat % 2 == 1, r.toNat / 2 == 1⟩ →
    Atomics (.atomg h g d a b c k x r t) .global y (some d.toNat) (fun g l => wrapW 64 ((g.rv64 l a.toNat : Int) + 0)) ∧
    Atomics (.atoms h g d a b c k x r t) .shared y (some d.toNat) (fun g l => (g.rv l a.toNat).toNat) ∧
    Atomics (.atomp h g d a b c k x r t) .pad y (some d.toNat) (fun g l => (g.rv l a.toNat).toNat) ∧
    Atomics (.redg h g a b c k x r t) .global y none (fun g l => wrapW 64 ((g.rv64 l a.toNat : Int) + 0)) ∧
    Atomics (.reds h g a b c k x r t) .shared y none (fun g l => (g.rv l a.toNat).toNat) ∧
    Atomics (.redp h g a b c k x r t) .pad y none (fun g l => (g.rv l a.toNat).toNat)

/-- BAR, BARA, BARW, PHW and PHF in free mode (R183, R184, R187, R188, R317, R398, R399), with `s2` the state in which a switch marker's results have
been written: an explicit count lies between 1 and 1,024; every waiting form leaves its lanes waiting; PHW goes on where PHASE already has its
value, as an acquire, and PHF enters the store queue as a release. -/
def Obligations.BarrierInstructionsComplete : Prop :=
  ∀ (h : Head) (b : BitVec 5) (r q f : Bool) (c : GReg) (s s1 s2 : State) (x : Site) (t : Team), t.la.bridle = false → s2 = swPrep h.sw s1 x →
    (s.performing (.bar h b r c q) = some (s1, x, t) →
      (∀ p ∈ x.mem, ∀ g, s2.group? x.tid p.1 = some g → r = true → 1 ≤ (g.rg c.toNat).toNat ∧ (g.rg c.toNat).toNat ≤ 1024) →
      exec (.bar h b r c q) s = .next ((arriveRun b.toNat (if r then some c.toNat else none) q true s2 x).1.finish x
        (arriveRun b.toNat (if r then some c.toNat else none) q true s2 x).2)) ∧
    (s.performing (.bara h b r c) = some (s1, x, t) →
      (∀ p ∈ x.mem, ∀ g, s2.group? x.tid p.1 = some g → r = true → 1 ≤ (g.rg c.toNat).toNat ∧ (g.rg c.toNat).toNat ≤ 1024) →
      exec (.bara h b r c) s = .next ((arriveRun b.toNat (if r then some c.toNat else none) false false s2 x).1.finish x
        (arriveRun b.toNat (if r then some c.toNat else none) false false s2 x).2)) ∧
    (s.performing (.barw h b) = some (s1, x, t) → exec (.barw h b) s = .next (s2.finish x { wait := waitAll x.part (fun _ => .barred b.toNat (.phase false)) })) ∧
    (s.performing (.phw h b f) = some (s1, x, t) → exec (.phw h b f) s = .next (if t.phaseIs b.toNat f
      then ((s2.acquire t.pcore (s2.wmOf x)).trigger3s x.tid (x.mem.map Prod.fst)).finish x {}
      else s2.finish x { jump := x.lanes.map (fun q => (q.1, q.2, x.pc)), wait := waitAll x.part (fun _ => .barred b.toNat (.phw f)) })) ∧
    (s.performing (.phf h b) = some (s1, x, t) → exec (.phf h b) s = .next (((x.mem.map Prod.fst).foldl (fun s j => s.modGroup x.tid j (fun g =>
      { g with sq := g.sq ++ [⟨true, g.sn, .phf b.toNat (x.mem.map Prod.fst)⟩], sn := g.sn + 1 })) s2).finish x {}))

/-- Where no participant's lane is counted yet, an arrival in free mode enters the store queue of every group with participants, as a release with the
group's explicit count; under a waiting form every participant then waits for it (R184). A phase completes when ARRIVED reaches a latched EXPECT, or
when every live lane of the team is counted; then PHASE flips and LATCH, EXPECT, ARRIVED and the arrival mask become 0 (R185). An arrival with no
count latches nothing; the first explicit count of a phase latches; one that differs from the latched count is not counted (R184). -/
def Obligations.BarriersQueueAndCountArrivals : Prop :=
  (∀ (b : Nat) (cg : Option Nat) (q w : Bool) (s : State) (x : Site) (t : Team), s.team? x.tid = some t → t.la.bridle = false →
    (∀ p ∈ x.part, p.2 ≠ 0 ∧ ∀ g, t.groups[p.1]? = some g → p.2 &&& g.counted ((t.bars[b]?).getD ⟨false, false, 0, 0, 0⟩) b p.1 = 0) →
    arriveRun b cg q w s x =
      ((x.part.map (fun p => (p.1, p.2, (t.groups[p.1]?).bind (fun g => cg.map (fun k => (g.rg k).toNat))))).foldl (fun s p =>
        s.modGroup x.tid p.1 (fun g => { g with
          sq := g.sq ++ [⟨true, g.sn, .arrive b (x.part.map (fun p => (p.1, p.2, (t.groups[p.1]?).bind (fun g => cg.map (fun k => (g.rg k).toNat))))) q w x.pc⟩]
          sn := g.sn + 1 })) s,
       { wait := if w then waitAll x.part (fun _ => .barred b .release) else [] })) ∧
  (∀ (r : Barrier) (t : Team) (gi : Nat) (m : Mask) (e : Nat),
    (r.latch = true → r.expect ≤ r.arrived → r.complete t = true) ∧
    ((∀ j g, t.groups[j]? = some g → g.live &&& ~~~ r.lanes j = 0) → r.complete t = true) ∧
    (∀ j g, t.groups[j]? = some g → g.live &&& ~~~ r.lanes j ≠ 0 → (r.latch = false ∨ r.arrived < r.expect) → r.complete t = false) ∧
    r.flip.phase = !r.phase ∧ r.flip.latch = false ∧ r.flip.expect = 0 ∧ r.flip.arrived = 0 ∧ r.flip.mask = 0 ∧
    (∃ u, r.count gi m none = some u ∧ u.latch = r.latch ∧ u.expect = r.expect ∧ u.arrived = r.arrived + (lanesOf m).length ∧
      u.lanes gi = r.lanes gi ||| m ∧ ∀ j, j ≠ gi → u.lanes j = r.lanes j) ∧
    (r.latch = false → ∃ u, r.count gi m (some e) = some u ∧ u.latch = true ∧ u.expect = e ∧ u.arrived = r.arrived + (lanesOf m).length) ∧
    (r.latch = true → r.expect = e → ∃ u, r.count gi m (some e) = some u ∧ u.latch = true ∧ u.expect = e ∧ u.arrived = r.arrived + (lanesOf m).length) ∧
    (r.latch = true → r.expect ≠ e → r.count gi m (some e) = none))

/-- The fences in free mode (R168, R349): at lane and group scope a release alone enters each group's store queue, and one that acquires holds the group
until it completes; at set and team scope the member groups wait for each other. The watermark returns to CORE. -/
def Obligations.FenceInstructionsComplete : Prop :=
  ∀ (h : Head) (s s1 : State) (x : Site) (t : Team) (i : Instr) (rel acq xd : Bool), t.la.bridle = false → s.performing i = some (s1, x, t) →
    (i, rel, acq, xd) ∈ [(Instr.fenceAcq h, false, true, false), (Instr.fenceRel h, true, false, false), (Instr.fenceFull h, true, true, false),
      (Instr.fenceX h, true, true, true)] →
    ((h.scope = .set ∨ h.scope = .team) → ∃ s2 : State, s2 = s1.eachGroup x.tid x.mem (fun _ m g =>
        { g with fence := some ⟨rel, acq, xd, g.wm, g.sn, x.mem.map Prod.fst, m⟩, wm := .core }) ∧
      exec i s = .next ((if acq then s2.trigger3s x.tid (x.mem.map Prod.fst) else s2).finish x { wait := x.members.map (fun q => (q.1, q.2, .parked .fence)) })) ∧
    (h.scope = .lane ∨ h.scope = .group → acq = true → exec i s = .next (((s1.eachGroup x.tid x.mem (fun j _ g =>
        { g with fence := some ⟨rel, acq, xd, g.wm, g.sn, [j], 0⟩, wm := .core })).trigger3s x.tid (x.mem.map Prod.fst)).finish x {})) ∧
    (h.scope = .lane ∨ h.scope = .group → acq = false → exec i s = .next ((s1.eachGroup x.tid x.mem (fun _ _ g =>
        { g with sq := g.sq ++ [⟨true, g.sn, .fence⟩], sn := g.sn + 1, wm := .core })).finish x {}))

/-- SEND, RECV, GWAIT and LNXT in free mode (R245, R358, R378, R406-R409): a SEND or RECV of a declared channel of its size queues one wait for each
member group, and its lanes park; GWAIT goes on once the predecessor has ended, as an acquire at SYS; LNXT enters the store queues as a release. -/
def Obligations.ChannelAndGridInstructionsComplete : Prop :=
  ∀ (h : Head) (v : VReg) (n : BitVec 5) (y : BitVec 3) (s s1 : State) (x : Site) (t : Team), t.la.bridle = false →
    (s.atPoint (.send h v n y) = some (s1, x, t) → t.la.hdr.chans.any (fun c => c.id == n.toNat && c.bytes == 4 * 2 ^ y.toNat) = true →
      (s1.sendTo t n.toNat).isSome = true → pointWait true s1 x = false →
      exec (.send h v n y) s = .next ((s1.modTeam x.tid (fun t => { t with
          chanq := t.chanq ++ x.mem.map (fun p => ⟨true, n.toNat, p.1, p.2, v.toNat, 2 ^ y.toNat, x.pc⟩), irrev := true })).finish x
        { wait := x.members.map (fun q => (q.1, q.2, .parked (.chan n.toNat true))) })) ∧
    (s.performing (.recv h v n y) = some (s1, x, t) → t.la.hdr.chans.any (fun c => c.id == n.toNat && c.bytes == 4 * 2 ^ y.toNat) = true →
      exec (.recv h v n y) s = .next ((s1.modTeam x.tid (fun t => { t with
          chanq := t.chanq ++ x.mem.map (fun p => ⟨false, n.toNat, p.1, p.2, v.toNat, 2 ^ y.toNat, x.pc⟩), irrev := true })).finish x
        { wait := x.members.map (fun q => (q.1, q.2, .parked (.chan n.toNat false))) })) ∧
    (s.performing (.gwait h) = some (s1, x, t) → s1.predDone t = true →
      exec (.gwait h) s = .next (((s1.acquire t.pcore .sys).trigger3s x.tid (x.mem.map Prod.fst)).finish x {})) ∧
    (s.performing (.lnxt h) = some (s1, x, t) → exec (.lnxt h) s = .next (((s1.eachGroup x.tid x.mem (fun _ _ g =>
      { g with sq := g.sq ++ [⟨true, g.sn, .lnxt⟩], sn := g.sn + 1 })).irrevocable x.tid).finish x {}))

/-- In bridle mode a barrier instruction without count or a fence ends the quantum: it issues and counts, its effect waits for the round end, and its
lanes wait past it (R200, R201). -/
def Obligations.BridleEffectsWaitForTheRoundEnd : Prop :=
  ∀ (h : Head) (b : BitVec 5) (q f : Bool) (c : GReg) (s s1 : State) (x : Site) (t : Team) (i : Instr) (sw : Bool), t.la.bridle = true →
    (i, sw) ∈ [(Instr.bar h b false c q, h.sw), (.bara h b false c, h.sw), (.barw h b, h.sw), (.phw h b f, h.sw), (.phf h b, h.sw),
      (.fenceAcq h, false), (.fenceRel h, false), (.fenceFull h, false), (.fenceX h, false)] →
    s.performing i = some (s1, x, t) → exec i s = .next ((swPrep sw s1 x).deferIt x)

/-- The engine commands in free mode (R217, R221, R328, R330-R333, R360, R361, R405): kinds 1 to 8 in the order CPY, CPYT, CPYG, CPYR, HGF, HGB, ARED,
RAST. -/
def Obligations.EngineCommandsComplete : Prop :=
  ∀ (h : Head) (d a : GReg) (i : BitVec 32),
    Commands (.cpy h d a i) 1 d.toNat a.toNat i.toNat ∧ Commands (.cpyt h d a i) 2 d.toNat a.toNat i.toNat ∧
    Commands (.cpyg h d a i) 3 d.toNat a.toNat i.toNat ∧ Commands (.cpyr h d a i) 4 d.toNat a.toNat i.toNat ∧
    Commands (.hgf h d a i) 5 d.toNat a.toNat i.toNat ∧ Commands (.hgb h d a i) 6 d.toNat a.toNat i.toNat ∧
    Commands (.ared h d a i) 7 d.toNat a.toNat i.toNat ∧ Commands (.rast h d a i) 8 d.toNat a.toNat i.toNat

/-- EWT and EQRY in free mode (R218, R340, R341): EWT goes on for a ticket whose chain has ended: for each member group the core's L1 drops the lines
that meet the chain's write footprint, with an acquire at the widest domain it wrote, or at PKG for an older ticket, where no sector that is dropped
must wait for its memory to be written back (R262); EQRY gives 0 while the chain waits, and until its first card has started (log 37), 1 while it
runs, 2 when it is done and 3 when it has failed; a ticket too old to be in its slot is done. A ticket names its command while its slot holds that
command; 0 and numbers never issued are no tickets (R218). -/
def Obligations.TicketsAndTheirInstructions : Prop :=
  (∀ (h : Head) (d a : GReg) (s s1 : State) (x : Site) (t : Team) (g : Group), t.groups[x.gi]? = some g → t.la.bridle = false →
    (s.performing (.ewt h a) = some (s1, x, t) → t.judge (g.rg a.toNat).toNat = .old →
      exec (.ewt h a) s = .next ((x.mem.foldl (fun s p => (s.acquire t.pcore .pkg).trigger3 t.tid p.1) s1).finish x {})) ∧
    (∀ k, s.performing (.ewt h a) = some (s1, x, t) → t.judge (g.rg a.toNat).toNat = .current k → k.busy = false → s1.spanStuck t.pcore k.spans = none →
      exec (.ewt h a) s = .next ((x.mem.foldl (fun s p =>
        ((s.dropSpans t.pcore k.spans).acquire t.pcore k.dom).trigger3 t.tid p.1) s1).finish x {})) ∧
    (s.performing (.eqry h d a) = some (s1, x, t) → t.judge (g.rg a.toNat).toNat = .old →
      exec (.eqry h d a) s = .next (s1.finish x { gs := [(d.toNat, 2)] })) ∧
    (∀ k, s.performing (.eqry h d a) = some (s1, x, t) → t.judge (g.rg a.toNat).toNat = .current k →
      exec (.eqry h d a) s = .next (s1.finish x { gs := [(d.toNat,
        if k.busy then (if s1.running t.tid ((g.rg a.toNat).toNat / 2 ^ 26) ((g.rg a.toNat).toNat % 2 ^ 26) then 1 else 0)
        else if k.failed then 3 else 2)] }))) ∧
  (∀ (t : Team) (slot seq : Nat) (k : Ticket), 1 ≤ seq → seq < 2 ^ 26 →
    (t.tickets[slot]? = some k → k.seq = seq → t.judge (slot * 2 ^ 26 + seq) = .current k) ∧
    t.judge (slot * 2 ^ 26) = .bad ∧
    (t.tickets.length ≤ slot → t.judge (slot * 2 ^ 26 + seq) = .bad) ∧
    (t.seq = 0 → (∀ j ∈ t.tickets, j.seq = 0) → t.judge (slot * 2 ^ 26 + seq) = .bad))

/-- TSPN and TSUS in free mode (R247, R250, R251, R429, R430): TSPN queues as many of the records as the pool has room for and writes their number; TSUS
of a one-group team with no call under way writes the group's record, which waits for the ticket, or is queued where the command has completed since
the ticket was checked, frees the ticket and ends the group. -/
def Obligations.TaskInstructionsComplete : Prop :=
  ∀ (h : Head) (d a b : GReg) (s s1 : State) (x : Site) (t : Team) (g : Group), t.groups[x.gi]? = some g → t.la.bridle = false →
    (s.atPoint (.tspn h d a b) = some (s1, x, t) → (g.rg b.toNat).toNat = 0 →
      exec (.tspn h d a b) s = .next ((s1.irrevocable x.tid).finish x { gs := [(d.toNat, 0)] })) ∧
    (s.atPoint (.tspn h d a b) = some (s1, x, t) → 1 ≤ (g.rg b.toNat).toNat → (g.rg b.toNat).toNat ≤ 16 →
      (g.rg a.toNat).toNat + 2176 * (g.rg b.toNat).toNat ≤ t.la.hdr.shared → (g.rg a.toNat).toNat % 128 = 0 →
      t.absentLine (g.rg a.toNat).toNat (2176 * (g.rg b.toNat).toNat) = none → g.owesShm = false →
      (∀ i < (g.rg b.toNat).toNat, recordBad (s1.shmBytes t g ((g.rg a.toNat).toNat + 2176 * i) 2176) = false ∧
        ∃ ty, s1.taskType t.ctx (fieldAt (s1.shmBytes t g ((g.rg a.toNat).toNat + 2176 * i) 2176) 4 4 % 64) = .ok (some ty)) →
      pointWait true s1 x = false → State.poolStop t.ctx (((List.range (g.rg b.toNat).toNat).map (fun i =>
        s1.shmBytes t g ((g.rg a.toNat).toNat + 2176 * i) 2176)).take (s1.taskFree t.ctx)) s1 = none →
      exec (.tspn h d a b) s = .next (((List.range (min (g.rg b.toNat).toNat (s1.taskFree t.ctx))).foldl (fun s' i =>
          s'.addTask t.ctx (dieOf t.pcore) t.la.prio t.la.startTime (s1.graphOf t) (s1.shmBytes t g ((g.rg a.toNat).toNat + 2176 * i) 2176) .queued)
          ((s1.taskTouches t.ctx ((List.range (g.rg b.toNat).toNat).map (fun i =>
            s1.shmBytes t g ((g.rg a.toNat).toNat + 2176 * i) 2176))).irrevocable x.tid)).finish x
        { gs := [(d.toNat, BitVec.ofNat 32 (min (g.rg b.toNat).toNat (s1.taskFree t.ctx)))] })) ∧
    (∀ ty v, s.atPoint (.tsus h a b) = some (s1, x, t) → t.la.hdr.groups = 1 → (∀ l ∈ g.lanes, l.st ≠ .exited → l.depth = 0) →
      (g.lane x.uniLane).judged.isSome = true ∨ t.suspends (g.rg a.toNat).toNat = true → s1.taskType t.ctx (g.rg b.toNat).toNat = .ok (some ty) →
      pointWait true s1 x = false → s1.taskFree t.ctx ≠ 0 → State.poolStop t.ctx [List.replicate 2176 0] s1 = none →
      v = (g.deliver.rg a.toNat).toNat →
      ∃ s2 s3 : State,
        s2 = (s1.taskTouch t.ctx (g.rg b.toNat).toNat).addTask t.ctx (dieOf t.pcore) t.la.prio t.la.startTime
          ((s1.taskTouch t.ctx (g.rg b.toNat).toNat).graphOf t) (suspendRecord g.deliver (x.pc + x.len) (g.deliver.rg b.toNat).toNat v
            (s1.firstOf t (g.lane x.uniLane) v) ty.vlive ty.glive) .ticket ∧
        s3 = (match s2.cardOf t v with
          | some c => s2.tagCard c.cid (s2.nextId - 1)
          | none => s2.queueTask (s2.nextId - 1) (((t.tickets[v / 2 ^ 26]?).map Ticket.spans).getD [])) ∧
        exec (.tsus h a b) s = .next (((s3.modTeam t.tid (fun t => { t with
            irrev := true, tickets := updAt t.tickets (v / 2 ^ 26) (fun k => { k with busy := false }) })).modGroup x.tid x.gi
              (fun _ => g.deliver.exitAll)).finish x {}))

/-- WPIN, WUNP, WPUB and WBAK in free mode complete where the descriptor's page is readable, writable and of SHR PKG or SYS, and the descriptor lets
them: they update it atomically at its coherence point (R233, R443, R444). What each of the four does with the descriptor (R233): WPIN counts a pin
of the current buffer and returns generation, buffer number and address; WUNP uncounts one of the generation named, current or previous; WPUB
switches to the handed buffer; WBAK hands the other buffer to the writer once it has no pins. -/
def Obligations.WeightInstructionsUpdateTheirDescriptor : Prop :=
  (∀ (h : Head) (d a b : GReg),
    Weights (.wpin h d a) a.toNat false (wpinMove d.toNat) ∧ Weights (.wunp h a b) a.toNat true (wunpMove b.toNat) ∧
    Weights (.wpub h d a) a.toNat true (wpubMove d.toNat) ∧ Weights (.wbak h d a) a.toNat false (wbakMove d.toNat)) ∧
  (∀ (d b : Nat) (g : Group) (w : WDesc),
    (wpinMove d g w = .trap ↔ pick w.pin w.cur = 2 ^ 32 - 1) ∧
    (pick w.pin w.cur ≠ 2 ^ 32 - 1 → wpinMove d g w = .go [(0x18 + 4 * w.cur, pick w.pin w.cur + 1)]
      [(d, BitVec.ofNat 32 w.gen), (d + 1, BitVec.ofNat 32 w.cur), (d + 2, BitVec.ofNat 32 (pick w.buf w.cur)),
       (d + 3, BitVec.ofNat 32 (pick w.buf w.cur / 2 ^ 32))]) ∧
    ((g.rg b).toNat = w.gen → pick w.pin w.cur ≠ 0 → wunpMove b g w = .go [(0x18 + 4 * w.cur, pick w.pin w.cur - 1)] []) ∧
    ((g.rg b).toNat ≠ w.gen → ((g.rg b).toNat + 1) % 2 ^ 32 = w.gen → pick w.pin (1 - w.cur) ≠ 0 →
      wunpMove b g w = .go [(0x18 + 4 * (1 - w.cur), pick w.pin (1 - w.cur) - 1)] []) ∧
    ((g.rg b).toNat ≠ w.gen → ((g.rg b).toNat + 1) % 2 ^ 32 ≠ w.gen → wunpMove b g w = .trap) ∧
    ((g.rg b).toNat = w.gen → pick w.pin w.cur = 0 → wunpMove b g w = .trap) ∧
    (w.handed = false → wpubMove d g w = .trap) ∧
    (w.handed = true → wpubMove d g w = .go [(0x10, 1 - w.cur), (0x14, (w.gen + 1) % 2 ^ 32)] [(d, BitVec.ofNat 32 (w.gen + 1))]) ∧
    (w.handed = true → wbakMove d g w = .trap) ∧
    (w.handed = false → pick w.pin (1 - w.cur) ≠ 0 → wbakMove d g w = .pins (0x18 + 4 * (1 - w.cur))) ∧
    (w.handed = false → pick w.pin (1 - w.cur) = 0 → wbakMove d g w = .go [(0x10, 2 + w.cur)]
      [(d, BitVec.ofNat 32 (pick w.buf (1 - w.cur))), (d + 1, BitVec.ofNat 32 (pick w.buf (1 - w.cur) / 2 ^ 32))]))

/-- The three forms of TLBI remove what they name from every TLB, after the group's own stores and the walks in flight for it, and wait for what used
it, what other bridle grids have still to merge included (R427). That the issuer's own grid is not waited for, and that a speculating group which
holds translated accesses rolls back, is the model's choice (log 33). -/
def Obligations.TlbInvalidationsComplete : Prop :=
  ∀ (h : Head) (a : GReg),
    Invalidates (.tlbiPage h a) (fun s g c p => s.walkFinds c p (g.rg64 a.toNat)) (fun g => some ⟨fun e =>
      decide (e.vbase ≤ g.rg64 a.toNat % 2 ^ 57) && decide (g.rg64 a.toNat % 2 ^ 57 < e.vbase + e.size), fun _ => true⟩) ∧
    Invalidates (.tlbiCtx h a) (fun _ g c _ => c == (g.rg a.toNat).toNat) (fun g => if 1024 ≤ (g.rg a.toNat).toNat then none else
      some ⟨fun e => e.ctx == (g.rg a.toNat).toNat, fun c => c == (g.rg a.toNat).toNat⟩) ∧
    Invalidates (.tlbiAll h) (fun _ _ _ _ => true) (fun _ => some ⟨fun _ => true, fun _ => true⟩)

/-- The matrix products (R113-R118, R384, R385): each participant's eight accumulator registers, from the fragments of its group; a column of B whose
lane's guard is false is zero, and at set scope B is the span block of the set. That an element of B read through its permutation takes the scale of
the block it is read from is the model's choice (log 26). QMX completes without and with a permutation table (R110-R112, R403, R404): each
participant's quantised block and scale; with a table the groups that take part latch its base. -/
def Obligations.MatrixAndQuantisationInstructionsComplete : Prop :=
  (∀ (h : Head) (k : Guard) (d a b c : VReg) (t : Ty) (m n : BitVec 2),
    ComputesG (.mma h k d a b c t) (fun u gi g part l =>
      let el (kk j : Nat) : Nat := if h.scope = .set then spanElem u.la.hdr (setGroups u gi) (setSize u.la.hdr.setcode) b.toNat kk j
        else if part.has (2 * j) then fragElem g t b.toNat j kk else 0
      accWrites d.toNat l (fun r j =>
        if t = .i8 then mmaOutI (accElem g c.toNat r j) ((List.range (2 * fragHalf t)).map (fun kk =>
          (toIntW 8 true (fragElem g t a.toNat r kk), toIntW 8 true (el kk j))))
        else mmaOut (accElem g c.toNat r j) ((List.range (2 * fragHalf t)).map (fun kk =>
          (srcVal t (fragElem g t a.toNat r kk), srcVal t (el kk j)))))) ∧
    ComputesG (.mmax h k d a b c t m n false) (fun _ _ g part l =>
      let blk (r kk : Nat) : Nat := if t = .e2m1 then 2 * r + kk / 32 else 2 * r
      accWrites d.toNat l (fun r j => mmaOut (accElem g d.toNat r j) ((List.range (2 * fragHalf t)).map (fun kk =>
        (scaled (mxVal t (fragElem g t a.toNat r kk)) (bitsAt (g.rv (blk r kk) c.toNat).toNat (8 * m.toNat) 8),
         if part.has (2 * j) then scaled (mxVal t (fragElem g t b.toNat j kk)) (bitsAt (g.rv (blk j kk) (c.toNat + 1)).toNat (8 * n.toNat) 8)
         else .fin false 0 0))))) ∧
    (∀ s s1 x u, s.performing (.mmax h k d a b c t m n true) = some (s1, x, u) →
      permPre true (2 * fragHalf t) (fun g => g.permBase.toNat) s1 x = .go →
      exec (.mmax h k d a b c t m n true) s = .next ((s1.permTouch true x (2 * fragHalf t) (fun g => g.permBase.toNat)).finish x (groupRes u x (fun gi g part l =>
        let blk (r kk : Nat) : Nat := if t = .e2m1 then 2 * r + kk / 32 else 2 * r
        let pos (kk : Nat) : Nat := ((s1.permOf true x.tid gi g.permBase.toNat (2 * fragHalf t))[kk]?).getD kk
        accWrites d.toNat l (fun r j => mmaOut (accElem g d.toNat r j) ((List.range (2 * fragHalf t)).map (fun kk =>
          (scaled (mxVal t (fragElem g t a.toNat r kk)) (bitsAt (g.rv (blk r kk) c.toNat).toNat (8 * m.toNat) 8),
           if part.has (2 * j) then scaled (mxVal t (fragElem g t b.toNat j (pos kk))) (bitsAt (g.rv (blk j (pos kk)) (c.toNat + 1)).toNat (8 * n.toNat) 8)
           else .fin false 0 0))))))))) ∧
  (∀ (h : Head) (k : Guard) (d a c : VReg) (b : GReg) (t : Ty) (m : BitVec 3) (p : Bool) (s s1 : State) (x : Site) (u : Team),
    s.performing (.qmx h k d a b c t m p) = some (s1, x, u) →
    permPre p (2 * (if t = .e2m1 then 32 else 16)) (fun g => (g.rg b.toNat).toNat) s1 x = .go →
    exec (.qmx h k d a b c t m p) s = .next ((if p then (s1.permTouch true x (2 * (if t = .e2m1 then 32 else 16)) (fun g =>
        (g.rg b.toNat).toNat)).eachGroup x.tid x.part (fun _ m g => if m = 0 then g else { g with permBase := g.rg b.toNat }) else s1).finish x
      (groupRes u x (fun gi g _ l => qmxLane t (l % 2)
        (fun q => fmtF32.val (g.rv (l / 2 * 2 + q / (if t = .e2m1 then 32 else 16)) (a.toNat + q % (if t = .e2m1 then 32 else 16))).toNat)
        (s1.permOf p x.tid gi (g.rg b.toNat).toNat (2 * (if t = .e2m1 then 32 else 16)))
        (fun e => RMode.ofM m (srBits g.seed.toNat (8 * l + e) (g.lane l).seq)) d.toNat c.toNat (g.rv l c.toNat)))))

/-- MLD and MST (R381, R382, R386): a lane's fragment is 16 bytes, an F32 block's half row 32, and a span block's lane loads 4 bytes for each of its
span registers; MST converts to the 16-bit formats. The texture instructions complete where the groups' descriptors are valid and every texel access
passes (R422-R425): each lane's four results from the texels of its footprints, which its coordinates, the level and the addressing modes name. -/
def Obligations.FragmentAndTextureInstructionsComplete : Prop :=
  (∀ (h : Head) (k : Guard) (d a : VReg) (t : Ty) (r : BitVec 2) (s s1 : State) (x : Site) (u : Team),
    (s.performing (.mld h k d a t r) = some (s1, x, u) → ¬(h.scope = .set ∧ r.toNat = 1) →
      (∀ q ∈ x.lanes, laneAcc .shared (if r.toNat = 2 then 32 else 16) false true (fun g l => (g.rv l a.toNat).toNat) s1 x q.1 q.2 = .ok) →
      ∃ v : State × List LRes, v = s1.lanesDo x (fun s g gi l =>
          ((s.readLane x.tid gi l .shared (g.rv l a.toNat).toNat (if r.toNat = 2 then 32 else 16) 0).1,
           (List.range ((if r.toNat = 2 then 32 else 16) / 4)).map (fun j => .v (d.toNat + j) (BitVec.ofNat 32 (leNat
            (((s.readLane x.tid gi l .shared (g.rv l a.toNat).toNat (if r.toNat = 2 then 32 else 16) 0).2.drop (4 * j)).take 4)))))) ∧
        exec (.mld h k d a t r) s = .next (v.1.finish x { lanes := v.2 })) ∧
    (s.performing (.mld h k d a t r) = some (s1, x, u) → h.scope = .set → r.toNat = 1 →
      (∀ q ∈ x.lanes, ∀ g, u.groups[q.1]? = some g → ∀ j < spanWords u,
        s1.accChk u q.1 g q.2 .shared ((g.rv q.2 a.toNat).toNat + 4 * j) 4 false true = .ok) →
      ∃ v : State × List LRes, v = s1.lanesDo x (fun s g gi l => match s.team? x.tid with
          | none => (s, [])
          | some t =>
            ((List.range (spanWords t)).foldl (fun s j => (s.readLane x.tid gi l .shared ((g.rv l a.toNat).toNat + 4 * j) 4 0).1) s,
             (enum ((List.range (spanWords t)).map (fun j => (s.readLane x.tid gi l .shared ((g.rv l a.toNat).toNat + 4 * j) 4 0).2))).map
              (fun w => .v (t.la.hdr.vregs - 16 + d.toNat + w.1) (BitVec.ofNat 32 (leNat w.2))))) ∧
        exec (.mld h k d a t r) s = .next (v.1.finish x { lanes := v.2 })) ∧
    (s.performing (.mst h k d a t) = some (s1, x, u) →
      (∀ q ∈ x.lanes, laneAcc .shared (if t = .f32 then 32 else 16) true false (fun g l => (g.rv l a.toNat).toNat) s1 x q.1 q.2 = .ok) →
      exec (.mst h k d a t) s = .next ((s1.lanesEach x (fun s g gi l =>
        (List.range ((if t = .f32 then 32 else 16) / 4)).foldl (fun s j =>
          s.writeLane x.tid gi l false .shared ((g.rv l a.toNat).toNat + 4 * j) 4
            (((mstBytes t (fun j => g.rv l (d.toNat + j))).drop (4 * j)).take 4)) s)).finish x {}))) ∧
  (∀ (h : Head) (k : Guard) (d a b : VReg) (c : GReg) (y : BitVec 2),
    Samples (.texs h k d a c) d.toNat a.toNat none c.toNat none ∧
    Samples (.texl h k d a b c) d.toNat a.toNat (some b.toNat) c.toNat none ∧
    Samples (.texg h k d a c y) d.toNat a.toNat none c.toNat (some y.toNat))

/-- Taking a trap (R273, R274): the first trap of a team sets its halt latch and is the primary; a later one is the secondary code of its groups and
adds its lane sets. The groups that raise it stop, and in bridle mode every group stops with the first. No register of a group that does not
speculate (R196 rolls the others back), no team shared memory, barrier, ticket or other team changes. -/
def Obligations.TakingATrap : Prop :=
  ∀ (s : State) (tid : Nat) (gs : List Nat) (pc low : Nat) (tr : Trap) (es : List Ent) (t : Team), s.team? tid = some t →
    let later : Bool := match t.halt with
      | none => false
      | some h => h.kind == 0
    ∃ u, (s.raise tid gs pc low tr es []).team? tid = some u ∧
      (later = false → u.halt = some ⟨0, tr.code, tr.cause, tr.addr, pc, tr.ticket, 0, low, 0, gs, es⟩) ∧
      (∀ h, t.halt = some h → h.kind = 0 → u.halt = some { h with ents := h.ents ++ es }) ∧
      u.groups.length = t.groups.length ∧
      (∀ j g, t.groups[j]? = some g → ∃ g', u.groups[j]? = some g' ∧
        (j ∈ gs → g'.stopped = true) ∧ (t.la.bridle = true → later = false → g'.stopped = true) ∧
        (j ∈ gs → later = true → g'.scode = tr.code) ∧ (later = false ∨ j ∉ gs → g'.scode = g.scode) ∧
        (j ∉ gs → t.la.bridle = false ∨ later = true → g'.stopped = g.stopped) ∧
        (g.bram = none → g'.v = g.v ∧ g'.g = g.g ∧ g'.p = g.p ∧ g'.lanes = g.lanes ∧ g'.sq = g.sq)) ∧
      u.shm = t.shm ∧ u.bars = t.bars ∧ u.tickets = t.tickets ∧ u.msgs = t.msgs ∧ u.la = t.la ∧
      { s.raise tid gs pc low tr es [] with teams := s.teams } = s ∧
      (∀ k, k ≠ tid → (s.raise tid gs pc low tr es []).team? k = s.team? k)

/-- The decode checks of every instruction, before its lanes count as arrived (R72, R44): an illegal word takes #ILL, else a privileged instruction in a
user context #PRIV, in the lanes of the attempt alone; else one that its group's role forbids, or at set and team scope the role of a group that has
live lanes there, #ROLE, at those scopes for every such group; a speculating group stalls instead (R192). At group, set and team scope, lanes that
pass the decode checks and name a mask they are in arrive, with the group's other ready lanes at the address; until every member has, the
instruction does nothing else, but for the split check of R39 (R32-R34). Lanes whose mask offends raise #MEMB, and the others arrive. Lanes that
have met already, and waited alone for their own access, issue without another rendezvous (the model's reading of R134 and R374, log 16). What
stands between a complete rendezvous and the effect, rows that disagree, a pending or non-uniform operand or a fence, is all that happens. A
speculating group stalls before an instruction of a class it may not issue, before an offending mask, and before such a trap (R192). FADD, FMUL,
FFMA, the packed 16-bit forms and FCMP, in every form, take #FPX when a participant raises a flag enabled in its group's %fpctl (R102, R276). -/
def Obligations.ChecksBeforeTheEffect : Prop :=
  (∀ (i : Instr) (s : State) (c : Cur) (t : Team) (g : Group), isEvent i = false → s.issuer = some (c, t, g) →
    (g.bram = none → ∀ code, (legal t.la.hdr t.la.nb i = false ∧ code = tILL) ∨
        (legal t.la.hdr t.la.nb i = true ∧ isPriv i = true ∧ s.ctxPriv t.ctx = false ∧ code = tPRIV) ∨
        (legal t.la.hdr t.la.nb i = true ∧ (isPriv i = false ∨ s.ctxPriv t.ctx = true) ∧ ((headOf i).scope = .lane ∨ (headOf i).scope = .group) ∧
          roleForbids g.role i = true ∧ code = tROLE) →
      exec i s = .next ((s.skidded c.tid [c.gi]).raise c.tid [c.gi] c.pc (32 * c.gi + (lanesOf c.lanes).headD 0) { code := code }
        [⟨code, c.gi, 1, c.lanes, 0, c.pc, 0⟩] [])) ∧
    (g.bram = none → legal t.la.hdr t.la.nb i = true → (isPriv i = false ∨ s.ctxPriv t.ctx = true) →
      ((headOf i).scope = .set ∨ (headOf i).scope = .team) →
      (∃ j ∈ roleGroups t c.gi (headOf i).scope, ∃ g', t.groups[j]? = some g' ∧ roleForbids g'.role i = true) →
      exec i s = .next (s.trapWhole ⟨i, c.tid, c.gi, c.pc, 4 * i.words, membersOf t (unitGroups t c.gi (headOf i).scope) (headOf i).scope 0xFFFFFFFF, []⟩
        { code := tROLE })) ∧
    (∀ b, g.bram = some b → legal t.la.hdr t.la.nb i = false ∨ (isPriv i = true ∧ s.ctxPriv t.ctx = false) ∨
        (∃ j ∈ roleGroups t c.gi (headOf i).scope, ∃ g', t.groups[j]? = some g' ∧ roleForbids g'.role i = true) →
      exec i s = .next (s.stallGroup c.tid c.gi))) ∧
  (∀ (i : Instr) (s : State) (c : Cur) (t : Team) (g : Group), isEvent i = false → s.issuer = some (c, t, g) → screen i s t c.gi = none →
    (g.bram.isSome = true → stallClass i = true → exec i s = .next (s.stallGroup c.tid c.gi)) ∧
    (g.bram = none ∨ stallClass i = false →
      ((headOf i).scope ≠ .lane → c.metLanes g = 0 → (maskChk i (c.widen g) g).2 = 0 →
        allArrived (t.modGroup c.gi (Group.arrive (maskChk i (c.widen g) g).1 (headOf i).scope (c.widen g).lanes)) (unitGroups
          (t.modGroup c.gi (Group.arrive (maskChk i (c.widen g) g).1 (headOf i).scope (c.widen g).lanes)) c.gi (headOf i).scope)
          (headOf i).scope (maskChk i (c.widen g) g).1 c.pc = false →
        exec i s = .next ((s.modGroup c.tid c.gi (Group.arrive (maskChk i (c.widen g) g).1 (headOf i).scope (c.widen g).lanes)).splitCheck c.tid c.gi)) ∧
      ((headOf i).scope ≠ .lane → c.metLanes g ≠ 0 →
        gather i s c t g = .go s ⟨i, c.tid, c.gi, c.pc, 4 * i.words, [(c.gi, c.metLanes g)], []⟩) ∧
      ((headOf i).scope ≠ .lane → c.metLanes g = 0 → (maskChk i (c.widen g) g).2 ≠ 0 →
        (g.bram = none → exec i s = .next ((s.modGroup c.tid c.gi (Group.arrive (maskChk i (c.widen g) g).1 (headOf i).scope
            ((c.widen g).lanes &&& ~~~(maskChk i (c.widen g) g).2))).raise c.tid [c.gi] c.pc
            (32 * c.gi + (lanesOf (maskChk i (c.widen g) g).2).headD 0)
          { code := tMEMB } [⟨tMEMB, c.gi, 1, (maskChk i (c.widen g) g).2, 0, c.pc, 0⟩] [])) ∧
        (g.bram.isSome = true → exec i s = .next (s.stallGroup c.tid c.gi))) ∧
      (∀ (s1 : State) (x y : Site) (u : Team), gather i s c t g = .go s1 y → u = (s1.team? c.tid).getD t →
        x = { y with part := participants s1 i y } →
        (∀ r, hindrance i s1 x u = .wait r → exec i s = .next (s1.eachGroup x.tid x.mem (fun _ m g => g.park m r))) ∧
        (∀ tr, hindrance i s1 x u = .trap tr → speculates x u = true → exec i s = .next (s1.stallAt x)) ∧
        (∀ tr, hindrance i s1 x u = .trap tr → speculates x u = false → tr.code ≠ tUNIF → exec i s = .next (s1.trapWhole x tr)) ∧
        (∀ tr, hindrance i s1 x u = .trap tr → speculates x u = false → tr.code = tUNIF →
          exec i s = .next (s1.trapPart x tr ((x.lanes.map (fun q => 32 * q.1 + q.2)).headD 0) []))))) ∧
  (∀ (h : Head) (u : Bool) (k : Guard) (d a b c : VReg) (m : BitVec 3) (t : Ty) (p : BitVec 3) (cc : BitVec 4),
    TrapsF (.faddLr h u d a b) (fun g l => ([.v d.toNat (BitVec.ofNat 32 (fmtF32.fadd .rne (g.rv l a.toNat).toNat (g.rv l b.toNat).toNat).1)],
      (fmtF32.fadd .rne (g.rv l a.toNat).toNat (g.rv l b.toNat).toNat).2)) ∧
    TrapsF (.faddXf h u k d a b m) (fun g l => ([.v d.toNat (BitVec.ofNat 32 (fmtF32.fadd (.ofM m 0) (g.rv l a.toNat).toNat (g.rv l b.toNat).toNat).1)],
      (fmtF32.fadd (.ofM m 0) (g.rv l a.toNat).toNat (g.rv l b.toNat).toNat).2)) ∧
    TrapsF (.fmulLr h u d a b) (fun g l => ([.v d.toNat (BitVec.ofNat 32 (fmtF32.fmul .rne (g.rv l a.toNat).toNat (g.rv l b.toNat).toNat).1)],
      (fmtF32.fmul .rne (g.rv l a.toNat).toNat (g.rv l b.toNat).toNat).2)) ∧
    TrapsF (.fmulXf h u k d a b m) (fun g l => ([.v d.toNat (BitVec.ofNat 32 (fmtF32.fmul (.ofM m 0) (g.rv l a.toNat).toNat (g.rv l b.toNat).toNat).1)],
      (fmtF32.fmul (.ofM m 0) (g.rv l a.toNat).toNat (g.rv l b.toNat).toNat).2)) ∧
    TrapsF (.ffma h u k d a b c m) (fun g l =>
      ([.v d.toNat (BitVec.ofNat 32 (fmtF32.ffma (.ofM m 0) (g.rv l a.toNat).toNat (g.rv l b.toNat).toNat (g.rv l c.toNat).toNat).1)],
      (fmtF32.ffma (.ofM m 0) (g.rv l a.toNat).toNat (g.rv l b.toNat).toNat (g.rv l c.toNat).toNat).2)) ∧
    TrapsF (.hadd2 h u k d a b t m) (fun g l =>
      ([.v d.toNat (BitVec.ofNat 32 (halves t (fun f x y _ => f.fadd (.ofM m 0) x y) (g.rv l a.toNat) (g.rv l b.toNat) 0).1)],
      (halves t (fun f x y _ => f.fadd (.ofM m 0) x y) (g.rv l a.toNat) (g.rv l b.toNat) 0).2)) ∧
    TrapsF (.hmul2 h u k d a b t m) (fun g l =>
      ([.v d.toNat (BitVec.ofNat 32 (halves t (fun f x y _ => f.fmul (.ofM m 0) x y) (g.rv l a.toNat) (g.rv l b.toNat) 0).1)],
      (halves t (fun f x y _ => f.fmul (.ofM m 0) x y) (g.rv l a.toNat) (g.rv l b.toNat) 0).2)) ∧
    TrapsF (.hfma2 h u k d a b c t m) (fun g l =>
      ([.v d.toNat (BitVec.ofNat 32 (halves t (fun f x y z => f.ffma (.ofM m 0) x y z) (g.rv l a.toNat) (g.rv l b.toNat) (g.rv l c.toNat)).1)],
      (halves t (fun f x y z => f.ffma (.ofM m 0) x y z) (g.rv l a.toNat) (g.rv l b.toNat) (g.rv l c.toNat)).2)) ∧
    TrapsF (.fcmpLc h u p a b cc) (fun g l => ([.p p.toNat (fmtF32.fcmp cc.toNat (g.rv l a.toNat).toNat (g.rv l b.toNat).toNat).1],
      (fmtF32.fcmp cc.toNat (g.rv l a.toNat).toNat (g.rv l b.toNat).toNat).2)) ∧
    (∀ y f, (y, f) ∈ [(Ty.f32, fmtF32), (.f16, fmtF16), (.bf16, fmtBF16)] →
      TrapsF (.fcmpXf h u k p a b y cc) (fun g l => ([.p p.toNat (f.fcmp cc.toNat (g.rv l a.toNat).toNat (g.rv l b.toNat).toNat).1],
        (f.fcmp cc.toNat (g.rv l a.toNat).toNat (g.rv l b.toNat).toNat).2))))

/-- What completing does to the group of a lane- or group-scope issue (R37, R51, R92): a lane with one register result holds it, at once or as a pending
result where it is variable-latency outside bridle mode, and goes on at the next address; a uniform result is written, but to g0. -/
def Obligations.CompletionWritesResultsAndAdvances : Prop :=
  ∀ (s : State) (x : Site) (t : Team) (g : Group) (gi : Nat) (m : Mask), s.team? x.tid = some t → t.groups[gi]? = some g → x.mem = [(gi, m)] →
    (∀ (l k : Nat) (w : Word) (ls : List LRes), l < 32 → m.has l = true → l < g.lanes.length → (g.lane l).st ≠ .exited → (∀ q ∈ ls, q.lane < 32) →
      ls.filter (fun q => q.gi == gi && q.lane == l) = [⟨gi, l, [.v k w], 0⟩] →
      ∃ g', (s.finish x { lanes := ls }).group? x.tid gi = some g' ∧ (g'.lane l).pc = x.pc + x.len ∧ (g'.lane l).st = .ready ∧
        ((traits x.i).varLat = false ∨ t.la.bridle = true → g'.rv l k = w ∧ g'.pend = g.pend) ∧
        ((traits x.i).varLat = true → t.la.bridle = false → g'.rv l k = g.rv l k ∧ ∃ p, g'.pend = g.pend ++ [p] ∧ (l, [Wr.v k w]) ∈ p.lanes)) ∧
    (∀ (d : Nat) (w : Word), (traits x.i).varLat = false ∨ t.la.bridle = true →
      ∃ g', (s.finish x { gs := [(d, w)] }).group? x.tid gi = some g' ∧ g'.rg d = (if d = 0 then 0 else w) ∧ ∀ k, k ≠ d → g'.rg k = g.rg k)

/-- What completing leaves unchanged (R37, R51, R56): every vector register of every lane, every predicate, every uniform register and every flag that
the results do not name; the control registers, roles and store queues; and everything outside the groups that issued. -/
def Obligations.CompletionFrame : Prop :=
  ∀ (s : State) (x : Site) (t : Team) (r : Res), s.team? x.tid = some t → (∀ q ∈ r.lanes, q.lane < 32) →
    { s.finish x r with teams := s.teams } = s ∧ (∀ k, k ≠ x.tid → (s.finish x r).team? k = s.team? k) ∧
    ∃ u, (s.finish x r).team? x.tid = some u ∧ u.shm = t.shm ∧ u.bars = t.bars ∧ u.halt = t.halt ∧ u.tickets = t.tickets ∧ u.msgs = t.msgs ∧
      u.la = t.la ∧ u.groups.length = t.groups.length ∧
      ∀ j g, t.groups[j]? = some g → ∃ g', u.groups[j]? = some g' ∧ (j ∉ x.mem.map Prod.fst → g' = g) ∧
        g'.fpctl = g.fpctl ∧ g'.seed = g.seed ∧ g'.permBase = g.permBase ∧ g'.role = g.role ∧ g'.quarter = g.quarter ∧ g'.sq = g.sq ∧ g'.wm = g.wm ∧
        (∀ l k, l < 32 → (∀ q ∈ r.lanes, q.gi = j → q.lane = l → ∀ w, Wr.v k w ∉ q.ws) → g'.rv l k = g.rv l k) ∧
        (∀ l p, (∀ q ∈ r.lanes, q.gi = j → q.lane = l → ∀ b, Wr.p p b ∉ q.ws) → g'.rp l p = g.rp l p) ∧
        (∀ k, (∀ q ∈ r.gs, q.1 ≠ k) → g'.rg k = g.rg k) ∧
        (∀ l, (∀ q ∈ r.lanes, q.gi = j → q.lane = l → q.fl = 0 ∧ ∀ f, Wr.f f ∉ q.ws) → (g'.lane l).fl = (g.lane l).fl) ∧
        (∀ l, (g'.lane l).depth = (g.lane l).depth ∧ (g'.lane l).resv = (g.lane l).resv)

/-- The instructions that work on registers, predicates, flags and program counters (R310, R337, R372, R380, R393, R431) change no byte of memory, pad
or team shared memory, no barrier, ticket or message, and nothing outside the teams, whatever they come to. A load from team shared memory, and a
plain one-word load from the pad, leaves every byte of memory, pad and team shared memory as it was (R157, R374). -/
def Obligations.InstructionsThatLeaveMemory : Prop :=
  (∀ (i : Instr) (s s2 : State), registerOnly i = true → exec i s = .next s2 →
    { s2 with teams := s.teams } = s ∧
    s2.teams.map (fun t => (t.tid, t.la, t.shm, t.bars, t.tickets, t.msgs)) = s.teams.map (fun t => (t.tid, t.la, t.shm, t.bars, t.tickets, t.msgs))) ∧
  (∀ (h : Head) (u : Bool) (k : Guard) (d a o : VReg) (w : BitVec 3) (f : BitVec 20) (s s2 : State) (i : Instr),
    i ∈ [Instr.ldsLm h u d a o, .ldsXm h u k d a w f, .ldpLm h u d a o] → exec i s = .next s2 →
    s2.mem = s.mem ∧ s2.pad = s.pad ∧ s2.teams.map (fun t => (t.tid, t.shm)) = s.teams.map (fun t => (t.tid, t.shm)))

/-- In free mode a store leaves its bytes in its group's store queue (R157, R161): no byte of team shared memory or the pad changes at issue, and none
of memory but for the D bit of a page (R149). For a store to team shared memory the group then reads those bytes in their place, and every other
byte as before. A store leaves the queue in order (R161): the head of a free team's queue, to team shared memory, writes exactly its bytes there and
nothing in memory or the pad; to the pad, it goes on its way to the pad behind the core's other writes in flight, the model's reading of R161 and
R166 (log 7); and when the pad acknowledges it, exactly its bytes change. -/
def Obligations.StoresQueueAndLand : Prop :=
  ((∀ (h : Head) (k : Guard) (d a o : VReg) (w : BitVec 3) (r : BitVec 2) (f : BitVec 20) (s s2 : State) (i : Instr) (c : Cur) (t : Team) (g : Group),
    i ∈ [Instr.stsLm h d a o, .stsXm h k d a w f, .stpLm h d a o, .stpXm h k d a w r f] → s.issuer = some (c, t, g) → t.la.bridle = false →
    exec i s = .next s2 → s2.mem = s.mem ∧ s2.pad = s.pad ∧ s2.teams.map (fun t => (t.tid, t.shm)) = s.teams.map (fun t => (t.tid, t.shm))) ∧
  (∀ (s : State) (tid gi l a n : Nat) (bs : List Byte) (t : Team) (g : Group), s.tg tid gi = some (t, g) → t.la.bridle = false → g.bram = none →
    a % n = 0 → a + n ≤ t.la.hdr.shared → t.present a = true → bs.length = n →
    ∃ u g', (s.writeLane tid gi l false .shared a n bs).tg tid gi = some (u, g') ∧ u.shm = t.shm ∧
      ∀ b, (s.writeLane tid gi l false .shared a n bs).readByte u g' (.shm b) b = if a ≤ b ∧ b < a + n then (bs[b - a]?).getD 0 else s.readByte t g (.shm b) b) ∧
  (∀ (s : State) (tid gi l a n : Nat) (bs : List Byte) (t : Team) (g : Group), s.tg tid gi = some (t, g) → t.la.bridle = false → g.bram = none →
    (s.writeLane tid gi l false .global a n bs).pad = s.pad ∧
    (s.writeLane tid gi l false .global a n bs).teams.map (fun t => (t.tid, t.shm)) = s.teams.map (fun t => (t.tid, t.shm)) ∧
    ∀ b, (∀ e, s.tlb t.pcore t.ctx a = some e → b ≠ e.pteAt a + 6) → SMap.get 0 (s.writeLane tid gi l false .global a n bs).mem b = SMap.get 0 s.mem b)) ∧
  ((∀ (s : State) (tid gi sn a ch : Nat) (bs : List Byte) (t : Team) (g : Group) (r : List Sq), s.team? tid = some t → t.groups[gi]? = some g →
    t.la.bridle = false → g.sq = ⟨false, sn, .store (.shm a) bs ch⟩ :: r →
    ∃ s2 u g', s.drainHead tid gi = some s2 ∧ s2.team? tid = some u ∧ u.groups[gi]? = some g' ∧ g'.sq = r ∧ s2.mem = s.mem ∧ s2.pad = s.pad ∧
      ∀ b, SMap.get 0 u.shm b = if a ≤ b ∧ b < a + bs.length then (bs[b - a]?).getD 0 else SMap.get 0 t.shm b) ∧
  (∀ (s : State) (tid gi sn die sl off ch : Nat) (bs : List Byte) (t : Team) (g : Group) (r : List Sq), s.team? tid = some t → t.groups[gi]? = some g →
    t.la.bridle = false → g.sq = ⟨false, sn, .store (.pad die sl off) bs ch⟩ :: r →
    ∃ s2 g', s.drainHead tid gi = some s2 ∧ s2.group? tid gi = some g' ∧ g'.sq = r ∧ s2.mem = s.mem ∧ s2.pad = s.pad ∧
      s2.teams.map (fun t => (t.tid, t.shm)) = s.teams.map (fun t => (t.tid, t.shm)) ∧
      s2.cores = (s.modCore t.pcore (fun c => { c with fly := c.fly ++ [⟨.pad die sl off, bs, tid, gi, sn, []⟩] })).cores) ∧
  (∀ (s : State) (core k : Nat) (w : Flight) (die sl off : Nat), (s.core core).fly[k]? = some w → w.loc = .pad die sl off →
    (s.ack core k).mem = s.mem ∧ (s.ack core k).teams = s.teams ∧ (s.ack core k).cores = (s.modCore core (fun c => { c with fly := c.fly.eraseIdx k })).cores ∧
      ∀ b, SMap.get 0 (s.ack core k).pad b =
        if w.loc.at ≤ b ∧ b < w.loc.at + w.bytes.length then (w.bytes[b - w.loc.at]?).getD 0 else SMap.get 0 s.pad b))

/-- What an atomic leaves at its place (R315), by operation: ADD 0, MIN 1, MAX 2, AND 3, OR 4, XOR 5, XCHG 6, CAS 7, INC 8, DEC 9, MAXK 12 and MINK 13;
sums modulo the width, order signed for I32 and I64 and unsigned for N32. FADD 10 rounds the exact sum of two F32 values to nearest even, and gives
the canonical NaN for a NaN; HADD 11 adds an F32 value to the 16-bit one exactly and rounds once, to nearest even or, with random bits,
stochastically with saturation. -/
def Obligations.AtomicResultsByOperation : Prop :=
  (∀ (o b c : Word) (t : Ty) (r : Option Nat), t = .i32 ∨ t = .n32 →
    BitVec.ofNat 32 (atomNew 0 t r o.toNat b.toNat c.toNat) = o + b ∧
    BitVec.ofNat 32 (atomNew 1 .i32 r o.toNat b.toNat c.toNat) = (if b.slt o then b else o) ∧
    BitVec.ofNat 32 (atomNew 1 .n32 r o.toNat b.toNat c.toNat) = (if b.ult o then b else o) ∧
    BitVec.ofNat 32 (atomNew 2 .i32 r o.toNat b.toNat c.toNat) = (if o.slt b then b else o) ∧
    BitVec.ofNat 32 (atomNew 2 .n32 r o.toNat b.toNat c.toNat) = (if o.ult b then b else o) ∧
    BitVec.ofNat 32 (atomNew 3 t r o.toNat b.toNat c.toNat) = o &&& b ∧ BitVec.ofNat 32 (atomNew 4 t r o.toNat b.toNat c.toNat) = o ||| b ∧
    BitVec.ofNat 32 (atomNew 5 t r o.toNat b.toNat c.toNat) = o ^^^ b ∧ BitVec.ofNat 32 (atomNew 6 t r o.toNat b.toNat c.toNat) = b ∧
    BitVec.ofNat 32 (atomNew 7 t r o.toNat b.toNat c.toNat) = (if o = c then b else o) ∧
    BitVec.ofNat 32 (atomNew 8 t r o.toNat b.toNat c.toNat) = (if b.ule o then 0 else o + 1) ∧
    BitVec.ofNat 32 (atomNew 9 t r o.toNat b.toNat c.toNat) = (if o = 0 ∨ b.ult o then b else o - 1) ∧
    BitVec.ofNat 32 (atomNew 12 t r o.toNat b.toNat c.toNat) = (if o.ult b then b else o) ∧
    BitVec.ofNat 32 (atomNew 13 t r o.toNat b.toNat c.toNat) = (if b.ult o then b else o)) ∧
  (∀ (o b c : BitVec 64) (r : Option Nat),
    BitVec.ofNat 64 (atomNew 0 .i64 r o.toNat b.toNat c.toNat) = o + b ∧
    BitVec.ofNat 64 (atomNew 1 .i64 r o.toNat b.toNat c.toNat) = (if b.slt o then b else o) ∧
    BitVec.ofNat 64 (atomNew 2 .i64 r o.toNat b.toNat c.toNat) = (if o.slt b then b else o) ∧
    BitVec.ofNat 64 (atomNew 3 .i64 r o.toNat b.toNat c.toNat) = o &&& b ∧ BitVec.ofNat 64 (atomNew 4 .i64 r o.toNat b.toNat c.toNat) = o ||| b ∧
    BitVec.ofNat 64 (atomNew 5 .i64 r o.toNat b.toNat c.toNat) = o ^^^ b ∧ BitVec.ofNat 64 (atomNew 6 .i64 r o.toNat b.toNat c.toNat) = b ∧
    BitVec.ofNat 64 (atomNew 7 .i64 r o.toNat b.toNat c.toNat) = (if o = c then b else o)) ∧
  (∀ (o b c : Nat) (r : Option Nat),
    atomNew 10 .f32 r o b c = (fmtF32.fadd .rne o b).1 ∧
    ((fmtF32.val o).isNan = true ∨ (fmtF32.val b).isNan = true → atomNew 10 .f32 r o b c = 0x7FC00000) ∧
    (∀ t f, (t, f) ∈ [(Ty.f16, fmtF16), (.bf16, fmtBF16)] →
      atomNew 11 t none o b c = (f.round .rne false ((f.val o).add false (fmtF32.val b)).1).1 ∧
      ∀ x, atomNew 11 t (some x) o b c = (f.round (.sr x) true ((f.val o).add false (fmtF32.val b)).1).1))

/-- Decoding inverts encoding (R69-R88): every well-formed instruction, with every operand at every value its fields admit, is read back from its words,
and the bytes after them are left. -/
def Obligations.DecodingInvertsEncoding : Prop :=
  ∀ (i : Instr) (r : List Byte), isEvent i = false → wellFormed i = true → decode (encodeBytes i ++ r) = .ok (i, r)

/-- Words that the spec writes out decode to the instructions it gives them (R314, R317, R342, R345, R349, R353, R389, R390, R400, R416, R419, R432).
Reserved words are no instructions (R69, R70, R73, R77-R84, R87-R90): every word of a reserved major, sub-code or function; a nonzero field that
must be zero, a shift by more than 31 or a code out of its range in an L-set one-word format; of the two-word majors M = 4 of XF, M above 4 of XC,
ORD above 1 and W 7 of XM, and OP, SPACE, ORD and the low bits of XA; and UNI = 1 where R90 does not permit it, that is on every U-set word and on
every L-set word but those it names, of which the guarded branches, where R320 refuses it, have no clause here (log 15). Where the decoder reads a
word whose limit is not kept, the instruction it reads is not well formed, which is #ILL too (`legal`). -/
def Obligations.WordsOfTheSpecDecodeAndReservedOnesDoNot : Prop :=
  (decodeWords 0x0160C480 0 = .ok (.movLr ⟨false, .lane⟩ false 3 9) ∧
  decodeWords 0x0600C480 0x92B00000 = .ok (.movXi ⟨false, .lane⟩ false ⟨true, 1⟩ 3 9 .i32) ∧
  decodeWords 0x02E18080 0 = .ok (.movg ⟨false, .lane⟩ false 6 1) ∧
  decodeWords 0x06004103 0x70B08041 = .ok (.fshf ⟨false, .lane⟩ false ⟨false, 7⟩ 1 2 3 4 true) ∧
  decodeWords 0x06808184 0x70600040 = .ok (.atoms ⟨false, .lane⟩ ⟨false, 7⟩ 2 3 4 0 0 false 0 .n32) ∧
  decodeWords 0x06810405 0x7720C440 = .ok (.atomg ⟨false, .lane⟩ ⟨false, 7⟩ 4 8 5 6 7 false 1 .n32) ∧
  decodeWords 0x06004103 0x71000406 = .ok (.plop ⟨false, .lane⟩ false ⟨false, 7⟩ 1 2 3 6 true) ∧
  decodeWords 0x16A14206 0x70000800 = .ok (.shfl ⟨false, .group⟩ ⟨false, 7⟩ 5 4 6 0 false 2 false) ∧
  decodeWords 0x06204103 0x70100980 = .ok (.faddXf ⟨false, .lane⟩ false ⟨false, 7⟩ 1 2 3 2) ∧
  decodeWords 0x01804103 0 = .ok (.faddLr ⟨false, .lane⟩ false 1 2 3) ∧
  decodeWords 0x06628424 0x70100040 = .ok (.stg ⟨false, .lane⟩ ⟨false, 7⟩ 10 8 2 1 0 0x40) ∧
  decodeWords 0x06618110 0x105FFFF8 = .ok (.stpXm ⟨false, .lane⟩ ⟨false, 1⟩ 6 2 1 0 0xFFFF8) ∧
  decodeWords 0x14C10000 0 = .ok (.bar ⟨false, .group⟩ 1 false 0 false) ∧
  decodeWords 0x04C022C0 0 = .ok (.bar ⟨false, .lane⟩ 0 true 5 true) ∧
  decodeWords 0x04A80000 0 = .ok (.fenceFull ⟨false, .lane⟩) ∧
  decodeWords 0x90028C38 0 = .ok (.uadd ⟨false, .group⟩ 5 6 7) ∧
  decodeWords 0x44820000 0 = .ok (.nop ⟨true, .lane⟩) ∧
  decodeWords 0x14810000 0 = .ok (.exit ⟨false, .group⟩)) ∧
  (∀ (w v : Nat),
    let no : Prop := ∀ i, decodeWords w v = .ok i → wellFormed i = false
    (bit w 31 = false → 0x2A ≤ fld w 21 6 → fld w 21 6 ≤ 0x2F → decodeWords w v = .error .reserved) ∧
    (bit w 31 = false → 0x3A ≤ fld w 21 6 → fld w 21 6 ≤ 0x3E → decodeWords w v = .error .reserved) ∧
    (bit w 31 = true → 0x1C ≤ fld w 21 6 → fld w 21 6 ≤ 0x2F → decodeWords w v = .error .reserved) ∧
    (bit w 31 = true → 0x3B ≤ fld w 21 6 → decodeWords w v = .error .reserved) ∧
    (bit w 31 = false →
      (fld w 21 6 = 0x24 → 7 ≤ fld w 16 5 → decodeWords w v = .error .reserved) ∧
      (fld w 21 6 = 0x26 → fld w 14 2 = 3 → decodeWords w v = .error .reserved) ∧
      (fld w 21 6 = 0x0B ∨ fld w 21 6 = 0x17 ∨ fld w 21 6 = 0x1E → fld w 0 7 ≠ 0 → no) ∧
      (0x14 ≤ fld w 21 6 → fld w 21 6 ≤ 0x16 → 32 ≤ fld w 0 7 → no) ∧
      (fld w 21 6 = 0x17 → bit w 13 = true → no) ∧
      (fld w 21 6 = 0x22 ∨ fld w 21 6 = 0x23 → fld w 14 7 ≠ 0 ∨ fld w 0 7 ≠ 0 → no) ∧
      (fld w 21 6 = 0x24 → fld w 16 5 ≤ 5 → fld w 0 16 ≠ 0 → ∃ e, decodeWords w v = .error e) ∧
      (fld w 21 6 = 0x25 → 4 ≤ fld w 18 3 ∨ fld w 0 18 ≠ 0 → no) ∧
      (fld w 21 6 = 0x26 → fld w 0 6 ≠ 0 ∨ (bit w 13 = false ∧ fld w 7 6 ≠ 0) ∨ (bit w 6 = true ∧ fld w 14 2 ≠ 0) → no) ∧
      (fld w 21 6 = 0x27 → fld w 0 14 ≠ 0 ∨ (bit w 15 = true ∧ bit w 14 = true) → no) ∧
      (fld w 21 6 = 0x28 ∨ fld w 21 6 = 0x29 → 3 ≤ fld w 4 3 ∨ fld w 14 2 ≠ 0 ∨ fld w 0 4 ≠ 0 → no) ∧
      (fld w 21 6 = 0x30 → (0x12 ≤ fld v 20 8 ∧ fld v 20 8 ≤ 0x1F) ∨ (0x2C ≤ fld v 20 8 ∧ fld v 20 8 ≤ 0x3F) ∨ 0x44 ≤ fld v 20 8 → no) ∧
      (fld w 21 6 = 0x31 → 0x11 ≤ fld v 20 8 ∨ fld v 10 3 = 4 → no) ∧
      (fld w 21 6 = 0x32 → 5 ≤ fld v 20 8 ∨ 5 ≤ fld v 10 3 → no) ∧
      (fld w 21 6 = 0x33 → 0x0B ≤ fld v 20 8 ∨ 2 ≤ fld w 2 2 ∨ fld w 4 3 = 7 → no) ∧
      (fld w 21 6 = 0x34 → 14 ≤ fld v 24 4 ∨ fld v 22 2 = 3 ∨ 4 ≤ fld v 10 3 ∨ fld v 0 6 ≠ 0 → no) ∧
      (fld w 21 6 = 0x35 → 6 ≤ fld v 20 8 → no) ∧
      (fld w 21 6 = 0x36 → 5 ≤ fld v 20 8 → no) ∧
      (fld w 21 6 = 0x37 → 2 ≤ fld v 20 8 → no) ∧
      (fld w 21 6 = 0x38 → 3 ≤ fld v 20 8 → no) ∧
      (fld w 21 6 = 0x39 → 2 ≤ fld v 20 8 → no)) ∧
    (bit w 27 = true →
      (bit w 31 = true → ∃ e, decodeWords w v = .error e) ∧
      (bit w 31 = false →
        (fld w 21 6 = 0x19 ∨ fld w 21 6 = 0x1B ∨ fld w 21 6 = 0x1D ∨ (0x20 ≤ fld w 21 6 ∧ fld w 21 6 ≤ 0x29) → no) ∧
        (fld w 21 6 = 0x32 → fld v 20 8 = 3 ∨ fld v 20 8 = 4 → no) ∧
        (fld w 21 6 = 0x33 → fld v 20 8 ≠ 0 ∧ fld v 20 8 ≠ 2 ∧ fld v 20 8 ≠ 4 ∧ fld v 20 8 ≠ 6 ∨ fld w 2 2 ≠ 0 → no) ∧
        (0x34 ≤ fld w 21 6 → fld w 21 6 ≤ 0x39 → no))) ∧
    (twoWords w = true ↔ 0x30 ≤ fld w 21 6))

/-- ANDN, BREV, CLZ and POPC whole (R312, R322, R327, R401): words, effect by bit, and #ILL of the illegal forms, which nothing else of the instruction
precedes. -/
def Obligations.AndNotReverseAndCountInstructions : Prop :=
  (∀ (h : Head) (u : Bool) (k : Guard) (d a b : VReg),
    encode (.andn h u k d a b) = [0x06000000 + h.code + ob u * 2 ^ 27 + d.toNat * 2 ^ 14 + a.toNat * 2 ^ 7 + b.toNat, 0x00F00040 + k.code] ∧
    encode (.brev h u k d a) = [0x06000000 + h.code + ob u * 2 ^ 27 + d.toNat * 2 ^ 14 + a.toNat * 2 ^ 7, 0x00900040 + k.code] ∧
    encode (.clz h u k d a) = [0x06000000 + h.code + ob u * 2 ^ 27 + d.toNat * 2 ^ 14 + a.toNat * 2 ^ 7, 0x00800040 + k.code] ∧
    encode (.popc h u k d a) = [0x06000000 + h.code + ob u * 2 ^ 27 + d.toNat * 2 ^ 14 + a.toNat * 2 ^ 7, 0x00700040 + k.code] ∧
    Computes (.andn h u k d a b) (fun g l => [.v d.toNat (g.rv l a.toNat &&& ~~~(g.rv l b.toNat))]) ∧
    Computes (.brev h u k d a) (fun g l => [.v d.toNat (g.rv l a.toNat).reverse]) ∧
    Computes (.clz h u k d a) (fun g l => [.v d.toNat (BitVec.ofNat 32 (((List.range 32).find? (fun j => (g.rv l a.toNat).getMsbD j)).getD 32))]) ∧
    Computes (.popc h u k d a) (fun g l => [.v d.toNat (BitVec.ofNat 32 ((List.range 32).filter (fun j => (g.rv l a.toNat).getLsbD j)).length)])) ∧
  (0x00000001#32).reverse = 0x80000000 ∧ (0x12345678#32).reverse = 0x1E6A2C48 ∧
  ((List.range 32).find? (fun j => (0x00010000#32).getMsbD j)) = some 15 ∧ ((List.range 32).filter (fun j => (0xF0F00001#32).getLsbD j)).length = 9 ∧
  (∀ (w v : Nat), bit w 31 = false → fld w 21 6 = 0x30 →
    (fld v 20 8 = 0x0F → fld v 0 6 ≠ 0 ∨ fld v 6 4 ≠ 1 ∨ fld v 10 10 ≠ 0 → ∃ e, decodeWords w v = .error e) ∧
    (fld v 20 8 = 0x09 ∨ fld v 20 8 = 0x08 ∨ fld v 20 8 = 0x07 → fld w 0 7 ≠ 0 ∨ fld v 0 6 ≠ 0 ∨ fld v 6 4 ≠ 1 ∨ fld v 10 10 ≠ 0 →
      ∃ e, decodeWords w v = .error e)) ∧
  (∀ (s s1 s2 : State) (tid gi lane pc : Nat) (new : Bool) (t : Team) (g : Group) (w v : Nat) (e : Reject),
    s.team? tid = some t → t.la.bridle = false → t.groups[gi]? = some g → canIssue t gi g = true → s.mayIssue tid gi = true →
    g.selectPath = some (pc, new) → (g.lane lane).st = .ready → (g.lane lane).pc = pc → g.mayRun pc new lane = true → s1 = s.selected tid t gi g pc new →
    fetch s1 (t.selecting gi g pc new) gi lane pc (g.selecting t.halt.isSome pc new) = .words s2 w v → decodeWords w v = .error e →
    issueMove s tid gi lane = settled (.next ((s2.passOver (t.selecting gi g pc new) gi g.quarter (bit w 31)).trapEarly
      ⟨tid, gi, g.bundleOf pc lane, pc⟩ (g.selecting t.halt.isSome pc new) { code := tILL })))

/-- A step runs the decoded instruction (R24, R28, R70, R72, R257): an issue of the agenda, by a ready lane on the current path of a group in free mode
that may issue and that its quarter's pipe chooses, is `exec` of what the fetched words decode to, for the lanes of its bundle; then what comes
about settles. Of a path that goes on, a bundle other than the one that issued last waits while that one is ready there (R28, the example after R29;
log 44). A group its pipe does not choose issues nothing; one whose instruction had still to be fetched, and which turns out to need a pipe that
chooses another, has fetched and issues nothing (the model's reading, log 20). A word that decodes to nothing raises #ILL, a fetch that faults its
trap, and one that waits parks the bundle. -/
def Obligations.StepRunsTheDecodedInstruction : Prop :=
  ∀ (s s0 s1 : State) (r : List Move) (tid gi lane pc : Nat) (new : Bool) (t : Team) (g : Group),
    s.agenda = .issue tid gi lane :: r → s.powered = true → s0 = { s with agenda := r } →
    s0.team? tid = some t → t.la.bridle = false → t.groups[gi]? = some g → canIssue t gi g = true → g.selectPath = some (pc, new) →
    (g.lane lane).st = .ready → (g.lane lane).pc = pc → s1 = s0.selected tid t gi g pc new →
    (s0.mayIssue tid gi = false → step s = .next s0) ∧
    (s0.mayIssue tid gi = true → g.mayRun pc new lane = false → step s = settled (.next s0)) ∧
    (s0.mayIssue tid gi = true → g.mayRun pc new lane = true →
    (∀ s2 w v i, fetch s1 (t.selecting gi g pc new) gi lane pc (g.selecting t.halt.isSome pc new) = .words s2 w v → decodeWords w v = .ok i →
      ∀ s3, s3 = { s2.passOver (t.selecting gi g pc new) gi g.quarter (bit w 31) with cur := some ⟨tid, gi, g.bundleOf pc lane, pc⟩ } →
        (s0.knowsPipe tid gi = true ∨ (s0.fetchedOnly s3 tid gi).mayIssue tid gi = true → step s = settled (exec i s3)) ∧
        (s0.knowsPipe tid gi = false → (s0.fetchedOnly s3 tid gi).mayIssue tid gi = false → step s = settled (.next (s0.fetchedOnly s3 tid gi)))) ∧
    (∀ s2 w v e, fetch s1 (t.selecting gi g pc new) gi lane pc (g.selecting t.halt.isSome pc new) = .words s2 w v → decodeWords w v = .error e →
      step s = settled (.next ((s2.passOver (t.selecting gi g pc new) gi g.quarter (bit w 31)).trapEarly ⟨tid, gi, g.bundleOf pc lane, pc⟩
        (g.selecting t.halt.isSome pc new) { code := tILL }))) ∧
    (∀ code a, fetch s1 (t.selecting gi g pc new) gi lane pc (g.selecting t.halt.isSome pc new) = .fault code a →
      step s = settled (.next (s1.trapEarly ⟨tid, gi, g.bundleOf pc lane, pc⟩ (g.selecting t.halt.isSome pc new) { code := code, addr := a }))) ∧
    (∀ p, fetch s1 (t.selecting gi g pc new) gi lane pc (g.selecting t.halt.isSome pc new) = .park p →
      step s = settled (.next (s1.modGroup tid gi (fun h => h.park (g.bundleOf pc lane) p)))))

/-- A fetch reads the words at its address (R63, R70, R179, R289, R291): past the code segment it raises #BOUNDS; where neither the loop buffer nor the
instruction cache holds them, they are the little-endian words of memory at the translated address, a lost sector of a mirrored page first restored
from its copy; a lost sector with no copy raises #MCHK with the virtual address, and a two-word instruction at 4 modulo 8 #ALIGN. -/
def Obligations.FetchReadsTheCodeBytes : Prop :=
  ∀ (s : State) (t : Team) (gi lane pc : Nat) (g : Group),
    (t.la.hdr.codesz ≤ pc → fetch s t gi lane pc g = .fault tBOUNDS pc) ∧
    (∀ l n rest s1, pc < t.la.hdr.codesz → pc % 4 = 0 → g.loopWords pc = none →
      s.translate t.pcore t.ctx (t.la.base + pc) false true (g.lane lane).declined = .ok ((l, n) :: rest) → l.at % 8 = pc % 8 →
      (s.core t.pcore).icache.find? (fun p => p.1 == l.at / 32) = none → s1 = s.fromMirror [(l, 4)] →
      (s.lostIn [(l, 4)] = true → fetch s t gi lane pc g = .fault tMCHK (t.la.base + pc)) ∧
      (s.lostIn [(l, 4)] = false →
        (twoWords (s1.memNat l.at 4) = true → pc % 8 = 4 → fetch s t gi lane pc g = .fault tALIGN pc) ∧
        (twoWords (s1.memNat l.at 4) = true → pc % 8 = 0 →
          ∃ s2, fetch s t gi lane pc g = .words s2 (s1.memNat l.at 4) (s1.memNat (l.at + 4) 4) ∧ s2.mem = s1.mem) ∧
        (twoWords (s1.memNat l.at 4) = false → ∃ s2, fetch s t gi lane pc g = .words s2 (s1.memNat l.at 4) 0 ∧ s2.mem = s1.mem)))

/-- What reset leaves (R144, R234, R242, R258, R259, R269, R285): no team, grid, task or saved state; every context and queue disabled, with a time
slice of 100 and 128 queues; every power block in pool OC1; budgets, class defaults and card costs as tabled for the part modelled (log 10);
partition 0 alone enabled, with its masks; the first cluster offered to die 0. Memory and pads are in canonical form, and no issue is under way. -/
def Obligations.ResetState : Prop :=
  State.reset.teams = [] ∧ State.reset.saved = [] ∧ State.reset.grids = [] ∧ State.reset.tasks = [] ∧ State.reset.cur = none ∧ State.reset.memWf = true ∧
  State.reset.powered = true ∧ State.reset.lastDie = 3 ∧ State.reset.dies.length = 4 ∧
  (∀ x, x < 1024 → State.reset.ctxEn x = false ∧ State.reset.ctxPriv x = false ∧ State.reset.bar (ctxOff x 0x30) = 100 * 2 ^ 20 + 128 ∧
    ∀ q o, q < 128 → o < 32 → State.reset.bar (queueOff x q o) = 0) ∧
  (∀ d, d < 4 →
    State.reset.bar (powOff d 0) = 4300000 ∧ State.reset.bar (powOff d 4) = 1000000 ∧ State.reset.bar (powOff d 0xC) = 15 * 2 ^ 24 + 40 * 2 ^ 16 + 7 * 2 ^ 8 + 7 ∧
    (∀ b, b < 32 → State.reset.pool d b = 1) ∧
    State.reset.bar64 (powOff d 0x20) = 26000 * 2 ^ 32 + 80000 ∧ State.reset.bar64 (powOff d 0x28) = 38000 * 2 ^ 32 + 140000 ∧
    State.reset.bar64 (powOff d 0x30) = 44000 * 2 ^ 32 + 165000 ∧ State.reset.bar64 (powOff d 0x38) = 50000 * 2 ^ 32 + 195000 ∧
    State.reset.bar64 (powOff d 0x40) = 4000 * 2 ^ 32 + 6000 ∧ State.reset.bar64 (powOff d 0x48) = 5600 * 2 ^ 32 + 9000 ∧
    State.reset.bar64 (powOff d 0x50) = 6400 * 2 ^ 32 + 11000 ∧ State.reset.bar64 (powOff d 0x58) = 7300 * 2 ^ 32 + 13500 ∧
    (∀ k, 1 ≤ k → k ≤ 8 → State.reset.bar64 (powOff d (0x60 + 8 * k)) =
      (if k ≤ 4 then 1500 * 2 ^ 32 + 2000 else if k ≤ 6 then 2500 * 2 ^ 32 + 3000 else if k = 7 then 8000 * 2 ^ 32 + 20000 else 3000 * 2 ^ 32 + 4000)) ∧
    (∀ p, p < 16 → State.reset.bar (partOff d p 0x38) = (if p = 0 then 2 ^ 14 else 0)) ∧
    (∀ i j, i < 7 → j < 64 → (State.reset.bar64 (partOff d 0 (8 * i))).testBit j = (decide (7 ≤ j) && decide (j ≤ 51) && decide (j % 7 = i))))

/-- No issue stays under way between steps: where none is, every step leaves none. That an issue is one step, from the choice of a path (R28) to its
end, is the model's choice (log 4). -/
def Obligations.NoIssueStaysUnderWay : Prop :=
  ∀ (s s2 : State), s.cur = none → step s = .next s2 → s2.cur = none

/-- Without power nothing changes but by the power-up (R265, R306): any other move leaves everything but the agenda as it was. -/
def Obligations.WithoutPowerNothingMoves : Prop :=
  ∀ (s : State), s.powered = false →
    (s.agenda = [] → step s = .next s) ∧
    (∀ m r, s.agenda = m :: r → m ≠ .event .powerUp → step s = .next { s with agenda := r })

/-- The hard-wired registers (R51): g0 reads 0 and ignores writes, and p7 reads true in every lane and ignores writes; every other register reads what
was last written to it, and a write changes no other. Memory reads back what is written (R4): bytes at their addresses and nothing else; a number is
stored with its low byte first, and read back whole. -/
def Obligations.RegistersAndMemoryReadBackWhatIsWritten : Prop :=
  (∀ (g : Group) (l r : Nat) (x : Word) (b : Bool), l < 32 →
    g.rg 0 = 0 ∧ g.wg 0 x = g ∧ g.rp l 7 = true ∧ g.wp l 7 b = g ∧
    (g.wv l r x).rv l r = x ∧ (∀ l' r', l' < 32 → (l', r') ≠ (l, r) → (g.wv l r x).rv l' r' = g.rv l' r') ∧
    (r ≠ 0 → (g.wg r x).rg r = x) ∧ (∀ r', r' ≠ r → (g.wg r x).rg r' = g.rg r') ∧
    (r ≠ 7 → (g.wp l r b).rp l r = b) ∧ (∀ l' r', l' < 32 → (l', r') ≠ (l, r) → (g.wp l r b).rp l' r' = g.rp l' r')) ∧
  ((∀ (m : SMap Byte) (a b : Nat) (bs : List Byte),
    SMap.get 0 (setBytes m a bs) b = if a ≤ b ∧ b < a + bs.length then (bs[b - a]?).getD 0 else SMap.get 0 m b) ∧
  (∀ n x, leNat (leBytes n x) = x % 2 ^ (8 * n)) ∧ (∀ n x i, i < n → (leBytes n x)[i]? = some (BitVec.ofNat 8 (x / 2 ^ (8 * i)))) ∧
  (∀ (s : State) (pa n x : Nat), leNat (({ s with mem := setBytes s.mem pa (leBytes n x) } : State).memBytes pa n) = x % 2 ^ (8 * n)))

/-- The events between a core's instructions (R14, R25, R28, R29, R93, R157, R166, R194, R257, R407): the formers run once at every clock count that is
a multiple of 4; a path yields after 32 bundles, but for a cinch window, which closes when it is over; a pending result is written; a write in
flight is acknowledged unless an earlier one to its line or its memory holds it back; a speculation commits; a count of passed-over clocks stops at
64 (the model's choice, log 20); and a message that is the first in flight between its nodes arrives. -/
def Obligations.CoreEventsComplete : Prop :=
  (∀ (s : State) (core : Nat), exec (.bundleFormation core) s = .next (if s.blockClk core % 4 = 0 ∧ (s.core core).formed ≠ s.blockClk core + 1 then
    ({ s with teams := s.teams.map (fun t => if t.pcore = core ∧ t.la.bridle = false then { t with groups := t.groups.map Group.form } else t) } : State).modCore core
      (fun c => { c with formed := s.blockClk core + 1 }) else s)) ∧
  (∀ (s : State) (tid gi : Nat) (t : Team) (g : Group), s.team? tid = some t → t.groups[gi]? = some g →
    (∀ p, 32 ≤ g.issued → g.cinch = none → { g with issued := 32 }.selectPath = some (p, true) →
      ∃ s2, exec (.fairnessTimer tid gi) s = .next s2 ∧ s2.group? tid gi = some { g with path := some p, issued := 0 }) ∧
    (g.issued < 32 ∨ g.cinch ≠ none → ∃ s2, exec (.fairnessTimer tid gi) s = .next s2 ∧ s2.group? tid gi = some g) ∧
    (∃ s2, exec (.cinchWindowClose tid gi) s = .next s2 ∧ s2.group? tid gi = some (if g.cinchOver t.la.bridle then { g with cinch := none } else g)) ∧
    (∃ s2, exec (.issueAgeLimit tid gi true) s = .next s2 ∧ s2.group? tid gi = some { g with cntU := min g.cntU 64 }) ∧
    (∃ s2, exec (.issueAgeLimit tid gi false) s = .next s2 ∧ s2.group? tid gi = some { g with cntL := min g.cntL 64 }) ∧
    (∀ k e m, g.pend[k]? = some e → (∀ q ∈ e.lanes, m.has q.1 = true) →
      ∃ s2, exec (.variableLatencyWriteback tid gi k m) s = .next s2 ∧ s2.group? tid gi = some { g.deliverOne e with pend := g.pend.eraseIdx k }) ∧
    (∀ b, g.bram = some b → b.past = false → exec (.brambleCommit tid gi) s = .next s) ∧
    (g.bram = none → exec (.brambleCommit tid gi) s = .next s) ∧
    exec (.brambleCommit tid gi) s = .next (s.commit tid gi) ∧
    (∀ k m, t.msgs[k]? = some m → m.landed = false → s.firstFlying t m = true →
      landMsg t.msgs k = (t.msgs.eraseIdx k).filter (·.landed) ++ { m with landed := true } :: (t.msgs.eraseIdx k).filter (fun n => !n.landed) ∧
      ∃ s2, exec (.channelMessageArrive tid k) s = .next s2 ∧ s2.team? tid = some { t with msgs := landMsg t.msgs k })) ∧
  (∀ (s : State) (core k : Nat) (w : Flight), (s.core core).fly[k]? = some w →
    (flyFree (s.core core).fly k = true → s.flightHeld w = false →
      exec (.writeAcknowledge core k) s = .next ((s.ack core k).releaseHeads core)) ∧
    (flyFree (s.core core).fly k = false ∨ s.flightHeld w = true → exec (.writeAcknowledge core k) s = .next s))

/-- Placement and its end (R45, R47, R49, R198, R242, R244, R252, R281-R284, R287): the cluster of a grid that goes next is placed; a task is the head
of its bin's queue on the first core that takes it; the dispatcher leaves an empty or spent bin for the next that is not empty; a cluster is asked
to stop, by a pre-emption, at a time slice's end, or for a realtime cluster, which keeps the cores; a stopped team is saved or runs again; a
restored one reads its save block; and a team whose groups have all retired leaves, its grid counting it. A placement and a retirement wait while a
sector to be written back waits for its memory (R262). That a time slice of 0 is none (log 29), and that a cluster is saved whole and a team runs
again in its place (log 31), is the model's choice. -/
def Obligations.PlacementEventsComplete : Prop :=
  (∀ (s s0 : State) (gid d : Nat) (w : Want) (g : Grid) (sps : List Spot) (b : Bool) (i : Instr), s0 = { s with claims := SMap.set [] s.claims gid [] } → i = (if b then .bridleClusterPlacement gid else .clusterPlacement gid) →
    s.nextWant gid b = some (w, d, sps) →
    sps.any (fun sp => s.coreStuck w.ctx [] sp.core) = false →
    (w.back = false → s.grid? gid = some g → exec i s = .next ((s0.placeNew g w d sps).admitted d (0, gid))) ∧
    (w.back = true → exec i s = .next ((s0.placeBack w d sps).admitted d (0, gid)))) ∧
  (∀ (s : State) (die : Nat) (k : Task) (r : List Task) (ty : TaskType) (sp : Spot) (sl : List Nat), s.binTasks die (s.die die).bin = k :: r →
    s.binSpent die = false → s.launchFirst k = false → s.taskType k.ctx (fieldAt k.bytes 4 4 % 64) = .ok (some ty) →
    s.taskTakes k (s.taskLaunch k ty) = some (sp, sl) → s.coreStuck k.ctx k.spans sp.core = false → exec (.taskPlacement die) s =
      .next ((s.taskTouch k.ctx (fieldAt k.bytes 4 4 % 64)).placeTask k ty sp sl)) ∧
  (∀ (s : State) (die b : Nat), s.binTasks die (s.die die).bin = [] ∨ s.binSpent die = true → s.nextBin die = some b → die < s.dies.length →
    ∃ s2, exec (.binSwitch die) s = .next s2 ∧ (s2.die die).bin = b ∧ (s2.die die).binMade = 0 ∧ (s2.die die).binSince = (s.die die).time) ∧
  (∀ (s : State) (tid : Nat) (t : Team), s.team? tid = some t →
    exec (.preemption tid) s = .next ((s.cluster t).foldl (fun s u => s.modTeam u.tid (Team.stop 1)) s) ∧
    (s.sliceDue t = true → s.wanted t = true ∨ (∀ g ∈ t.groups, g.ready = 0) →
      exec (.timeSliceExpiry tid) s = .next ((s.modTeam tid (fun u => { u with slices := s.slicesOf t })).preempt tid)) ∧
    (s.sliceDue t = true → s.wanted t = false → (∃ g ∈ t.groups, g.ready ≠ 0) →
      exec (.timeSliceExpiry tid) s = .next (s.modTeam tid (fun u => { u with slices := s.slicesOf t }))) ∧
    (s.sliceDue t = false → exec (.timeSliceExpiry tid) s = .next s) ∧
    (s.sliceDue t = true ↔ t.idle = false ∧ bitsAt (s.bar (ctxOff t.ctx 0x30)) 20 12 ≠ 0 ∧
      t.slices < ((s.die (dieOf t.pcore)).time - t.since) / (10000 * bitsAt (s.bar (ctxOff t.ctx 0x30)) 20 12)) ∧
    (t.halt = none → exec (.teamSaveComplete tid) s = .next s) ∧
    (t.halt ≠ none → t.rerunnable = false → exec (.teamSaveComplete tid) s = .next (s.saveCluster t)) ∧
    (∀ u, t.halt ≠ none → t.rerunnable = true → s.shmQuiet tid = true → (∀ k ∈ t.tickets, k.busy = false) → s.again t = .ok u →
      exec (.teamSaveComplete tid) s = .next (((s.drainTeam t).modTeam tid (fun _ => u)).countEvent evRerun)) ∧
    (∀ d b a u, t.back = some (d, b, a) → s.loadBlock t d a = .ok u →
      exec (.teamRestoreComplete tid) s = .next ((if s.padSave t.ctx then s else s.devTouch t.ctx a t.saveMap.size).modTeam tid (fun _ => u.restored (s.die (dieOf t.pcore)).time))) ∧
    (t.back = none → exec (.teamRestoreComplete tid) s = .next s)) ∧
  (∀ (h : Halt) (t : Team), t.halt = none → (Team.stop 1 t).halt = some ⟨1, 0, 0, 0, 0, 0, 0, 0, 0, [], []⟩ ∧ (∀ g ∈ (Team.stop 1 t).groups, g.stopped = true) ∧
    ∀ u, u.halt = some h → Team.stop 1 u = u) ∧
  (∀ (s s1 : State) (tid : Nat) (t : Team), s.anyTeam? tid = some t →
    (s.retirable t = true → (∀ k ∈ s.saved, k.team.tid = tid → k.trapped = false) →
      ((s.team? tid).isSome = true → s.stuckIn t.pcore (fun (y : L1Sec) => y.ctx == t.ctx && y.shr == .core) = none) →
      s1 = (t.joins.map Prod.fst).eraseDups.foldl (fun s x => s.joinCards tid 0 0 x) s →
      (t.la.bridle = true → ((s1.team? tid).bind (·.halt)).isSome = true → exec (.teamRetire tid) s = .next s1) ∧
      (t.la.bridle = false ∨ ((s1.team? tid).bind (·.halt)).isSome = false →
        ∃ s2, exec (.teamRetire tid) s = .next s2 ∧ s2.anyTeam? tid = none ∧ (∀ g, t.task = none → s1.grid? t.grid = some g → t.joins = [] →
        (t.la.bridle = false → g.la.bridle = false → { g with retired := g.retired + 1 }.over = false → s2.grid? t.grid = some { g with retired := g.retired + 1 }) ∧
        (t.la.bridle = false → g.la.bridle = false → { g with retired := g.retired + 1 }.over = true → s2.grid? t.grid = none) ∧
        (t.la.bridle = true → g.la.bridle = true → s2.grid? t.grid = some { g with retired := g.retired + 1, held := g.held ++ [(t.lin, t.held)] })))) ∧
    (s.retirable t = false → exec (.teamRetire tid) s = .next s)) ∧
  (∀ (s : State) (gid : Nat) (w : Want) (cs : List Nat), s.wants.find? (fun w => w.gid == gid) = some w → s.waitedLong w = true → s.takes w = none →
    SMap.get [] s.claims gid = [] → s.yielding w = some cs → exec (.realtimePreempt gid) s = .next ((s.teams.filter (fun t => cs.contains t.pcore)).foldl
      (fun s t => s.preempt t.tid) { s with claims := SMap.set [] s.claims gid cs }))

/-- Round ends, merges and job cards (R134, R172, R174, R201-R207, R217-R222, R230, R245, R264): the steps of a round end, and its resumption; a grid's
merges; a card that may start reads its input and runs, lands line by line, and completes its ticket or gives way to its successor; and a failed one
fails its ticket, its lines' counts left as they stand (R135). The model's choices: a card reads at its start and lands line by line (log 8), its
failure (log 27), what a round's end does where the rules leave a case (log 32), and that a card's writes join its team's versions at an EWT, the
round's end or retirement (log 46). -/
def Obligations.RoundMergeAndCardEventsComplete : Prop :=
  (∀ (s s1 s2 s3 : State) (tid n : Nat) (t : Team), s.team? tid = some t → n = t.groups.length →
    (t.roundOver = false ∨ 3 ≤ t.roundStep → exec (.roundEnd tid) s = .next s) ∧
    (t.roundOver = true → t.roundStep = 0 → s1 = ((s.commitGroups tid n).countLnxt tid).modTeam tid (Team.atStep 1) →
      (∀ u, (s.commitGroups tid n).team? tid = some u → u.halt = none) → (∀ u, s1.team? tid = some u → u.halt = none) →
      State.runEnds true tid n 0 s1 = (s2, true) → State.runEnds false tid n 0 (s2.modTeam tid (Team.atStep 2)) = (s3, true) →
      exec (.roundEnd tid) s = .next ((s3.testBars tid).modTeam tid (Team.atStep 3))) ∧
    (t.roundOver = true → t.roundStep = 1 → t.halt = none → State.runEnds true tid n 0 s = (s2, true) →
      State.runEnds false tid n 0 (s2.modTeam tid (Team.atStep 2)) = (s3, true) →
      exec (.roundEnd tid) s = .next ((s3.testBars tid).modTeam tid (Team.atStep 3))) ∧
    (t.roundOver = true → t.roundStep = 2 → t.halt = none → State.runEnds false tid n 0 (s.modTeam tid (Team.atStep 2)) = (s3, true) →
      exec (.roundEnd tid) s = .next ((s3.testBars tid).modTeam tid (Team.atStep 3))) ∧
    (t.roundStep = 3 → t.idle = false → t.chanq = [] → (∀ g ∈ t.groups, g.ended = none ∨ ∀ l ∈ g.lanes, l.st.ends = false) → t.ewts = [] →
      ∃ u, exec (.roundResume tid) s = .next u ∧ u.team? tid = some { t with groups := t.groups.map Group.resume, round := t.round + 1, roundStep := 0 }) ∧
    (t.roundStep = 3 → t.idle = false → t.chanq = [] → (∀ g ∈ t.groups, g.ended = none ∨ ∀ l ∈ g.lanes, l.st.ends = false) →
      s1 = t.ewts.foldl (fun s e => s.joinCards tid e.1 e.2.1 e.2.2) s → (∀ u, s1.team? tid = some u → u.halt = none) →
      exec (.roundResume tid) s = .next ((t.ewts.foldl (fun s e => s.ewtAcquire t e.1 e.2.2) s1).modTeam tid (fun t =>
        { t with groups := t.groups.map Group.resume, round := t.round + 1, roundStep := 0 })))) ∧
  (∀ (s : State) (gid : Nat) (g : Grid), s.grid? gid = some g → g.la.bridle = true → g.killed = false →
    (g.synced = false → s.allLnxt g = true → s.mergeStop g.atSync = none → conflictOf g.atSync = none → exec (.gridSyncMerge gid) s =
      .next (((s.keepOld true (s.oldBytes (s.mergeOf g.atSync)) (fun t => t.grid == gid)).writeMerge g.ctx g.atSync (s.mergeOf g.atSync)).modGrid gid
        (fun g => { g with
          synced := true, held := g.held.map (fun p => (p.1, if g.snaps.any (fun q => q.1 == p.1) then p.2 else [])) }))) ∧
    (g.over = true → s.predOver g = true → g.synced = true ∨ g.snaps = [] ∨ s.allLnxt g = false → s.mergeStop g.remaining = none → conflictOf g.remaining = none →
      ∃ s2, exec (.gridEndMerge gid) s = .next s2 ∧ s2.grid? gid = none ∧
        s2.mem = (s.writeMerge g.ctx g.remaining (s.mergeOf g.remaining)).mem ∧ s2.pad = (s.writeMerge g.ctx g.remaining (s.mergeOf g.remaining)).pad)) ∧
  (∀ (s : State) (die cid : Nat) (c : Card), s.card? die cid = some c →
    (∀ ls s', kindOf c.words ≠ 7 → s.cardReady die c = true → s.cardAdmitted die c = true → (engWork c).run s = .ok (ls, s') →
      exec (.cardStart die cid) s = .next ((s'.runCard die c ls).admitted die (1, cid))) ∧
    (c.st = .running → c.fail = none → s.landHeld c.land = false → c.succ = none → c.pres = [] →
      exec (.cardComplete die cid) s = .next (((match c.tid with
        | some t => (s.landCard die c c.land).modTicket t c.slot c.seq (fun k => { k with busy := false })
        | none => s.landCard die c c.land)).leaveCard c)) ∧
    (c.st = .running → c.fail = none → s.landHeld c.land = false → c.succ ≠ none →
      exec (.cardComplete die cid) s = .next ((c.pres.foldl (State.modCnt cntLand) (s.landCard die c c.land)).modCard die cid
        (fun k => { k.succeed with since := ((c.pres.foldl (State.modCnt cntLand) (s.landCard die c c.land)).die die).time }))) ∧
    (∀ line, c.st = .running → c.fail = none → (c.splitLine line).1 ≠ [] → s.landHeld (c.splitLine line).1 = false →
      (lineKey line = none → exec (.cardLineLanded die cid line) s =
        .next ((s.landCard die c (c.splitLine line).1).modCard die cid (fun k => { k with land := (c.splitLine line).2 }))) ∧
      (∀ k, lineKey line = some k → k ∈ c.pres → exec (.cardLineLanded die cid line) s =
        .next (((s.landCard die c (c.splitLine line).1).modCnt cntLand k).modCard die cid
          (fun j => { j with land := (c.splitLine line).2, pres := j.pres.erase k })))) ∧
    (∀ cause a t, c.fail = some (cause, a) → c.tid = some t → c.node = none →
      exec (.cardFail die cid) s = .next (((s.leaveCard c).modTicket t c.slot c.seq
        (fun k => { k with busy := false, failed := true })).raiseAny t [c.gi] c.pc (32 * c.gi)
          { code := causeCode cause, cause := cause, addr := a, ticket := c.ticket })) ∧
    (c.fail = none → exec (.cardFail die cid) s = .next s)) ∧
  (∀ (s s1 s2 : State) (ctx id p : Nat) (peers bs : List (List Byte)) (out : List Byte) (c0 c1 c2 c3 : Card), s.aredAt ctx id 0 = some c0 → s.aredAt ctx id 1 = some c1 →
    s.aredAt ctx id 2 = some c2 → s.aredAt ctx id 3 = some c3 → aredShape c1 = aredShape c0 → aredShape c2 = aredShape c0 → aredShape c3 = aredShape c0 →
    p = (aredShape c0).2.2 → ((aredShape c0).2.1 = 1 → bitsAt (s.bar (0x0080_0000 + 8 * ctx)) 10 10 + 1 = p) →
    ((aredShape c0).2.1 = 1 → 1 < p → ∃ q ∈ s.ports, q.up = true ∧ q.key.isSome = true) →
    s.cardAdmitted 0 c0 = true → s.cardAdmitted 1 c1 = true → s.cardAdmitted 2 c2 = true → s.cardAdmitted 3 c3 = true →
    aredReads s [(0, c0), (1, c1), (2, c2), (3, c3)] = .ok (bs, s1) → s.aredResult ctx ((aredShape c0).2.1 == 1) p bs peers = some out →
    aredWrites out s1 [(0, c0), (1, c1), (2, c2), (3, c3)] = .ok s2 → exec (.aredMeet ctx id peers) s = .next s2)

/-- Work queues and graphs (R234-R241, R253-R256): a doorbell posts packets up to the ring's size, and halts the queue with CODE 8 beyond it; SKIP
passes a rejected packet; a packet that may start becomes a grid or a graph, and one that is rejected halts its queue; a graph's node begins, and
when it is done leaves and starts its successors; budgets are charged once for each microsecond passed, and renewed when %frame changes. While the
host port is closed, in recovery, software's events do nothing (R306). That GRAPH_NODE_COMPLETE also begins a node that may begin is the model's
choice (log 28). -/
def Obligations.QueueAndGraphEventsComplete : Prop :=
  (∀ (s : State) (x q v : Nat), s.hostOpen = false → ∀ i ∈ [Instr.doorbell x q v, .skip x q, .haltClear x q, .queueEnable x q v], exec i s = .next s) ∧
  (∀ (s : State) (x q v : Nat), s.hostOpen = true → x < 1024 → q < 128 →
    ((v % 2 ^ 32 + 2 ^ 32 - s.bar (queueOff x q 0x10)) % 2 ^ 32 ≤ 2 ^ bitsAt (s.bar (queueOff x q 8)) 0 5 →
      exec (.doorbell x q v) s = .next (s.setBar (queueOff x q 0xC) (v % 2 ^ 32))) ∧
    (2 ^ bitsAt (s.bar (queueOff x q 8)) 0 5 < (v % 2 ^ 32 + 2 ^ 32 - s.bar (queueOff x q 0x10)) % 2 ^ 32 →
      ∃ s2, exec (.doorbell x q v) s = .next s2 ∧ s2.qHalt x q = true ∧ s2.qCode x q = 8 ∧ s2.bar (queueOff x q 0x1C) = s.qRd x q ∧
        s2.irqs = s.irqs ++ [s.queueVec x q]) ∧
    (s.qHalt x q = false → exec (.skip x q) s = .next s) ∧
    (s.qHalt x q = true → s.qCode x q ≠ 8 → ∃ s2, exec (.skip x q) s = .next s2 ∧ s2.qHalt x q = false ∧ s2.qRd x q = (s.qRd x q + 1) % 2 ^ 32 ∧
      (s.startedOf x q = [] → s2.qDone x q = (s.qDone x q + 1) % 2 ^ 32)) ∧
    (s.qHalt x q = true → s.qCode x q = 8 → ∃ s2, exec (.skip x q) s = .next s2 ∧ s2.qHalt x q = false ∧ s2.qRd x q = s.qRd x q) ∧
    (∃ s2, exec (.haltClear x q) s = .next s2 ∧ s2.qHalt x q = false ∧ s2.qRd x q = s.qRd x q ∧ s2.mem = s.mem) ∧
    (bitsAt v 8 3 = 0 → ∃ s2, exec (.queueEnable x q v) s = .next s2 ∧ s2.qEn x q = false ∧ s2.queueVec x q = bitsAt v 16 11 ∧ s2.qHalt x q = s.qHalt x q ∧
      s2.qLog x q = (if s.qEn x q then s.qLog x q else bitsAt v 0 5)) ∧
    (bitsAt v 8 3 = 1 → s.enabledQueues x < bitsAt (s.bar (ctxOff x 0x30)) 0 8 → ∃ s2, exec (.queueEnable x q v) s = .next s2 ∧ s2.qEn x q = true ∧
      s2.queueVec x q = bitsAt v 16 11 ∧ s2.qHalt x q = s.qHalt x q ∧ s2.qLog x q = (if s.qEn x q then s.qLog x q else bitsAt v 0 5)) ∧
    (bitsAt v 8 3 = 1 → s.qEn x q = false → bitsAt (s.bar (ctxOff x 0x30)) 0 8 ≤ s.enabledQueues x → ∃ s2, exec (.queueEnable x q v) s = .next s2 ∧ s2.qEn x q = false) ∧
    (s.tryPacket x q = .no → exec (.packetStart x q) s = .next s) ∧
    (∀ c, s.tryPacket x q = .reject c → exec (.packetStart x q) s =
      .next (((s.devTouch x (s.packetAt x q) 64).devOver x).haltQueue x q c)) ∧
    (∀ p h, s.tryPacket x q = .launch p h → s.firstQueue x q = true → exec (.packetStart x q) s =
      .next ((((s.devTouch x (s.packetAt x q) 64).headerTouch x p.kernel).served x q p.signal).startGrid x q (s.qRd x q) p h
      (s.predOf x q) none (if p.bridle then dieOf p.bfirst else (s.lastDie + 1) % 4))) ∧
    (∀ p hb ns, s.tryPacket x q = .graph p hb ns → s.firstQueue x q = true →
      exec (.packetStart x q) s =
        .next ((((s.devTouch x (s.packetAt x q) 64).devTouch x p.kernel (64 + ns.length)).served x q p.signal).startGraph x q (s.qRd x q) p hb ns))) ∧
  (∀ (s : State) (d id k : Nat) (g : Graph) (a : GNode), s.graph? d id = some g → g.active.find? (fun a => a.node == k) = some a →
    ((s.die d).time < g.start → exec (.graphNodeComplete d id k) s = .next s) ∧
    (g.start ≤ (s.die d).time → a.begun = false → exec (.graphNodeComplete d id k) s = .next (s.beginNode d g k)) ∧
    (g.start ≤ (s.die d).time → s.nodeDone d g a = true → g.failed = false →
      exec (.graphNodeComplete d id k) s = .next (s.leaveNode d id k [(g.node k).nexta, (g.node k).nextb])) ∧
    ((g.node k).kind = 6 → a.node = k → a.begun = true → g.start ≤ (s.die d).time → a.due ≤ (s.die d).time → g.failed = false →
      exec (.waitNodeExpiry d id k) s = .next (s.leaveNode d id k [(g.node k).nexta, (g.node k).nextb])) ∧
    ((g.node k).kind = 6 → a.begun = true → (s.die d).time < a.due → exec (.waitNodeExpiry d id k) s = .next s) ∧
    (∃ s2, exec (.budgetCharge d id) s = .next s2 ∧ s2.graph? d id = some (if g.chargeDue (s.die d).time then { g with
        rem := g.rem - (((s.teams.filter (fun t => (s.graphOf t).any (fun q => q.1 == id))).map
          (fun t => t.groups.length * (t.la.hdr.vregs + t.la.hdr.shadow))).sum : Nat)
        usAt := g.usAt + 1 } else g)) ∧
    (g.chargeDue (s.die d).time = true ↔ g.usAt < (s.die d).time / 1000)) ∧
  (∀ (s : State) (d : Nat), d < s.dies.length →
    (s.frame d ≠ (s.die d).frameAt → ∃ s2, exec (.frameBoundary d) s = .next s2 ∧ (s2.die d).frameAt = s.frame d ∧
      (s2.die d).graphs = (s.die d).graphs.map (fun g => { g with rem := 4096 * g.budget })) ∧
    (s.frame d = (s.die d).frameAt → exec (.frameBoundary d) s = .next s))

/-- Walks, translations, the memory's configuration and writes from outside (R144-R152, R177, R178, R297, R298, R300-R304, R459): what each leaves in
the TLBs, the registers and memory. A configuration that a context holds, or that is refused, sets its status bit alone; the host's accesses act
outside recovery, and a peer's where some port has a key; a write from outside lands its bytes at their place and nowhere else, where no mirror copy
is kept, and one at a peer's home takes its lines from this package's L2. That LINKRT counts to 64 bits, at the number of the port, is the model's
choice (log 11), and so is that a mask's write re-homes the L2's lines (log 38). -/
def Obligations.MemoryEventsComplete : Prop :=
  (∀ (s s1 : State) (die ctx page : Nat) (w : Walk), ((s.die die).walks.take 4096).find? (fun w => w.ctx == ctx && pageOf w.va == page) = some w →
    s1 = (s.walkUse ctx w.va).modDie die (fun x => { x with walks := x.walks.filter (fun k => !(k.ctx == ctx && pageOf k.va == page)) }) →
    (s.walkHeld ctx w.va = true → exec (.pageWalkComplete die ctx page) s = .next s) ∧
    (∀ e, s.walkHeld ctx w.va = false → s1.walkLost ctx w.va = false → s1.walk ctx w.va = .ok e →
      ∃ s2, exec (.pageWalkComplete die ctx page) s = .next s2 ∧ (s2.die die).l2tlb.head? = some e ∧
      (∀ k ∈ (s2.die die).walks, ¬(k.ctx = ctx ∧ pageOf k.va = page)) ∧
      ∀ b, SMap.get 0 s2.mem b = if b = e.pteAt w.va then SMap.get 0 s.mem b ||| 4 else SMap.get 0 s.mem b) ∧
    (s.walkHeld ctx w.va = false → s1.walkLost ctx w.va = false → s1.walk ctx w.va = .absent →
      s1.walkWanted (fun t => dieOf t.pcore == die && t.ctx == ctx) die ctx page = true → exec (.pageWalkComplete die ctx page) s = .next
      ((s1.modLanes (fun t => dieOf t.pcore == die && t.ctx == ctx) (fun l => if l.walks page = true then
        { l with st := if l.declined = some page then .ready else .parked (.page page) } else l)).pageRequest ctx w.va w.write w.fetch w.engine)) ∧
    (∀ cause, s.walkHeld ctx w.va = false → (s1.walkLost ctx w.va = true ∧ cause = 5) ∨ (s1.walkLost ctx w.va = false ∧ s1.walk ctx w.va = .fail ∧ cause = 1) →
      exec (.pageWalkComplete die ctx page) s = .next
      ((s1.modLanes (fun t => dieOf t.pcore == die && t.ctx == ctx) (fun l => if l.walks page = true then { l with st := .ready, declined := some page } else l)).pageCards
        die ctx page (fun c => { c with page := none, fail := some (cause, page * 4096) })))) ∧
  (∀ (s : State) (ctx page host : Nat) (rd wr : Bool),
    (∃ s2 e, exec (.atsTranslation ctx page host (.granted rd wr)) s = .next s2 ∧ s2.atsFind ctx (page * 4096) = some e ∧ e.pbase = host % 2 ^ 38 * 4096 ∧ e.size = 4096 ∧
      e.ro = !wr ∧ e.u = rd ∧ s2.mem = s.mem) ∧
    (∃ s2, exec (.atsTranslation ctx page host .refused) s = .next s2 ∧ s2.ats = s.ats ∧
      ∀ t ∈ s2.teams, t.ctx = ctx → ∀ g ∈ t.groups, ∀ l ∈ g.lanes, l.st ≠ .parked (.ats page))) ∧
  (∀ (s : State) (pasid page : Nat), ∃ s2, exec (.atsInvalidation pasid page) s = .next s2 ∧ { s2 with ats := s.ats, atsInv := s.atsInv } = s ∧
    (∀ e, e ∈ s2.ats ↔ e ∈ s.ats ∧ ¬(s.ctxPasid e.ctx = pasid ∧ e.vbase ≤ page * 4096 ∧ page * 4096 < e.vbase + e.size)) ∧
    ∀ e ∈ s.ats, e ∉ s2.ats → (pasid, e.pbase / 4096) ∈ s2.atsInv) ∧
  (∀ (s : State) (i : Nat × Nat), i ∈ s.atsDone.atsInv ↔ i ∈ s.atsInv ∧ s.ioBusy i.2 = true) ∧
  (∀ (s : State) (line : Nat) (r : L2Line), s.l2Find line = some r →
    (8 ≤ r.count → r.mig = true → farNode r.req (r.holder.getD (s.homeNode line)) = true → s.lineHeld line = false →
      ∀ s1, s1 = ((if r.req = s.homeNode line ∨ line ∈ (s.die (homeDie (line * 128))).fwd then s
          else s.recall (homeDie (line * 128)) (s.homeNode line)).roomL2 r.req none).1 → s1.l2Find line ≠ none →
        ∃ s2 r2, exec (.lineMigration (homeDie (line * 128)) line) s = .next s2 ∧ s2.l2Find line = some r2 ∧
          r2.holder = (if r.req = s.homeNode line then none else some r.req) ∧ s2.mem = s.mem) ∧
    (r.count < 8 ∨ r.mig = false → exec (.lineMigration (homeDie (line * 128)) line) s = .next s)) ∧
  (∀ (s : State) (die k off v : Nat) (wide : Bool), s.hostOpen = true → die < 4 → k < 16 →
    (off < 0x3C → off % (if wide then 8 else 4) = 0 → s.partHeld k = true →
      exec (.partitionWrite die k off v wide) s = .next (s.setBar (partOff die k 0x38) (s.bar (partOff die k 0x38) ||| 2 ^ 15))) ∧
    (off < 0x38 → off % 8 = 0 → s.partHeld k = false →
      ∃ s2, exec (.partitionWrite die k off v true) s = .next s2 ∧ s2.bar64 (partOff die k off) = v % 2 ^ 52 / 2 ^ 7 * 2 ^ 7) ∧
    (s.partHeld k = false → v.testBit 14 = true → independent ((List.range 7).map (s.shMask die k)) = false →
      exec (.partitionWrite die k 0x38 v false) s = .next (s.setBar (partOff die k 0x38) (s.bar (partOff die k 0x38) ||| 2 ^ 16))) ∧
    (s.partHeld k = false → v.testBit 14 = true → bitsAt v 8 3 ≠ 7 → independent ((List.range 7).map (s.shMask die k)) = true →
      ∃ s2, exec (.partitionWrite die k 0x38 v false) s = .next s2 ∧ s2.partEn die k = true ∧ s2.padStep die k = bitsAt v 8 3 ∧ s2.shc die k = bitsAt v 0 7)) ∧
  (∀ (s : State) (die off v : Nat), s.hostOpen = true → die < 4 → die < s.dies.length → off < 0x48 → off % 4 = 0 →
    ∃ s2, exec (.granuleMapWrite die off v) s = .next s2 ∧ (0x0011_0000 + off, v % 2 ^ 32) ∈ (s2.die die).remap ∧ s2.bar0 = s.bar0 ∧ s2.mem = s.mem ∧
      ∀ r ∈ (s2.die die).l2, s.homeMoves die off (v % 2 ^ 32) r.line = false) ∧
  (∀ (s : State) (die off w : Nat), (s.die die).remap = [(off, w)] →
    ∃ s2, exec (.granuleRemapComplete die) s = .next s2 ∧ s2.bar (dieOff die off) = w % 2 ^ 32 ∧ (s2.die die).remap = []) ∧
  (∀ (s : State) (die v : Nat), s.hostOpen = true → die < 4 →
    ((∀ x < 1024, s.ctxEn x = false) → v % 128 ≤ 72 → ∃ s2, exec (.mirrorSizeWrite die v) s = .next s2 ∧ s2.bar (dieOff die 0x0011_004C) = v % 128) ∧
    ((∃ x < 1024, s.ctxEn x = true) ∨ 72 < v % 128 → exec (.mirrorSizeWrite die v) s = .next s)) ∧
  (∀ (s : State) (off v : Nat), off % 4 = 0 →
    (off < 0x80 → ∃ s2, exec (.peerMapWrite off v) s = .next s2 ∧ s2.bar (0x0090_0000 + off) = v % 2 ^ 32) ∧
    (off = 0x80 → ∃ s2, exec (.peerMapWrite off v) s = .next s2 ∧ s2.bar 0x0090_0080 = v % 2 ^ 11)) ∧
  (∀ (s : State) (pa pkg qp : Nat) (bs : List Byte), pa + bs.length ≤ 2 ^ 50 → s.outsideOk pa bs.length true = true →
    (pa < 2 ^ 50 → s.hostOpen = true → exec (.hostPostedWrite pa bs) s = .next (s.outsideWrite pa bs)) ∧
    (pa < 2 ^ 50 → qp < 65536 → SMap.get 0 s.qps qp ≠ 0 → exec (.rdmaWrite qp (.write pa) bs) s = .next (s.outsideWrite pa bs)) ∧
    (pa < 2 ^ 50 → s.ports.any (fun p => p.up && p.key.isSome) = true → exec (.enmerRemoteRequest pkg (.store pa bs)) s = .next (s.outsideWrite pa bs)) ∧
    ((∀ b, s.mirrorable b = false) → ∀ b, SMap.get 0 (s.outsideWrite pa bs).mem b = if pa ≤ b ∧ b < pa + bs.length then (bs[b - pa]?).getD 0 else SMap.get 0 s.mem b)) ∧
  (∀ (s : State) (qp x pa : Nat) (bs : List Byte), qp < 65536 →
    (SMap.get 0 s.qps qp = 0 → exec (.rdmaWrite qp (.write pa) bs) s = .next s) ∧
    (s.hostOpen = true → x < 1024 → exec (.rdmaWrite qp (.bind x) bs) s = .next { s with qps := SMap.set 0 s.qps qp (x + 1) })) ∧
  (∀ (s : State) (pkg pa : Nat) (bs : List Byte) (req : Remote),
    (s.ports.any (fun p => p.up && p.key.isSome) = false → exec (.enmerRemoteRequest pkg req) s = .next s) ∧
    (s.ports.any (fun p => p.up && p.key.isSome) = true → pa / 2 ^ 50 = 1 → (pa + bs.length) / 2 ^ 50 = 1 → pa / 2 ^ 40 % 1024 = pkg →
      (∀ p ∈ splitAt' 128 pa bs.length, s.linkOpen (p.1 / 128) = true) → ∃ s2, exec (.enmerRemoteRequest pkg (.home pa bs)) s = .next s2 ∧
        s2 = (splitAt' 128 pa bs.length).foldl (fun s p => s.purge p.1) (s.outsideWrite pa bs) ∧ ∀ p ∈ splitAt' 128 pa bs.length, s2.l2Find (p.1 / 128) = none)) ∧
  (∀ (s : State) (pa n pkg op b c : Nat) (ty : Ty),
    (s.outsideOk pa n false = true → s.hostOpen = true → (∀ d ∈ s.dies, d.lost = []) →
      ∃ s2, exec (.hostRead pa n) s = .next s2 ∧ s2.reply = s.memBytes pa n ∧ s2.mem = s.mem ∧ s2.teams = s.teams) ∧
    (s.ports.any (fun p => p.up && p.key.isSome) = true → pa < 2 ^ 50 → s.outsideOk pa n false = true → (∀ d ∈ s.dies, d.lost = []) →
      ∃ s2, exec (.enmerRemoteRequest pkg (.load pa n)) s = .next s2 ∧ s2.reply = s.memBytes pa n ∧ s2.mem = s.mem ∧
        ∀ p ∈ splitAt' 128 pa n, (p.1 / 128, pkg) ∈ s2.readers) ∧
    (s.ports.any (fun p => p.up && p.key.isSome) = true → pa < 2 ^ 50 → pa % atomWidth op ty = 0 → s.outsideOk pa (atomWidth op ty) true = true →
      (∀ d ∈ s.dies, d.lost = []) →
      ∃ s2, exec (.enmerRemoteRequest pkg (.atomic pa op ty b c)) s = .next s2 ∧ s2.reply = leBytes (atomWidth op ty) (s.memNat pa (atomWidth op ty)) ∧
        s2.mem = (s.outsideWrite pa (leBytes (atomWidth op ty) (atomNew op ty none (s.memNat pa (atomWidth op ty)) b c))).mem)) ∧
  (∀ (s : State) (pa : Nat), s.hostOpen = true → 2 ^ 51 ≤ pa → ∃ s2, exec (.cxlSnoop pa) s = .next s2 ∧ s2.mem = s.mem ∧ ∀ r ∈ (s2.die (homeDie pa)).l2, r.line ≠ pa / 128) ∧
  (∀ (s : State) (port : Nat) (p : Port), s.ports[port]? = some p → p.up = true → p.key ≠ none →
    (∃ s2, exec (.enmerFlitReceive port true true) s = .next s2 ∧ s2.ports[port]? = some { p with fails := 0 } ∧ s2.live = s.live) ∧
    (p.fails < 2 → ∃ s2, exec (.enmerFlitReceive port true false) s = .next s2 ∧ s2.ports[port]? = some { p with fails := p.fails + 1 }) ∧
    (p.fails = 2 → ∃ s2, exec (.enmerFlitReceive port true false) s = .next s2 ∧ s2.ports[port]? = some { p with up := false, fails := 0 }) ∧
    (∀ a, ∃ s2, exec (.enmerFlitReceive port false a) s = .next s2 ∧ s2.ports[port]? = some p ∧
      SMap.get 0 s2.live.linkrt port = min (SMap.get 0 s.live.linkrt port + 1) (2 ^ 64 - 1)))

/-- Power, heat and time (R10, R17, R258-R270, R305, R306): pools, the network's step, channel states, intervals, trips, budgets and their clamps; the
loss of power, and the boot. The model's choices: what memory holds after a loss of power (log 2), and that energy budgets alone are clamped, that
the run of low samples begins again, and that a team never moved may move (log 34). -/
def Obligations.PowerEventsComplete : Prop :=
  (∀ (s : State) (d occ : Nat), d < s.dies.length → (s.die d).power.halted = false → (s.die d).power.throttled = false →
    ∀ st mx : Nat, st = bitsAt (s.nocWord d) 0 3 → mx = bitsAt (s.nocWord d) 8 3 → bitsAt (s.nocWord d) 24 8 < bitsAt (s.nocWord d) 16 8 →
    (bitsAt (s.nocWord d) 16 8 ≤ occ → ∃ s2, exec (.nocGovernorSample d occ) s = .next s2 ∧ bitsAt (s2.nocWord d) 0 3 = min (st + 1) mx ∧ (s2.die d).power.lowRun = 0) ∧
    (occ ≤ bitsAt (s.nocWord d) 24 8 → (s.die d).power.lowRun < 7 →
      ∃ s2, exec (.nocGovernorSample d occ) s = .next s2 ∧ bitsAt (s2.nocWord d) 0 3 = min st mx ∧ (s2.die d).power.lowRun = (s.die d).power.lowRun + 1) ∧
    (occ ≤ bitsAt (s.nocWord d) 24 8 → (s.die d).power.lowRun = 7 →
      ∃ s2, exec (.nocGovernorSample d occ) s = .next s2 ∧ bitsAt (s2.nocWord d) 0 3 = min (st - 1) mx ∧ (s2.die d).power.lowRun = 0) ∧
    (bitsAt (s.nocWord d) 24 8 < occ → occ < bitsAt (s.nocWord d) 16 8 →
      ∃ s2, exec (.nocGovernorSample d occ) s = .next s2 ∧ bitsAt (s2.nocWord d) 0 3 = min st mx ∧ (s2.die d).power.lowRun = 0)) ∧
  (∀ (s : State) (ch : Nat), channelDie ch < s.dies.length →
    (s.channel ch = 0 → s.idleFor ch 256 = true → ∃ s2, exec (.hbmPowerDown ch) s = .next s2 ∧ s2.channel ch = 1 ∧ s2.mem = s.mem) ∧
    (s.channel ch ≠ 0 ∨ s.idleFor ch 256 = false → exec (.hbmPowerDown ch) s = .next s) ∧
    (s.channel ch = 1 → s.idleFor ch 100000 = true → ∃ s2, exec (.hbmSelfRefresh ch) s = .next s2 ∧ s2.channel ch = 2 ∧ s2.mem = s.mem) ∧
    (s.channel ch ≠ 1 ∨ s.idleFor ch 100000 = false → exec (.hbmSelfRefresh ch) s = .next s) ∧
    (ch < 384 → (s.die (channelDie ch)).reinit = false → s.channel ch ≠ 0 → s.channelWanted ch = true →
      ∃ s2, exec (.hbmExit ch) s = .next s2 ∧ s2.channel ch = 0 ∧ s2.mem = s.mem) ∧
    (s.channelWanted ch = false → exec (.hbmExit ch) s = .next s)) ∧
  (∀ (s : State) (d b : Nat) (m : PoolMove), b < 32 → d < 4 → (s.die d).power.moves.find? (fun m => m.block == b) = some m → m.pool < 4 →
    ∃ s2, exec (.poolMoveComplete d b) s = .next s2 ∧ s2.pool d b = m.pool ∧ (∀ k ∈ (s2.die d).power.moves, k.block ≠ b) ∧
      SMap.get 0 (s2.die d).power.lastMove b = (s.die d).time + 1) ∧
  (∀ (s : State) (gid d b : Nat) (w : Want), s.wantOf gid = some w → s.poolTakes w = false → (∀ x ∈ s.dies, ∀ m ∈ x.power.moves, m.gid ≠ gid) →
    w.la.bridle = false → ((List.range 4).map (fun i => (s.lastDie + 1 + i) % 4)).findSome? (fun d => (s.moveFrom w d).map (fun b => (d, b))) = some (d, b) → d < s.dies.length →
    ∃ s2, exec (.poolMove gid) s = .next s2 ∧ (s2.die d).power.moves = (s.die d).power.moves ++ [⟨b, s.classOf w.la, gid⟩]) ∧
  (∀ (s : State) (d : Nat) (e : List Nat) (p : List (Nat × Nat)), d < 4 → d < s.dies.length →
    ((s.die d).intervalDue = true → ∃ s2, exec (.controlInterval d e p) s = .next s2 ∧ (s2.die d).power.waited = false ∧ (s2.die d).intervalDue = false ∧
      (∀ b, b < 32 → SMap.get 0 (s2.die d).power.overdraw b = (e[b]?).getD 0 - (s.committed d (some b)).1)) ∧
    ((s.die d).intervalDue = false → exec (.controlInterval d e p) s = .next s)) ∧
  (∀ (s : State) (d kind id since : Nat), d < s.dies.length → (s.waiting d).find? (fun w => w.1 == kind && w.2.1 == id) = some (kind, id, since) →
    (s.die d).power.aged = none → since + 128000 ≤ (s.die d).time → (∀ v ∈ s.waiting d, since ≤ v.2.2) →
    ∃ s2, exec (.admissionAgeing d kind id) s = .next s2 ∧ (s2.die d).power.aged = some (kind, id)) ∧
  (∀ (s : State) (d : Nat) (temps : List Int), d < s.dies.length → d < 4 → temps.length = 64 → (∀ t ∈ temps, -32768 ≤ t ∧ t < 736) → s.trips d = 0 →
    ∃ s2, exec (.sensorSample d temps) s = .next s2 ∧ (∀ k, k < 64 → s2.temp d k = (temps[k]?).getD 0) ∧ s2.trips d = 0 ∧ s2.irqs = s.irqs) ∧
  (∀ (s : State) (d : Nat) (temps : List Int), d < s.dies.length → d < 4 → temps.length = 64 → (∀ t ∈ temps, -32768 ≤ t ∧ t < 824) → (∃ t ∈ temps, 760 ≤ t) → s.trips d = 0 →
    ∃ s2, exec (.sensorSample d temps) s = .next s2 ∧ s2.trips d = 1 ∧ s2.irqs = s.irqs ++ [0] ∧ s2.mgmt = s.mgmt ++ [d]) ∧
  (∀ (s : State) (d : Nat) (temps : List Int), d < s.dies.length → d < 4 → temps.length = 64 → (∀ t ∈ temps, -32768 ≤ t ∧ t < 880) → (∃ t ∈ temps, 824 ≤ t) → s.trips d = 0 →
    ∃ s2, exec (.sensorSample d temps) s = .next s2 ∧ s2.trips d = 3 ∧ (s2.die d).power.throttled = true ∧ (s2.die d).power.below = none ∧
      (s2.die d).power.halted = (s.die d).power.halted ∧ s2.irqs = s.irqs ++ [0] ∧ s2.mgmt = s.mgmt ++ [d] ∧ s2.teams = s.teams) ∧
  (∀ (s : State) (d : Nat) (temps : List Int), d < s.dies.length → d < 4 → temps.length = 64 → (∀ t ∈ temps, -32768 ≤ t ∧ t < 32768) → (∃ t ∈ temps, 880 ≤ t) → s.trips d = 0 →
    ∃ s2, exec (.sensorSample d temps) s = .next s2 ∧ s2.trips d = 7 ∧ (s2.die d).power.halted = true ∧ (s2.die d).power.throttled = true ∧
      ∀ t ∈ s2.teams, dieOf t.pcore = d → t.halt ≠ none) ∧
  (∀ (s : State) (d t : Nat), d < s.dies.length → d < 4 →
    ((s.die d).power.below = some t → (s.die d).power.throttled = true → t + 1000000 ≤ (s.die d).time →
      ∃ s2, exec (.throttleRelease d) s = .next s2 ∧ (s2.die d).power.throttled = false ∧ s2.tripped d 2 = false) ∧
    ((s.die d).power.halted = true → s.cooler d 95 = true → ∃ s2, exec (.dieReenable d) s = .next s2 ∧ (s2.die d).power.halted = false ∧ s2.tripped d 3 = false) ∧
    (s.cooler d 95 = false → exec (.dieReenable d) s = .next s)) ∧
  (∀ (s : State) (tid core : Nat) (t : Team) (cs : List Nat), s.team? tid = some t → (s.rects (dieOf t.pcore) t.cw t.ch).find? (fun cs => cs.head? == some core) = some cs →
    t.idle = false → s.hotBlock t.pcore = true → t.moved = 0 ∨ t.moved + 1000000 ≤ (s.die (dieOf t.pcore)).time + 1 → (∀ u ∈ s.teams, u.pcore ∉ cs) →
    (∀ k ∈ cs, s.poolFits k (s.classOf t.la) = true) → (∀ k ∈ cs, s.claimed (2 ^ 64) (fun _ => false) k = false) →
    ∃ s2 u, exec (.hotspotMigration tid core) s = .next s2 ∧ s2.team? tid = some u ∧ u.pin = cs ∧ u.halt ≠ none ∧ u.moved = (s.die (dieOf t.pcore)).time + 1) ∧
  (∀ (s : State) (d off v : Nat), s.hostOpen = true → d < 4 → off % 4 = 0 → powerWritable off = true →
    (isBudget off = true → powerReset s.part off < v % 2 ^ 32 →
      ∃ s2, exec (.powerBudgetWrite d off v) s = .next s2 ∧ s2.bar (powOff d off) = powerReset s.part off ∧ bitsAt (s2.bar (powOff d 8)) 7 1 = 1) ∧
    (isBudget off = false ∨ v % 2 ^ 32 ≤ powerReset s.part off → ∃ s2, exec (.powerBudgetWrite d off v) s = .next s2 ∧ s2.bar (powOff d off) = v % 2 ^ 32)) ∧
  (∀ (s : State) (d v : Nat), s.hostOpen = true → d < 4 →
    (bitsAt v 16 8 ≤ bitsAt v 24 8 → ∃ s2, exec (.occupancyThresholdWrite d v) s = .next s2 ∧ s2.nocWord d = s.nocWord d ∧ bitsAt (s2.bar (powOff d 8)) 7 1 = 1) ∧
    (bitsAt v 24 8 < bitsAt v 16 8 → ∃ s2, exec (.occupancyThresholdWrite d v) s = .next s2 ∧ bitsAt (s2.nocWord d) 24 8 = bitsAt v 24 8 ∧
      bitsAt (s2.nocWord d) 16 8 = bitsAt v 16 8 ∧ bitsAt (s2.nocWord d) 8 3 = bitsAt v 8 3 ∧ bitsAt (s2.nocWord d) 0 3 ≤ bitsAt v 8 3)) ∧
  (∀ (s : State) (i : Instr), i = .t4Cutoff ∨ i = .powerLoss → ∃ s2, exec i s = .next s2 ∧ s2.powered = false ∧ s2.mem = s.mem.filter (fun p => decide (2 ^ 50 ≤ p.1)) ∧ s2.pad = [] ∧ s2.teams = [] ∧ s2.saved = [] ∧
    s2.bar0 = [] ∧ s2.badSites = s.badSites ∧ s2.rowFuses = s.rowFuses ∧ s2.trust.slotA = s.trust.slotA ∧ s2.trust.slotB = s.trust.slotB ∧
    s2.trust.rollback = s.trust.rollback ∧ s2.trust.fused = s.trust.fused ∧ s2.lifeA = s.lifeA ∧ s2.lifeB = s.lifeB) ∧
  (∀ (s : State), s.powered = false → ∃ s2, exec .powerUp s = .next s2 ∧ s2.powered = true ∧ (s2.trust.recovery = false ↔
    (s.trust.slotA.valid = true ∧ s.trust.slotA.key = s.trust.fused ∧ s.trust.rollback ≤ s.trust.slotA.version) ∨
    (s.trust.slotB.valid = true ∧ s.trust.slotB.key = s.trust.fused ∧ s.trust.rollback ≤ s.trust.slotB.version)) ∧ s2.mem = s.mem) ∧
  (∀ (s : State) (d ns : Nat), ∃ s2, exec (.ptpSync d ns) s = .next s2 ∧
    ∀ k, k < s.dies.length → (s2.die k).slew = (ns : Int) - (s.die d).time ∧ (s2.die k).time = (s.die k).time)

/-- What software answers and writes (R136, R150, R277, R279, R280, R285, R299, R306): a page reply frees the lanes that wait for the page, to go on or,
after a decline, to retry once, and the cards, to go on or to fail with cause XLAT; RESUME acts on the halted team that its address names, and does
nothing more where there is none; a latch holds a high word for the next low word; TQRD never passes TQWR; a context is enabled with its pad zeroed
for a first holder, and disabled once idle; a register write goes to its register, and in recovery management's alone does; the peer map is written
by management alone (R459); a context's user mapping reaches its own queues only, and of their control words HALT and SKIP (R234, R299); a read of
privileged software returns the word. That an 8-byte write leaves the latch, and that a context which comes to a partition that another holds leaves
its pad as it stands (log 30), and that BAR 0 reads 0 in recovery (log 36), is the model's choice. -/
def Obligations.SoftwareEventsComplete : Prop :=
  (∀ (s : State) (x : Nat) (lo : Word) (hi : Option Word) (page : Nat), s.hostOpen = true → x < 1024 → page = pageOf (joined (s.ctx x).pgreplyHi lo hi) →
    (lo.getLsbD 0 = false → ∃ s2, exec (.pgreplyRetry x lo hi) s = .next s2 ∧ page ∉ (s2.ctx x).asked ∧ s2.mem = s.mem ∧
      (∀ tid gi t g, s.team? tid = some t → t.ctx = x → t.groups[gi]? = some g → ∃ g2, s2.group? tid gi = some g2 ∧
        g2 = { g with lanes := g.lanes.map (fun l => if l.st = .parked (.page page) then { l with st := .ready, declined := none } else l) }) ∧
      (∀ d cid c, s.card? d cid = some c → c.ctx = x → c.page = some page → (∀ w ∈ (s.die d).walks, ¬(w.ctx = x ∧ pageOf w.va = page)) →
        s2.card? d cid = some { c with page := none })) ∧
    (lo.getLsbD 0 = true → ∃ s2, exec (.pgreplyDecline x lo hi) s = .next s2 ∧ page ∉ (s2.ctx x).asked ∧ s2.mem = s.mem ∧
      (∀ tid gi t g, s.team? tid = some t → t.ctx = x → t.groups[gi]? = some g → ∃ g2, s2.group? tid gi = some g2 ∧
        g2 = { g with lanes := g.lanes.map (fun l => if l.st = .parked (.page page) then { l with st := .ready, declined := some page } else l) }) ∧
      (∀ d cid c, s.card? d cid = some c → c.ctx = x → c.page = some page → (∀ w ∈ (s.die d).walks, ¬(w.ctx = x ∧ pageOf w.va = page)) →
        s2.card? d cid = some { c with page := none, fail := some (1, page * 2 ^ 12) }))) ∧
  (∀ (s s1 : State) (x : Nat) (lo : Word) (hi : Option Word), s.hostOpen = true → x < 1024 → s1 = s.modCtx x (fun c => { c with resumeHi := latchAfter c.resumeHi hi }) →
    ∀ i : Instr, (lo.toNat % 8 = 1 ∧ i = .resumeContinue x lo hi) ∨ (lo.toNat % 8 = 2 ∧ i = .resumeSkip x lo hi) ∨ (lo.toNat % 8 = 3 ∧ i = .resumeEnd x lo hi) ∨
      (lo.toNat % 8 = 4 ∧ i = .resumeKill x lo hi) →
    (s1.halted? x (joined (s.ctx x).resumeHi lo hi) = none → exec i s = .next s1) ∧
    (∀ k, s1.halted? x (joined (s.ctx x).resumeHi lo hi) = some k →
      exec i s = .next (if lo.toNat % 8 = 1 then s1.release k (fun j => { j with trapped := false, sibling := true })
        else if lo.toNat % 8 = 2 then s1.release k (fun j => { j with team := s1.skipTeam j.team, trapped := false, sibling := true })
        else if lo.toNat % 8 = 3 then s1.endSaved k else s1.killCtx x))) ∧
  (∀ (s : State) (x : Nat) (v : Word), s.hostOpen = true → x < 1024 →
    (∃ s2, exec (.replyHighWordLatch x true v) s = .next s2 ∧ (s2.ctx x).pgreplyHi = v ∧ (s2.ctx x).resumeHi = (s.ctx x).resumeHi) ∧
    (∃ s2, exec (.replyHighWordLatch x false v) s = .next s2 ∧ (s2.ctx x).resumeHi = v ∧ (s2.ctx x).pgreplyHi = (s.ctx x).pgreplyHi)) ∧
  (∀ (s : State) (x v : Nat), s.hostOpen = true → x < 1024 →
    ((s.bar (ctxOff x 0x24) + 2 ^ 32 - s.bar (ctxOff x 0x28)) % 2 ^ 32 < (v % 2 ^ 32 + 2 ^ 32 - s.bar (ctxOff x 0x28)) % 2 ^ 32 →
      exec (.tqrdWrite x v) s = .next s) ∧
    ((v % 2 ^ 32 + 2 ^ 32 - s.bar (ctxOff x 0x28)) % 2 ^ 32 ≤ (s.bar (ctxOff x 0x24) + 2 ^ 32 - s.bar (ctxOff x 0x28)) % 2 ^ 32 → (s.ctx x).heldNotices = [] →
      exec (.tqrdWrite x v) s = .next (s.setBar (ctxOff x 0x28) (v % 2 ^ 32))) ∧
    ((s.ctx x).heldNotices = [] → exec (.tqerrRetry x) s = .next (s.setBar (ctxOff x 0x34) 0))) ∧
  (∀ (s : State) (x v k : Nat), x < 1024 → k = bitsAt v 28 4 →
    (bitsAt v 26 1 = 1 → s.ctxEn x = true → exec (.contextEnable x v) s = .next s) ∧
    (s.trust.recovery = true → exec (.contextEnable x v) s = .next s ∧ exec (.contextDisable x v) s = .next s) ∧
    (bitsAt v 26 1 = 1 → s.ctxEn x = false → s.trust.recovery = false → s.partPads k = false ∨ s.bar64 (ctxOff x 0x48) ≠ 0 →
      ∃ s2, exec (.contextEnable x v) s = .next s2 ∧ s2.ctxEn x = true ∧ s2.ctxPart x = k ∧ s2.ctxPriv x = v.testBit 27 ∧ s2.ctxChk x = v.testBit 24 ∧
        s2.ctxPasid x = v % 2 ^ 20 ∧ s2.mem = s.mem ∧ (∀ b, SMap.get 0 s2.pad b = if s.partHeld k = false ∧ s.inPad k b = true then 0 else SMap.get 0 s.pad b)) ∧
    (bitsAt v 26 1 = 1 → s.ctxEn x = false → s.partPads k = true → s.bar64 (ctxOff x 0x48) = 0 → exec (.contextEnable x v) s = .next s) ∧
    (bitsAt v 26 1 = 0 → s.ctxEn x = true → s.ctxIdle x = false → exec (.contextDisable x v) s = .next s) ∧
    (s.trust.recovery = false → bitsAt v 26 1 = 0 → s.ctxEn x = true → s.ctxIdle x = true → ∃ s2, exec (.contextDisable x v) s = .next s2 ∧ s2.ctxEn x = false ∧ s2.ctxPart x = s.ctxPart x)) ∧
  (∀ (s : State) (y : RegBy) (x off v : Nat) (wide : Bool),
    s.pathOpen .mgmt = true ∧ s.pathOpen .host = !s.trust.recovery ∧ s.pathOpen (.user x) = !s.trust.recovery ∧
    (s.pathOpen y = false ∨ off % (if wide then 8 else 4) ≠ 0 → exec (.registerWrite y off v wide) s = .next s) ∧
    (s.pathOpen y = true → y = .host ∨ (y = .mgmt ∧ (off < 0x0090_0000 ∨ 0x0090_0100 ≤ off)) → off % 4 = 0 →
      exec (.registerWrite y off v false) s = .next (s.writeBar off (v % 2 ^ 32))) ∧
    (0x0090_0000 ≤ off → off ≤ 0x0090_0080 → off % 4 = 0 → exec (.registerWrite .mgmt off v false) s = .next (s.writePeerMap (off - 0x0090_0000) (v % 2 ^ 32)) ∧
      exec (.registerWrite .host off v false) s = .next s ∧
      (s.writePeerMap (off - 0x0090_0000) (v % 2 ^ 32)).bar off = if off = 0x0090_0080 then v % 2 ^ 11 else v % 2 ^ 32) ∧
    (s.pathOpen y = true → y = .host ∨ (y = .mgmt ∧ (off < 0x0090_0000 ∨ 0x0090_0100 ≤ off)) → off % 8 = 0 → off < 0x0070_0000 ∨ 0x0072_0000 ≤ off →
      exec (.registerWrite y off v true) s = .next ((s.writeBar off (v % 2 ^ 32)).writeBar (off + 4) (v / 2 ^ 32 % 2 ^ 32))) ∧
    (off < 0x0100_0000 ∨ 0x0140_0000 ≤ off ∨ (off - 0x0100_0000) / 4096 ≠ x → exec (.registerWrite (.user x) off v false) s = .next s) ∧
    (off < 0x0100_0000 ∨ 0x0140_0000 ≤ off ∨ (off - 0x0100_0000) / 4096 ≠ x → s.readBar (.user x) off 4 = 0) ∧
    (s.pathOpen y = true → y = .host ∨ y = .mgmt → off % 4 = 0 → s.readBar y off 4 = s.bar off) ∧
    (s.pathOpen y = false ∨ off % 4 ≠ 0 → s.readBar y off 4 = 0)) ∧
  (∀ (s : State) (x q v : Nat), s.trust.recovery = false → x < 1024 → q < 128 → v < 2 ^ 32 →
    exec (.registerWrite (.user x) (queueOff x q 0xC) v false) s = .next (s.doorbell x q v) ∧
    exec (.registerWrite (.user x) (queueOff x q 0) v false) s = .next s ∧ s.readBar (.user x) (queueOff x q 0) 8 = 0 ∧
    s.readBar (.user x) (queueOff x q 8) 4 = (if s.qHalt x q then 512 else 0) ∧
    (∃ s2, exec (.registerWrite (.user x) (queueOff x q 8) v false) s = .next s2 ∧
      (∀ y, s2.qEn x y = s.qEn x y) ∧ s2.queueVec x q = s.queueVec x q ∧ s2.qLog x q = s.qLog x q)) ∧
  (∀ (s : State) (x q d o v : Nat), x < 1024 → q < 128 → d < 4 → v < 2 ^ 32 →
    (s.qEn x q = false → (s.writeBar (queueOff x q 0) v).bar (queueOff x q 0) = v ∧ (s.writeBar (queueOff x q 4) v).bar (queueOff x q 4) = v) ∧
    s.writeBar (queueOff x q 8) v = s.writeCtl x q v ∧ s.writeBar (queueOff x q 0xC) v = s.doorbell x q v ∧ s.writeBar (queueOff x q 0x14) v = s ∧
    s.writeBar (ctxOff x 0x2C) v = s.writeMode x v ∧ (s.ctxEn x = true → s.writeBar (ctxOff x 0) v = s) ∧
    (s.ctxEn x = false → (s.writeBar (ctxOff x 0) v).bar (ctxOff x 0) = v) ∧
    (o < 0x500 → o ≠ 8 → o ≠ 0xC → zeroable o = false → s.writeBar (powOff d o) v = s.writeBudget d o v) ∧ s.writeBar (powOff d 0xC) v = s.writeThresholds d v)

/-- Errors and repair (R17, R136, R288-R295, R301): an error that no retry serves rewrites a mirrored page's sector from its copy, and else, or where
the copy fails likewise, is #MCHK at the lane, or fails the card; more than 64 corrected errors in 1 s retire a core; a core to be retired is
emptied, its dirty data once their memory takes them, and then its index moves to a spare site; a channel under repair is held; the lifetime record
counts, and is written each 10 minutes, or before a commanded power-down, to the copy with the older number, or one whose signature fails. That
#MCHK names the lane alone (log 25), that the 1 s goes by the die's time, and that a core is retired, and a die re-initialised, in two events (log
35), is the model's choice. -/
def Obligations.RepairEventsComplete : Prop :=
  (∀ (s : State) (who : ErrAt), exec (.uncorrectableError who true) s = .next s) ∧
  (∀ (s : State) (tid gi lane pa : Nat) (t : Team) (g : Group) (i : Instr), s.team? tid = some t → t.groups[gi]? = some g → lane < 32 → t.back = none →
    (g.lane lane).st ≠ .exited → g.stopped = false →
    (∃ copy, i = .uncorrectableError (.lane tid gi lane pa copy) false ∧ (s.mirrored t.pcore t.ctx pa = false ∨ copy = true)) ∨
      (∃ copy, i = .peerTimeout (.lane tid gi lane pa copy)) →
    exec i s = .next (s.raise tid [gi] (g.lane lane).pc (32 * gi + lane) { code := tMCHK, addr := s.vaOf t.pcore t.ctx pa }
      [⟨tMCHK, gi, 1, laneBit lane, 0, (g.lane lane).pc, s.vaOf t.pcore t.ctx pa⟩] [])) ∧
  (∀ (s : State) (tid gi lane pa : Nat) (t : Team), s.team? tid = some t → t.back = none → s.mirrored t.pcore t.ctx pa = true →
    exec (.uncorrectableError (.lane tid gi lane pa false) false) s = .next (s.fromCopy pa)) ∧
  (∀ (s : State) (die cid pa : Nat) (c : Card), s.card? die cid = some c → c.st = .running → c.fail = none →
    (s.mirrored c.core c.ctx pa = true → exec (.uncorrectableError (.card die cid pa false) false) s = .next (s.fromCopy pa)) ∧
    (∀ copy, s.mirrored c.core c.ctx pa = false ∨ copy = true → ∃ s2 c2, exec (.uncorrectableError (.card die cid pa copy) false) s = .next s2 ∧ s2.card? die cid = some c2 ∧
      c2.fail = some (5, s.vaOf c.core c.ctx pa))) ∧
  (∀ (s : State) (die cid pa : Nat) (c : Card), s.card? die cid = some c → c.st = .running → c.fail = none →
    ∀ copy, ∃ s2 c2, exec (.peerTimeout (.card die cid pa copy)) s = .next s2 ∧ s2.card? die cid = some c2 ∧ c2.fail = some (5, s.vaOf c.core c.ctx pa)) ∧
  (∀ (s : State) (pa x : Nat), (s.l2Find (pa / 128)).bind (·.dctx) = some x →
    ((s.die (homeDie pa)).lost.any (fun e => e.1 == pa / 32) = true → exec (.lostSector pa) s = .next s) ∧
    ((s.die (homeDie pa)).lost = [] → ∃ s2, exec (.lostSector pa) s = .next s2 ∧ (pa / 32, x) ∈ (s2.die (homeDie pa)).lost ∧ s2.mem = s.mem)) ∧
  (∀ (s : State) (pa : Nat), s.l2Find (pa / 128) = none → exec (.lostSector pa) s = .next s) ∧
  (∀ (s : State) (u : Nat), ∃ s2, exec (.correctedError u) s = .next s2 ∧ SMap.get 0 s2.live.corr u = min (SMap.get 0 s.live.corr u + 1) (2 ^ 64 - 1) ∧
    (512 ≤ u → { s2 with live := s.live } = s)) ∧
  (∀ (s : State) (u core n : Nat), u < 512 → s.sites.findIdx? (· == u) = some core → core < 480 → core ∉ s.unavail →
    n = 1 + (s.coreErrs.filter (fun e => e.1 == core && decide ((s.die (dieOf core)).time < e.2 + 1000000000))).length →
    (n ≤ 64 → ∃ s2, exec (.correctedError u) s = .next s2 ∧ s2.teams = s.teams ∧ s2.unavail = s.unavail) ∧
    (64 < n → ∃ s2, exec (.correctedError u) s = .next s2 ∧ core ∈ s2.unavail ∧ ∀ t ∈ s2.teams, t.pcore = core → t.halt ≠ none)) ∧
  (∀ (s : State) (core : Nat), core < 480 → s.site core ∉ s.badSites → core ∈ s.unavail →
    (∀ y, (∀ t ∈ s.teams, t.pcore ≠ core) → (s.core core).fly = [] → (s.core core).kept = [] → s.stuckIn core (fun _ => true) = none →
      (({ s.blankCore core with badSites := s.site core :: (s.blankCore core).badSites } : State).spareSite (dieOf core)) = some y → core < s.sites.length →
      ∃ s2, exec (.coreRetire core) s = .next s2 ∧ s2.site core = y ∧ s.site core ∈ s2.badSites ∧ core ∉ s2.unavail ∧ (s2.core core).l1 = [] ∧ (s2.core core).tlb = []) ∧
    ((∃ t ∈ s.teams, t.pcore = core) → ∃ s2, exec (.coreRetire core) s = .next s2 ∧ core ∈ s2.unavail ∧ ∀ t ∈ s2.teams, t.pcore = core → t.halt ≠ none)) ∧
  (∀ (s : State) (core : Nat), s.site core ∈ s.badSites ∨ core ∉ s.unavail → exec (.coreRetire core) s = .next s) ∧
  (∀ (s : State) (d sl : Nat), d < 4 → d < s.dies.length → sl < 128 →
    (SMap.get 0 (s.die d).spares sl < 2 → ∃ s2, exec (.subbankSpare d sl) s = .next s2 ∧ SMap.get 0 (s2.die d).spares sl = SMap.get 0 (s.die d).spares sl + 1 ∧ s2.mem = s.mem) ∧
    (2 ≤ SMap.get 0 (s.die d).spares sl → exec (.subbankSpare d sl) s = .next s)) ∧
  (∀ (s : State) (ch : Nat), ch < 384 → channelDie ch < s.dies.length →
    (ch ∉ (s.die (channelDie ch)).rowHold → ∃ s2, exec (.hbmRowRepair ch) s = .next s2 ∧ ch ∈ (s2.die (channelDie ch)).rowHold ∧ s2.mem = s.mem) ∧
    (ch ∈ (s.die (channelDie ch)).rowHold → ∃ s2, exec (.hbmRowRepairComplete ch) s = .next s2 ∧ ch ∉ (s2.die (channelDie ch)).rowHold ∧
      SMap.get 0 s2.rowFuses ch = SMap.get 0 s.rowFuses ch + 1 ∧ s2.mem = s.mem)) ∧
  (∀ (s : State) (l : Nat), l ∉ s.laneSpares → ∃ s2, exec (.linkLaneSpare l) s = .next s2 ∧ s2.laneSpares = l :: s.laneSpares ∧ s2.mem = s.mem) ∧
  (∀ (s : State) (d : Nat), d < 4 → d < s.dies.length → (s.die d).reinit = false → (s.die d).padOut = [] →
    ((∃ t ∈ s.teams, dieOf t.pcore = d) → ∃ s2, exec (.dieReinit d) s = .next s2 ∧ (s2.die d).emptying = true ∧ ∀ t ∈ s2.teams, dieOf t.pcore = d → t.halt ≠ none) ∧
    ((∀ t ∈ s.teams, dieOf t.pcore ≠ d) → (s.die d).cards = [] → (∀ x < 1024, s.ctxEn x = false) → (∀ k < 120, s.stuckIn (120 * d + k) (fun _ => true) = none) →
      ∃ s2, exec (.dieReinit d) s = .next s2 ∧ (s2.die d).reinit = true ∧ (s2.die d).l2 = [] ∧ (s2.die d).l2tlb = [] ∧ ∀ b, b / 2 ^ 31 = d → SMap.get 0 s2.pad b = 0)) ∧
  (∀ (s : State) (d : Nat), d < 4 → d < s.dies.length → (s.die d).reinit = true → (s.die d).padOut = [] →
    ∃ s2, exec (.dieReinitComplete d) s = .next s2 ∧ (s2.die d).reinit = false ∧ (s2.die d).emptying = false ∧ s2.mem = s.mem) ∧
  (∀ (s : State) (n : Nat), n = min (max s.lifeA.number s.lifeB.number + 1) (2 ^ 32 - 1) →
    (s.recordDue = false → exec .lifetimeRecordWrite s = .next s) ∧
    (s.recordDue = true → ∃ s2, exec .lifetimeRecordWrite s = .next s2 ∧ s2.recordDue = false ∧
      (s.lifeA.number ≤ s.lifeB.number → s2.lifeA.seqn = n ∧ s2.lifeA.good = true ∧ s2.lifeB = s.lifeB) ∧
      (s.lifeB.number < s.lifeA.number → s2.lifeB.seqn = n ∧ s2.lifeB.good = true ∧ s2.lifeA = s.lifeA)) ∧
    (s.powered = true → ∃ s2, runMove .powerDown s = .next s2 ∧ s2.powered = false ∧
      (s.lifeA.number ≤ s.lifeB.number → s2.lifeA.seqn = n ∧ s2.lifeA.good = true ∧ s2.lifeB = s.lifeB) ∧
      (s.lifeB.number < s.lifeA.number → s2.lifeB.seqn = n ∧ s2.lifeB.good = true ∧ s2.lifeA = s.lifeA)))

/-- The answers of software and the errors and repairs, form by form, where software's path is open and the operands name what they act on (R17, R150,
R280, R285, R289, R291-R295, R299, R301): each answers the next state named here, whose fields SoftwareEventsComplete and RepairEventsComplete
state; a lost sector of a dirty line is held as lost for the context that wrote it, where its slice holds fewer than 16, and else takes a free value
while every resident team of that context on the die receives #MCHK. The model's choices: #MCHK names the lane alone (log 25); a core is retired and
a die re-initialised in two events, and what a report of a lost sector says and goes for (log 35); and a spared lane of link l counts at LINKRT 24 +
l (log 11). -/
def Obligations.AnswersAndRepairsComplete : Prop :=
  (∀ (s : State) (x : Nat) (lo : Word) (hi : Option Word), s.hostOpen = true → x < 1024 →
    (lo.getLsbD 0 = false → exec (.pgreplyRetry x lo hi) s = .next (s.pgreply x lo hi)) ∧
    (lo.getLsbD 0 = true → exec (.pgreplyDecline x lo hi) s = .next (s.pgreply x lo hi)) ∧
    (lo.toNat % 8 = 1 → exec (.resumeContinue x lo hi) s = .next (s.resume x lo hi)) ∧ (lo.toNat % 8 = 2 → exec (.resumeSkip x lo hi) s = .next (s.resume x lo hi)) ∧
    (lo.toNat % 8 = 3 → exec (.resumeEnd x lo hi) s = .next (s.resume x lo hi)) ∧ (lo.toNat % 8 = 4 → exec (.resumeKill x lo hi) s = .next (s.resume x lo hi)) ∧
    exec (.replyHighWordLatch x true lo) s = .next (s.modCtx x (fun c => { c with pgreplyHi := lo })) ∧
    exec (.replyHighWordLatch x false lo) s = .next (s.modCtx x (fun c => { c with resumeHi := lo }))) ∧
  (∀ (s : State) (x v : Nat), s.hostOpen = true → x < 1024 →
    exec (.tqrdWrite x v) s = .next (s.writeTqrd x v) ∧ exec (.tqerrRetry x) s = .next ((s.setBar (ctxOff x 0x34) 0).retryNotices x) ∧
    (bitsAt v 26 1 = 1 → exec (.contextEnable x v) s = .next (s.writeMode x v)) ∧ (bitsAt v 26 1 = 0 → exec (.contextDisable x v) s = .next (s.writeMode x v)) ∧
    ∀ off, off % 4 = 0 → exec (.registerWrite .host off v false) s = .next (s.writeBar off (v % 2 ^ 32))) ∧
  (∀ (s : State) (pa : Nat) (u d sl ch l : Nat),
    (∀ tid gi lane copy, exec (.uncorrectableError (.lane tid gi lane pa copy) false) s = .next (s.laneError (!copy) tid gi lane pa) ∧
      exec (.peerTimeout (.lane tid gi lane pa copy)) s = .next (s.laneError false tid gi lane pa)) ∧
    (∀ x n, (s.l2Find (pa / 128)).bind (·.dctx) = some x → (s.die (homeDie pa)).lost.any (fun e => e.1 == pa / 32) = false →
      n = ((s.die (homeDie pa)).lost.filter (fun e => s.homeNode (e.1 / 4) == s.homeNode (pa / 128))).length →
      (n < 16 → exec (.lostSector pa) s = .next ((s.modDie (homeDie pa) (fun y => { y with lost := y.lost ++ [(pa / 32, x)] })).countEvent evLost)) ∧
      (16 ≤ n → (∀ t ∈ s.teams, t.groups ≠ []) → ∃ s2, exec (.lostSector pa) s = .next s2 ∧
        (∀ t ∈ s2.teams, t.ctx = x → dieOf t.pcore = homeDie pa → t.halt ≠ none ∧ t.irrev = true) ∧
        SMap.get 0 s2.live.events evLost = min (SMap.get 0 s.live.events evLost + 1) (2 ^ 64 - 1))) ∧ (∃ s2, exec (.correctedError u) s = .next s2 ∧ SMap.get 0 s2.live.corr u = min (SMap.get 0 s.live.corr u + 1) (2 ^ 64 - 1)) ∧
    (u < 480 → s.site u ∉ s.badSites → u ∈ s.unavail → (∀ t ∈ s.teams, t.pcore ≠ u) → (s.core u).fly = [] → (s.core u).kept = [] →
      s.stuckIn u (fun _ => true) = none →
      exec (.coreRetire u) s = .next ((s.rebind u).recordEvent evRetire)) ∧
    (d < 4 → sl < 128 → SMap.get 0 (s.die d).spares sl < 2 →
      exec (.subbankSpare d sl) s = .next ((s.modDie d (fun x => { x with spares := SMap.set 0 x.spares sl (SMap.get 0 x.spares sl + 1) })).recordEvent evSubbank)) ∧
    (ch < 384 → ch ∉ (s.die (channelDie ch)).rowHold →
      exec (.hbmRowRepair ch) s = .next (s.modDie (channelDie ch) (fun x => { x with rowHold := ch :: x.rowHold }))) ∧
    (ch ∈ (s.die (channelDie ch)).rowHold → exec (.hbmRowRepairComplete ch) s = .next
      (({ s with rowFuses := SMap.set 0 s.rowFuses ch (SMap.get 0 s.rowFuses ch + 1) }.modDie (channelDie ch) (fun x => { x with rowHold := x.rowHold.filter (· != ch) })).recordEvent evRow)) ∧
    (l ∉ s.laneSpares → exec (.linkLaneSpare l) s = .next (({ s with laneSpares := l :: s.laneSpares }.countRetry (24 + l)).recordEvent evLane)) ∧
    (d < 4 → (s.die d).reinit = false → (s.die d).padOut = [] → (∀ t ∈ s.teams, dieOf t.pcore ≠ d) → (s.die d).cards = [] → (∀ x < 1024, s.ctxEn x = false) →
      (∀ k < 120, s.stuckIn (120 * d + k) (fun _ => true) = none) → exec (.dieReinit d) s = .next ((s.modDie d (fun x => { x with emptying := true })).clearDie d [])) ∧
    ((s.die d).reinit = true → exec (.dieReinitComplete d) s = .next
      (((s.modDie d (fun x => { x with reinit := false, power := { x.power with hbm := setChannels d 0 x.power.hbm } })).bindAgain d).refill d)) ∧
    (s.recordDue = true → exec .lifetimeRecordWrite s = .next { s with lifeAt := (s.die 0).time }.writeLife) ∧
    (s.powered = true → runMove .powerDown s = .next s.writeLife.powerOff))

/-- Firmware, attestation and management (R300, R302, R306-R309): an update is written to the slot that does not run, and is run if it may boot; the
counter only rises; the messages answer, a session's key reaches its port, and leaves it. The bytes of identities, signatures and logs are free
values, and the codes of the first two replies are the model's (log 11). -/
def Obligations.ManagementEventsComplete : Prop :=
  (∀ (s : State) (i : Instr) (ver dig : Nat) (sg : Option Nat), i = .liveUpdate ver dig sg ∨ i = .pldmFirmwareUpdate ver dig sg → s.trust.recovery = false →
    ∃ s2, exec i s = .next s2 ∧ s2.mem = s.mem ∧ s2.teams = s.teams ∧
      (s.trust.running = 0 → s2.trust.slotB = ⟨ver, dig, sg.getD 0, sg.isSome⟩ ∧ s2.trust.slotA = s.trust.slotA ∧
        s2.trust.running = if sg = some s.trust.fused ∧ s.trust.rollback ≤ ver then 1 else 0) ∧
      (s.trust.running = 1 → s2.trust.slotA = ⟨ver, dig, sg.getD 0, sg.isSome⟩ ∧ s2.trust.slotB = s.trust.slotB ∧
        s2.trust.running = if sg = some s.trust.fused ∧ s.trust.rollback ≤ ver then 0 else 1)) ∧
  (∀ (s : State) (v : Nat), ∃ s2, exec (.rollbackCounterAdvance v) s = .next s2 ∧ s2.trust.rollback = max s.trust.rollback v) ∧
  (∀ (s : State),
    exec .getVersion s = .next { s with reply := [0x13] } ∧
    exec .negotiateAlgorithms s = .next { s with reply := leBytes 4 0x10 ++ leBytes 4 0x1 ++ leBytes 2 0x2 } ∧
    exec .getCapabilities s = .next { s with reply := fixedBytes (2 ^ 74) 0 5 } ∧
    (∃ s2, exec .getDigests s = .next s2 ∧ s2.reply.length = 32 ∧ { s2 with reply := s.reply } = s) ∧
    (∃ s2, exec .pldmFru s = .next s2 ∧ { s2 with reply := s.reply } = s)) ∧
  (∀ (s : State) (off len : Nat), ∃ s2, exec (.getCertificate off len) s = .next s2 ∧ s2.reply.length = len ∧ { s2 with reply := s.reply } = s ∧
    ∀ k, k < len → ∃ s3, exec (.getCertificate (off + k) 1) s = .next s3 ∧ s3.reply[0]? = s2.reply[k]?) ∧
  (∀ (s : State) (nonce : List Byte),
    (∃ s2, exec (.challenge nonce) s = .next s2 ∧ s2.reply.take nonce.length = nonce ∧ s2.reply.length = nonce.length + 64 ∧ s2.trust = s.trust) ∧
    (∃ s2, exec (.getMeasurements nonce) s = .next s2 ∧ s2.reply.take (s.measured ++ nonce).length = s.measured ++ nonce ∧
      s2.reply.length = (s.measured ++ nonce).length + 64 ∧ s2.trust = s.trust) ∧
    (∃ s2, exec (.keyExchange nonce) s = .next s2 ∧ s2.trust.spdm = 1 ∧ s2.reply.length = 128)) ∧
  (∀ (s : State) (k : Nat) (p : Port), s.ports[k]? = some p →
    (s.trust.spdm = 1 → ∃ s2 p2, exec (.finish (some k) true) s = .next s2 ∧ s2.trust.spdm = 2 ∧ s2.ports[k]? = some p2 ∧ p2.key ≠ none ∧ p2.up = p.up ∧ p2.fails = 0) ∧
    (exec (.finish (some k) false) s = .next s) ∧ (s.trust.spdm ≠ 1 → exec (.finish (some k) true) s = .next s) ∧
    (∃ s2, exec (.endSession (some k)) s = .next s2 ∧ s2.trust.spdm = 0 ∧ s2.ports[k]? = some { p with key := none, fails := 0 })) ∧
  (∀ (s : State), (s.trust.spdm = 1 → ∃ s2, exec (.finish none true) s = .next s2 ∧ s2.trust.spdm = 2 ∧ s2.ports = s.ports) ∧
    ∃ s2, exec (.endSession none) s = .next s2 ∧ s2.trust.spdm = 0 ∧ s2.ports = s.ports) ∧
  (∀ (s : State) (d : Nat), d < 4 → ∃ s2, exec (.pldmMonitor d) s = .next s2 ∧ { s2 with reply := s.reply } = s ∧
    ∀ k, k < 64 → (s2.reply.drop (4 * k)).take 4 = leBytes 4 (s.bar (powOff d (0x400 + 4 * k)))) ∧
  (∀ (s : State) (p : Nat), p < 2048 →
    exec (.lifetimeRecordRead 0 p) s = .next { s with reply := s.lifeA.piece p } ∧ exec (.lifetimeRecordRead 1 p) s = .next { s with reply := s.lifeB.piece p } ∧
    (s.lifeA.piece p).length = 4096 ∧ ((s.lifeA.piece 0).take 8 = leBytes 4 0x095111FE ++ leBytes 4 s.lifeA.seqn))

end
end

