-- ==== Sys2Proof/Laws/Issue.lean ====
section
/-! SUPPORT. What the shared issue of an instruction does: one lemma per operation, which the proofs cite instead of unfolding it. -/
namespace Sys2Proof.Machine

/-- A rendezvous that completes issues for the team of the attempt. -/
theorem gather_tid {i : Instr} {s s1 : State} {c : Cur} {t : Team} {g : Group} {y : Site} (h : gather i s c t g = .go s1 y) :
    y.tid = c.tid := by
  unfold gather at h
  dsimp only at h
  split at h
  · cases h
    all_goals rfl
  · split at h
    · cases h
      all_goals rfl
    · split at h
      · cases h
      · split at h
        · cases h
          all_goals rfl
        · cases h

/-- An issue with nothing before its effect is the performing of its body. -/
theorem issue_of_performing {i : Instr} {b : Body} {s s1 : State} {x : Site} {t : Team} (h : s.performing i = some (s1, x, t)) :
    issue i b s = .next (perform b (b.prep s1 x) x (((b.prep s1 x).team? x.tid).getD t)).state := by
  unfold State.performing at h
  unfold issue
  split at h
  · cases h
  · rename_i c t0 g heq
    try simp only [heq]
    split at h
    · cases h
    · rename_i hsc
      simp only [not_or, Bool.not_eq_true, Option.isSome_eq_false_iff, Option.isNone_iff_eq_none] at hsc
      obtain ⟨hs0, hb⟩ := hsc
      unfold issueAt
      simp only [hs0, hb, Option.isSome_none, Bool.false_and, Bool.false_eq_true, if_false]
      split at h
      · cases h
      · rename_i s1' y hg
        have hy := gather_tid hg
        try simp only [hg]
        dsimp only at h
        split at h
        · cases h
        · rename_i hc
          simp only [Option.some.injEq, Prod.mk.injEq] at h
          obtain ⟨rfl, rfl, rfl⟩ := h
          simp only [not_or, ne_eq, Decidable.not_not, Bool.not_eq_true] at hc
          unfold afterGather
          simp only [hc.1, hc.2, performOrStall, Bool.false_eq_true, if_false]

/-- Dropping no lanes. -/
theorem dropLanes_nil (l : List (Nat × Mask)) : dropLanes l [] = l := by
  have h (m : Mask) : m &&& 4294967295#32 = m := BitVec.and_allOnes (x := m)
  simp [dropLanes, lanesIn, maskOf, h]

/-- Lane outcomes that are all ok. -/
theorem outcomes_ok {b : Body} {s : State} {y : Site} (hl : ∀ q ∈ y.lanes, b.lane s y q.1 q.2 = .ok) :
    faultsOf (outcomes b s y) = [] ∧ parksOf (outcomes b s y) = [] := by
  simp only [faultsOf, parksOf, outcomes, List.filterMap_eq_nil_iff, List.mem_map]
  constructor <;> · rintro _ ⟨q, hq, rfl⟩; simp [hl q hq]

/-- A body whose checks pass, in an issue that does not wait for a bridle round's end and raises no enabled flag, completes. -/
theorem perform_go {b : Body} {s : State} {x : Site} {t : Team} (hp : b.pre s (x.lead (uniOf x.i)) = .go)
    (hl : ∀ q ∈ (x.lead (uniOf x.i)).lanes, b.lane s (x.lead (uniOf x.i)) q.1 q.2 = .ok)
    (hd : defers b s x t = false)
    (hf : fpxLanes s x.tid (if uniOf x.i then (b.run s (x.lead (uniOf x.i))).2 else spread x (uniOf x.i) (b.run s (x.lead (uniOf x.i))).2) = []) :
    (perform b s x t).state =
      (b.run s (x.lead (uniOf x.i))).1.finish x (spread x (uniOf x.i) (b.run s (x.lead (uniOf x.i))).2) := by
  unfold perform
  simp only [hp, (outcomes_ok hl).1, (outcomes_ok hl).2]
  simp only [List.map_nil, dropLanes_nil, List.foldl_nil, ite_self, List.isEmpty_nil, Bool.not_true, Bool.false_and,
    Bool.false_eq_true, if_false, hd, hf, End.state]

/-- Changing a team keeps its identity findable. -/
theorem team?_modTeam {s : State} {tid : Nat} {f : Team → Team} (hf : ∀ u, (f u).tid = u.tid) :
    (s.modTeam tid f).team? tid = (s.team? tid).map f := by
  unfold State.team? State.modTeam
  dsimp only
  induction s.teams with
  | nil => rfl
  | cons u r ih =>
    by_cases h : u.tid = tid
    · simp [h, hf]
    · simp [h, ih]

/-- The team of an issuer is found by its identity. -/
theorem issuer_team {s : State} {c : Cur} {t : Team} {g : Group} (h : s.issuer = some (c, t, g)) :
    s.cur = some c ∧ s.team? c.tid = some t ∧ t.groups[c.gi]? = some g := by
  unfold State.issuer at h
  split at h
  · cases h
  · split at h
    · cases h
    · split at h
      · cases h
      · cases h
        exact ⟨by assumption, by assumption, by assumption⟩

/-- A rendezvous that completes keeps the team findable, and issues the instruction asked. -/
theorem gather_team {i : Instr} {s s1 : State} {c : Cur} {t : Team} {g : Group} {y : Site} (h : gather i s c t g = .go s1 y)
    (ht : s.team? c.tid = some t) : (∃ u, s1.team? c.tid = some u) ∧ y.i = i := by
  unfold gather at h
  dsimp only at h
  split at h
  · cases h
    exact ⟨⟨t, ht⟩, rfl⟩
  · split at h
    · cases h
      exact ⟨⟨t, ht⟩, rfl⟩
    · split at h
      · cases h
      · split at h
        · cases h
          refine ⟨?_, rfl⟩
          simp only [State.modGroup, Cur.widen]
          rw [team?_modTeam (f := fun t => t.modGroup c.gi _) (fun _ => rfl), ht]
          exact ⟨_, rfl⟩
        · cases h

/-- The issue at hand: its instruction and its team. -/
theorem performing_site {i : Instr} {s s1 : State} {x : Site} {t : Team} (h : s.performing i = some (s1, x, t)) :
    x.i = i ∧ s1.team? x.tid = some t := by
  unfold State.performing at h
  split at h
  · cases h
  · rename_i c t0 g heq
    have hc := issuer_team heq
    split at h
    · cases h
    · split at h
      · cases h
      · rename_i s1' y hg
        obtain ⟨⟨u, hu⟩, hi⟩ := gather_team hg hc.2.1
        have hy := gather_tid hg
        dsimp only at h
        split at h
        · cases h
        · simp only [Option.some.injEq, Prod.mk.injEq] at h
          obtain ⟨rfl, rfl, rfl⟩ := h
          exact ⟨hi, by simp only [hy, hu, Option.getD_some]⟩

/-- Lanes of a mask are lanes. -/
theorem lanesOf_lt {m : Mask} {l : Nat} (h : l ∈ lanesOf m) : l < 32 := by
  simp only [lanesOf, List.mem_filter, List.mem_range] at h
  exact h.1
/-- The lane of a one-lane mask. -/
theorem lanesOf_laneBit {l : Nat} (h : l < 32) : lanesOf (laneBit l) = [l] := by
  have : ∀ k : Fin 32, lanesOf (laneBit k.val) = [k.val] := by decide
  exact this ⟨l, h⟩
/-- A participant's lane is a lane. -/
theorem lanes_lt {x : Site} {q : Nat × Nat} (h : q ∈ x.lanes) : q.2 < 32 := by
  simp only [Site.lanes, List.mem_flatMap, List.mem_map] at h
  obtain ⟨_, _, _, hl, rfl⟩ := h
  exact lanesOf_lt hl
/-- The leading site has the lowest participant alone under UNI, and every participant otherwise. -/
theorem lead_lanes (x : Site) (u : Bool) : (x.lead u).lanes = if u then x.lanes.take 1 else x.lanes := by
  cases u with
  | false => rfl
  | true =>
    simp only [Site.lead, if_true]
    cases hx : x.lanes with
    | nil => rfl
    | cons q r =>
      have : q.2 < 32 := lanes_lt (hx ▸ List.mem_cons_self ..)
      simp [Site.lanes, lanesOf_laneBit this]

/-- The results of a body that works lane by lane, spread under UNI. -/
theorem laneBody_res {s : State} {x : Site} {t : Team} {f : Group → Nat → List Wr × Flags} (ht : s.team? x.tid = some t) :
    spread x (uniOf x.i) ((laneBody f).run s (x.lead (uniOf x.i))).2 = laneRes t x (fun _ g l => f g l) := by
  have htid : (x.lead (uniOf x.i)).tid = x.tid := by unfold Site.lead; split <;> rfl
  simp only [laneBody, htid, ht, lead_lanes, laneRes, Site.source, spread]
  cases hu : uniOf x.i with
  | false =>
    simp only [Bool.false_eq_true, if_false]
    all_goals congr 1
  | true =>
    simp only [if_true]
    cases hx : x.lanes with
    | nil => simp
    | cons q r =>
      simp only [List.take_succ_cons, List.take_zero, List.map_cons, List.map_nil, List.headD_cons]
      cases t.groups[q.1]? <;> simp

/-- Results without flags raise no #FPX. -/
theorem fpxLanes_none {s : State} {tid : Nat} {r : Res} (h : ∀ q ∈ r.lanes, q.fl = 0) : fpxLanes s tid r = [] := by
  simp only [fpxLanes, List.map_eq_nil_iff, List.filter_eq_nil_iff]
  intro q hq
  cases s.group? tid q.gi with
  | none => simp
  | some g => simp [h q hq]

/-- The leading results raise #FPX only where the spread ones do. -/
theorem fpxLanes_lead {s : State} {x : Site} {t : Team} {f : Group → Nat → List Wr × Flags} (ht : s.team? x.tid = some t)
    (h : fpxLanes s x.tid (laneRes t x (fun _ g l => f g l)) = []) :
    fpxLanes s x.tid (if uniOf x.i then ((laneBody f).run s (x.lead (uniOf x.i))).2
      else spread x (uniOf x.i) ((laneBody f).run s (x.lead (uniOf x.i))).2) = [] := by
  rw [laneBody_res ht]
  split
  · rename_i hu
    have htid : (x.lead true).tid = x.tid := rfl
    simp only [fpxLanes, List.map_eq_nil_iff, List.filter_eq_nil_iff] at h ⊢
    intro q hq
    apply h
    simp only [hu, laneBody, htid, ht, lead_lanes, if_true] at hq
    simp only [laneRes, Site.source, hu, if_true]
    cases hx : x.lanes with
    | nil => simp [hx] at hq
    | cons p r =>
      simp only [hx, List.take_succ_cons, List.take_zero, List.map_cons, List.map_nil, List.mem_singleton] at hq
      simp only [List.headD_cons, List.map_cons, List.mem_cons]
      left
      rw [hq]
      all_goals (cases t.groups[p.1]? <;> rfl)
  · exact h

/-- An instruction that works lane by lane completes. -/
theorem computesF_laneBody {i : Instr} {f : Group → Nat → List Wr × Flags} (he : (traits i).ends = false)
    (h : ∀ s, exec i s = issue i (laneBody f) s) : ComputesF i f := by
  intro s s1 x t hp hf
  obtain ⟨hi, ht⟩ := performing_site hp
  rw [h, issue_of_performing hp]
  have ht' : (((laneBody f).prep s1 x).team? x.tid).getD t = t := by
    show (s1.team? x.tid).getD t = t
    rw [ht]; rfl
  rw [ht']
  congr 1
  show (perform (laneBody f) s1 x t).state = _
  rw [perform_go rfl (fun _ _ => rfl) (by simp [defers, hi, he, laneBody]) (fpxLanes_lead ht hf), laneBody_res ht]
  rfl

/-- One that raises no flags completes. -/
theorem computes_laneBody {i : Instr} {f : Group → Nat → List Wr} (he : (traits i).ends = false)
    (h : ∀ s, exec i s = issue i (laneBody (fun g l => (f g l, 0))) s) : Computes i f := by
  intro s s1 x t hp
  refine computesF_laneBody he h s s1 x t hp (fpxLanes_none ?_)
  intro q hq
  simp only [laneRes, List.mem_map] at hq
  obtain ⟨p, _, rfl⟩ := hq
  cases t.groups[(x.source p).1]? <;> rfl

/-- An issue whose checks pass, that does not wait for a bridle round's end and raises no flag, completes; under UNI for the lowest participant,
its result spread over all. -/
theorem issue_lead {i : Instr} {b : Body} {s s1 : State} {x : Site} {t : Team} (hp : s.performing i = some (s1, x, t))
    (hpre : b.pre (b.prep s1 x) (x.lead (uniOf i)) = .go)
    (hl : ∀ q ∈ (x.lead (uniOf i)).lanes, b.lane (b.prep s1 x) (x.lead (uniOf i)) q.1 q.2 = .ok)
    (hd : defers b (b.prep s1 x) x (((b.prep s1 x).team? x.tid).getD t) = false)
    (hf : ∀ q ∈ (b.run (b.prep s1 x) (x.lead (uniOf i))).2.lanes, q.fl = 0) :
    issue i b s = .next ((b.run (b.prep s1 x) (x.lead (uniOf i))).1.finish x
      (spread x (uniOf i) (b.run (b.prep s1 x) (x.lead (uniOf i))).2)) := by
  obtain ⟨rfl, ht⟩ := performing_site hp
  rw [issue_of_performing hp]
  congr 1
  refine perform_go hpre hl hd (fpxLanes_none ?_)
  intro q hq
  split at hq
  · exact hf q hq
  · rename_i hu
    rw [Bool.not_eq_true] at hu
    rw [hu] at hq hf
    exact hf q hq
/-- The same without UNI. -/
theorem issue_go {i : Instr} {b : Body} {s s1 : State} {x : Site} {t : Team} (hp : s.performing i = some (s1, x, t))
    (hu : uniOf i = false) (hpre : b.pre (b.prep s1 x) x = .go) (hl : ∀ q ∈ x.lanes, b.lane (b.prep s1 x) x q.1 q.2 = .ok)
    (hd : defers b (b.prep s1 x) x (((b.prep s1 x).team? x.tid).getD t) = false)
    (hf : ∀ q ∈ (b.run (b.prep s1 x) x).2.lanes, q.fl = 0) :
    issue i b s = .next ((b.run (b.prep s1 x) x).1.finish x (b.run (b.prep s1 x) x).2) := by
  have hx : x.lead (uniOf i) = x := by rw [hu]; rfl
  have := issue_lead (b := b) hp (by rw [hx]; exact hpre) (by rw [hx]; exact hl) hd (by rw [hx]; exact hf)
  rw [this, hx, hu]
  rfl
/-- A leading site is of the same team. -/
theorem lead_tid (x : Site) (u : Bool) : (x.lead u).tid = x.tid := by cases u <;> rfl
/-- The results of a pass over the participants carry no flags. -/
theorem lanesDo_flags {s : State} {x : Site} {f : State → Group → Nat → Nat → State × List Wr} :
    ∀ q ∈ (s.lanesDo x f).2, q.fl = 0 := by
  unfold State.lanesDo
  have : ∀ (l : List (Nat × Nat)) (acc : State × List LRes), (∀ q ∈ acc.2, q.fl = 0) →
      ∀ q ∈ (l.foldl (fun (acc : State × List LRes) q =>
        match acc.1.group? x.tid q.1 with
        | none => acc
        | some g => ((f acc.1 g q.1 q.2).1, acc.2 ++ [⟨q.1, q.2, (f acc.1 g q.1 q.2).2, 0⟩])) acc).2, q.fl = 0 := by
    intro l
    induction l with
    | nil => exact fun acc h => h
    | cons p r ih =>
      intro acc h
      refine ih _ ?_
      dsimp only
      split
      · exact h
      · intro q hq
        rcases List.mem_append.1 hq with hq | hq
        · exact h q hq
        · rw [List.mem_singleton.1 hq]
  exact this x.lanes (s, []) (by simp)

/-- An instruction that writes uniform registers completes. -/
theorem computesU_uniBody {i : Instr} {f : State → Team → Group → List (Nat × Word)} (he : (traits i).ends = false) (hu : uniOf i = false)
    (h : ∀ s, exec i s = issue i (uniBody f) s) : ComputesU i f := by
  intro s s1 x t g hp hg
  obtain ⟨hi, ht⟩ := performing_site hp
  have hr : (uniBody f).run s1 x = (s1, { gs := f s1 t g }) := by
    simp only [uniBody, ht, hg]
  have := issue_go (b := uniBody f) hp hu rfl (fun _ _ => rfl) (by simp [defers, hi, he, uniBody]) (by
    show ∀ q ∈ ((uniBody f).run s1 x).2.lanes, q.fl = 0
    rw [hr]
    simp)
  rw [h, this]
  show Host.Outcome.next (((uniBody f).run s1 x).1.finish x ((uniBody f).run s1 x).2) = _
  rw [hr]

end Sys2Proof.Machine
end

