-- ==== Sys2Proof/Laws/Bodies.lean ====
section
/-! SUPPORT. When the instructions of one shape complete: one lemma per body, from the lemmas about the issue. -/
namespace Sys2Proof.Machine

/-- The one outcome of a lane's check of its registers. -/
theorem chkLane_ok {f : Team → Group → Nat → Chk} {s : State} {x : Site} {gi l : Nat} {t : Team} (ht : s.team? x.tid = some t)
    (h : ∀ g, t.groups[gi]? = some g → f t g l = .ok) : chkLane f s x gi l = .ok := by
  unfold chkLane
  simp only [ht]
  cases hg : t.groups[gi]? with
  | none => rfl
  | some g => exact h g hg

/-- An instruction whose body loads. -/
theorem loads_of_body {i : Instr} {sp : Space} {w d ch : Nat} {acq : Bool} {a : Group → Nat → Nat} (he : (traits i).ends = false)
    (h : ∀ s, exec i s = issue i (loadBody sp w d acq ch a) s) : Loads i sp w d acq ch a := by
  intro s s1 x t hp hl
  refine ⟨_, rfl, ?_⟩
  obtain ⟨hi, ht⟩ := performing_site hp
  rw [h, issue_lead (b := loadBody sp w d acq ch a) hp rfl hl (by simp [defers, hi, he, loadBody]) (by
    show ∀ q ∈ (s1.lanesDo _ _).2, q.fl = 0
    exact lanesDo_flags)]
  have := lead_tid x (uniOf i)
  simp only [loadBody, this]

/-- An instruction whose body stores. -/
theorem stores_of_body {i : Instr} {sp : Space} {w d : Nat} {rel : Bool} {a : Group → Nat → Nat} (he : (traits i).ends = false)
    (hu : uniOf i = false) (h : ∀ s, exec i s = issue i (storeBody sp w d rel a) s) : Stores i sp w d rel a := by
  intro s s1 x t hp hl
  obtain ⟨hi, ht⟩ := performing_site hp
  rw [h, issue_go (b := storeBody sp w d rel a) hp hu rfl hl (by simp [defers, hi, he, storeBody]) (by
    show ∀ q ∈ ([] : List LRes), q.fl = 0
    simp)]
  rfl

/-- The issue at the coherence point is one that nothing stands before, its stores drained. -/
theorem atPoint_performing {i : Instr} {s s1 : State} {x : Site} {t : Team} (h : s.atPoint i = some (s1, x, t)) :
    ∃ s0 t0, s.performing i = some (s0, x, t0) ∧ s1 = drainPrep s0 x ∧ t = (s1.team? x.tid).getD t0 := by
  unfold State.atPoint at h
  split at h
  · cases h
  · rename_i s0 t0 hq
    cases h
    exact ⟨_, _, hq, rfl, rfl⟩

/-- In free mode a write of a lane's own meets what its access meets. -/
theorem ownAcc_free {sp : Space} {n gi l : Nat} {read : Bool} {a : Group → Nat → Nat} {s : State} {x : Site} {t0 : Team}
    (h : ((s.team? x.tid).getD t0).la.bridle = false) : ownAcc sp n read a s x gi l = laneAcc sp n true read a s x gi l := by
  unfold ownAcc
  split
  · rename_i hc
    unfold State.tg
    cases ht : s.team? x.tid with
    | none => exact hc.symm
    | some t =>
      rw [ht, Option.getD_some] at h
      cases hg : t.groups[gi]? with
      | none => simp only [hc]; simp [hg]
      | some g =>
        simp only [hg, Option.map_some]
        cases s.resolve t g l sp (a g l) n true <;> simp [bridled, h, hc]
  · rename_i hc; exact hc.symm
  · rename_i hc; exact hc.symm

/-- An instruction whose body is atomic. -/
theorem atomics_of_body {i : Instr} {sp : Space} {k : Atom} {ret : Option Nat} {a : Group → Nat → Nat} (hu : uniOf i = false)
    (h : ∀ s, exec i s = issue i (atomBody sp k ret a) s) : Atomics i sp k ret a := by
  intro s s1 x t hp hb hl
  obtain ⟨s0, t0, hq, rfl, rfl⟩ := atPoint_performing hp
  have hl' : ∀ q ∈ x.lanes, (atomBody sp k ret a).lane (drainPrep s0 x) x q.1 q.2 = .ok := by
    intro q hq
    show (if ret.isSome || k.unfoldable then ownAcc sp k.width true a else laneAcc sp k.width true true a) _ x q.1 q.2 = .ok
    split
    · rw [ownAcc_free hb]; exact hl q hq
    · exact hl q hq
  have hd : (((drainPrep s0 x).team? x.tid).getD t0).la.bridle = false := hb
  refine ⟨fun hw => ⟨_, _, rfl, rfl, ?_⟩, fun hw ha => ⟨_, rfl, ?_⟩⟩
  · have hr : (!k.acq && pointWait k.rel (drainPrep s0 x) x) = false := by rw [hw, Bool.and_false]
    rw [h, issue_go (b := atomBody sp k ret a) hq hu (by simp [atomBody, hw]) hl' (by
      show ((((drainPrep s0 x).team? x.tid).getD t0).la.bridle && _) = false
      rw [hd, Bool.false_and]) (by
      simp only [atomBody, hr, Bool.false_eq_true, if_false]
      exact lanesDo_flags)]
    simp only [atomBody, hr, Bool.false_eq_true, if_false]
    all_goals rfl
  · have hr : (!k.acq && pointWait k.rel (drainPrep s0 x) x) = true := by rw [hw, ha]; rfl
    rw [h, issue_go (b := atomBody sp k ret a) hq hu (by simp [atomBody, ha]) hl' (by
      show ((((drainPrep s0 x).team? x.tid).getD t0).la.bridle && _) = false
      rw [hd, Bool.false_and]) (by
      simp only [atomBody, hr, if_true]
      simp only [State.queueRmw, List.mem_map]
      rintro q ⟨_, _, rfl⟩
      rfl)]
    simp only [atomBody, hr, if_true]

/-- An instruction whose body branches. -/
theorem branches_of_body {i : Instr} {tgt : Site → Group → Nat → Int} (he : (traits i).ends = false) (hu : uniOf i = false)
    (h : ∀ s, exec i s = issue i (braBody tgt) s) : Branches i tgt := by
  intro s s1 x t hp hl
  obtain ⟨hi, ht⟩ := performing_site hp
  have hc : ∀ q ∈ x.lanes, (braBody tgt).lane ((braBody tgt).prep s1 x) x q.1 q.2 = .ok := by
    intro q hq
    show chkLane (fun t g l => targetChk t.la (tgt x g l)) s1 x q.1 q.2 = .ok
    exact chkLane_ok ht (hl q hq)
  rw [h, issue_go (b := braBody tgt) hp hu rfl hc (by simp [defers, hi, he, braBody]) (by
    show ∀ q ∈ ([] : List LRes), q.fl = 0
    simp)]
  simp only [braBody, jumps, ht]
  all_goals rfl

/-- An instruction whose body calls. -/
theorem calls_of_body {i : Instr} {tgt : Site → Group → Nat → Int} (he : (traits i).ends = false) (hu : uniOf i = false)
    (h : ∀ s, exec i s = issue i (callBody tgt) s) : Calls i tgt := by
  intro s s1 x t hp hl
  obtain ⟨hi, ht⟩ := performing_site hp
  have hc : ∀ q ∈ x.lanes, (callBody tgt).lane ((callBody tgt).prep s1 x) x q.1 q.2 = .ok := by
    intro q hq
    have hd : x.lanes.any (fun p => match s1.team? x.tid with
        | none => false
        | some t => (t.groups[p.1]?).any (fun g => decide (t.la.hdr.depth ≤ (g.lane p.2).depth))) = false := by
      rw [List.any_eq_false]
      intro p hp
      rw [ht]
      cases hg : t.groups[p.1]? with
      | none => simp only [hg, Option.any_none, Bool.false_eq_true, not_false_eq_true]
      | some g => simp only [hg, Option.any_some, decide_eq_true_eq, Nat.not_le]; exact (hl p hp g hg).2
    show (if _ then _ else _) = Chk.ok
    rw [if_neg (by rw [Bool.not_eq_true]; exact hd)]
    exact chkLane_ok ht (fun g hg => (hl q hq g hg).1)
  rw [h, issue_go (b := callBody tgt) hp hu rfl hc (by simp [defers, hi, he, callBody]) (by
    simp only [callBody, ht]
    simp)]
  simp only [callBody, jumps, ht]
  all_goals rfl

end Sys2Proof.Machine
end

