-- ==== Sys2Proof/Laws/Sparse.lean ====
section
/-! SUPPORT. Sparse maps and lists: a read after a write, the canonical form kept, and the element at an index. -/
namespace Sys2Proof.Machine

/-! ## Read after write -/

theorem SMap.get_put {α : Type} (d : α) (m : SMap α) (k j : Nat) (v : α) :
    SMap.get d (SMap.put m k v) j = if j = k then v else SMap.get d m j := by
  induction m with
  | nil => simp [SMap.put, SMap.get]
  | cons p r ih =>
    obtain ⟨a, x⟩ := p
    simp only [SMap.put]
    by_cases h : k = a
    · subst h
      by_cases hj : j = k <;> simp [SMap.get, hj]
    · by_cases hlt : k < a
      · by_cases hj : j = k <;> simp [SMap.get, h, hlt, hj]
      · by_cases hj : j = k
        · subst hj
          simp [SMap.get, h, hlt, ih]
        · simp only [h, hlt, if_false, SMap.get, ih, hj]
theorem SMap.get_drop {α : Type} (d : α) (m : SMap α) (k j : Nat) :
    SMap.get d (SMap.drop m k) j = if j = k then d else SMap.get d m j := by
  induction m with
  | nil => simp [SMap.drop, SMap.get]
  | cons p r ih =>
    obtain ⟨a, x⟩ := p
    simp only [SMap.drop]
    by_cases h : k = a
    · subst h
      rw [if_pos rfl, ih]
      by_cases hj : j = k <;> simp [SMap.get, hj]
    · by_cases hj : j = k
      · subst hj
        simp [SMap.get, h, ih]
      · simp only [h, if_false, SMap.get, ih, hj]
/-- A key reads what was last written to it, and every other key as before. -/
theorem SMap.get_set {α : Type} [DecidableEq α] (d : α) (m : SMap α) (k j : Nat) (v : α) :
    SMap.get d (SMap.set d m k v) j = if j = k then v else SMap.get d m j := by
  unfold SMap.set
  split
  · rename_i h
    rw [SMap.get_drop, h]
  · exact SMap.get_put d m k j v
@[simp] theorem SMap.get_set_same {α : Type} [DecidableEq α] (d : α) (m : SMap α) (k : Nat) (v : α) :
    SMap.get d (SMap.set d m k v) k = v := by simp [SMap.get_set]
theorem SMap.get_set_other {α : Type} [DecidableEq α] (d : α) (m : SMap α) {k j : Nat} (v : α) (h : j ≠ k) :
    SMap.get d (SMap.set d m k v) j = SMap.get d m j := by simp [SMap.get_set, h]

/-! ## The canonical form -/

theorem SMap.wfFrom_mono {α : Type} [DecidableEq α] {d : α} {m : SMap α} {lo lo' : Nat} (h : lo' ≤ lo) (w : SMap.wfFrom d lo m = true) :
    SMap.wfFrom d lo' m = true := by
  cases m with
  | nil => rfl
  | cons p r =>
    simp only [SMap.wfFrom, Bool.and_eq_true, decide_eq_true_eq] at w ⊢
    exact ⟨⟨by omega, w.1.2⟩, w.2⟩
theorem SMap.drop_above {α : Type} [DecidableEq α] {d : α} {m : SMap α} {lo k : Nat} (h : k < lo) (w : SMap.wfFrom d lo m = true) :
    SMap.drop m k = m := by
  induction m generalizing lo with
  | nil => rfl
  | cons p r ih =>
    simp only [SMap.wfFrom, Bool.and_eq_true, decide_eq_true_eq] at w
    have hk : k ≠ p.1 := by omega
    simp only [SMap.drop, hk, if_false]
    rw [ih (lo := p.1 + 1) (by omega) w.2]
theorem SMap.drop_wfFrom {α : Type} [DecidableEq α] {d : α} {m : SMap α} {lo k : Nat} (w : SMap.wfFrom d lo m = true) :
    SMap.wfFrom d lo (SMap.drop m k) = true := by
  induction m generalizing lo with
  | nil => rfl
  | cons p r ih =>
    have w' := w
    simp only [SMap.wfFrom, Bool.and_eq_true, decide_eq_true_eq] at w
    simp only [SMap.drop]
    split
    · rename_i h
      rw [SMap.drop_above (lo := p.1 + 1) (by omega) w.2]
      exact SMap.wfFrom_mono (by omega) w.2
    · simp only [SMap.wfFrom, Bool.and_eq_true, decide_eq_true_eq]
      exact ⟨w.1, ih w.2⟩
theorem SMap.put_wfFrom {α : Type} [DecidableEq α] {d : α} {m : SMap α} {lo k : Nat} {v : α} (hv : v ≠ d) (hk : lo ≤ k)
    (w : SMap.wfFrom d lo m = true) : SMap.wfFrom d lo (SMap.put m k v) = true := by
  induction m generalizing lo with
  | nil => simp [SMap.put, SMap.wfFrom, hv, hk]
  | cons p r ih =>
    have w' := w
    simp only [SMap.wfFrom, Bool.and_eq_true, decide_eq_true_eq] at w
    simp only [SMap.put]
    split
    · rename_i h
      simp only [SMap.wfFrom, Bool.and_eq_true, decide_eq_true_eq]
      exact ⟨⟨w.1.1, hv⟩, w.2⟩
    · split
      · rename_i h
        simp only [SMap.wfFrom, Bool.and_eq_true, decide_eq_true_eq]
        exact ⟨⟨hk, hv⟩, ⟨by omega, w.1.2⟩, w.2⟩
      · simp only [SMap.wfFrom, Bool.and_eq_true, decide_eq_true_eq]
        exact ⟨w.1, ih (by omega) w.2⟩
/-- A write keeps the canonical form. -/
theorem SMap.wf_set {α : Type} [DecidableEq α] {d : α} {m : SMap α} (k : Nat) (v : α) (w : SMap.wf d m = true) :
    SMap.wf d (SMap.set d m k v) = true := by
  unfold SMap.set
  split
  · exact SMap.drop_wfFrom w
  · rename_i h
    exact SMap.put_wfFrom h (Nat.zero_le _) w
/-- Bytes written keep the canonical form. -/
theorem wf_setBytes {m : SMap Byte} (a : Nat) (bs : List Byte) (w : SMap.wf 0 m = true) : SMap.wf 0 (setBytes m a bs) = true := by
  induction bs generalizing m a with
  | nil => exact w
  | cons b r ih => exact ih _ (SMap.wf_set a b w)
/-- Entries left out keep the canonical form. -/
theorem SMap.wfFrom_filter {α : Type} [DecidableEq α] {d : α} {m : SMap α} {lo : Nat} (p : Nat × α → Bool) (w : SMap.wfFrom d lo m = true) :
    SMap.wfFrom d lo (m.filter p) = true := by
  induction m generalizing lo with
  | nil => rfl
  | cons q r ih =>
    simp only [SMap.wfFrom, Bool.and_eq_true, decide_eq_true_eq] at w
    simp only [List.filter_cons]
    split
    · simp only [SMap.wfFrom, Bool.and_eq_true, decide_eq_true_eq]
      exact ⟨w.1, ih w.2⟩
    · exact SMap.wfFrom_mono (by omega) (ih w.2)
theorem SMap.wf_filter {α : Type} [DecidableEq α] {d : α} {m : SMap α} (p : Nat × α → Bool) (w : SMap.wf d m = true) :
    SMap.wf d (m.filter p) = true := SMap.wfFrom_filter p w

/-! ## Lists by index -/

@[simp] theorem updAt_length {α : Type} (l : List α) (i : Nat) (f : α → α) : (updAt l i f).length = l.length := by
  induction l generalizing i with
  | nil => rfl
  | cons x r ih => cases i <;> simp [updAt, ih]
theorem updAt_getElem? {α : Type} (l : List α) (i j : Nat) (f : α → α) :
    (updAt l i f)[j]? = if i = j then (l[j]?).map f else l[j]? := by
  induction l generalizing i j with
  | nil => simp [updAt]
  | cons x r ih =>
    cases i with
    | zero => cases j <;> simp [updAt]
    | succ i => cases j with
      | zero => simp [updAt]
      | succ j => simp [updAt, ih]
theorem enum_go_getElem? {α : Type} (l : List α) (i j : Nat) : (enum.go i l)[j]? = (l[j]?).map (fun x => (i + j, x)) := by
  induction l generalizing i j with
  | nil => simp [enum.go]
  | cons x r ih =>
    cases j with
    | zero => simp [enum.go]
    | succ j => simp [enum.go, ih]; congr; funext x; congr 1; omega
/-- The element of `enum` at an index. -/
@[simp] theorem enum_getElem? {α : Type} (l : List α) (j : Nat) : (enum l)[j]? = (l[j]?).map (fun x => (j, x)) := by
  simp [enum, enum_go_getElem?]
@[simp] theorem enum_go_length {α : Type} (l : List α) (i : Nat) : (enum.go i l).length = l.length := by
  induction l generalizing i with
  | nil => rfl
  | cons x r ih => simp [enum.go, ih]
@[simp] theorem enum_length {α : Type} (l : List α) : (enum l).length = l.length := enum_go_length l 0
/-- Lanes of a list of masks. -/
theorem mem_lanesOf {m : Mask} {l : Nat} : l ∈ lanesOf m ↔ l < 32 ∧ m.has l = true := by simp [lanesOf]

end Sys2Proof.Machine
end

