-- ==== Sys2Proof/Laws/Memory.lean ====
section
/-! SUPPORT. Memory and the pad keep their canonical form under every operation that writes them. -/
namespace Sys2Proof.Machine

/-! ## The operations that write memory -/

theorem State.loseResv_mem (s : State) (line : Nat) (core? : Option Nat) : (s.loseResv line core?).mem = s.mem := rfl
theorem State.loseResv_pad (s : State) (line : Nat) (core? : Option Nat) : (s.loseResv line core?).pad = s.pad := rfl
theorem State.unlose_mem (s : State) (l : List Nat) : (s.unlose l).mem = s.mem := by
  unfold State.unlose; split <;> rfl
theorem State.unlose_pad (s : State) (l : List Nat) : (s.unlose l).pad = s.pad := by
  unfold State.unlose; split <;> rfl
theorem State.dropReaders_mem (s : State) (l : Nat) : (s.dropReaders l).mem = s.mem := by
  unfold State.dropReaders; split <;> rfl
theorem State.dropReaders_pad (s : State) (l : Nat) : (s.dropReaders l).pad = s.pad := by
  unfold State.dropReaders; split <;> rfl
theorem State.useMirror_mem (s : State) (pa : Nat) : (s.useMirror pa).mem = s.mem := rfl
theorem State.useMirror_pad (s : State) (pa : Nat) : (s.useMirror pa).pad = s.pad := rfl
theorem State.useLine_mem (s : State) (pa : Nat) : (s.useLine pa).mem = s.mem := by
  unfold State.useLine State.useChannel; split
  · rfl
  · split <;> rfl
theorem State.useLine_pad (s : State) (pa : Nat) : (s.useLine pa).pad = s.pad := by
  unfold State.useLine State.useChannel; split
  · rfl
  · split <;> rfl
/-- A write at its home: the bytes, and the copy where the page is mirrored. -/
theorem State.putPhys_mem (s : State) (pa : Nat) (mir : Bool) (bs : List Byte) :
    (s.putPhys pa mir bs).mem = if mir then setBytes (setBytes s.mem pa bs) (s.mirrorOf pa) bs else setBytes s.mem pa bs := by
  cases mir <;> simp only [State.putPhys, if_true, Bool.false_eq_true, if_false, State.useLine_mem, State.useMirror_mem, State.dropReaders_mem, State.unlose_mem]
theorem State.putPhys_pad (s : State) (pa : Nat) (mir : Bool) (bs : List Byte) : (s.putPhys pa mir bs).pad = s.pad := by
  cases mir <;> simp only [State.putPhys, if_true, Bool.false_eq_true, if_false, State.useLine_pad, State.useMirror_pad, State.dropReaders_pad, State.unlose_pad]
theorem State.landPhys_mem (s : State) (pa : Nat) (mir : Bool) (bs : List Byte) :
    (s.landPhys pa mir bs).mem = if mir then setBytes (setBytes s.mem pa bs) (s.mirrorOf pa) bs else setBytes s.mem pa bs :=
  s.putPhys_mem pa mir bs
theorem State.landPhys_pad (s : State) (pa : Nat) (mir : Bool) (bs : List Byte) : (s.landPhys pa mir bs).pad = s.pad :=
  s.putPhys_pad pa mir bs
theorem wf_putPhys {s : State} (pa : Nat) (mir : Bool) (bs : List Byte) (w : Memory.wf s.mem = true) : Memory.wf (s.putPhys pa mir bs).mem = true := by
  rw [State.putPhys_mem]
  cases mir
  · exact wf_setBytes _ _ w
  · exact wf_setBytes _ _ (wf_setBytes _ _ w)
theorem wf_landPhys {s : State} (pa : Nat) (mir : Bool) (bs : List Byte) (w : Memory.wf s.mem = true) : Memory.wf (s.landPhys pa mir bs).mem = true :=
  wf_putPhys pa mir bs w
theorem wf_land {s : State} (l : Loc) (bs : List Byte) (w : Memory.wf s.mem = true) (wp : Memory.wf s.pad = true) :
    Memory.wf (s.land l bs).mem = true ∧ Memory.wf (s.land l bs).pad = true := by
  cases l with
  | shm a => exact ⟨w, wp⟩
  | pad d sl o => exact ⟨w, wf_setBytes _ _ wp⟩
  | phys pa shr mir mig cp => exact ⟨wf_landPhys pa mir bs w, (State.landPhys_pad s pa mir bs).symm ▸ wp⟩
theorem wf_setA {s : State} (pte : Nat) (w : Memory.wf s.mem = true) : Memory.wf (s.setA pte).mem = true := SMap.wf_set _ _ w
/-- The D bit set in the entry's byte; its channel is used. -/
theorem State.setD_mem (s : State) (pte : Nat) : (s.setD pte).mem = SMap.set 0 s.mem (pte + 6) (SMap.get 0 s.mem (pte + 6) ||| 0x80) := by
  unfold State.setD; dsimp only; split
  · rw [State.useLine_mem]
  · rfl
theorem State.setD_pad (s : State) (pte : Nat) : (s.setD pte).pad = s.pad := by
  unfold State.setD; dsimp only; split
  · rw [State.useLine_pad]
  · rfl
theorem wf_setD {s : State} (pte : Nat) (w : Memory.wf s.mem = true) : Memory.wf (s.setD pte).mem = true := by
  rw [State.setD_mem]; exact SMap.wf_set _ _ w
/-! ## The caches: what they write back, and what only moves their records -/

theorem State.useChannel_mem (s : State) (pa : Nat) : (s.useChannel pa).mem = s.mem := by unfold State.useChannel; split <;> rfl
theorem State.loseL2_mem (s : State) (fill : Option Nat) (y : L2Line) : (s.loseL2 fill y).mem = s.mem := by
  unfold State.loseL2
  dsimp only
  (repeat' split) <;> first
    | rfl
    | exact State.useChannel_mem ..
theorem State.freeL2_mem (n node room : Nat) (fill : Option Nat) (s : State) : (State.freeL2 n node room fill s).1.mem = s.mem := by
  induction n generalizing node room fill s with
  | zero => rfl
  | succ n ih =>
    unfold State.freeL2
    dsimp only
    split
    · rfl
    · split
      · rfl
      · split
        · rw [ih]; exact ih _ _ _ _
        · dsimp only; rw [ih, State.loseL2_mem]
theorem State.l2Touch_mem (s : State) (ctx node pa : Nat) (mig : Bool) (cp : Nat) (write : Bool) : (s.l2Touch ctx node pa mig cp write).mem = s.mem := by
  unfold State.l2Touch
  split
  · exact s.useChannel_mem pa
  · dsimp only
    split
    · have hr : (s.roomL2 (s.homeNode (pa / 128)) (some ctx)).1.mem = s.mem := by
        unfold State.roomL2; split
        · rfl
        · exact State.freeL2_mem ..
      exact (State.useChannel_mem ..).trans hr
    · split <;> rfl
theorem wf_writeBack {s : State} (k : Nat) (x : L1Sec) (w : Memory.wf s.mem = true) : Memory.wf (State.writeBack k s x).mem = true := by
  unfold State.writeBack
  split
  · exact w
  · dsimp only
    have h : ∀ (l : List Nat) (s : State), Memory.wf s.mem = true →
        Memory.wf (l.foldl (fun s i => s.putPhys (x.sec * 32 + i) x.mir ((x.bytes[i]?).toList)) s).mem = true := by
      intro l
      induction l with
      | nil => exact fun _ w => w
      | cons i r ih => exact fun s w => ih _ (wf_putPhys _ _ _ w)
    have hb := h (lanesOf x.dirty) _ ((s.l2Touch_mem x.ctx (s.site k) (x.sec * 32) false 0 true).symm ▸ w)
    split
    · rw [State.unlose_mem]; exact hb
    · exact hb
theorem wf_writeBacks {s : State} (k : Nat) (l : List L1Sec) (w : Memory.wf s.mem = true) : Memory.wf (l.foldl (State.writeBack k) s).mem = true := by
  induction l generalizing s with
  | nil => exact w
  | cons x r ih => exact ih (wf_writeBack k x w)
theorem wf_dropL1 {s : State} (k : Nat) (p : L1Sec → Bool) (w : Memory.wf s.mem = true) : Memory.wf (s.dropL1 k p).mem = true := wf_writeBacks k _ w
theorem wf_cleanL1 {s : State} (k : Nat) (p : L1Sec → Bool) (w : Memory.wf s.mem = true) : Memory.wf (s.cleanL1 k p).mem = true := wf_writeBacks k _ w
@[simp] theorem State.purge_mem (s : State) (pa : Nat) : (s.purge pa).mem = s.mem := rfl
@[simp] theorem State.purge_pad (s : State) (pa : Nat) : (s.purge pa).pad = s.pad := rfl
@[simp] theorem State.purge_teams (s : State) (pa : Nat) : (s.purge pa).teams = s.teams := rfl
theorem wf_scramble {s : State} (sec : Nat) (w : Memory.wf s.mem = true) : Memory.wf (s.scramble sec).mem = true := wf_setBytes _ _ w
theorem wf_launchOne {s : State} (bs : List Byte) (w : Memory.wf s.mem = true) : Memory.wf (s.launchOne bs).mem = true := wf_setBytes _ _ w
theorem wf_allotPad {s : State} (k : Nat) (w : Memory.wf s.pad = true) : Memory.wf (s.allotPad k).pad = true := SMap.wf_filter _ w
theorem wf_outsideWrite {s : State} (pa : Nat) (bs : List Byte) (w : Memory.wf s.mem = true) : Memory.wf (s.outsideWrite pa bs).mem = true := by
  unfold State.outsideWrite
  generalize splitAt' 32 pa bs.length = l
  induction l generalizing s with
  | nil => exact w
  | cons p r ih => exact ih (wf_landPhys _ _ _ w)
theorem wf_fromMirror {s : State} (ps : List (Loc × Nat)) (w : Memory.wf s.mem = true) : Memory.wf (s.fromMirror ps).mem = true := by
  unfold State.fromMirror
  induction ps generalizing s with
  | nil => exact w
  | cons p r ih =>
    refine ih ?_
    obtain ⟨l, n⟩ := p
    cases l with
    | shm a => exact w
    | pad d sl o => exact w
    | phys pa shr mir mig cp =>
      cases mir
      · exact w
      · dsimp only
        split
        · exact wf_setBytes _ _ w
        · exact w
theorem wf_reset : Memory.wf State.reset.mem = true ∧ Memory.wf State.reset.pad = true := ⟨rfl, rfl⟩

end Sys2Proof.Machine
end

