-- ==== Sys2Proof/Laws/PerInstr.lean ====
section
/-! SUPPORT. What holds of each instruction as syntax, one lemma per constructor. -/
namespace Sys2Proof.Laws.EncodedLength

/-- An instruction has one word or two (R70); an event has none. -/
def Statement (i : Instr) : Prop := (encode i).length ≤ 2

theorem andLr (h : Head) (u : Bool) (d a b : VReg) : Statement (.andLr h u d a b) := Nat.le_of_ble_eq_true rfl
theorem andLi (h : Head) (u : Bool) (d a i : VReg) : Statement (.andLi h u d a i) := Nat.le_of_ble_eq_true rfl
theorem andXi (h : Head) (u : Bool) (g : Guard) (d a b : VReg) (t : Ty) : Statement (.andXi h u g d a b t) := Nat.le_of_ble_eq_true rfl
theorem andn (h : Head) (u : Bool) (g : Guard) (d a b : VReg) : Statement (.andn h u g d a b) := Nat.le_of_ble_eq_true rfl
theorem ared (h : Head) (d a : GReg) (i : BitVec 32) : Statement (.ared h d a i) := Nat.le_of_ble_eq_true rfl
theorem atomg (h : Head) (g : Guard) (d a b c : VReg) (k : BitVec 4) (x : Bool) (r : BitVec 3) (t : Ty) : Statement (.atomg h g d a b c k x r t) := Nat.le_of_ble_eq_true rfl
theorem atomp (h : Head) (g : Guard) (d a b c : VReg) (k : BitVec 4) (x : Bool) (r : BitVec 3) (t : Ty) : Statement (.atomp h g d a b c k x r t) := Nat.le_of_ble_eq_true rfl
theorem atoms (h : Head) (g : Guard) (d a b c : VReg) (k : BitVec 4) (x : Bool) (r : BitVec 3) (t : Ty) : Statement (.atoms h g d a b c k x r t) := Nat.le_of_ble_eq_true rfl
theorem bar (h : Head) (n : BitVec 5) (r : Bool) (g : GReg) (q : Bool) : Statement (.bar h n r g q) := Nat.le_of_ble_eq_true rfl
theorem bara (h : Head) (n : BitVec 5) (r : Bool) (g : GReg) : Statement (.bara h n r g) := Nat.le_of_ble_eq_true rfl
theorem barw (h : Head) (n : BitVec 5) : Statement (.barw h n) := Nat.le_of_ble_eq_true rfl
theorem bfi (h : Head) (u : Bool) (g : Guard) (d a b c : VReg) : Statement (.bfi h u g d a b c) := Nat.le_of_ble_eq_true rfl
theorem bfx (h : Head) (u : Bool) (g : Guard) (d a b : VReg) (t : Ty) : Statement (.bfx h u g d a b t) := Nat.le_of_ble_eq_true rfl
theorem bpt (h : Head) : Statement (.bpt h) := Nat.le_of_ble_eq_true rfl
theorem bra (h : Head) (o : BitVec 21) : Statement (.bra h o) := Nat.le_of_ble_eq_true rfl
theorem braGuarded (h : Head) (g : Guard) (o : BitVec 21) : Statement (.braGuarded h g o) := Nat.le_of_ble_eq_true rfl
theorem brev (h : Head) (u : Bool) (g : Guard) (d a : VReg) : Statement (.brev h u g d a) := Nat.le_of_ble_eq_true rfl
theorem brx (h : Head) (a : VReg) : Statement (.brx h a) := Nat.le_of_ble_eq_true rfl
theorem brxGuarded (h : Head) (g : Guard) (a : VReg) : Statement (.brxGuarded h g a) := Nat.le_of_ble_eq_true rfl
theorem call (h : Head) (o : BitVec 21) : Statement (.call h o) := Nat.le_of_ble_eq_true rfl
theorem callGuarded (h : Head) (g : Guard) (o : BitVec 21) : Statement (.callGuarded h g o) := Nat.le_of_ble_eq_true rfl
theorem calx (h : Head) (a : VReg) : Statement (.calx h a) := Nat.le_of_ble_eq_true rfl
theorem calxGuarded (h : Head) (g : Guard) (a : VReg) : Statement (.calxGuarded h g a) := Nat.le_of_ble_eq_true rfl
theorem clk (h : Head) (d : GReg) : Statement (.clk h d) := Nat.le_of_ble_eq_true rfl
theorem clz (h : Head) (u : Bool) (g : Guard) (d a : VReg) : Statement (.clz h u g d a) := Nat.le_of_ble_eq_true rfl
theorem cpy (h : Head) (d a : GReg) (i : BitVec 32) : Statement (.cpy h d a i) := Nat.le_of_ble_eq_true rfl
theorem cpyg (h : Head) (d a : GReg) (i : BitVec 32) : Statement (.cpyg h d a i) := Nat.le_of_ble_eq_true rfl
theorem cpyr (h : Head) (d a : GReg) (i : BitVec 32) : Statement (.cpyr h d a i) := Nat.le_of_ble_eq_true rfl
theorem cpyt (h : Head) (d a : GReg) (i : BitVec 32) : Statement (.cpyt h d a i) := Nat.le_of_ble_eq_true rfl
theorem cvt (h : Head) (u : Bool) (g : Guard) (d a : VReg) (t : Ty) (m : BitVec 3) (f : Ty) (x : Bool) : Statement (.cvt h u g d a t m f x) := Nat.le_of_ble_eq_true rfl
theorem cvtp (h : Head) (u : Bool) (g : Guard) (d a b : VReg) (t : Ty) (m : BitVec 3) (x : Bool) : Statement (.cvtp h u g d a b t m x) := Nat.le_of_ble_eq_true rfl
theorem cvtx (h : Head) (u : Bool) (g : Guard) (d a b : VReg) (t : Ty) (m : BitVec 3) (f : Ty) (x : Bool) : Statement (.cvtx h u g d a b t m f x) := Nat.le_of_ble_eq_true rfl
theorem dqmx (h : Head) (g : Guard) (d a c : VReg) (t : Ty) (m : BitVec 3) (f : Ty) : Statement (.dqmx h g d a c t m f) := Nat.le_of_ble_eq_true rfl
theorem eqry (h : Head) (d a : GReg) : Statement (.eqry h d a) := Nat.le_of_ble_eq_true rfl
theorem ewt (h : Head) (a : GReg) : Statement (.ewt h a) := Nat.le_of_ble_eq_true rfl
theorem exit (h : Head) : Statement (.exit h) := Nat.le_of_ble_eq_true rfl
theorem faddLr (h : Head) (u : Bool) (d a b : VReg) : Statement (.faddLr h u d a b) := Nat.le_of_ble_eq_true rfl
theorem faddXf (h : Head) (u : Bool) (g : Guard) (d a b : VReg) (m : BitVec 3) : Statement (.faddXf h u g d a b m) := Nat.le_of_ble_eq_true rfl
theorem fcmpLc (h : Head) (u : Bool) (p : BitVec 3) (a b : VReg) (k : BitVec 4) : Statement (.fcmpLc h u p a b k) := Nat.le_of_ble_eq_true rfl
theorem fcmpXf (h : Head) (u : Bool) (g : Guard) (p : BitVec 3) (a b : VReg) (t : Ty) (k : BitVec 4) : Statement (.fcmpXf h u g p a b t k) := Nat.le_of_ble_eq_true rfl
theorem fcos (h : Head) (u : Bool) (g : Guard) (d a : VReg) : Statement (.fcos h u g d a) := Nat.le_of_ble_eq_true rfl
theorem fex2 (h : Head) (u : Bool) (g : Guard) (d a : VReg) : Statement (.fex2 h u g d a) := Nat.le_of_ble_eq_true rfl
theorem flg2 (h : Head) (u : Bool) (g : Guard) (d a : VReg) : Statement (.flg2 h u g d a) := Nat.le_of_ble_eq_true rfl
theorem frcp (h : Head) (u : Bool) (g : Guard) (d a : VReg) : Statement (.frcp h u g d a) := Nat.le_of_ble_eq_true rfl
theorem frsq (h : Head) (u : Bool) (g : Guard) (d a : VReg) : Statement (.frsq h u g d a) := Nat.le_of_ble_eq_true rfl
theorem fsin (h : Head) (u : Bool) (g : Guard) (d a : VReg) : Statement (.fsin h u g d a) := Nat.le_of_ble_eq_true rfl
theorem fsqrt (h : Head) (u : Bool) (g : Guard) (d a : VReg) : Statement (.fsqrt h u g d a) := Nat.le_of_ble_eq_true rfl
theorem fenceAcq (h : Head) : Statement (.fenceAcq h) := Nat.le_of_ble_eq_true rfl
theorem fenceRel (h : Head) : Statement (.fenceRel h) := Nat.le_of_ble_eq_true rfl
theorem fenceFull (h : Head) : Statement (.fenceFull h) := Nat.le_of_ble_eq_true rfl
theorem fenceX (h : Head) : Statement (.fenceX h) := Nat.le_of_ble_eq_true rfl
theorem ffma (h : Head) (u : Bool) (g : Guard) (d a b c : VReg) (m : BitVec 3) : Statement (.ffma h u g d a b c m) := Nat.le_of_ble_eq_true rfl
theorem fmaxLr (h : Head) (u : Bool) (d a b : VReg) : Statement (.fmaxLr h u d a b) := Nat.le_of_ble_eq_true rfl
theorem fmaxXf (h : Head) (u : Bool) (g : Guard) (d a b : VReg) : Statement (.fmaxXf h u g d a b) := Nat.le_of_ble_eq_true rfl
theorem fminLr (h : Head) (u : Bool) (d a b : VReg) : Statement (.fminLr h u d a b) := Nat.le_of_ble_eq_true rfl
theorem fminXf (h : Head) (u : Bool) (g : Guard) (d a b : VReg) : Statement (.fminXf h u g d a b) := Nat.le_of_ble_eq_true rfl
theorem fmulLr (h : Head) (u : Bool) (d a b : VReg) : Statement (.fmulLr h u d a b) := Nat.le_of_ble_eq_true rfl
theorem fmulXf (h : Head) (u : Bool) (g : Guard) (d a b : VReg) (m : BitVec 3) : Statement (.fmulXf h u g d a b m) := Nat.le_of_ble_eq_true rfl
theorem frnd (h : Head) (u : Bool) (g : Guard) (d a : VReg) (m : BitVec 3) : Statement (.frnd h u g d a m) := Nat.le_of_ble_eq_true rfl
theorem fshf (h : Head) (u : Bool) (g : Guard) (d a b c : VReg) (x : Bool) : Statement (.fshf h u g d a b c x) := Nat.le_of_ble_eq_true rfl
theorem gargx (h : Head) (g : Guard) (d a c : VReg) (x : Bool) (m : BitVec 3) : Statement (.gargx h g d a c x m) := Nat.le_of_ble_eq_true rfl
theorem gred (h : Head) (g : Guard) (d a c : VReg) (x : Bool) (m : BitVec 3) (t : Ty) (w : Bool) : Statement (.gred h g d a c x m t w) := Nat.le_of_ble_eq_true rfl
theorem gscan (h : Head) (g : Guard) (d a c : VReg) (x : Bool) (m : BitVec 3) (t : Ty) : Statement (.gscan h g d a c x m t) := Nat.le_of_ble_eq_true rfl
theorem gwait (h : Head) : Statement (.gwait h) := Nat.le_of_ble_eq_true rfl
theorem hadd2 (h : Head) (u : Bool) (g : Guard) (d a b : VReg) (t : Ty) (m : BitVec 3) : Statement (.hadd2 h u g d a b t m) := Nat.le_of_ble_eq_true rfl
theorem hfma2 (h : Head) (u : Bool) (g : Guard) (d a b c : VReg) (t : Ty) (m : BitVec 3) : Statement (.hfma2 h u g d a b c t m) := Nat.le_of_ble_eq_true rfl
theorem hmul2 (h : Head) (u : Bool) (g : Guard) (d a b : VReg) (t : Ty) (m : BitVec 3) : Statement (.hmul2 h u g d a b t m) := Nat.le_of_ble_eq_true rfl
theorem hgb (h : Head) (d a : GReg) (i : BitVec 32) : Statement (.hgb h d a i) := Nat.le_of_ble_eq_true rfl
theorem hgf (h : Head) (d a : GReg) (i : BitVec 32) : Statement (.hgf h d a i) := Nat.le_of_ble_eq_true rfl
theorem iabs (h : Head) (u : Bool) (g : Guard) (d a : VReg) (x : Bool) : Statement (.iabs h u g d a x) := Nat.le_of_ble_eq_true rfl
theorem iaddLr (h : Head) (u : Bool) (d a b : VReg) : Statement (.iaddLr h u d a b) := Nat.le_of_ble_eq_true rfl
theorem iaddLi (h : Head) (u : Bool) (d a i : VReg) : Statement (.iaddLi h u d a i) := Nat.le_of_ble_eq_true rfl
theorem iaddXi (h : Head) (u : Bool) (g : Guard) (d a b : VReg) (t : Ty) (x : Bool) : Statement (.iaddXi h u g d a b t x) := Nat.le_of_ble_eq_true rfl
theorem imaxLr (h : Head) (u : Bool) (d a b : VReg) : Statement (.imaxLr h u d a b) := Nat.le_of_ble_eq_true rfl
theorem imaxXi (h : Head) (u : Bool) (g : Guard) (d a b : VReg) (t : Ty) : Statement (.imaxXi h u g d a b t) := Nat.le_of_ble_eq_true rfl
theorem iminLr (h : Head) (u : Bool) (d a b : VReg) : Statement (.iminLr h u d a b) := Nat.le_of_ble_eq_true rfl
theorem iminXi (h : Head) (u : Bool) (g : Guard) (d a b : VReg) (t : Ty) : Statement (.iminXi h u g d a b t) := Nat.le_of_ble_eq_true rfl
theorem imulLr (h : Head) (u : Bool) (d a b : VReg) : Statement (.imulLr h u d a b) := Nat.le_of_ble_eq_true rfl
theorem imulXi (h : Head) (u : Bool) (g : Guard) (d a b : VReg) (t : Ty) : Statement (.imulXi h u g d a b t) := Nat.le_of_ble_eq_true rfl
theorem isubLr (h : Head) (u : Bool) (d a b : VReg) : Statement (.isubLr h u d a b) := Nat.le_of_ble_eq_true rfl
theorem isubXi (h : Head) (u : Bool) (g : Guard) (d a b : VReg) (t : Ty) (x : Bool) : Statement (.isubXi h u g d a b t x) := Nat.le_of_ble_eq_true rfl
theorem iaddx (h : Head) (u : Bool) (g : Guard) (d a b : VReg) (ci co : BitVec 3) : Statement (.iaddx h u g d a b ci co) := Nat.le_of_ble_eq_true rfl
theorem icmpLc (h : Head) (u : Bool) (p : BitVec 3) (a b : VReg) (k : BitVec 4) : Statement (.icmpLc h u p a b k) := Nat.le_of_ble_eq_true rfl
theorem icmpXi (h : Head) (u : Bool) (g : Guard) (p : BitVec 3) (a b : VReg) (t : Ty) (k : BitVec 4) : Statement (.icmpXi h u g p a b t k) := Nat.le_of_ble_eq_true rfl
theorem idp4 (h : Head) (u : Bool) (g : Guard) (d a b c : VReg) (t : Ty) : Statement (.idp4 h u g d a b c t) := Nat.le_of_ble_eq_true rfl
theorem imad (h : Head) (u : Bool) (g : Guard) (d a b c : VReg) (t : Ty) : Statement (.imad h u g d a b c t) := Nat.le_of_ble_eq_true rfl
theorem imadw (h : Head) (u : Bool) (g : Guard) (d a b c : VReg) (t : Ty) : Statement (.imadw h u g d a b c t) := Nat.le_of_ble_eq_true rfl
theorem imulh (h : Head) (u : Bool) (g : Guard) (d a b : VReg) (t : Ty) : Statement (.imulh h u g d a b t) := Nat.le_of_ble_eq_true rfl
theorem isel (h : Head) (u : Bool) (g : Guard) (d a b : VReg) (n : Bool) (p : BitVec 3) : Statement (.isel h u g d a b n p) := Nat.le_of_ble_eq_true rfl
theorem isync (h : Head) : Statement (.isync h) := Nat.le_of_ble_eq_true rfl
theorem ldg (h : Head) (u : Bool) (g : Guard) (d a : VReg) (w : BitVec 3) (r ch : BitVec 2) (o : BitVec 20) : Statement (.ldg h u g d a w r ch o) := Nat.le_of_ble_eq_true rfl
theorem ldkLm (h : Head) (u : Bool) (d a i : VReg) : Statement (.ldkLm h u d a i) := Nat.le_of_ble_eq_true rfl
theorem ldkXm (h : Head) (u : Bool) (g : Guard) (d a : VReg) (w : BitVec 3) (ch : BitVec 2) (o : BitVec 20) : Statement (.ldkXm h u g d a w ch o) := Nat.le_of_ble_eq_true rfl
theorem ldpLm (h : Head) (u : Bool) (d a i : VReg) : Statement (.ldpLm h u d a i) := Nat.le_of_ble_eq_true rfl
theorem ldpXm (h : Head) (u : Bool) (g : Guard) (d a : VReg) (w : BitVec 3) (r : BitVec 2) (o : BitVec 20) : Statement (.ldpXm h u g d a w r o) := Nat.le_of_ble_eq_true rfl
theorem ldsLm (h : Head) (u : Bool) (d a i : VReg) : Statement (.ldsLm h u d a i) := Nat.le_of_ble_eq_true rfl
theorem ldsXm (h : Head) (u : Bool) (g : Guard) (d a : VReg) (w : BitVec 3) (o : BitVec 20) : Statement (.ldsXm h u g d a w o) := Nat.le_of_ble_eq_true rfl
theorem ldr (h : Head) (g : Guard) (d a : VReg) (w : BitVec 3) (r : BitVec 2) (o : BitVec 20) : Statement (.ldr h g d a w r o) := Nat.le_of_ble_eq_true rfl
theorem lea (h : Head) (u : Bool) (g : Guard) (d a b : VReg) (t : Ty) (x : BitVec 4) : Statement (.lea h u g d a b t x) := Nat.le_of_ble_eq_true rfl
theorem lnxt (h : Head) : Statement (.lnxt h) := Nat.le_of_ble_eq_true rfl
theorem matchLanes (h : Head) (g : Guard) (d a c : VReg) (x : Bool) (t : Ty) : Statement (.matchLanes h g d a c x t) := Nat.le_of_ble_eq_true rfl
theorem mld (h : Head) (g : Guard) (d a : VReg) (t : Ty) (x : BitVec 2) : Statement (.mld h g d a t x) := Nat.le_of_ble_eq_true rfl
theorem mma (h : Head) (g : Guard) (d a b c : VReg) (t : Ty) : Statement (.mma h g d a b c t) := Nat.le_of_ble_eq_true rfl
theorem mmax (h : Head) (g : Guard) (d a b c : VReg) (t : Ty) (m n : BitVec 2) (x : Bool) : Statement (.mmax h g d a b c t m n x) := Nat.le_of_ble_eq_true rfl
theorem mst (h : Head) (g : Guard) (d a : VReg) (t : Ty) : Statement (.mst h g d a t) := Nat.le_of_ble_eq_true rfl
theorem mzro (h : Head) (g : Guard) (d : VReg) : Statement (.mzro h g d) := Nat.le_of_ble_eq_true rfl
theorem movLr (h : Head) (u : Bool) (d a : VReg) : Statement (.movLr h u d a) := Nat.le_of_ble_eq_true rfl
theorem movXi (h : Head) (u : Bool) (g : Guard) (d a : VReg) (t : Ty) : Statement (.movXi h u g d a t) := Nat.le_of_ble_eq_true rfl
theorem movg (h : Head) (u : Bool) (d : VReg) (a : GReg) : Statement (.movg h u d a) := Nat.le_of_ble_eq_true rfl
theorem movi (h : Head) (u : Bool) (d : VReg) (i : BitVec 32) : Statement (.movi h u d i) := Nat.le_of_ble_eq_true rfl
theorem movs (h : Head) (u : Bool) (d a : VReg) : Statement (.movs h u d a) := Nat.le_of_ble_eq_true rfl
theorem nop (h : Head) : Statement (.nop h) := Nat.le_of_ble_eq_true rfl
theorem oadm (h : Head) (g : Guard) (d a b : VReg) (c : GReg) : Statement (.oadm h g d a b c) := Nat.le_of_ble_eq_true rfl
theorem osgd (h : Head) (g : Guard) (d a b : VReg) (c : GReg) : Statement (.osgd h g d a b c) := Nat.le_of_ble_eq_true rfl
theorem orLr (h : Head) (u : Bool) (d a b : VReg) : Statement (.orLr h u d a b) := Nat.le_of_ble_eq_true rfl
theorem orLi (h : Head) (u : Bool) (d a i : VReg) : Statement (.orLi h u d a i) := Nat.le_of_ble_eq_true rfl
theorem orXi (h : Head) (u : Bool) (g : Guard) (d a b : VReg) (t : Ty) : Statement (.orXi h u g d a b t) := Nat.le_of_ble_eq_true rfl
theorem pfg (h : Head) (g : Guard) (a : VReg) (ch : BitVec 2) (o : BitVec 20) : Statement (.pfg h g a ch o) := Nat.le_of_ble_eq_true rfl
theorem phf (h : Head) (n : BitVec 5) : Statement (.phf h n) := Nat.le_of_ble_eq_true rfl
theorem phw (h : Head) (n : BitVec 5) (f : Bool) : Statement (.phw h n f) := Nat.le_of_ble_eq_true rfl
theorem plop (h : Head) (u : Bool) (g : Guard) (d a b : BitVec 3) (x : BitVec 4) (w : Bool) : Statement (.plop h u g d a b x w) := Nat.le_of_ble_eq_true rfl
theorem popc (h : Head) (u : Bool) (g : Guard) (d a : VReg) : Statement (.popc h u g d a) := Nat.le_of_ble_eq_true rfl
theorem pswz (h : Head) (u : Bool) (g : Guard) (d a b c : VReg) : Statement (.pswz h u g d a b c) := Nat.le_of_ble_eq_true rfl
theorem qmx (h : Head) (g : Guard) (d a : VReg) (b : GReg) (c : VReg) (t : Ty) (m : BitVec 3) (x : Bool) : Statement (.qmx h g d a b c t m x) := Nat.le_of_ble_eq_true rfl
theorem rast (h : Head) (d a : GReg) (i : BitVec 32) : Statement (.rast h d a i) := Nat.le_of_ble_eq_true rfl
theorem recv (h : Head) (v : VReg) (n : BitVec 5) (y : BitVec 3) : Statement (.recv h v n y) := Nat.le_of_ble_eq_true rfl
theorem send (h : Head) (v : VReg) (n : BitVec 5) (y : BitVec 3) : Statement (.send h v n y) := Nat.le_of_ble_eq_true rfl
theorem redg (h : Head) (g : Guard) (a b c : VReg) (k : BitVec 4) (x : Bool) (r : BitVec 3) (t : Ty) : Statement (.redg h g a b c k x r t) := Nat.le_of_ble_eq_true rfl
theorem redp (h : Head) (g : Guard) (a b c : VReg) (k : BitVec 4) (x : Bool) (r : BitVec 3) (t : Ty) : Statement (.redp h g a b c k x r t) := Nat.le_of_ble_eq_true rfl
theorem reds (h : Head) (g : Guard) (a b c : VReg) (k : BitVec 4) (x : Bool) (r : BitVec 3) (t : Ty) : Statement (.reds h g a b c k x r t) := Nat.le_of_ble_eq_true rfl
theorem ret (h : Head) : Statement (.ret h) := Nat.le_of_ble_eq_true rfl
theorem rxbox (h : Head) (g : Guard) (d a b : VReg) (p : BitVec 3) : Statement (.rxbox h g d a b p) := Nat.le_of_ble_eq_true rfl
theorem rxtri (h : Head) (g : Guard) (d a b : VReg) (p : BitVec 3) : Statement (.rxtri h g d a b p) := Nat.le_of_ble_eq_true rfl
theorem sets (h : Head) (d a : GReg) : Statement (.sets h d a) := Nat.le_of_ble_eq_true rfl
theorem shfl (h : Head) (g : Guard) (d a b c : VReg) (x : Bool) (m : BitVec 3) (w : Bool) : Statement (.shfl h g d a b c x m w) := Nat.le_of_ble_eq_true rfl
theorem shlLr (h : Head) (u : Bool) (d a b : VReg) : Statement (.shlLr h u d a b) := Nat.le_of_ble_eq_true rfl
theorem shlLi (h : Head) (u : Bool) (d a i : VReg) : Statement (.shlLi h u d a i) := Nat.le_of_ble_eq_true rfl
theorem shlXi (h : Head) (u : Bool) (g : Guard) (d a b : VReg) (t : Ty) : Statement (.shlXi h u g d a b t) := Nat.le_of_ble_eq_true rfl
theorem shrLr (h : Head) (u : Bool) (d a b : VReg) : Statement (.shrLr h u d a b) := Nat.le_of_ble_eq_true rfl
theorem shrLi (h : Head) (u : Bool) (d a i : VReg) : Statement (.shrLi h u d a i) := Nat.le_of_ble_eq_true rfl
theorem shrXi (h : Head) (u : Bool) (g : Guard) (d a b : VReg) (t : Ty) : Statement (.shrXi h u g d a b t) := Nat.le_of_ble_eq_true rfl
theorem shraLr (h : Head) (u : Bool) (d a b : VReg) : Statement (.shraLr h u d a b) := Nat.le_of_ble_eq_true rfl
theorem shraLi (h : Head) (u : Bool) (d a i : VReg) : Statement (.shraLi h u d a i) := Nat.le_of_ble_eq_true rfl
theorem shraXi (h : Head) (u : Bool) (g : Guard) (d a b : VReg) (t : Ty) : Statement (.shraXi h u g d a b t) := Nat.le_of_ble_eq_true rfl
theorem stc (h : Head) (g : Guard) (d a : VReg) (w : BitVec 3) (r : BitVec 2) (p : BitVec 3) : Statement (.stc h g d a w r p) := Nat.le_of_ble_eq_true rfl
theorem stg (h : Head) (g : Guard) (d a : VReg) (w : BitVec 3) (r ch : BitVec 2) (o : BitVec 20) : Statement (.stg h g d a w r ch o) := Nat.le_of_ble_eq_true rfl
theorem stkLm (h : Head) (d a i : VReg) : Statement (.stkLm h d a i) := Nat.le_of_ble_eq_true rfl
theorem stkXm (h : Head) (g : Guard) (d a : VReg) (w : BitVec 3) (ch : BitVec 2) (o : BitVec 20) : Statement (.stkXm h g d a w ch o) := Nat.le_of_ble_eq_true rfl
theorem stpLm (h : Head) (d a i : VReg) : Statement (.stpLm h d a i) := Nat.le_of_ble_eq_true rfl
theorem stpXm (h : Head) (g : Guard) (d a : VReg) (w : BitVec 3) (r : BitVec 2) (o : BitVec 20) : Statement (.stpXm h g d a w r o) := Nat.le_of_ble_eq_true rfl
theorem stsLm (h : Head) (d a i : VReg) : Statement (.stsLm h d a i) := Nat.le_of_ble_eq_true rfl
theorem stsXm (h : Head) (g : Guard) (d a : VReg) (w : BitVec 3) (o : BitVec 20) : Statement (.stsXm h g d a w o) := Nat.le_of_ble_eq_true rfl
theorem texg (h : Head) (g : Guard) (d a : VReg) (c : GReg) (x : BitVec 2) : Statement (.texg h g d a c x) := Nat.le_of_ble_eq_true rfl
theorem texl (h : Head) (g : Guard) (d a b : VReg) (c : GReg) : Statement (.texl h g d a b c) := Nat.le_of_ble_eq_true rfl
theorem texs (h : Head) (g : Guard) (d a : VReg) (c : GReg) : Statement (.texs h g d a c) := Nat.le_of_ble_eq_true rfl
theorem time (h : Head) (d : GReg) : Statement (.time h d) := Nat.le_of_ble_eq_true rfl
theorem tlbiPage (h : Head) (a : GReg) : Statement (.tlbiPage h a) := Nat.le_of_ble_eq_true rfl
theorem tlbiCtx (h : Head) (a : GReg) : Statement (.tlbiCtx h a) := Nat.le_of_ble_eq_true rfl
theorem tlbiAll (h : Head) : Statement (.tlbiAll h) := Nat.le_of_ble_eq_true rfl
theorem trap (h : Head) (x : BitVec 16) : Statement (.trap h x) := Nat.le_of_ble_eq_true rfl
theorem tspn (h : Head) (d a b : GReg) : Statement (.tspn h d a b) := Nat.le_of_ble_eq_true rfl
theorem tsus (h : Head) (a b : GReg) : Statement (.tsus h a b) := Nat.le_of_ble_eq_true rfl
theorem uadd (h : Head) (d a b : GReg) : Statement (.uadd h d a b) := Nat.le_of_ble_eq_true rfl
theorem usub (h : Head) (d a b : GReg) : Statement (.usub h d a b) := Nat.le_of_ble_eq_true rfl
theorem umul (h : Head) (d a b : GReg) : Statement (.umul h d a b) := Nat.le_of_ble_eq_true rfl
theorem uand (h : Head) (d a b : GReg) : Statement (.uand h d a b) := Nat.le_of_ble_eq_true rfl
theorem uor (h : Head) (d a b : GReg) : Statement (.uor h d a b) := Nat.le_of_ble_eq_true rfl
theorem uxor (h : Head) (d a b : GReg) : Statement (.uxor h d a b) := Nat.le_of_ble_eq_true rfl
theorem ushl (h : Head) (d a b : GReg) : Statement (.ushl h d a b) := Nat.le_of_ble_eq_true rfl
theorem ushr (h : Head) (d a b : GReg) (f : Bool) : Statement (.ushr h d a b f) := Nat.le_of_ble_eq_true rfl
theorem ubra (h : Head) (a : GReg) (n : Bool) (i : BitVec 32) : Statement (.ubra h a n i) := Nat.le_of_ble_eq_true rfl
theorem ucmp (h : Head) (d a b : GReg) (k : BitVec 3) : Statement (.ucmp h d a b k) := Nat.le_of_ble_eq_true rfl
theorem uldShared (h : Head) (d a b : GReg) : Statement (.uldShared h d a b) := Nat.le_of_ble_eq_true rfl
theorem uldPad (h : Head) (d a b : GReg) : Statement (.uldPad h d a b) := Nat.le_of_ble_eq_true rfl
theorem uldGlobal (h : Head) (d a b : GReg) : Statement (.uldGlobal h d a b) := Nat.le_of_ble_eq_true rfl
theorem ustShared (h : Head) (d a b : GReg) : Statement (.ustShared h d a b) := Nat.le_of_ble_eq_true rfl
theorem ustPad (h : Head) (d a b : GReg) : Statement (.ustPad h d a b) := Nat.le_of_ble_eq_true rfl
theorem ustGlobal (h : Head) (d a b : GReg) : Statement (.ustGlobal h d a b) := Nat.le_of_ble_eq_true rfl
theorem uloop (h : Head) (d : GReg) (i : BitVec 32) : Statement (.uloop h d i) := Nat.le_of_ble_eq_true rfl
theorem umov (h : Head) (d a : GReg) : Statement (.umov h d a) := Nat.le_of_ble_eq_true rfl
theorem umovi (h : Head) (d : GReg) (i : BitVec 32) : Statement (.umovi h d i) := Nat.le_of_ble_eq_true rfl
theorem umovv (h : Head) (d : GReg) (v : VReg) : Statement (.umovv h d v) := Nat.le_of_ble_eq_true rfl
theorem usel (h : Head) (d a b : GReg) : Statement (.usel h d a b) := Nat.le_of_ble_eq_true rfl
theorem vote (h : Head) (g : Guard) (d : VReg) (a : BitVec 3) (c : VReg) (x : Bool) (m : BitVec 3) (n : Bool) : Statement (.vote h g d a c x m n) := Nat.le_of_ble_eq_true rfl
theorem wbak (h : Head) (d a : GReg) : Statement (.wbak h d a) := Nat.le_of_ble_eq_true rfl
theorem wpin (h : Head) (d a : GReg) : Statement (.wpin h d a) := Nat.le_of_ble_eq_true rfl
theorem wpub (h : Head) (d a : GReg) : Statement (.wpub h d a) := Nat.le_of_ble_eq_true rfl
theorem wunp (h : Head) (a b : GReg) : Statement (.wunp h a b) := Nat.le_of_ble_eq_true rfl
theorem xorLr (h : Head) (u : Bool) (d a b : VReg) : Statement (.xorLr h u d a b) := Nat.le_of_ble_eq_true rfl
theorem xorLi (h : Head) (u : Bool) (d a i : VReg) : Statement (.xorLi h u d a i) := Nat.le_of_ble_eq_true rfl
theorem xorXi (h : Head) (u : Bool) (g : Guard) (d a b : VReg) (t : Ty) : Statement (.xorXi h u g d a b t) := Nat.le_of_ble_eq_true rfl
theorem yld (h : Head) : Statement (.yld h) := Nat.le_of_ble_eq_true rfl
theorem powerUp : Statement (.powerUp) := Nat.le_of_ble_eq_true rfl
theorem bundleFormation (core : Nat) : Statement (.bundleFormation core) := Nat.le_of_ble_eq_true rfl
theorem fairnessTimer (tid gi : Nat) : Statement (.fairnessTimer tid gi) := Nat.le_of_ble_eq_true rfl
theorem cinchWindowClose (tid gi : Nat) : Statement (.cinchWindowClose tid gi) := Nat.le_of_ble_eq_true rfl
theorem variableLatencyWriteback (tid gi k : Nat) (lanes : Mask) : Statement (.variableLatencyWriteback tid gi k lanes) := Nat.le_of_ble_eq_true rfl
theorem writeAcknowledge (core k : Nat) : Statement (.writeAcknowledge core k) := Nat.le_of_ble_eq_true rfl
theorem brambleCommit (tid gi : Nat) : Statement (.brambleCommit tid gi) := Nat.le_of_ble_eq_true rfl
theorem clusterPlacement (gid : Nat) : Statement (.clusterPlacement gid) := Nat.le_of_ble_eq_true rfl
theorem bridleClusterPlacement (gid : Nat) : Statement (.bridleClusterPlacement gid) := Nat.le_of_ble_eq_true rfl
theorem teamRetire (tid : Nat) : Statement (.teamRetire tid) := Nat.le_of_ble_eq_true rfl
theorem cardLineLanded (die cid : Nat) (line : LineAt) : Statement (.cardLineLanded die cid line) := Nat.le_of_ble_eq_true rfl
theorem pageWalkComplete (die ctx page : Nat) : Statement (.pageWalkComplete die ctx page) := Nat.le_of_ble_eq_true rfl
theorem atsTranslation (ctx page host : Nat) (a : AtsAnswer) : Statement (.atsTranslation ctx page host a) := Nat.le_of_ble_eq_true rfl
theorem lineMigration (die line : Nat) : Statement (.lineMigration die line) := Nat.le_of_ble_eq_true rfl
theorem partitionWrite (die k off v : Nat) (wide : Bool) : Statement (.partitionWrite die k off v wide) := Nat.le_of_ble_eq_true rfl
theorem granuleMapWrite (die off v : Nat) : Statement (.granuleMapWrite die off v) := Nat.le_of_ble_eq_true rfl
theorem granuleRemapComplete (die : Nat) : Statement (.granuleRemapComplete die) := Nat.le_of_ble_eq_true rfl
theorem mirrorSizeWrite (die v : Nat) : Statement (.mirrorSizeWrite die v) := Nat.le_of_ble_eq_true rfl
theorem hostPostedWrite (pa : Nat) (bs : List Byte) : Statement (.hostPostedWrite pa bs) := Nat.le_of_ble_eq_true rfl
theorem hostRead (pa n : Nat) : Statement (.hostRead pa n) := Nat.le_of_ble_eq_true rfl
theorem cxlSnoop (pa : Nat) : Statement (.cxlSnoop pa) := Nat.le_of_ble_eq_true rfl
theorem atsInvalidation (pasid page : Nat) : Statement (.atsInvalidation pasid page) := Nat.le_of_ble_eq_true rfl
theorem roundEnd (tid : Nat) : Statement (.roundEnd tid) := Nat.le_of_ble_eq_true rfl
theorem roundResume (tid : Nat) : Statement (.roundResume tid) := Nat.le_of_ble_eq_true rfl
theorem gridSyncMerge (gid : Nat) : Statement (.gridSyncMerge gid) := Nat.le_of_ble_eq_true rfl
theorem gridEndMerge (gid : Nat) : Statement (.gridEndMerge gid) := Nat.le_of_ble_eq_true rfl
theorem cardStart (die cid : Nat) : Statement (.cardStart die cid) := Nat.le_of_ble_eq_true rfl
theorem aredMeet (ctx id : Nat) (peers : List (List Byte)) : Statement (.aredMeet ctx id peers) := Nat.le_of_ble_eq_true rfl
theorem cardComplete (die cid : Nat) : Statement (.cardComplete die cid) := Nat.le_of_ble_eq_true rfl
theorem cardFail (die cid : Nat) : Statement (.cardFail die cid) := Nat.le_of_ble_eq_true rfl
theorem channelMessageArrive (tid k : Nat) : Statement (.channelMessageArrive tid k) := Nat.le_of_ble_eq_true rfl
theorem doorbell (ctx queue v : Nat) : Statement (.doorbell ctx queue v) := Nat.le_of_ble_eq_true rfl
theorem skip (ctx queue : Nat) : Statement (.skip ctx queue) := Nat.le_of_ble_eq_true rfl
theorem haltClear (ctx queue : Nat) : Statement (.haltClear ctx queue) := Nat.le_of_ble_eq_true rfl
theorem queueEnable (ctx queue v : Nat) : Statement (.queueEnable ctx queue v) := Nat.le_of_ble_eq_true rfl
theorem packetStart (ctx queue : Nat) : Statement (.packetStart ctx queue) := Nat.le_of_ble_eq_true rfl
theorem realtimePreempt (gid : Nat) : Statement (.realtimePreempt gid) := Nat.le_of_ble_eq_true rfl
theorem taskPlacement (die : Nat) : Statement (.taskPlacement die) := Nat.le_of_ble_eq_true rfl
theorem binSwitch (die : Nat) : Statement (.binSwitch die) := Nat.le_of_ble_eq_true rfl
theorem graphNodeComplete (die graph node : Nat) : Statement (.graphNodeComplete die graph node) := Nat.le_of_ble_eq_true rfl
theorem waitNodeExpiry (die graph node : Nat) : Statement (.waitNodeExpiry die graph node) := Nat.le_of_ble_eq_true rfl
theorem frameBoundary (die : Nat) : Statement (.frameBoundary die) := Nat.le_of_ble_eq_true rfl
theorem budgetCharge (die graph : Nat) : Statement (.budgetCharge die graph) := Nat.le_of_ble_eq_true rfl
theorem issueAgeLimit (tid gi : Nat) (u : Bool) : Statement (.issueAgeLimit tid gi u) := Nat.le_of_ble_eq_true rfl
theorem poolMove (gid : Nat) : Statement (.poolMove gid) := Nat.le_of_ble_eq_true rfl
theorem poolMoveComplete (die block : Nat) : Statement (.poolMoveComplete die block) := Nat.le_of_ble_eq_true rfl
theorem nocGovernorSample (die occ : Nat) : Statement (.nocGovernorSample die occ) := Nat.le_of_ble_eq_true rfl
theorem hbmPowerDown (ch : Nat) : Statement (.hbmPowerDown ch) := Nat.le_of_ble_eq_true rfl
theorem hbmSelfRefresh (ch : Nat) : Statement (.hbmSelfRefresh ch) := Nat.le_of_ble_eq_true rfl
theorem hbmExit (ch : Nat) : Statement (.hbmExit ch) := Nat.le_of_ble_eq_true rfl
theorem controlInterval (die : Nat) (energy : List Nat) (peak : List (Nat × Nat)) : Statement (.controlInterval die energy peak) := Nat.le_of_ble_eq_true rfl
theorem admissionAgeing (die kind id : Nat) : Statement (.admissionAgeing die kind id) := Nat.le_of_ble_eq_true rfl
theorem sensorSample (die : Nat) (temps : List Int) : Statement (.sensorSample die temps) := Nat.le_of_ble_eq_true rfl
theorem t4Cutoff : Statement (.t4Cutoff) := Nat.le_of_ble_eq_true rfl
theorem throttleRelease (die : Nat) : Statement (.throttleRelease die) := Nat.le_of_ble_eq_true rfl
theorem dieReenable (die : Nat) : Statement (.dieReenable die) := Nat.le_of_ble_eq_true rfl
theorem hotspotMigration (tid core : Nat) : Statement (.hotspotMigration tid core) := Nat.le_of_ble_eq_true rfl
theorem powerBudgetWrite (die off v : Nat) : Statement (.powerBudgetWrite die off v) := Nat.le_of_ble_eq_true rfl
theorem occupancyThresholdWrite (die v : Nat) : Statement (.occupancyThresholdWrite die v) := Nat.le_of_ble_eq_true rfl
theorem preemption (tid : Nat) : Statement (.preemption tid) := Nat.le_of_ble_eq_true rfl
theorem timeSliceExpiry (tid : Nat) : Statement (.timeSliceExpiry tid) := Nat.le_of_ble_eq_true rfl
theorem teamSaveComplete (tid : Nat) : Statement (.teamSaveComplete tid) := Nat.le_of_ble_eq_true rfl
theorem pgreplyRetry (ctx : Nat) (lo : Word) (hi : Option Word) : Statement (.pgreplyRetry ctx lo hi) := Nat.le_of_ble_eq_true rfl
theorem pgreplyDecline (ctx : Nat) (lo : Word) (hi : Option Word) : Statement (.pgreplyDecline ctx lo hi) := Nat.le_of_ble_eq_true rfl
theorem resumeContinue (ctx : Nat) (lo : Word) (hi : Option Word) : Statement (.resumeContinue ctx lo hi) := Nat.le_of_ble_eq_true rfl
theorem resumeSkip (ctx : Nat) (lo : Word) (hi : Option Word) : Statement (.resumeSkip ctx lo hi) := Nat.le_of_ble_eq_true rfl
theorem resumeEnd (ctx : Nat) (lo : Word) (hi : Option Word) : Statement (.resumeEnd ctx lo hi) := Nat.le_of_ble_eq_true rfl
theorem resumeKill (ctx : Nat) (lo : Word) (hi : Option Word) : Statement (.resumeKill ctx lo hi) := Nat.le_of_ble_eq_true rfl
theorem replyHighWordLatch (ctx : Nat) (pgreply : Bool) (v : Word) : Statement (.replyHighWordLatch ctx pgreply v) := Nat.le_of_ble_eq_true rfl
theorem tqrdWrite (ctx v : Nat) : Statement (.tqrdWrite ctx v) := Nat.le_of_ble_eq_true rfl
theorem tqerrRetry (ctx : Nat) : Statement (.tqerrRetry ctx) := Nat.le_of_ble_eq_true rfl
theorem contextEnable (ctx v : Nat) : Statement (.contextEnable ctx v) := Nat.le_of_ble_eq_true rfl
theorem contextDisable (ctx v : Nat) : Statement (.contextDisable ctx v) := Nat.le_of_ble_eq_true rfl
theorem uncorrectableError (who : ErrAt) (retried : Bool) : Statement (.uncorrectableError who retried) := Nat.le_of_ble_eq_true rfl
theorem lostSector (pa : Nat) : Statement (.lostSector pa) := Nat.le_of_ble_eq_true rfl
theorem correctedError (unit : Nat) : Statement (.correctedError unit) := Nat.le_of_ble_eq_true rfl
theorem coreRetire (core : Nat) : Statement (.coreRetire core) := Nat.le_of_ble_eq_true rfl
theorem subbankSpare (die slice : Nat) : Statement (.subbankSpare die slice) := Nat.le_of_ble_eq_true rfl
theorem hbmRowRepair (ch : Nat) : Statement (.hbmRowRepair ch) := Nat.le_of_ble_eq_true rfl
theorem linkLaneSpare (link : Nat) : Statement (.linkLaneSpare link) := Nat.le_of_ble_eq_true rfl
theorem dieReinit (die : Nat) : Statement (.dieReinit die) := Nat.le_of_ble_eq_true rfl
theorem dieReinitComplete (die : Nat) : Statement (.dieReinitComplete die) := Nat.le_of_ble_eq_true rfl
theorem lifetimeRecordWrite : Statement (.lifetimeRecordWrite) := Nat.le_of_ble_eq_true rfl
theorem enmerFlitReceive (port : Nat) (crc auth : Bool) : Statement (.enmerFlitReceive port crc auth) := Nat.le_of_ble_eq_true rfl
theorem enmerRemoteRequest (pkg : Nat) (req : Remote) : Statement (.enmerRemoteRequest pkg req) := Nat.le_of_ble_eq_true rfl
theorem peerTimeout (who : ErrAt) : Statement (.peerTimeout who) := Nat.le_of_ble_eq_true rfl
theorem peerMapWrite (off v : Nat) : Statement (.peerMapWrite off v) := Nat.le_of_ble_eq_true rfl
theorem rdmaWrite (qp : Nat) (op : RdmaOp) (bs : List Byte) : Statement (.rdmaWrite qp op bs) := Nat.le_of_ble_eq_true rfl
theorem ptpSync (die ns : Nat) : Statement (.ptpSync die ns) := Nat.le_of_ble_eq_true rfl
theorem liveUpdate (version digest : Nat) (signer : Option Nat) : Statement (.liveUpdate version digest signer) := Nat.le_of_ble_eq_true rfl
theorem rollbackCounterAdvance (v : Nat) : Statement (.rollbackCounterAdvance v) := Nat.le_of_ble_eq_true rfl
theorem getVersion : Statement (.getVersion) := Nat.le_of_ble_eq_true rfl
theorem getCapabilities : Statement (.getCapabilities) := Nat.le_of_ble_eq_true rfl
theorem negotiateAlgorithms : Statement (.negotiateAlgorithms) := Nat.le_of_ble_eq_true rfl
theorem getDigests : Statement (.getDigests) := Nat.le_of_ble_eq_true rfl
theorem getCertificate (off len : Nat) : Statement (.getCertificate off len) := Nat.le_of_ble_eq_true rfl
theorem challenge (nonce : List Byte) : Statement (.challenge nonce) := Nat.le_of_ble_eq_true rfl
theorem getMeasurements (nonce : List Byte) : Statement (.getMeasurements nonce) := Nat.le_of_ble_eq_true rfl
theorem keyExchange (share : List Byte) : Statement (.keyExchange share) := Nat.le_of_ble_eq_true rfl
theorem finish (port : Option Nat) (verified : Bool) : Statement (.finish port verified) := Nat.le_of_ble_eq_true rfl
theorem endSession (port : Option Nat) : Statement (.endSession port) := Nat.le_of_ble_eq_true rfl
theorem pldmMonitor (die : Nat) : Statement (.pldmMonitor die) := Nat.le_of_ble_eq_true rfl
theorem pldmFru : Statement (.pldmFru) := Nat.le_of_ble_eq_true rfl
theorem pldmFirmwareUpdate (version digest : Nat) (signer : Option Nat) : Statement (.pldmFirmwareUpdate version digest signer) := Nat.le_of_ble_eq_true rfl
theorem lifetimeRecordRead (copy piece : Nat) : Statement (.lifetimeRecordRead copy piece) := Nat.le_of_ble_eq_true rfl
theorem registerWrite (who : RegBy) (off v : Nat) (wide : Bool) : Statement (.registerWrite who off v wide) := Nat.le_of_ble_eq_true rfl
theorem powerLoss : Statement (.powerLoss) := Nat.le_of_ble_eq_true rfl
theorem hbmRowRepairComplete (ch : Nat) : Statement (.hbmRowRepairComplete ch) := Nat.le_of_ble_eq_true rfl
theorem teamRestoreComplete (tid : Nat) : Statement (.teamRestoreComplete tid) := Nat.le_of_ble_eq_true rfl

end Sys2Proof.Laws.EncodedLength
end

