-- ==== Sys2Proof/Laws/Registers.lean ====
section
/-! SUPPORT. Register words and their fields, and teams, groups, dies, cores, contexts and grids after a change: read after write. -/
namespace Sys2Proof.Machine

/-! ## Words and fields -/

/-- A register word is below 2^32. -/
theorem bar_lt (s : State) (o : Nat) : s.bar o < 2 ^ 32 := BitVec.isLt _
/-- A register word reads what was last written to it, modulo 2^32, and every other as before. -/
theorem bar_setBar (s : State) (o v j : Nat) : (s.setBar o v).bar j = if j = o then v % 2 ^ 32 else s.bar j := by
  unfold State.bar State.setBar
  simp only [SMap.get_set]
  split
  · rename_i h; subst h
    rw [BitVec.xor_assoc, BitVec.xor_self, BitVec.xor_zero, BitVec.toNat_ofNat]
  · rfl
/-- A field reads what was put into it. -/
theorem bitsAt_setBits_same (x lo n v : Nat) : bitsAt (setBits x lo n v) lo n = v % 2 ^ n := by
  unfold setBits bitsAt
  have h1 : x = x / 2 ^ lo / 2 ^ n * 2 ^ n * 2 ^ lo + x / 2 ^ lo % 2 ^ n * 2 ^ lo + x % 2 ^ lo := by
    have a := Nat.div_add_mod x (2 ^ lo)
    have b := Nat.div_add_mod (x / 2 ^ lo) (2 ^ n)
    conv => lhs; rw [← a]
    rw [← Nat.add_mul, Nat.mul_comm (x / 2 ^ lo / 2 ^ n) (2 ^ n), b, Nat.mul_comm]
  have h2 : x - x / 2 ^ lo % 2 ^ n * 2 ^ lo + v % 2 ^ n * 2 ^ lo = x % 2 ^ lo + (v % 2 ^ n + x / 2 ^ lo / 2 ^ n * 2 ^ n) * 2 ^ lo := by
    rw [Nat.add_mul]; omega
  rw [h2, Nat.add_mul_div_right _ _ (Nat.two_pow_pos lo), Nat.div_eq_of_lt (Nat.mod_lt _ (Nat.two_pow_pos lo)), Nat.zero_add, Nat.add_mul_mod_self_right,
    Nat.mod_mod]
/-- The bits of a number with a field replaced. -/
theorem testBit_setBits (x lo n v i : Nat) : (setBits x lo n v).testBit i = if lo ≤ i ∧ i < lo + n then v.testBit (i - lo) else x.testBit i := by
  unfold setBits bitsAt
  have h1 : x = x / 2 ^ lo / 2 ^ n * 2 ^ n * 2 ^ lo + x / 2 ^ lo % 2 ^ n * 2 ^ lo + x % 2 ^ lo := by
    have a := Nat.div_add_mod x (2 ^ lo)
    have b := Nat.div_add_mod (x / 2 ^ lo) (2 ^ n)
    conv => lhs; rw [← a]
    rw [← Nat.add_mul, Nat.mul_comm (x / 2 ^ lo / 2 ^ n) (2 ^ n), b, Nat.mul_comm]
  have h2 : x - x / 2 ^ lo % 2 ^ n * 2 ^ lo + v % 2 ^ n * 2 ^ lo = 2 ^ lo * (2 ^ n * (x / 2 ^ lo / 2 ^ n) + v % 2 ^ n) + x % 2 ^ lo := by
    have : 2 ^ lo * (2 ^ n * (x / 2 ^ lo / 2 ^ n) + v % 2 ^ n) = x / 2 ^ lo / 2 ^ n * 2 ^ n * 2 ^ lo + v % 2 ^ n * 2 ^ lo := by
      rw [Nat.mul_comm, Nat.add_mul, Nat.mul_comm (2 ^ n)]
    omega
  rw [h2, Nat.testBit_two_pow_mul_add _ (Nat.mod_lt _ (Nat.two_pow_pos lo))]
  by_cases hl : i < lo
  · rw [if_pos hl, if_neg (by omega), Nat.testBit_mod_two_pow]; simp [hl]
  · rw [if_neg hl, Nat.testBit_two_pow_mul_add _ (Nat.mod_lt _ (Nat.two_pow_pos n))]
    by_cases hn : i - lo < n
    · rw [if_pos hn, if_pos (by omega), Nat.testBit_mod_two_pow]; simp [hn]
    · rw [if_neg hn, if_neg (by omega), Nat.testBit_div_two_pow, Nat.testBit_div_two_pow]
      congr 1; omega
/-- A field apart from the one replaced reads as before. -/
theorem bitsAt_setBits_other (x lo n v lo' n' : Nat) (h : lo' + n' ≤ lo ∨ lo + n ≤ lo') : bitsAt (setBits x lo n v) lo' n' = bitsAt x lo' n' := by
  apply Nat.eq_of_testBit_eq
  intro i
  unfold bitsAt
  rw [Nat.testBit_mod_two_pow, Nat.testBit_mod_two_pow, Nat.testBit_div_two_pow, Nat.testBit_div_two_pow, testBit_setBits]
  by_cases hi : i < n'
  · rw [if_neg (by omega)]
  · simp [hi]
/-- A word with a field replaced is a word. -/
theorem setBits_lt (x lo n v : Nat) (h : x < 2 ^ 32) (hn : lo + n ≤ 32) : setBits x lo n v < 2 ^ 32 := by
  apply Nat.lt_pow_two_of_testBit
  intro i hi
  rw [testBit_setBits, if_neg (by omega)]
  exact Nat.testBit_lt_two_pow (Nat.lt_of_lt_of_le h (Nat.pow_le_pow_right (by omega) hi))

/-! ## Teams, dies, groups -/

/-- Changing one team keeps the others. -/
theorem team?_modTeam_ne {s : State} {k tid : Nat} {f : Team → Team} (hf : ∀ u, (f u).tid = u.tid) (h : k ≠ tid) :
    (s.modTeam tid f).team? k = s.team? k := by
  unfold State.team? State.modTeam
  dsimp only
  induction s.teams with
  | nil => rfl
  | cons x r ih =>
    by_cases hx : x.tid = tid
    · have hk : (tid == k) = false := by simpa using Ne.symm h
      simp only [List.map_cons, List.find?_cons, hx, if_true, hf, hk, ih]
    · simp only [List.map_cons, List.find?_cons, hx, if_false, ih]
/-- The group of a team after a change of it. -/
theorem group?_modGroup {s : State} {tid gi : Nat} {t : Team} {g : Group} {f : Group → Group} (h : s.team? tid = some t) (hg : t.groups[gi]? = some g) :
    (s.modGroup tid gi f).group? tid gi = some (f g) := by
  unfold State.group? State.modGroup
  rw [team?_modTeam (f := fun t => t.modGroup gi f) (fun _ => rfl), h]
  simp [Team.modGroup, updAt_getElem?, hg]
/-- A die after a change of it. -/
theorem die_modDie {s : State} {d : Nat} {f : Die → Die} (h : d < s.dies.length) : (s.modDie d f).die d = f (s.die d) := by
  simp [State.modDie, State.die, updAt_getElem?, List.getElem?_eq_getElem h]
/-- The other dies after a change of one. -/
theorem die_modDie_ne {s : State} {d k : Nat} {f : Die → Die} (h : k ≠ d) : (s.modDie d f).die k = s.die k := by
  have h' : d ≠ k := Ne.symm h
  simp [State.modDie, State.die, updAt_getElem?, h']
/-- A core after a change of it. -/
theorem core_modCore (s : State) (k : Nat) (f : Core → Core) : (s.modCore k f).core k = f (s.core k) := by
  simp [State.modCore, State.core]
/-- The other cores after a change of one. -/
theorem core_modCore_ne {s : State} {k j : Nat} {f : Core → Core} (h : j ≠ k) : (s.modCore k f).core j = s.core j := by
  simp [State.modCore, State.core, SMap.get_set, h]
/-- What a context holds after a change of it. -/
theorem ctx_modCtx (s : State) (x : Nat) (f : Ctx → Ctx) : (s.modCtx x f).ctx x = f (s.ctx x) := by
  simp [State.modCtx, State.ctx]
/-- A grid after a change of it. -/
theorem grid?_modGrid {s : State} {i : Nat} {g : Grid} {f : Grid → Grid} (hf : ∀ g, (f g).gid = g.gid) (h : s.grid? i = some g) :
    (s.modGrid i f).grid? i = some (f g) := by
  unfold State.grid? State.modGrid at *
  dsimp only
  generalize s.grids = l at h
  induction l with
  | nil => cases h
  | cons u r ih =>
    by_cases hu : u.gid = i
    · simp [hu, hf] at h ⊢
      rw [h]
    · simp only [List.map_cons, hu, if_false, List.find?_cons] at h ⊢
      simp only [show (u.gid == i) = false by simpa using hu] at h ⊢
      exact ih h

end Sys2Proof.Machine
end

