-- ==== Sys2Proof/Laws/State.lean ====
section
/-! SUPPORT. Each update of the state, field by field. -/
namespace Sys2Proof.Machine

/-! ## modTeam -/

@[simp] theorem State.modTeam_mem (s : State) (tid : Nat) (f : Team → Team) : (s.modTeam tid f).mem = s.mem := rfl
@[simp] theorem State.modTeam_pad (s : State) (tid : Nat) (f : Team → Team) : (s.modTeam tid f).pad = s.pad := rfl
@[simp] theorem State.modTeam_padCnt (s : State) (tid : Nat) (f : Team → Team) : (s.modTeam tid f).padCnt = s.padCnt := rfl
@[simp] theorem State.modTeam_bar0 (s : State) (tid : Nat) (f : Team → Team) : (s.modTeam tid f).bar0 = s.bar0 := rfl
@[simp] theorem State.modTeam_ctxs (s : State) (tid : Nat) (f : Team → Team) : (s.modTeam tid f).ctxs = s.ctxs := rfl
@[simp] theorem State.modTeam_cores (s : State) (tid : Nat) (f : Team → Team) : (s.modTeam tid f).cores = s.cores := rfl
@[simp] theorem State.modTeam_dies (s : State) (tid : Nat) (f : Team → Team) : (s.modTeam tid f).dies = s.dies := rfl
@[simp] theorem State.modTeam_teams (s : State) (tid : Nat) (f : Team → Team) : (s.modTeam tid f).teams = s.teams.map (fun t => if t.tid = tid then f t else t) := rfl
@[simp] theorem State.modTeam_saved (s : State) (tid : Nat) (f : Team → Team) : (s.modTeam tid f).saved = s.saved := rfl
@[simp] theorem State.modTeam_grids (s : State) (tid : Nat) (f : Team → Team) : (s.modTeam tid f).grids = s.grids := rfl
@[simp] theorem State.modTeam_started (s : State) (tid : Nat) (f : Team → Team) : (s.modTeam tid f).started = s.started := rfl
@[simp] theorem State.modTeam_tasks (s : State) (tid : Nat) (f : Team → Team) : (s.modTeam tid f).tasks = s.tasks := rfl
@[simp] theorem State.modTeam_nextId (s : State) (tid : Nat) (f : Team → Team) : (s.modTeam tid f).nextId = s.nextId := rfl
@[simp] theorem State.modTeam_lastDie (s : State) (tid : Nat) (f : Team → Team) : (s.modTeam tid f).lastDie = s.lastDie := rfl
@[simp] theorem State.modTeam_lastCtx (s : State) (tid : Nat) (f : Team → Team) : (s.modTeam tid f).lastCtx = s.lastCtx := rfl
@[simp] theorem State.modTeam_part (s : State) (tid : Nat) (f : Team → Team) : (s.modTeam tid f).part = s.part := rfl
@[simp] theorem State.modTeam_sites (s : State) (tid : Nat) (f : Team → Team) : (s.modTeam tid f).sites = s.sites := rfl
@[simp] theorem State.modTeam_unavail (s : State) (tid : Nat) (f : Team → Team) : (s.modTeam tid f).unavail = s.unavail := rfl
@[simp] theorem State.modTeam_badSites (s : State) (tid : Nat) (f : Team → Team) : (s.modTeam tid f).badSites = s.badSites := rfl
@[simp] theorem State.modTeam_rowFuses (s : State) (tid : Nat) (f : Team → Team) : (s.modTeam tid f).rowFuses = s.rowFuses := rfl
@[simp] theorem State.modTeam_laneSpares (s : State) (tid : Nat) (f : Team → Team) : (s.modTeam tid f).laneSpares = s.laneSpares := rfl
@[simp] theorem State.modTeam_irqs (s : State) (tid : Nat) (f : Team → Team) : (s.modTeam tid f).irqs = s.irqs := rfl
@[simp] theorem State.modTeam_ports (s : State) (tid : Nat) (f : Team → Team) : (s.modTeam tid f).ports = s.ports := rfl
@[simp] theorem State.modTeam_readers (s : State) (tid : Nat) (f : Team → Team) : (s.modTeam tid f).readers = s.readers := rfl
@[simp] theorem State.modTeam_ats (s : State) (tid : Nat) (f : Team → Team) : (s.modTeam tid f).ats = s.ats := rfl
@[simp] theorem State.modTeam_reply (s : State) (tid : Nat) (f : Team → Team) : (s.modTeam tid f).reply = s.reply := rfl
@[simp] theorem State.modTeam_trust (s : State) (tid : Nat) (f : Team → Team) : (s.modTeam tid f).trust = s.trust := rfl
@[simp] theorem State.modTeam_lifeA (s : State) (tid : Nat) (f : Team → Team) : (s.modTeam tid f).lifeA = s.lifeA := rfl
@[simp] theorem State.modTeam_lifeB (s : State) (tid : Nat) (f : Team → Team) : (s.modTeam tid f).lifeB = s.lifeB := rfl
@[simp] theorem State.modTeam_live (s : State) (tid : Nat) (f : Team → Team) : (s.modTeam tid f).live = s.live := rfl
@[simp] theorem State.modTeam_lifeAt (s : State) (tid : Nat) (f : Team → Team) : (s.modTeam tid f).lifeAt = s.lifeAt := rfl
@[simp] theorem State.modTeam_mgmt (s : State) (tid : Nat) (f : Team → Team) : (s.modTeam tid f).mgmt = s.mgmt := rfl
@[simp] theorem State.modTeam_coreErrs (s : State) (tid : Nat) (f : Team → Team) : (s.modTeam tid f).coreErrs = s.coreErrs := rfl
@[simp] theorem State.modTeam_atsInv (s : State) (tid : Nat) (f : Team → Team) : (s.modTeam tid f).atsInv = s.atsInv := rfl
@[simp] theorem State.modTeam_qps (s : State) (tid : Nat) (f : Team → Team) : (s.modTeam tid f).qps = s.qps := rfl
@[simp] theorem State.modTeam_claims (s : State) (tid : Nat) (f : Team → Team) : (s.modTeam tid f).claims = s.claims := rfl
@[simp] theorem State.modTeam_powered (s : State) (tid : Nat) (f : Team → Team) : (s.modTeam tid f).powered = s.powered := rfl
@[simp] theorem State.modTeam_free (s : State) (tid : Nat) (f : Team → Team) : (s.modTeam tid f).free = s.free := rfl
@[simp] theorem State.modTeam_agenda (s : State) (tid : Nat) (f : Team → Team) : (s.modTeam tid f).agenda = s.agenda := rfl
@[simp] theorem State.modTeam_cur (s : State) (tid : Nat) (f : Team → Team) : (s.modTeam tid f).cur = s.cur := rfl

/-! ## modGroup -/

@[simp] theorem State.modGroup_mem (s : State) (tid gi : Nat) (f : Group → Group) : (s.modGroup tid gi f).mem = s.mem := rfl
@[simp] theorem State.modGroup_pad (s : State) (tid gi : Nat) (f : Group → Group) : (s.modGroup tid gi f).pad = s.pad := rfl
@[simp] theorem State.modGroup_padCnt (s : State) (tid gi : Nat) (f : Group → Group) : (s.modGroup tid gi f).padCnt = s.padCnt := rfl
@[simp] theorem State.modGroup_bar0 (s : State) (tid gi : Nat) (f : Group → Group) : (s.modGroup tid gi f).bar0 = s.bar0 := rfl
@[simp] theorem State.modGroup_ctxs (s : State) (tid gi : Nat) (f : Group → Group) : (s.modGroup tid gi f).ctxs = s.ctxs := rfl
@[simp] theorem State.modGroup_cores (s : State) (tid gi : Nat) (f : Group → Group) : (s.modGroup tid gi f).cores = s.cores := rfl
@[simp] theorem State.modGroup_dies (s : State) (tid gi : Nat) (f : Group → Group) : (s.modGroup tid gi f).dies = s.dies := rfl
@[simp] theorem State.modGroup_teams (s : State) (tid gi : Nat) (f : Group → Group) : (s.modGroup tid gi f).teams = s.teams.map (fun t => if t.tid = tid then t.modGroup gi f else t) := rfl
@[simp] theorem State.modGroup_saved (s : State) (tid gi : Nat) (f : Group → Group) : (s.modGroup tid gi f).saved = s.saved := rfl
@[simp] theorem State.modGroup_grids (s : State) (tid gi : Nat) (f : Group → Group) : (s.modGroup tid gi f).grids = s.grids := rfl
@[simp] theorem State.modGroup_started (s : State) (tid gi : Nat) (f : Group → Group) : (s.modGroup tid gi f).started = s.started := rfl
@[simp] theorem State.modGroup_tasks (s : State) (tid gi : Nat) (f : Group → Group) : (s.modGroup tid gi f).tasks = s.tasks := rfl
@[simp] theorem State.modGroup_nextId (s : State) (tid gi : Nat) (f : Group → Group) : (s.modGroup tid gi f).nextId = s.nextId := rfl
@[simp] theorem State.modGroup_lastDie (s : State) (tid gi : Nat) (f : Group → Group) : (s.modGroup tid gi f).lastDie = s.lastDie := rfl
@[simp] theorem State.modGroup_lastCtx (s : State) (tid gi : Nat) (f : Group → Group) : (s.modGroup tid gi f).lastCtx = s.lastCtx := rfl
@[simp] theorem State.modGroup_part (s : State) (tid gi : Nat) (f : Group → Group) : (s.modGroup tid gi f).part = s.part := rfl
@[simp] theorem State.modGroup_sites (s : State) (tid gi : Nat) (f : Group → Group) : (s.modGroup tid gi f).sites = s.sites := rfl
@[simp] theorem State.modGroup_unavail (s : State) (tid gi : Nat) (f : Group → Group) : (s.modGroup tid gi f).unavail = s.unavail := rfl
@[simp] theorem State.modGroup_badSites (s : State) (tid gi : Nat) (f : Group → Group) : (s.modGroup tid gi f).badSites = s.badSites := rfl
@[simp] theorem State.modGroup_rowFuses (s : State) (tid gi : Nat) (f : Group → Group) : (s.modGroup tid gi f).rowFuses = s.rowFuses := rfl
@[simp] theorem State.modGroup_laneSpares (s : State) (tid gi : Nat) (f : Group → Group) : (s.modGroup tid gi f).laneSpares = s.laneSpares := rfl
@[simp] theorem State.modGroup_irqs (s : State) (tid gi : Nat) (f : Group → Group) : (s.modGroup tid gi f).irqs = s.irqs := rfl
@[simp] theorem State.modGroup_ports (s : State) (tid gi : Nat) (f : Group → Group) : (s.modGroup tid gi f).ports = s.ports := rfl
@[simp] theorem State.modGroup_readers (s : State) (tid gi : Nat) (f : Group → Group) : (s.modGroup tid gi f).readers = s.readers := rfl
@[simp] theorem State.modGroup_ats (s : State) (tid gi : Nat) (f : Group → Group) : (s.modGroup tid gi f).ats = s.ats := rfl
@[simp] theorem State.modGroup_reply (s : State) (tid gi : Nat) (f : Group → Group) : (s.modGroup tid gi f).reply = s.reply := rfl
@[simp] theorem State.modGroup_trust (s : State) (tid gi : Nat) (f : Group → Group) : (s.modGroup tid gi f).trust = s.trust := rfl
@[simp] theorem State.modGroup_lifeA (s : State) (tid gi : Nat) (f : Group → Group) : (s.modGroup tid gi f).lifeA = s.lifeA := rfl
@[simp] theorem State.modGroup_lifeB (s : State) (tid gi : Nat) (f : Group → Group) : (s.modGroup tid gi f).lifeB = s.lifeB := rfl
@[simp] theorem State.modGroup_live (s : State) (tid gi : Nat) (f : Group → Group) : (s.modGroup tid gi f).live = s.live := rfl
@[simp] theorem State.modGroup_lifeAt (s : State) (tid gi : Nat) (f : Group → Group) : (s.modGroup tid gi f).lifeAt = s.lifeAt := rfl
@[simp] theorem State.modGroup_mgmt (s : State) (tid gi : Nat) (f : Group → Group) : (s.modGroup tid gi f).mgmt = s.mgmt := rfl
@[simp] theorem State.modGroup_coreErrs (s : State) (tid gi : Nat) (f : Group → Group) : (s.modGroup tid gi f).coreErrs = s.coreErrs := rfl
@[simp] theorem State.modGroup_atsInv (s : State) (tid gi : Nat) (f : Group → Group) : (s.modGroup tid gi f).atsInv = s.atsInv := rfl
@[simp] theorem State.modGroup_qps (s : State) (tid gi : Nat) (f : Group → Group) : (s.modGroup tid gi f).qps = s.qps := rfl
@[simp] theorem State.modGroup_claims (s : State) (tid gi : Nat) (f : Group → Group) : (s.modGroup tid gi f).claims = s.claims := rfl
@[simp] theorem State.modGroup_powered (s : State) (tid gi : Nat) (f : Group → Group) : (s.modGroup tid gi f).powered = s.powered := rfl
@[simp] theorem State.modGroup_free (s : State) (tid gi : Nat) (f : Group → Group) : (s.modGroup tid gi f).free = s.free := rfl
@[simp] theorem State.modGroup_agenda (s : State) (tid gi : Nat) (f : Group → Group) : (s.modGroup tid gi f).agenda = s.agenda := rfl
@[simp] theorem State.modGroup_cur (s : State) (tid gi : Nat) (f : Group → Group) : (s.modGroup tid gi f).cur = s.cur := rfl

/-! ## modCore -/

@[simp] theorem State.modCore_mem (s : State) (k : Nat) (f : Core → Core) : (s.modCore k f).mem = s.mem := rfl
@[simp] theorem State.modCore_pad (s : State) (k : Nat) (f : Core → Core) : (s.modCore k f).pad = s.pad := rfl
@[simp] theorem State.modCore_padCnt (s : State) (k : Nat) (f : Core → Core) : (s.modCore k f).padCnt = s.padCnt := rfl
@[simp] theorem State.modCore_bar0 (s : State) (k : Nat) (f : Core → Core) : (s.modCore k f).bar0 = s.bar0 := rfl
@[simp] theorem State.modCore_ctxs (s : State) (k : Nat) (f : Core → Core) : (s.modCore k f).ctxs = s.ctxs := rfl
@[simp] theorem State.modCore_cores (s : State) (k : Nat) (f : Core → Core) : (s.modCore k f).cores = SMap.set Core.empty s.cores k (f (s.core k)) := rfl
@[simp] theorem State.modCore_dies (s : State) (k : Nat) (f : Core → Core) : (s.modCore k f).dies = s.dies := rfl
@[simp] theorem State.modCore_teams (s : State) (k : Nat) (f : Core → Core) : (s.modCore k f).teams = s.teams := rfl
@[simp] theorem State.modCore_saved (s : State) (k : Nat) (f : Core → Core) : (s.modCore k f).saved = s.saved := rfl
@[simp] theorem State.modCore_grids (s : State) (k : Nat) (f : Core → Core) : (s.modCore k f).grids = s.grids := rfl
@[simp] theorem State.modCore_started (s : State) (k : Nat) (f : Core → Core) : (s.modCore k f).started = s.started := rfl
@[simp] theorem State.modCore_tasks (s : State) (k : Nat) (f : Core → Core) : (s.modCore k f).tasks = s.tasks := rfl
@[simp] theorem State.modCore_nextId (s : State) (k : Nat) (f : Core → Core) : (s.modCore k f).nextId = s.nextId := rfl
@[simp] theorem State.modCore_lastDie (s : State) (k : Nat) (f : Core → Core) : (s.modCore k f).lastDie = s.lastDie := rfl
@[simp] theorem State.modCore_lastCtx (s : State) (k : Nat) (f : Core → Core) : (s.modCore k f).lastCtx = s.lastCtx := rfl
@[simp] theorem State.modCore_part (s : State) (k : Nat) (f : Core → Core) : (s.modCore k f).part = s.part := rfl
@[simp] theorem State.modCore_sites (s : State) (k : Nat) (f : Core → Core) : (s.modCore k f).sites = s.sites := rfl
@[simp] theorem State.modCore_unavail (s : State) (k : Nat) (f : Core → Core) : (s.modCore k f).unavail = s.unavail := rfl
@[simp] theorem State.modCore_badSites (s : State) (k : Nat) (f : Core → Core) : (s.modCore k f).badSites = s.badSites := rfl
@[simp] theorem State.modCore_rowFuses (s : State) (k : Nat) (f : Core → Core) : (s.modCore k f).rowFuses = s.rowFuses := rfl
@[simp] theorem State.modCore_laneSpares (s : State) (k : Nat) (f : Core → Core) : (s.modCore k f).laneSpares = s.laneSpares := rfl
@[simp] theorem State.modCore_irqs (s : State) (k : Nat) (f : Core → Core) : (s.modCore k f).irqs = s.irqs := rfl
@[simp] theorem State.modCore_ports (s : State) (k : Nat) (f : Core → Core) : (s.modCore k f).ports = s.ports := rfl
@[simp] theorem State.modCore_readers (s : State) (k : Nat) (f : Core → Core) : (s.modCore k f).readers = s.readers := rfl
@[simp] theorem State.modCore_ats (s : State) (k : Nat) (f : Core → Core) : (s.modCore k f).ats = s.ats := rfl
@[simp] theorem State.modCore_reply (s : State) (k : Nat) (f : Core → Core) : (s.modCore k f).reply = s.reply := rfl
@[simp] theorem State.modCore_trust (s : State) (k : Nat) (f : Core → Core) : (s.modCore k f).trust = s.trust := rfl
@[simp] theorem State.modCore_lifeA (s : State) (k : Nat) (f : Core → Core) : (s.modCore k f).lifeA = s.lifeA := rfl
@[simp] theorem State.modCore_lifeB (s : State) (k : Nat) (f : Core → Core) : (s.modCore k f).lifeB = s.lifeB := rfl
@[simp] theorem State.modCore_live (s : State) (k : Nat) (f : Core → Core) : (s.modCore k f).live = s.live := rfl
@[simp] theorem State.modCore_lifeAt (s : State) (k : Nat) (f : Core → Core) : (s.modCore k f).lifeAt = s.lifeAt := rfl
@[simp] theorem State.modCore_mgmt (s : State) (k : Nat) (f : Core → Core) : (s.modCore k f).mgmt = s.mgmt := rfl
@[simp] theorem State.modCore_coreErrs (s : State) (k : Nat) (f : Core → Core) : (s.modCore k f).coreErrs = s.coreErrs := rfl
@[simp] theorem State.modCore_atsInv (s : State) (k : Nat) (f : Core → Core) : (s.modCore k f).atsInv = s.atsInv := rfl
@[simp] theorem State.modCore_qps (s : State) (k : Nat) (f : Core → Core) : (s.modCore k f).qps = s.qps := rfl
@[simp] theorem State.modCore_claims (s : State) (k : Nat) (f : Core → Core) : (s.modCore k f).claims = s.claims := rfl
@[simp] theorem State.modCore_powered (s : State) (k : Nat) (f : Core → Core) : (s.modCore k f).powered = s.powered := rfl
@[simp] theorem State.modCore_free (s : State) (k : Nat) (f : Core → Core) : (s.modCore k f).free = s.free := rfl
@[simp] theorem State.modCore_agenda (s : State) (k : Nat) (f : Core → Core) : (s.modCore k f).agenda = s.agenda := rfl
@[simp] theorem State.modCore_cur (s : State) (k : Nat) (f : Core → Core) : (s.modCore k f).cur = s.cur := rfl

/-! ## modDie -/

@[simp] theorem State.modDie_mem (s : State) (d : Nat) (f : Die → Die) : (s.modDie d f).mem = s.mem := rfl
@[simp] theorem State.modDie_pad (s : State) (d : Nat) (f : Die → Die) : (s.modDie d f).pad = s.pad := rfl
@[simp] theorem State.modDie_padCnt (s : State) (d : Nat) (f : Die → Die) : (s.modDie d f).padCnt = s.padCnt := rfl
@[simp] theorem State.modDie_bar0 (s : State) (d : Nat) (f : Die → Die) : (s.modDie d f).bar0 = s.bar0 := rfl
@[simp] theorem State.modDie_ctxs (s : State) (d : Nat) (f : Die → Die) : (s.modDie d f).ctxs = s.ctxs := rfl
@[simp] theorem State.modDie_cores (s : State) (d : Nat) (f : Die → Die) : (s.modDie d f).cores = s.cores := rfl
@[simp] theorem State.modDie_dies (s : State) (d : Nat) (f : Die → Die) : (s.modDie d f).dies = updAt s.dies d f := rfl
@[simp] theorem State.modDie_teams (s : State) (d : Nat) (f : Die → Die) : (s.modDie d f).teams = s.teams := rfl
@[simp] theorem State.modDie_saved (s : State) (d : Nat) (f : Die → Die) : (s.modDie d f).saved = s.saved := rfl
@[simp] theorem State.modDie_grids (s : State) (d : Nat) (f : Die → Die) : (s.modDie d f).grids = s.grids := rfl
@[simp] theorem State.modDie_started (s : State) (d : Nat) (f : Die → Die) : (s.modDie d f).started = s.started := rfl
@[simp] theorem State.modDie_tasks (s : State) (d : Nat) (f : Die → Die) : (s.modDie d f).tasks = s.tasks := rfl
@[simp] theorem State.modDie_nextId (s : State) (d : Nat) (f : Die → Die) : (s.modDie d f).nextId = s.nextId := rfl
@[simp] theorem State.modDie_lastDie (s : State) (d : Nat) (f : Die → Die) : (s.modDie d f).lastDie = s.lastDie := rfl
@[simp] theorem State.modDie_lastCtx (s : State) (d : Nat) (f : Die → Die) : (s.modDie d f).lastCtx = s.lastCtx := rfl
@[simp] theorem State.modDie_part (s : State) (d : Nat) (f : Die → Die) : (s.modDie d f).part = s.part := rfl
@[simp] theorem State.modDie_sites (s : State) (d : Nat) (f : Die → Die) : (s.modDie d f).sites = s.sites := rfl
@[simp] theorem State.modDie_unavail (s : State) (d : Nat) (f : Die → Die) : (s.modDie d f).unavail = s.unavail := rfl
@[simp] theorem State.modDie_badSites (s : State) (d : Nat) (f : Die → Die) : (s.modDie d f).badSites = s.badSites := rfl
@[simp] theorem State.modDie_rowFuses (s : State) (d : Nat) (f : Die → Die) : (s.modDie d f).rowFuses = s.rowFuses := rfl
@[simp] theorem State.modDie_laneSpares (s : State) (d : Nat) (f : Die → Die) : (s.modDie d f).laneSpares = s.laneSpares := rfl
@[simp] theorem State.modDie_irqs (s : State) (d : Nat) (f : Die → Die) : (s.modDie d f).irqs = s.irqs := rfl
@[simp] theorem State.modDie_ports (s : State) (d : Nat) (f : Die → Die) : (s.modDie d f).ports = s.ports := rfl
@[simp] theorem State.modDie_readers (s : State) (d : Nat) (f : Die → Die) : (s.modDie d f).readers = s.readers := rfl
@[simp] theorem State.modDie_ats (s : State) (d : Nat) (f : Die → Die) : (s.modDie d f).ats = s.ats := rfl
@[simp] theorem State.modDie_reply (s : State) (d : Nat) (f : Die → Die) : (s.modDie d f).reply = s.reply := rfl
@[simp] theorem State.modDie_trust (s : State) (d : Nat) (f : Die → Die) : (s.modDie d f).trust = s.trust := rfl
@[simp] theorem State.modDie_lifeA (s : State) (d : Nat) (f : Die → Die) : (s.modDie d f).lifeA = s.lifeA := rfl
@[simp] theorem State.modDie_lifeB (s : State) (d : Nat) (f : Die → Die) : (s.modDie d f).lifeB = s.lifeB := rfl
@[simp] theorem State.modDie_live (s : State) (d : Nat) (f : Die → Die) : (s.modDie d f).live = s.live := rfl
@[simp] theorem State.modDie_lifeAt (s : State) (d : Nat) (f : Die → Die) : (s.modDie d f).lifeAt = s.lifeAt := rfl
@[simp] theorem State.modDie_mgmt (s : State) (d : Nat) (f : Die → Die) : (s.modDie d f).mgmt = s.mgmt := rfl
@[simp] theorem State.modDie_coreErrs (s : State) (d : Nat) (f : Die → Die) : (s.modDie d f).coreErrs = s.coreErrs := rfl
@[simp] theorem State.modDie_atsInv (s : State) (d : Nat) (f : Die → Die) : (s.modDie d f).atsInv = s.atsInv := rfl
@[simp] theorem State.modDie_qps (s : State) (d : Nat) (f : Die → Die) : (s.modDie d f).qps = s.qps := rfl
@[simp] theorem State.modDie_claims (s : State) (d : Nat) (f : Die → Die) : (s.modDie d f).claims = s.claims := rfl
@[simp] theorem State.modDie_powered (s : State) (d : Nat) (f : Die → Die) : (s.modDie d f).powered = s.powered := rfl
@[simp] theorem State.modDie_free (s : State) (d : Nat) (f : Die → Die) : (s.modDie d f).free = s.free := rfl
@[simp] theorem State.modDie_agenda (s : State) (d : Nat) (f : Die → Die) : (s.modDie d f).agenda = s.agenda := rfl
@[simp] theorem State.modDie_cur (s : State) (d : Nat) (f : Die → Die) : (s.modDie d f).cur = s.cur := rfl

/-! ## modCtx -/

@[simp] theorem State.modCtx_mem (s : State) (x : Nat) (f : Ctx → Ctx) : (s.modCtx x f).mem = s.mem := rfl
@[simp] theorem State.modCtx_pad (s : State) (x : Nat) (f : Ctx → Ctx) : (s.modCtx x f).pad = s.pad := rfl
@[simp] theorem State.modCtx_padCnt (s : State) (x : Nat) (f : Ctx → Ctx) : (s.modCtx x f).padCnt = s.padCnt := rfl
@[simp] theorem State.modCtx_bar0 (s : State) (x : Nat) (f : Ctx → Ctx) : (s.modCtx x f).bar0 = s.bar0 := rfl
@[simp] theorem State.modCtx_ctxs (s : State) (x : Nat) (f : Ctx → Ctx) : (s.modCtx x f).ctxs = SMap.set Ctx.empty s.ctxs x (f (s.ctx x)) := rfl
@[simp] theorem State.modCtx_cores (s : State) (x : Nat) (f : Ctx → Ctx) : (s.modCtx x f).cores = s.cores := rfl
@[simp] theorem State.modCtx_dies (s : State) (x : Nat) (f : Ctx → Ctx) : (s.modCtx x f).dies = s.dies := rfl
@[simp] theorem State.modCtx_teams (s : State) (x : Nat) (f : Ctx → Ctx) : (s.modCtx x f).teams = s.teams := rfl
@[simp] theorem State.modCtx_saved (s : State) (x : Nat) (f : Ctx → Ctx) : (s.modCtx x f).saved = s.saved := rfl
@[simp] theorem State.modCtx_grids (s : State) (x : Nat) (f : Ctx → Ctx) : (s.modCtx x f).grids = s.grids := rfl
@[simp] theorem State.modCtx_started (s : State) (x : Nat) (f : Ctx → Ctx) : (s.modCtx x f).started = s.started := rfl
@[simp] theorem State.modCtx_tasks (s : State) (x : Nat) (f : Ctx → Ctx) : (s.modCtx x f).tasks = s.tasks := rfl
@[simp] theorem State.modCtx_nextId (s : State) (x : Nat) (f : Ctx → Ctx) : (s.modCtx x f).nextId = s.nextId := rfl
@[simp] theorem State.modCtx_lastDie (s : State) (x : Nat) (f : Ctx → Ctx) : (s.modCtx x f).lastDie = s.lastDie := rfl
@[simp] theorem State.modCtx_lastCtx (s : State) (x : Nat) (f : Ctx → Ctx) : (s.modCtx x f).lastCtx = s.lastCtx := rfl
@[simp] theorem State.modCtx_part (s : State) (x : Nat) (f : Ctx → Ctx) : (s.modCtx x f).part = s.part := rfl
@[simp] theorem State.modCtx_sites (s : State) (x : Nat) (f : Ctx → Ctx) : (s.modCtx x f).sites = s.sites := rfl
@[simp] theorem State.modCtx_unavail (s : State) (x : Nat) (f : Ctx → Ctx) : (s.modCtx x f).unavail = s.unavail := rfl
@[simp] theorem State.modCtx_badSites (s : State) (x : Nat) (f : Ctx → Ctx) : (s.modCtx x f).badSites = s.badSites := rfl
@[simp] theorem State.modCtx_rowFuses (s : State) (x : Nat) (f : Ctx → Ctx) : (s.modCtx x f).rowFuses = s.rowFuses := rfl
@[simp] theorem State.modCtx_laneSpares (s : State) (x : Nat) (f : Ctx → Ctx) : (s.modCtx x f).laneSpares = s.laneSpares := rfl
@[simp] theorem State.modCtx_irqs (s : State) (x : Nat) (f : Ctx → Ctx) : (s.modCtx x f).irqs = s.irqs := rfl
@[simp] theorem State.modCtx_ports (s : State) (x : Nat) (f : Ctx → Ctx) : (s.modCtx x f).ports = s.ports := rfl
@[simp] theorem State.modCtx_readers (s : State) (x : Nat) (f : Ctx → Ctx) : (s.modCtx x f).readers = s.readers := rfl
@[simp] theorem State.modCtx_ats (s : State) (x : Nat) (f : Ctx → Ctx) : (s.modCtx x f).ats = s.ats := rfl
@[simp] theorem State.modCtx_reply (s : State) (x : Nat) (f : Ctx → Ctx) : (s.modCtx x f).reply = s.reply := rfl
@[simp] theorem State.modCtx_trust (s : State) (x : Nat) (f : Ctx → Ctx) : (s.modCtx x f).trust = s.trust := rfl
@[simp] theorem State.modCtx_lifeA (s : State) (x : Nat) (f : Ctx → Ctx) : (s.modCtx x f).lifeA = s.lifeA := rfl
@[simp] theorem State.modCtx_lifeB (s : State) (x : Nat) (f : Ctx → Ctx) : (s.modCtx x f).lifeB = s.lifeB := rfl
@[simp] theorem State.modCtx_live (s : State) (x : Nat) (f : Ctx → Ctx) : (s.modCtx x f).live = s.live := rfl
@[simp] theorem State.modCtx_lifeAt (s : State) (x : Nat) (f : Ctx → Ctx) : (s.modCtx x f).lifeAt = s.lifeAt := rfl
@[simp] theorem State.modCtx_mgmt (s : State) (x : Nat) (f : Ctx → Ctx) : (s.modCtx x f).mgmt = s.mgmt := rfl
@[simp] theorem State.modCtx_coreErrs (s : State) (x : Nat) (f : Ctx → Ctx) : (s.modCtx x f).coreErrs = s.coreErrs := rfl
@[simp] theorem State.modCtx_atsInv (s : State) (x : Nat) (f : Ctx → Ctx) : (s.modCtx x f).atsInv = s.atsInv := rfl
@[simp] theorem State.modCtx_qps (s : State) (x : Nat) (f : Ctx → Ctx) : (s.modCtx x f).qps = s.qps := rfl
@[simp] theorem State.modCtx_claims (s : State) (x : Nat) (f : Ctx → Ctx) : (s.modCtx x f).claims = s.claims := rfl
@[simp] theorem State.modCtx_powered (s : State) (x : Nat) (f : Ctx → Ctx) : (s.modCtx x f).powered = s.powered := rfl
@[simp] theorem State.modCtx_free (s : State) (x : Nat) (f : Ctx → Ctx) : (s.modCtx x f).free = s.free := rfl
@[simp] theorem State.modCtx_agenda (s : State) (x : Nat) (f : Ctx → Ctx) : (s.modCtx x f).agenda = s.agenda := rfl
@[simp] theorem State.modCtx_cur (s : State) (x : Nat) (f : Ctx → Ctx) : (s.modCtx x f).cur = s.cur := rfl

/-! ## modGrid -/

@[simp] theorem State.modGrid_mem (s : State) (i : Nat) (f : Grid → Grid) : (s.modGrid i f).mem = s.mem := rfl
@[simp] theorem State.modGrid_pad (s : State) (i : Nat) (f : Grid → Grid) : (s.modGrid i f).pad = s.pad := rfl
@[simp] theorem State.modGrid_padCnt (s : State) (i : Nat) (f : Grid → Grid) : (s.modGrid i f).padCnt = s.padCnt := rfl
@[simp] theorem State.modGrid_bar0 (s : State) (i : Nat) (f : Grid → Grid) : (s.modGrid i f).bar0 = s.bar0 := rfl
@[simp] theorem State.modGrid_ctxs (s : State) (i : Nat) (f : Grid → Grid) : (s.modGrid i f).ctxs = s.ctxs := rfl
@[simp] theorem State.modGrid_cores (s : State) (i : Nat) (f : Grid → Grid) : (s.modGrid i f).cores = s.cores := rfl
@[simp] theorem State.modGrid_dies (s : State) (i : Nat) (f : Grid → Grid) : (s.modGrid i f).dies = s.dies := rfl
@[simp] theorem State.modGrid_teams (s : State) (i : Nat) (f : Grid → Grid) : (s.modGrid i f).teams = s.teams := rfl
@[simp] theorem State.modGrid_saved (s : State) (i : Nat) (f : Grid → Grid) : (s.modGrid i f).saved = s.saved := rfl
@[simp] theorem State.modGrid_grids (s : State) (i : Nat) (f : Grid → Grid) : (s.modGrid i f).grids = s.grids.map (fun g => if g.gid = i then f g else g) := rfl
@[simp] theorem State.modGrid_started (s : State) (i : Nat) (f : Grid → Grid) : (s.modGrid i f).started = s.started := rfl
@[simp] theorem State.modGrid_tasks (s : State) (i : Nat) (f : Grid → Grid) : (s.modGrid i f).tasks = s.tasks := rfl
@[simp] theorem State.modGrid_nextId (s : State) (i : Nat) (f : Grid → Grid) : (s.modGrid i f).nextId = s.nextId := rfl
@[simp] theorem State.modGrid_lastDie (s : State) (i : Nat) (f : Grid → Grid) : (s.modGrid i f).lastDie = s.lastDie := rfl
@[simp] theorem State.modGrid_lastCtx (s : State) (i : Nat) (f : Grid → Grid) : (s.modGrid i f).lastCtx = s.lastCtx := rfl
@[simp] theorem State.modGrid_part (s : State) (i : Nat) (f : Grid → Grid) : (s.modGrid i f).part = s.part := rfl
@[simp] theorem State.modGrid_sites (s : State) (i : Nat) (f : Grid → Grid) : (s.modGrid i f).sites = s.sites := rfl
@[simp] theorem State.modGrid_unavail (s : State) (i : Nat) (f : Grid → Grid) : (s.modGrid i f).unavail = s.unavail := rfl
@[simp] theorem State.modGrid_badSites (s : State) (i : Nat) (f : Grid → Grid) : (s.modGrid i f).badSites = s.badSites := rfl
@[simp] theorem State.modGrid_rowFuses (s : State) (i : Nat) (f : Grid → Grid) : (s.modGrid i f).rowFuses = s.rowFuses := rfl
@[simp] theorem State.modGrid_laneSpares (s : State) (i : Nat) (f : Grid → Grid) : (s.modGrid i f).laneSpares = s.laneSpares := rfl
@[simp] theorem State.modGrid_irqs (s : State) (i : Nat) (f : Grid → Grid) : (s.modGrid i f).irqs = s.irqs := rfl
@[simp] theorem State.modGrid_ports (s : State) (i : Nat) (f : Grid → Grid) : (s.modGrid i f).ports = s.ports := rfl
@[simp] theorem State.modGrid_readers (s : State) (i : Nat) (f : Grid → Grid) : (s.modGrid i f).readers = s.readers := rfl
@[simp] theorem State.modGrid_ats (s : State) (i : Nat) (f : Grid → Grid) : (s.modGrid i f).ats = s.ats := rfl
@[simp] theorem State.modGrid_reply (s : State) (i : Nat) (f : Grid → Grid) : (s.modGrid i f).reply = s.reply := rfl
@[simp] theorem State.modGrid_trust (s : State) (i : Nat) (f : Grid → Grid) : (s.modGrid i f).trust = s.trust := rfl
@[simp] theorem State.modGrid_lifeA (s : State) (i : Nat) (f : Grid → Grid) : (s.modGrid i f).lifeA = s.lifeA := rfl
@[simp] theorem State.modGrid_lifeB (s : State) (i : Nat) (f : Grid → Grid) : (s.modGrid i f).lifeB = s.lifeB := rfl
@[simp] theorem State.modGrid_live (s : State) (i : Nat) (f : Grid → Grid) : (s.modGrid i f).live = s.live := rfl
@[simp] theorem State.modGrid_lifeAt (s : State) (i : Nat) (f : Grid → Grid) : (s.modGrid i f).lifeAt = s.lifeAt := rfl
@[simp] theorem State.modGrid_mgmt (s : State) (i : Nat) (f : Grid → Grid) : (s.modGrid i f).mgmt = s.mgmt := rfl
@[simp] theorem State.modGrid_coreErrs (s : State) (i : Nat) (f : Grid → Grid) : (s.modGrid i f).coreErrs = s.coreErrs := rfl
@[simp] theorem State.modGrid_atsInv (s : State) (i : Nat) (f : Grid → Grid) : (s.modGrid i f).atsInv = s.atsInv := rfl
@[simp] theorem State.modGrid_qps (s : State) (i : Nat) (f : Grid → Grid) : (s.modGrid i f).qps = s.qps := rfl
@[simp] theorem State.modGrid_claims (s : State) (i : Nat) (f : Grid → Grid) : (s.modGrid i f).claims = s.claims := rfl
@[simp] theorem State.modGrid_powered (s : State) (i : Nat) (f : Grid → Grid) : (s.modGrid i f).powered = s.powered := rfl
@[simp] theorem State.modGrid_free (s : State) (i : Nat) (f : Grid → Grid) : (s.modGrid i f).free = s.free := rfl
@[simp] theorem State.modGrid_agenda (s : State) (i : Nat) (f : Grid → Grid) : (s.modGrid i f).agenda = s.agenda := rfl
@[simp] theorem State.modGrid_cur (s : State) (i : Nat) (f : Grid → Grid) : (s.modGrid i f).cur = s.cur := rfl

/-! ## setBar -/

@[simp] theorem State.setBar_mem (s : State) (o v : Nat) : (s.setBar o v).mem = s.mem := rfl
@[simp] theorem State.setBar_pad (s : State) (o v : Nat) : (s.setBar o v).pad = s.pad := rfl
@[simp] theorem State.setBar_padCnt (s : State) (o v : Nat) : (s.setBar o v).padCnt = s.padCnt := rfl
@[simp] theorem State.setBar_bar0 (s : State) (o v : Nat) : (s.setBar o v).bar0 = SMap.set 0 s.bar0 o (BitVec.ofNat 32 v ^^^ BitVec.ofNat 32 (barReset s.part o)) := rfl
@[simp] theorem State.setBar_ctxs (s : State) (o v : Nat) : (s.setBar o v).ctxs = s.ctxs := rfl
@[simp] theorem State.setBar_cores (s : State) (o v : Nat) : (s.setBar o v).cores = s.cores := rfl
@[simp] theorem State.setBar_dies (s : State) (o v : Nat) : (s.setBar o v).dies = s.dies := rfl
@[simp] theorem State.setBar_teams (s : State) (o v : Nat) : (s.setBar o v).teams = s.teams := rfl
@[simp] theorem State.setBar_saved (s : State) (o v : Nat) : (s.setBar o v).saved = s.saved := rfl
@[simp] theorem State.setBar_grids (s : State) (o v : Nat) : (s.setBar o v).grids = s.grids := rfl
@[simp] theorem State.setBar_started (s : State) (o v : Nat) : (s.setBar o v).started = s.started := rfl
@[simp] theorem State.setBar_tasks (s : State) (o v : Nat) : (s.setBar o v).tasks = s.tasks := rfl
@[simp] theorem State.setBar_nextId (s : State) (o v : Nat) : (s.setBar o v).nextId = s.nextId := rfl
@[simp] theorem State.setBar_lastDie (s : State) (o v : Nat) : (s.setBar o v).lastDie = s.lastDie := rfl
@[simp] theorem State.setBar_lastCtx (s : State) (o v : Nat) : (s.setBar o v).lastCtx = s.lastCtx := rfl
@[simp] theorem State.setBar_part (s : State) (o v : Nat) : (s.setBar o v).part = s.part := rfl
@[simp] theorem State.setBar_sites (s : State) (o v : Nat) : (s.setBar o v).sites = s.sites := rfl
@[simp] theorem State.setBar_unavail (s : State) (o v : Nat) : (s.setBar o v).unavail = s.unavail := rfl
@[simp] theorem State.setBar_badSites (s : State) (o v : Nat) : (s.setBar o v).badSites = s.badSites := rfl
@[simp] theorem State.setBar_rowFuses (s : State) (o v : Nat) : (s.setBar o v).rowFuses = s.rowFuses := rfl
@[simp] theorem State.setBar_laneSpares (s : State) (o v : Nat) : (s.setBar o v).laneSpares = s.laneSpares := rfl
@[simp] theorem State.setBar_irqs (s : State) (o v : Nat) : (s.setBar o v).irqs = s.irqs := rfl
@[simp] theorem State.setBar_ports (s : State) (o v : Nat) : (s.setBar o v).ports = s.ports := rfl
@[simp] theorem State.setBar_readers (s : State) (o v : Nat) : (s.setBar o v).readers = s.readers := rfl
@[simp] theorem State.setBar_ats (s : State) (o v : Nat) : (s.setBar o v).ats = s.ats := rfl
@[simp] theorem State.setBar_reply (s : State) (o v : Nat) : (s.setBar o v).reply = s.reply := rfl
@[simp] theorem State.setBar_trust (s : State) (o v : Nat) : (s.setBar o v).trust = s.trust := rfl
@[simp] theorem State.setBar_lifeA (s : State) (o v : Nat) : (s.setBar o v).lifeA = s.lifeA := rfl
@[simp] theorem State.setBar_lifeB (s : State) (o v : Nat) : (s.setBar o v).lifeB = s.lifeB := rfl
@[simp] theorem State.setBar_live (s : State) (o v : Nat) : (s.setBar o v).live = s.live := rfl
@[simp] theorem State.setBar_lifeAt (s : State) (o v : Nat) : (s.setBar o v).lifeAt = s.lifeAt := rfl
@[simp] theorem State.setBar_mgmt (s : State) (o v : Nat) : (s.setBar o v).mgmt = s.mgmt := rfl
@[simp] theorem State.setBar_coreErrs (s : State) (o v : Nat) : (s.setBar o v).coreErrs = s.coreErrs := rfl
@[simp] theorem State.setBar_atsInv (s : State) (o v : Nat) : (s.setBar o v).atsInv = s.atsInv := rfl
@[simp] theorem State.setBar_qps (s : State) (o v : Nat) : (s.setBar o v).qps = s.qps := rfl
@[simp] theorem State.setBar_claims (s : State) (o v : Nat) : (s.setBar o v).claims = s.claims := rfl
@[simp] theorem State.setBar_powered (s : State) (o v : Nat) : (s.setBar o v).powered = s.powered := rfl
@[simp] theorem State.setBar_free (s : State) (o v : Nat) : (s.setBar o v).free = s.free := rfl
@[simp] theorem State.setBar_agenda (s : State) (o v : Nat) : (s.setBar o v).agenda = s.agenda := rfl
@[simp] theorem State.setBar_cur (s : State) (o v : Nat) : (s.setBar o v).cur = s.cur := rfl

/-! ## setBar64 -/

@[simp] theorem State.setBar64_mem (s : State) (o v : Nat) : (s.setBar64 o v).mem = s.mem := rfl
@[simp] theorem State.setBar64_pad (s : State) (o v : Nat) : (s.setBar64 o v).pad = s.pad := rfl
@[simp] theorem State.setBar64_padCnt (s : State) (o v : Nat) : (s.setBar64 o v).padCnt = s.padCnt := rfl
@[simp] theorem State.setBar64_ctxs (s : State) (o v : Nat) : (s.setBar64 o v).ctxs = s.ctxs := rfl
@[simp] theorem State.setBar64_cores (s : State) (o v : Nat) : (s.setBar64 o v).cores = s.cores := rfl
@[simp] theorem State.setBar64_dies (s : State) (o v : Nat) : (s.setBar64 o v).dies = s.dies := rfl
@[simp] theorem State.setBar64_teams (s : State) (o v : Nat) : (s.setBar64 o v).teams = s.teams := rfl
@[simp] theorem State.setBar64_saved (s : State) (o v : Nat) : (s.setBar64 o v).saved = s.saved := rfl
@[simp] theorem State.setBar64_grids (s : State) (o v : Nat) : (s.setBar64 o v).grids = s.grids := rfl
@[simp] theorem State.setBar64_started (s : State) (o v : Nat) : (s.setBar64 o v).started = s.started := rfl
@[simp] theorem State.setBar64_tasks (s : State) (o v : Nat) : (s.setBar64 o v).tasks = s.tasks := rfl
@[simp] theorem State.setBar64_nextId (s : State) (o v : Nat) : (s.setBar64 o v).nextId = s.nextId := rfl
@[simp] theorem State.setBar64_lastDie (s : State) (o v : Nat) : (s.setBar64 o v).lastDie = s.lastDie := rfl
@[simp] theorem State.setBar64_lastCtx (s : State) (o v : Nat) : (s.setBar64 o v).lastCtx = s.lastCtx := rfl
@[simp] theorem State.setBar64_part (s : State) (o v : Nat) : (s.setBar64 o v).part = s.part := rfl
@[simp] theorem State.setBar64_sites (s : State) (o v : Nat) : (s.setBar64 o v).sites = s.sites := rfl
@[simp] theorem State.setBar64_unavail (s : State) (o v : Nat) : (s.setBar64 o v).unavail = s.unavail := rfl
@[simp] theorem State.setBar64_badSites (s : State) (o v : Nat) : (s.setBar64 o v).badSites = s.badSites := rfl
@[simp] theorem State.setBar64_rowFuses (s : State) (o v : Nat) : (s.setBar64 o v).rowFuses = s.rowFuses := rfl
@[simp] theorem State.setBar64_laneSpares (s : State) (o v : Nat) : (s.setBar64 o v).laneSpares = s.laneSpares := rfl
@[simp] theorem State.setBar64_irqs (s : State) (o v : Nat) : (s.setBar64 o v).irqs = s.irqs := rfl
@[simp] theorem State.setBar64_ports (s : State) (o v : Nat) : (s.setBar64 o v).ports = s.ports := rfl
@[simp] theorem State.setBar64_readers (s : State) (o v : Nat) : (s.setBar64 o v).readers = s.readers := rfl
@[simp] theorem State.setBar64_ats (s : State) (o v : Nat) : (s.setBar64 o v).ats = s.ats := rfl
@[simp] theorem State.setBar64_reply (s : State) (o v : Nat) : (s.setBar64 o v).reply = s.reply := rfl
@[simp] theorem State.setBar64_trust (s : State) (o v : Nat) : (s.setBar64 o v).trust = s.trust := rfl
@[simp] theorem State.setBar64_lifeA (s : State) (o v : Nat) : (s.setBar64 o v).lifeA = s.lifeA := rfl
@[simp] theorem State.setBar64_lifeB (s : State) (o v : Nat) : (s.setBar64 o v).lifeB = s.lifeB := rfl
@[simp] theorem State.setBar64_live (s : State) (o v : Nat) : (s.setBar64 o v).live = s.live := rfl
@[simp] theorem State.setBar64_lifeAt (s : State) (o v : Nat) : (s.setBar64 o v).lifeAt = s.lifeAt := rfl
@[simp] theorem State.setBar64_mgmt (s : State) (o v : Nat) : (s.setBar64 o v).mgmt = s.mgmt := rfl
@[simp] theorem State.setBar64_coreErrs (s : State) (o v : Nat) : (s.setBar64 o v).coreErrs = s.coreErrs := rfl
@[simp] theorem State.setBar64_atsInv (s : State) (o v : Nat) : (s.setBar64 o v).atsInv = s.atsInv := rfl
@[simp] theorem State.setBar64_qps (s : State) (o v : Nat) : (s.setBar64 o v).qps = s.qps := rfl
@[simp] theorem State.setBar64_claims (s : State) (o v : Nat) : (s.setBar64 o v).claims = s.claims := rfl
@[simp] theorem State.setBar64_powered (s : State) (o v : Nat) : (s.setBar64 o v).powered = s.powered := rfl
@[simp] theorem State.setBar64_free (s : State) (o v : Nat) : (s.setBar64 o v).free = s.free := rfl
@[simp] theorem State.setBar64_agenda (s : State) (o v : Nat) : (s.setBar64 o v).agenda = s.agenda := rfl
@[simp] theorem State.setBar64_cur (s : State) (o v : Nat) : (s.setBar64 o v).cur = s.cur := rfl

/-! ## irq -/

@[simp] theorem State.irq_mem (s : State) (v : Nat) : (s.irq v).mem = s.mem := rfl
@[simp] theorem State.irq_pad (s : State) (v : Nat) : (s.irq v).pad = s.pad := rfl
@[simp] theorem State.irq_padCnt (s : State) (v : Nat) : (s.irq v).padCnt = s.padCnt := rfl
@[simp] theorem State.irq_bar0 (s : State) (v : Nat) : (s.irq v).bar0 = s.bar0 := rfl
@[simp] theorem State.irq_ctxs (s : State) (v : Nat) : (s.irq v).ctxs = s.ctxs := rfl
@[simp] theorem State.irq_cores (s : State) (v : Nat) : (s.irq v).cores = s.cores := rfl
@[simp] theorem State.irq_dies (s : State) (v : Nat) : (s.irq v).dies = s.dies := rfl
@[simp] theorem State.irq_teams (s : State) (v : Nat) : (s.irq v).teams = s.teams := rfl
@[simp] theorem State.irq_saved (s : State) (v : Nat) : (s.irq v).saved = s.saved := rfl
@[simp] theorem State.irq_grids (s : State) (v : Nat) : (s.irq v).grids = s.grids := rfl
@[simp] theorem State.irq_started (s : State) (v : Nat) : (s.irq v).started = s.started := rfl
@[simp] theorem State.irq_tasks (s : State) (v : Nat) : (s.irq v).tasks = s.tasks := rfl
@[simp] theorem State.irq_nextId (s : State) (v : Nat) : (s.irq v).nextId = s.nextId := rfl
@[simp] theorem State.irq_lastDie (s : State) (v : Nat) : (s.irq v).lastDie = s.lastDie := rfl
@[simp] theorem State.irq_lastCtx (s : State) (v : Nat) : (s.irq v).lastCtx = s.lastCtx := rfl
@[simp] theorem State.irq_part (s : State) (v : Nat) : (s.irq v).part = s.part := rfl
@[simp] theorem State.irq_sites (s : State) (v : Nat) : (s.irq v).sites = s.sites := rfl
@[simp] theorem State.irq_unavail (s : State) (v : Nat) : (s.irq v).unavail = s.unavail := rfl
@[simp] theorem State.irq_badSites (s : State) (v : Nat) : (s.irq v).badSites = s.badSites := rfl
@[simp] theorem State.irq_rowFuses (s : State) (v : Nat) : (s.irq v).rowFuses = s.rowFuses := rfl
@[simp] theorem State.irq_laneSpares (s : State) (v : Nat) : (s.irq v).laneSpares = s.laneSpares := rfl
@[simp] theorem State.irq_irqs (s : State) (v : Nat) : (s.irq v).irqs = s.irqs ++ [v] := rfl
@[simp] theorem State.irq_ports (s : State) (v : Nat) : (s.irq v).ports = s.ports := rfl
@[simp] theorem State.irq_readers (s : State) (v : Nat) : (s.irq v).readers = s.readers := rfl
@[simp] theorem State.irq_ats (s : State) (v : Nat) : (s.irq v).ats = s.ats := rfl
@[simp] theorem State.irq_reply (s : State) (v : Nat) : (s.irq v).reply = s.reply := rfl
@[simp] theorem State.irq_trust (s : State) (v : Nat) : (s.irq v).trust = s.trust := rfl
@[simp] theorem State.irq_lifeA (s : State) (v : Nat) : (s.irq v).lifeA = s.lifeA := rfl
@[simp] theorem State.irq_lifeB (s : State) (v : Nat) : (s.irq v).lifeB = s.lifeB := rfl
@[simp] theorem State.irq_live (s : State) (v : Nat) : (s.irq v).live = s.live := rfl
@[simp] theorem State.irq_lifeAt (s : State) (v : Nat) : (s.irq v).lifeAt = s.lifeAt := rfl
@[simp] theorem State.irq_mgmt (s : State) (v : Nat) : (s.irq v).mgmt = s.mgmt := rfl
@[simp] theorem State.irq_coreErrs (s : State) (v : Nat) : (s.irq v).coreErrs = s.coreErrs := rfl
@[simp] theorem State.irq_atsInv (s : State) (v : Nat) : (s.irq v).atsInv = s.atsInv := rfl
@[simp] theorem State.irq_qps (s : State) (v : Nat) : (s.irq v).qps = s.qps := rfl
@[simp] theorem State.irq_claims (s : State) (v : Nat) : (s.irq v).claims = s.claims := rfl
@[simp] theorem State.irq_powered (s : State) (v : Nat) : (s.irq v).powered = s.powered := rfl
@[simp] theorem State.irq_free (s : State) (v : Nat) : (s.irq v).free = s.free := rfl
@[simp] theorem State.irq_agenda (s : State) (v : Nat) : (s.irq v).agenda = s.agenda := rfl
@[simp] theorem State.irq_cur (s : State) (v : Nat) : (s.irq v).cur = s.cur := rfl

/-! ## Registers of a group -/

@[simp] theorem Group.wv_g (g : Group) (l r : Nat) (x : Word) : (g.wv l r x).g = g.g := rfl
@[simp] theorem Group.wv_p (g : Group) (l r : Nat) (x : Word) : (g.wv l r x).p = g.p := rfl
@[simp] theorem Group.wv_lanes (g : Group) (l r : Nat) (x : Word) : (g.wv l r x).lanes = g.lanes := rfl
@[simp] theorem Group.wg_v (g : Group) (r : Nat) (x : Word) : (g.wg r x).v = g.v := by unfold Group.wg; split <;> rfl
@[simp] theorem Group.wg_p (g : Group) (r : Nat) (x : Word) : (g.wg r x).p = g.p := by unfold Group.wg; split <;> rfl
@[simp] theorem Group.wg_lanes (g : Group) (r : Nat) (x : Word) : (g.wg r x).lanes = g.lanes := by unfold Group.wg; split <;> rfl
@[simp] theorem Group.wp_v (g : Group) (l p : Nat) (b : Bool) : (g.wp l p b).v = g.v := by unfold Group.wp; split <;> rfl
@[simp] theorem Group.wp_g (g : Group) (l p : Nat) (b : Bool) : (g.wp l p b).g = g.g := by unfold Group.wp; split <;> rfl
@[simp] theorem Group.wp_lanes (g : Group) (l p : Nat) (b : Bool) : (g.wp l p b).lanes = g.lanes := by unfold Group.wp; split <;> rfl
@[simp] theorem Group.modLane_v (g : Group) (l : Nat) (f : Lane → Lane) : (g.modLane l f).v = g.v := rfl
@[simp] theorem Group.modLane_g (g : Group) (l : Nat) (f : Lane → Lane) : (g.modLane l f).g = g.g := rfl
@[simp] theorem Group.modLane_p (g : Group) (l : Nat) (f : Lane → Lane) : (g.modLane l f).p = g.p := rfl
@[simp] theorem Group.modLanes_v (g : Group) (m : Mask) (f : Lane → Lane) : (g.modLanes m f).v = g.v := rfl
@[simp] theorem Group.modLanes_g (g : Group) (m : Mask) (f : Lane → Lane) : (g.modLanes m f).g = g.g := rfl
@[simp] theorem Group.modLanes_p (g : Group) (m : Mask) (f : Lane → Lane) : (g.modLanes m f).p = g.p := rfl
@[simp] theorem Group.rg_zero (g : Group) : g.rg 0 = 0 := rfl
@[simp] theorem Group.wg_zero (g : Group) (x : Word) : g.wg 0 x = g := rfl
@[simp] theorem Group.rp_seven (g : Group) (l : Nat) : g.rp l 7 = true := rfl

end Sys2Proof.Machine
end

