-- ==== Sys2Proof/Tests/Slice0.lean ====
section
/-! SUPPORT. Small tests: ill-formed terms, words of the spec, a state that meets the hypotheses of every statement, and worked
values of the spec. -/
namespace Sys2Proof.Tests
set_option Elab.async false
open Sys2Proof Machine

/-! ## A small state -/

/-- Heads at lane, group and set scope, and the guard that is always true. -/
def hl : Head := ⟨false, .lane⟩
def hg : Head := ⟨false, .group⟩
def hs : Head := ⟨false, .set⟩
def pt : Guard := ⟨false, 7⟩
/-- The launch of the small team: so many groups, a set code (with 16 span registers where it is not 0), and its mode. -/
def demoLaunch (groups setcode : Nat) (bridle : Bool) : Launch :=
  { oneLaunch with
    bridle := bridle
    hdr := { oneLaunch.hdr with groups := groups, setcode := setcode, spans := if setcode = 0 then 0 else 16, bridle := bridle
                                roles := List.replicate groups 0, chans := [⟨1, 4, 4⟩] } }
/-- A writable page at address 0, seen by every package. -/
def demoPage : TlbEnt := { onePage with vbase := 0, size := 0x10000, pbase := 0, shr := .pkg, ro := false, nx := true, pte := 0x30000 }
/-- One team with identity 0 on core 0, every lane of every group at one address, the page at 0 in the core's TLB, context 0
enabled and privileged, and a pad share of one step. -/
def demoOf (la : Launch) : State :=
  (({ State.reset.launchOne [] with
      cores := [(0, { Core.empty with tlb := [onePage, demoPage] })]
      teams := [Team.start 0 0 0 0 1 1 1 1 1 la ⟨0, 0, 0, [(0, 0)]⟩ 0 (List.range la.hdr.groups) 0 64 0xFFFFFFFF] } : State).setBar
    (ctxOff 0 0x2C) (2 ^ 26 + 2 ^ 27)).setBar (partOff 0 0 0x38) (2 ^ 14 + 2 ^ 8)
/-- The issue of the first group's lanes at their address. -/
def issuing (s : State) : State := { s with cur := some ⟨0, 0, 0xFFFFFFFF, 64⟩ }
/-- A team of one group, of two groups that make a set, and of one group in bridle mode, about to perform. -/
def demo : State := issuing (demoOf (demoLaunch 1 0 false))
def demoSet : State :=
  let s := demoOf (demoLaunch 2 1 false)
  issuing (s.modGroup 0 1 (fun g => { g with lanes := g.lanes.map (fun l => { l with st := .arrived 0xFFFFFFFF .set }) }))
def demoBridle : State := issuing (demoOf (demoLaunch 1 0 true))
/-- The small team with an edit of its group or of itself. -/
def inGroup (f : Group → Group) (s : State) : State := s.modGroup 0 0 f
def inTeam (f : Team → Team) (s : State) : State := s.modTeam 0 f
/-- Nothing stands before the instruction, and what is asked of the issue holds. -/
def met (p : Option (State × Site × Team)) (c : State → Site → Team → Bool) : Bool :=
  match p with
  | some (s, x, t) => c s x t
  | none => false
def performs (s : State) (i : Instr) : Bool := met (s.performing i) (fun _ _ _ => true)
/-- What an outcome that is a next state satisfies. -/
def next (o : Host.Outcome State Fault Refusal) (c : State → Bool) : Bool :=
  match o with
  | .next s => c s
  | .fault _ => false
  | .refused _ => false

/-! ## Witnesses for the statements about instructions -/

theorem test_logic_and_shift_perform : [Instr.andLr hl false 1 2 3, .andLi hl false 1 2 3, .andXi hl false pt 1 2 3 .i32, .andn hl false pt 1 2 3,
    .orLr hl false 1 2 3, .orLi hl false 1 2 3, .orXi hl false pt 1 2 3 .i32, .xorLr hl false 1 2 3, .xorLi hl false 1 2 3,
    .xorXi hl false pt 1 2 3 .n32, .shlLr hl false 1 2 3, .shlLi hl false 1 2 3, .shlXi hl false pt 1 2 3 .i32, .shrLr hl false 1 2 3,
    .shrLi hl false 1 2 3, .shrXi hl false pt 1 2 3 .i32, .shraLr hl false 1 2 3, .shraLi hl true 1 2 3, .shraXi hl true pt 1 2 3 .i32].all
    (performs demo) = true := by decide +kernel
theorem test_arithmetic_performs : [Instr.iaddLr hl false 1 2 3, .iaddLi hl false 1 2 3, .iaddXi hl false pt 1 2 3 .i16 true, .isubLr hl false 1 2 3,
    .isubXi hl false pt 1 2 3 .n16 true, .imulLr hl false 1 2 3, .imulXi hl false pt 1 2 3 .n32, .iminLr hl false 1 2 3,
    .iminXi hl false pt 1 2 3 .i32, .imaxLr hl false 1 2 3, .imaxXi hl false pt 1 2 3 .n16].all (performs demo) = true := by decide +kernel
theorem test_wide_arithmetic_performs : [Instr.imulh hl false pt 1 2 3 .i32, .imulh hl false pt 1 2 3 .n32, .imad hl false pt 1 2 3 4 .i32,
    .imadw hl false pt 2 4 5 6 .n32, .imadw hl false pt 2 4 5 6 .i32, .idp4 hl false pt 1 2 3 4 .i8, .iaddx hl false pt 1 2 3 7 0,
    .iabs hl false pt 1 2 true, .lea hl false pt 2 4 5 .n32 3, .lea hl false pt 2 4 5 .i32 15].all (performs demo) = true := by decide +kernel
theorem test_compare_select_move_perform : [Instr.icmpLc hl false 1 2 3 9, .icmpXi hl false pt 1 2 4 .i64 0, .isel hl false pt 1 2 3 true 4,
    .movLr hl false 1 2, .movXi hl false pt 1 2 .n32, .movg hl false 1 2, .movi hl false 1 0xFFFFFFFF, .plop hl false pt 1 2 3 6 true].all
    (performs demo) = true := by decide +kernel
theorem test_bit_functions_perform : [Instr.bfx hl false pt 1 2 3 .i32, .bfi hl false pt 1 2 3 4, .brev hl false pt 1 2, .clz hl false pt 1 2,
    .popc hl false pt 1 2, .fshf hl false pt 1 2 3 4 true, .pswz hl false pt 1 2 3 4].all (performs demo) = true := by decide +kernel

/-- The floating-point instructions perform with operands that raise no enabled flag: none is enabled. -/
def noTrap (s : State) (i : Instr) (f : Group → Nat → List Wr × Flags) : Bool :=
  met (s.performing i) (fun s1 x t => (fpxLanes s1 x.tid (laneRes t x (fun _ g l => f g l))).isEmpty)
theorem test_float_performs : [Instr.faddLr hl false 1 2 3, .faddXf hl false pt 1 2 3 3, .fmulLr hl false 1 2 3, .fmulXf hl false pt 1 2 3 1,
    .ffma hl false pt 1 2 3 4 0, .fminLr hl false 1 2 3, .fminXf hl false pt 1 2 3, .fmaxLr hl false 1 2 3, .fmaxXf hl false pt 1 2 3,
    .frnd hl false pt 1 2 2, .hadd2 hl false pt 1 2 3 .f16 0, .hmul2 hl false pt 1 2 3 .bf16 1, .hfma2 hl false pt 1 2 3 4 .f16 3].all
    (fun i => noTrap demo i (fun _ _ => ([], fNV ||| fDZ))) = true := by decide +kernel
theorem test_special_functions_perform : [Instr.frcp hl false pt 1 2, .frsq hl false pt 1 2, .fsqrt hl false pt 1 2, .fex2 hl false pt 1 2,
    .flg2 hl false pt 1 2, .fsin hl false pt 1 2, .fcos hl false pt 1 2, .fcmpLc hl false 1 2 3 10, .fcmpXf hl false pt 1 2 3 .f32 15,
    .fcmpXf hl false pt 1 2 3 .f16 12, .fcmpXf hl false pt 1 2 3 .bf16 13].all (fun i => noTrap demo i (fun _ _ => ([], fDZ))) = true := by decide +kernel
theorem test_nan_and_numbers : [fmtF32, fmtF16, fmtBF16].all (fun f => (f.val f.qnan).isNan && (f.val (f.qnan + 1)).isNan &&
    !(f.val 0).isNan && !(f.val f.signBit).isNan && decide (f.signBit < 2 ^ f.bits)) = true := by decide +kernel
theorem test_float_values : (fmtF32.val 0x7F800001).isNan = true ∧ (fmtF32.val 0x00000001).isNan = false ∧
    (∀ neg, fmtF32.val 0x00000001 = .inf neg → true = false) := by
  refine ⟨by decide +kernel, by decide +kernel, fun neg h => ?_⟩
  have : fmtF32.val 0x00000001 ≠ .inf neg := by cases neg <;> decide +kernel
  exact absurd h this
theorem test_conversion_optimiser_ray_perform : [Instr.cvt hl false pt 2 4 .i64 0 .f32 false, .cvt hl false pt 1 2 .f16 4 .f32 true,
    .cvtp hl false pt 1 2 3 .f16 0 false, .cvtx hl false pt 1 2 3 .e4m3 4 .f32 true, .dqmx hl pt 16 4 1 .e4m3 0 .f16, .mzro hl pt 8,
    .oadm hl pt 2 4 1 0, .osgd hl pt 2 4 1 0, .rxbox hl pt 2 8 16 0, .rxtri hl pt 4 8 16 0].all
    (fun i => noTrap demo i (fun _ _ => ([], fNV))) = true := by decide +kernel
theorem test_uniform_and_special_perform : [Instr.uadd hg 1 2 3, .usub hg 1 2 3, .umul hg 1 2 3, .uand hg 1 2 3, .uor hg 1 2 3, .uxor hg 1 2 3,
    .ushl hg 1 2 3, .ushr hg 1 2 3 false, .ushr hg 1 2 3 true, .ucmp hg 1 2 3 5, .umov hg 1 2, .umovi hg 1 7, .umovv hg 1 2, .usel hg 1 2 3,
    .clk hg 2, .time hg 2, .movs hl false 1 64, .sets hg 15 2].all (fun i => met (demo.performing i) (fun _ x t =>
      (t.groups[x.gi]?).isSome && decide (x.members ≠ []))) = true := by decide +kernel
theorem test_clk_time_in_bridle_mode : [Instr.clk hg 2, .time hg 2].all (performs demoBridle) = true := by decide +kernel
theorem test_collectives_perform : [Instr.shfl hg pt 1 2 3 0 false 3 false, .vote hl pt 1 2 0 false 0 false, .vote hl pt 1 2 0 false 1 true,
    .vote hl pt 1 2 0 false 2 true, .matchLanes hl pt 1 2 0 false .i32, .matchLanes hg pt 1 2 0 false .i64, .gred hg pt 1 2 0 false 5 .i32 false,
    .gscan hg pt 1 2 0 false 2 .f32, .gargx hg pt 1 2 0 false 1].all (performs demo) = true := by decide +kernel
theorem test_set_collectives_perform : [Instr.shfl hs pt 1 2 3 0 false 1 true, .gred hs pt 1 2 0 false 0 .n32 true, .gargx hs pt 1 2 0 false 0,
    .mma hs pt 8 16 1 24 .f16, .mld hs pt 0 4 .f16 1].all (performs demoSet) = true := by decide +kernel
theorem test_branches_perform : [Instr.bra hl 0, .braGuarded hl pt 15, .brx hl 1, .brxGuarded hl pt 1, .call hl 1, .callGuarded hl pt 0x1FFFFF,
    .calx hl 1, .calxGuarded hl pt 1].all (fun i => met (demo.performing i) (fun _ x t => x.lanes.all (fun q => match t.groups[q.1]? with
      | some g => decide (targetChk t.la (x.pc + 0) = .ok) && decide (targetChk t.la (g.rv q.2 1).toNat = .ok) && decide ((g.lane q.2).depth < t.la.hdr.depth)
      | none => true))) = true := by decide +kernel
theorem test_targets : targetChk (demoLaunch 1 0 false) 2 = .fault tALIGN 2 ∧ targetChk (demoLaunch 1 0 false) (-4) = .fault tBOUNDS 0xFFFFFFFC ∧
    targetChk (demoLaunch 1 0 false) 128 = .fault tBOUNDS 128 ∧ targetChk (demoLaunch 1 0 false) 0 = .ok ∧
    targetChk (demoLaunch 1 0 false) 124 = .ok := by decide +kernel
/-- The lanes are one call deep; the return address in the top register is 0. -/
def deep : State := inGroup (fun g => { g with lanes := g.lanes.map (fun l => { l with depth := 1 }) }) demo
theorem test_return_performs : met (deep.performing (.ret hl)) (fun _ x t => x.lanes.all (fun q => match t.groups[q.1]? with
    | some g => decide ((g.lane q.2).depth ≠ 0) && decide (targetChk t.la (retAddr t.la.hdr g q.2) = .ok)
    | none => true)) = true := by decide +kernel
theorem test_control_performs : [Instr.exit hl, .nop hl, .yld hl, .yld hg, .isync hg, .ubra hg 1 false 4, .ubra hg 0 true 0xFFFFFFF0, .uloop hg 1 0xFFFFFFFC].all
    (fun i => met (demo.performing i) (fun _ x t => (t.groups[x.gi]?).isSome)) = true := by decide +kernel
theorem test_traps_perform : [Instr.trap hl 0xFFFF, .bpt hl].all (performs demo) = true := by decide +kernel

/-- The accesses of an instruction's participants at address 0 pass. -/
def accesses (sp : Space) (n : Nat) (w r : Bool) (i : Instr) : Bool :=
  met (demo.performing i) (fun s x _ => decide (x.lanes ≠ []) && x.lanes.all (fun q => laneAcc sp n w r (fun _ _ => 0) s x q.1 q.2 == .ok) &&
    (x.lead true).lanes.all (fun q => laneAcc sp n w r (fun _ _ => 0) s (x.lead true) q.1 q.2 == .ok))
theorem test_loads_perform : [(Instr.ldg hl false pt 4 2 4 1 3 0, Space.global, 16), (.ldg hl true pt 1 2 2 0 0 0, .global, 4), (.ldsLm hl false 1 2 0, .shared, 4),
    (.ldpLm hl false 1 2 0, .pad, 4), (.ldkLm hl false 1 2 0, .stack, 4), (.ldsXm hl false pt 2 4 3 0, .shared, 8), (.ldpXm hl false pt 1 4 5 1 0, .pad, 1),
    (.ldkXm hl false pt 1 4 6 2 0, .stack, 2)].all (fun p => accesses p.2.1 p.2.2 false true p.1) = true := by decide +kernel
theorem test_stores_perform : [(Instr.stg hl pt 4 2 4 1 3 0, Space.global, 16), (.stsLm hl 1 2 0, .shared, 4), (.stpLm hl 1 2 0, .pad, 4),
    (.stkLm hl 1 2 0, .stack, 4), (.stsXm hl pt 2 4 3 0, .shared, 8), (.stpXm hl pt 1 4 0 1 0, .pad, 1), (.stkXm hl pt 1 4 1 2 0, .stack, 2)].all
    (fun p => accesses p.2.1 p.2.2 true false p.1) = true := by decide +kernel
theorem test_uniform_accesses_perform :
    [(Instr.uldShared hg 1 2 3, Space.shared, false), (.uldPad hg 1 2 3, .pad, false), (.uldGlobal hg 1 2 3, .global, false),
     (.ustShared hg 1 2 3, .shared, true), (.ustPad hg 1 2 3, .pad, true), (.ustGlobal hg 1 2 3, .global, true)].all
    (fun p => met (demo.performing p.1) (fun s x t => (t.groups[x.gi]?).isSome && decide (uniPre p.2.1 p.2.2 (fun _ => 0) s x = .go))) = true := by decide +kernel
theorem test_reserved_accesses_perform :
    met (demo.atPoint (.ldr hl pt 1 2 2 1 0)) (fun s x _ => !anyOwn .global 4 (globalAddr 2 0) s x &&
      x.lanes.all (fun q => ldrChk 4 (globalAddr 2 0) s x q.1 q.2 == .ok)) = true ∧
    met (demo.atPoint (.stc hl pt 1 2 2 1 3)) (fun s x _ => !anyOwn .global 4 (globalAddr 2 0) s x && !pointWait true s x &&
      x.lanes.all (fun q => ownAcc .global 4 false (globalAddr 2 0) s x q.1 q.2 == .ok)) = true := by decide +kernel
theorem test_prefetch_performs : performs demo (.pfg hl pt 2 0 0) = true := by decide +kernel
theorem test_atomics_perform : [(Instr.atomg hl pt 4 2 6 8 7 false 3 .i64, Space.global, 8), (.atoms hl pt 1 2 3 0 0 false 0 .n32, .shared, 4),
    (.atomp hl pt 1 2 3 0 10 false 0 .f32, .pad, 4), (.redg hl pt 2 3 0 11 true 2 .f16, .global, 2), (.reds hl pt 2 3 0 13 false 0 .n32, .shared, 4),
    (.redp hl pt 2 3 0 5 false 2 .n32, .pad, 4)].all (fun p => met (demo.atPoint p.1) (fun s x t => !t.la.bridle && !pointWait true s x &&
      x.lanes.all (fun q => laneAcc p.2.1 p.2.2 true true (fun _ _ => 0) s x q.1 q.2 == .ok))) = true := by decide +kernel
theorem test_barriers_perform : [Instr.bar hg 31 true 5 false, .bara hl 0 true 5, .bara hg 0 false 0, .barw hl 3, .phw hl 3 true, .phw hl 3 false, .phf hg 3].all
    (fun i => met ((inGroup (fun g => g.wg 5 1024) demo).performing i) (fun s x t => !t.la.bridle && x.mem.all (fun p => match s.group? x.tid p.1 with
      | some g => decide (1 ≤ (g.rg 5).toNat ∧ (g.rg 5).toNat ≤ 1024)
      | none => true))) = true := by decide +kernel
theorem test_barrier_counts : met (demo.performing (.bar hg 0 false 0 false)) (fun s x _ => match s.team? x.tid with
    | some t => !t.la.bridle && x.part.all (fun p => decide (p.2 ≠ 0) && match t.groups[p.1]? with
      | some g => p.2 &&& g.counted ((t.bars[0]?).getD ⟨false, false, 0, 0, 0⟩) 0 p.1 == 0
      | none => true)
    | none => false) = true := by decide +kernel
/-- The team at hand and a barrier: latched and full, with every lane counted, and with some lane not counted. -/
theorem test_barrier_completion : met (demo.performing (.nop hl)) (fun _ _ t =>
    (⟨false, true, 32, 32, 0⟩ : Barrier).complete t && (⟨true, false, 0, 32, 2 ^ 32 - 1⟩ : Barrier).complete t &&
    !(⟨false, true, 32, 31, 2 ^ 31 - 1⟩ : Barrier).complete t && !(⟨false, false, 0, 31, 2 ^ 31 - 1⟩ : Barrier).complete t &&
    ((⟨false, true, 5, 1, 1⟩ : Barrier).count 0 2 (some 5)).isSome && ((⟨false, true, 5, 1, 1⟩ : Barrier).count 0 2 (some 6)).isNone &&
    ((⟨false, false, 0, 0, 0⟩ : Barrier).count 0 2 (some 1024)).isSome) = true := by decide +kernel
theorem test_fences_perform : [Instr.fenceAcq hl, .fenceRel hg, .fenceFull hl, .fenceX hg].all (performs demo) = true ∧
    [Instr.fenceAcq hs, .fenceRel hs, .fenceFull ⟨false, .team⟩, .fenceX ⟨false, .team⟩].all (fun i => met (demoSet.performing i) (fun _ _ t => !t.la.bridle) ||
      met ((inGroup (fun g => g) (demoSet.modGroup 0 1 (fun g => { g with lanes := g.lanes.map (fun l => { l with st := .arrived 0xFFFFFFFF .team }) }))).performing i)
        (fun _ _ t => !t.la.bridle)) = true := by decide +kernel
theorem test_channels_perform : met (demo.atPoint (.send hg 1 1 0)) (fun s x t => !t.la.bridle &&
      t.la.hdr.chans.any (fun c => c.id == 1 && c.bytes == 4) && !pointWait true s x && (s.sendTo t 1).isSome) = true ∧
    met (demo.performing (.recv hl 1 1 0)) (fun _ _ t => t.la.hdr.chans.any (fun c => c.id == 1 && c.bytes == 4)) = true ∧
    met (demo.performing (.gwait hg)) (fun s _ t => s.predDone t) = true ∧ performs demo (.lnxt hg) = true := by decide +kernel
theorem test_bridle_effects_wait : [Instr.bar hg 0 false 0 true, .bara hg 1 false 0, .barw hl 2, .phw hl 3 true, .phf hg 4, .fenceAcq hl, .fenceRel hg,
    .fenceFull hl, .fenceX hg].all (fun i => met (demoBridle.performing i) (fun _ _ t => t.la.bridle)) = true := by decide +kernel
/-! ## Engines, tickets, tasks and weights -/

/-- A 64-byte card: kind, parameter, descriptor, auxiliary word, and its four regions (space, base, length). -/
def cardOf (kind param desc aux : Nat) (rs : List (Nat × Nat × Nat)) : List Byte :=
  leBytes 4 kind ++ leBytes 4 param ++ leBytes 4 desc ++ leBytes 4 aux ++ rs.flatMap (fun r => leBytes 8 (r.1 * 2 ^ 62 + r.2.1)) ++
  rs.flatMap (fun r => leBytes 4 r.2.2)
/-- No region. -/
def gone : Nat × Nat × Nat := (3, 0, 0)
/-- The descriptors: one row of 16 words for CPYT, and one level for the hash grids, 128 bytes apart. -/
def tileDesc : List Byte := leBytes 8 10 ++ leBytes 4 16 ++ leBytes 84 0 ++ leBytes 32 16
def gridDesc : List Byte := leBytes 8 16 ++ leBytes 8 4
/-- A card of each kind (R223-R231). -/
def cards : List (List Byte) :=
  [cardOf 1 0 0 0 [(0, 0x1000, 64), gone, (1, 0x800, 64), gone],
   cardOf 2 0 0x400 0 [(0, 0x1000, 64), gone, (1, 0x800, 64), gone],
   cardOf 3 4 0 2 [(0, 0x1000, 64), (0, 0x2000, 8), (1, 0x800, 8), gone],
   cardOf 4 0x10004 0 1 [(0, 0x1000, 64), (0, 0x2000, 8), (0, 0x3000, 64), (0, 0x4000, 64)],
   cardOf 5 0 0x480 0 [(0, 0x1000, 8), (0, 0x2000, 64), (1, 0x800, 2), gone],
   cardOf 6 0 0x480 0 [(0, 0x1000, 8), (0, 0x2000, 4), (0, 0x3000, 64), gone],
   cardOf 7 1 0 5 [(0, 0x1000, 64), gone, (0, 0x2000, 64), gone],
   cardOf 8 0 0 0 [(0, 0x1000, 24), gone, (1, 0x800, 32), gone]]
/-- The small team with a card at address 0 and the descriptors in team shared memory. -/
def withCard (bs : List Byte) (s : State) : State :=
  inTeam (fun t => { t with shm := setBytes (setBytes (setBytes t.shm 0 bs) 0x400 tileDesc) 0x480 gridDesc }) s
theorem test_commands_perform : (enum [Instr.cpy hg 1 2 0, .cpyt hg 1 2 0, .cpyg hg 1 2 0, .cpyr hg 1 2 0, .hgf hg 1 2 0, .hgb hg 1 2 0, .ared hg 1 2 0,
    .rast hg 1 2 0]).all (fun p => met ((withCard ((cards[p.1]?).getD []) demo).performing p.2) (fun s x t =>
      decide (cmdPre (p.1 + 1) 2 0 s x = .go) && !t.la.bridle && (t.groups[x.gi]?).isSome && decide (dieOf t.pcore < s.dies.length))) = true := by
  decide +kernel

/-- The small team with commands 3 in slot 0, in flight, and 5 in slot 1, done; the last number is 5. -/
def ticketed : State := inTeam (fun t => { t with
  seq := 5, tickets := ⟨3, true, false, .core, []⟩ :: ⟨5, false, true, .pkg, [(256, 128)]⟩ :: List.replicate 62 ⟨0, false, false, .core, []⟩ }) demo
def ticketIn (x : Nat) : State := inGroup (fun g => g.wg 2 (BitVec.ofNat 32 x)) ticketed
theorem test_tickets_perform :
    (met ((ticketIn 2).performing (.ewt hg 2)) (fun _ x t => (t.groups[x.gi]?).isSome && decide (t.judge 2 = .old)) &&
     met ((ticketIn (2 ^ 26 + 5)).performing (.ewt hg 2)) (fun s _ t => decide (t.judge (2 ^ 26 + 5) = .current ⟨5, false, true, .pkg, [(256, 128)]⟩) && (s.spanStuck t.pcore [(256, 128)]).isNone) &&
     met ((ticketIn 2).performing (.eqry hg 1 2)) (fun _ _ t => decide (t.judge 2 = .old)) &&
     met ((ticketIn 3).performing (.eqry hg 1 2)) (fun _ _ t => decide (t.judge 3 = .current ⟨3, true, false, .core, []⟩)) &&
     met ((ticketIn 3).performing (.nop hl)) (fun _ _ t => decide (t.judge 0 = .bad ∧ t.judge (64 * 2 ^ 26 + 1) = .bad) && decide (t.tickets.length = 64))) = true := by
  decide +kernel
theorem test_no_tickets_yet : met (demo.performing (.nop hl)) (fun _ _ t => decide (t.seq = 0) && t.tickets.all (fun k => k.seq == 0) &&
    decide (t.judge 1 = .bad)) = true := by decide +kernel

/-- A page table at 0x4000 that maps the first gigabyte onto itself, with a task-type table at 0x8000 whose one type is at 0x9040. -/
def mapped (s : State) : State :=
  let m := setBytes (setBytes (setBytes s.mem 0x4000 (leBytes 8 0x5001)) 0x5000 (leBytes 8 0x6001)) 0x6000 (leBytes 8 0x223)
  let m := setBytes (setBytes m 0x8000 (leBytes 8 0x9040 ++ leBytes 8 0)) 0x9000
    (leBytes 4 0x0951A5E1 ++ leBytes 4 0x1010 ++ leBytes 4 0 ++ leBytes 4 0x401 ++ leBytes 32 0 ++ leBytes 4 128 ++ leBytes 12 0)
  ((({ s with mem := m } : State).setBar64 (ctxOff 0 0) 0x4000).setBar64 (taskOff 0 0) 0x8000).setBar (taskOff 0 0x14) 1 |>.setBar (taskOff 0 0x10) 2
/-- Team shared memory holds a record of type 0 with one lane, its entry point at offset 64. -/
def tasked : State := mapped (inTeam (fun t => { t with shm := [(0, 0x40), (8, 1)] }) demo)
theorem test_spawn_performs : met (tasked.atPoint (.tspn hg 1 2 3)) (fun s _ t => decide (s.taskFree t.ctx = 2) && !pointWait true s ⟨.nop hg, 0, 0, 64, 4, [], []⟩) = true ∧
    met ((inGroup (fun g => g.wg 3 1) tasked).atPoint (.tspn hg 1 2 3)) (fun s x t => match t.groups[x.gi]? with
      | some g => decide ((g.rg 3).toNat = 1) && decide ((g.rg 2).toNat + 2176 ≤ t.la.hdr.shared) && decide (t.absentLine 0 2176 = none) &&
          !recordBad (s.shmBytes t g 0 2176) && (match s.taskType t.ctx (fieldAt (s.shmBytes t g 0 2176) 4 4 % 64) with
            | .ok (some _) => true
            | _ => false) && !pointWait true s x && !g.owesShm &&
          (State.poolStop t.ctx (((List.range 1).map (fun i => s.shmBytes t g (2176 * i) 2176)).take (s.taskFree t.ctx)) s).isNone
      | none => false) = true := by decide +kernel
theorem test_suspend_performs : met ((mapped (ticketIn 3)).atPoint (.tsus hg 2 3)) (fun s x t => match t.groups[x.gi]? with
    | some g => decide (t.la.hdr.groups = 1) && g.lanes.all (fun l => decide (l.depth = 0)) &&
        t.suspends (g.rg 2).toNat && (State.poolStop t.ctx [List.replicate 2176 0] s).isNone && (match s.taskType t.ctx (g.rg 3).toNat with
          | .ok (some _) => true
          | _ => false) && !pointWait true s x && decide (s.taskFree t.ctx ≠ 0)
    | none => false) = true := by decide +kernel

/-- A weight descriptor at address 0: current buffer, whether handed, generation, pins. -/
def weighed (cur : Nat) (pins : List Nat) (gen : Nat) : State :=
  { demo with mem := setBytes demo.mem 0 (leBytes 8 0x1000 ++ leBytes 8 0x2000 ++ leBytes 4 cur ++ leBytes 4 gen ++ pins.flatMap (leBytes 4)) }
/-- What a weight instruction must meet. -/
def weighs (s : State) (i : Instr) (rel : Bool) (mv : Group → WDesc → WMove) : Bool :=
  met (s.atPoint i) (fun s x t => match t.groups[x.gi]? with
    | none => false
    | some g => !t.la.bridle && decide (g.rg64 2 % 64 = 0) && (match s.resolve t g x.uniLane .global (g.rg64 2) 4 true with
      | .ok ((l, _) :: _) => (s.tlb t.pcore t.ctx (g.rg64 2)).any (fun e => decide (Dom.pkg.rank ≤ e.shr.rank)) && !s.lostIn [(l, 4), (l.plus 32, 4)] && !pointWait rel s x &&
          (match mv g (s.wread t l) with
           | .go _ _ => true
           | _ => false) &&
          (match mv g (wdesc (((((s.fromMirror [(l, 4), (l.plus 32, 4)]).landLine t.pcore l).dirtied t x.gi g x.uniLane .global (g.rg64 2))).pointBytes t l 64)) with
           | .go _ _ => true
           | _ => false)
      | _ => false))
theorem test_weights_perform : (weighs (weighed 0 [0xFFFFFFFE, 0] 0) (.wpin hg 4 2) false (wpinMove 4) && weighs (weighed 0 [1, 0] 0) (.wunp hg 2 1) true (wunpMove 1) &&
    weighs (weighed 1 [1, 0] 1) (.wunp hg 2 1) true (wunpMove 1) &&
    weighs (weighed 2 [0, 0] 7) (.wpub hg 4 2) true (wpubMove 4) && weighs (weighed 0 [5, 0] 7) (.wbak hg 4 2) false (wbakMove 4)) = true := by decide +kernel
/-- Each case of the four moves, at its edge. -/
theorem test_weight_cases :
    (wdesc (leBytes 16 0 ++ leBytes 4 0 ++ leBytes 4 7 ++ leBytes 4 0xFFFFFFFF ++ leBytes 36 0)).cur = 0 ∧
    wpinMove 4 (Group.start oneLaunch 0 0 0 0 0 0 0) ⟨(0, 0), false, 0, 0, (0xFFFFFFFF, 0)⟩ = .trap ∧
    wunpMove 0 (Group.start oneLaunch 0 0 0 0 0 0 0) ⟨(0, 0), false, 0, 2, (1, 1)⟩ = .trap ∧
    wpubMove 4 (Group.start oneLaunch 0 0 0 0 0 0 0) ⟨(0, 0), false, 0, 0, (0, 0)⟩ = .trap ∧
    wbakMove 4 (Group.start oneLaunch 0 0 0 0 0 0 0) ⟨(0, 0), true, 0, 0, (0, 0)⟩ = .trap ∧
    wbakMove 4 (Group.start oneLaunch 0 0 0 0 0 0 0) ⟨(0, 0), false, 0, 0, (0, 1)⟩ = .pins 0x1C := by decide +kernel
theorem test_invalidations_perform : [Instr.tlbiPage hg 2, .tlbiCtx hg 2, .tlbiAll hg].all (fun i => met (demo.atPoint i) (fun s x t =>
    (t.groups[x.gi]?).isSome && !pointWait true s x && decide (s.walksFor (fun _ _ => true) = []) && s.pendingGrids t.grid (fun _ => true) == [])) = true := by decide +kernel
/-! ## Matrices, textures, traps, the issue and memory -/

theorem test_matrices_perform : [Instr.mma hg pt 8 16 20 24 .i8, .mma hl pt 8 16 20 24 .bf16, .mmax hg pt 8 16 20 24 .e2m1 3 3 false,
    .mmax hl pt 8 16 20 24 .e4m3 0 1 false].all (performs demo) = true := by decide +kernel
/-- With the permutation table of zeros at address 0 of team shared memory, and without. -/
theorem test_permuted_matrices_perform :
    (met (demo.performing (.mmax hg pt 8 16 20 24 .e4m3 0 0 true)) (fun s x _ => decide (permPre true 32 (fun g => g.permBase.toNat) s x = .go)) &&
     met (demo.performing (.qmx hl pt 4 32 1 8 .e2m1 4 true)) (fun s x _ => decide (permPre true 64 (fun g => (g.rg 1).toNat) s x = .go)) &&
     met (demo.performing (.qmx hl pt 4 16 0 8 .e4m3 0 false)) (fun s x _ => decide (permPre false 32 (fun g => (g.rg 0).toNat) s x = .go))) = true := by decide +kernel
theorem test_fragments_perform : [(Instr.mld hl pt 4 1 .f16 0, 16, false, true), (.mld hl pt 8 1 .f32 2, 32, false, true), (.mst hl pt 8 1 .f32, 32, true, false),
    (.mst hl pt 8 1 .bf16, 16, true, false)].all (fun p => accesses .shared p.2.1 p.2.2.1 p.2.2.2 p.1) = true := by decide +kernel
theorem test_span_fragments_perform : met (demoSet.performing (.mld hs pt 0 1 .f16 1)) (fun s x u => x.lanes.all (fun q => match u.groups[q.1]? with
    | some g => (List.range (spanWords u)).all (fun j => s.accChk u q.1 g q.2 .shared ((g.rv q.2 1).toNat + 4 * j) 4 false true == .ok)
    | none => true)) = true := by decide +kernel
/-- The zeros at address 0 are a descriptor of one RGBA8 texel at address 0. -/
theorem test_textures_perform : [(Instr.texs hl pt 4 2 1, none, none), (.texl hl pt 4 2 6 1, some 6, none), (.texg hl pt 4 2 1 3, none, some 3)].all (fun p =>
    met (demo.performing p.1) (fun s x t => decide (texPre 1 s x = .go) && x.lanes.all (fun q => match t.groups[q.1]?, s.texDesc x.tid q.1 1 with
      | some g, some tx => match (tx.lane g q.2 2 p.2.1 p.2.2.isSome).2 with
        | some qs => qs.all (fun f => f.1.all (fun a => match a with
          | some ad => s.accChk t q.1 g q.2 .global ad tx.z false true == .ok
          | none => true))
        | none => true
      | _, _ => false))) = true := by decide +kernel

/-- The team of the small state, in free and in bridle mode, with no trap, a trap and a pre-emption. -/
theorem test_trap_teams : (demo.team? 0).isSome ∧ (demoBridle.team? 0).isSome ∧
    ((demo.raise 0 [0] 64 0 { code := tBPT } [] []).team? 0).any (fun t => decide (t.halt.map (·.kind) = some 0)) = true ∧
    ((inTeam (Team.stop 1) demoBridle).team? 0).any (fun t => decide (t.halt.map (·.kind) = some 1)) = true := by decide +kernel
/-- An illegal register, a privileged read in a user context, and an engine command in a role that forbids it. -/
theorem test_decode_checks :
    (match demo.issuer with
     | some (_, t, g) => !legal t.la.hdr t.la.nb (.movi hl false 127 0) && g.bram.isNone
     | none => false) = true ∧
    (match (demo.setBar (ctxOff 0 0x2C) (2 ^ 26)).issuer with
     | some (_, t, _) => legal t.la.hdr t.la.nb (.movs hl false 1 64) && isPriv (.movs hl false 1 64) && !(demo.setBar (ctxOff 0 0x2C) (2 ^ 26)).ctxPriv t.ctx
     | none => false) = true ∧
    (match (inGroup (fun g => { g with role := 2 }) demo).issuer with
     | some (_, t, g) => legal t.la.hdr t.la.nb (.cpy hg 1 2 0) && !isPriv (.cpy hg 1 2 0) && roleForbids g.role (.cpy hg 1 2 0)
     | none => false) = true := by decide +kernel
/-- A speculating group. -/
def speculating : State := inGroup (fun g => { g with bram := some ⟨0, g.lanes, g.p, g.g, g.seed, [], [], [], false, false, false, g.fpctl, g.permBase, [], [], [], Dom.core, []⟩ }) demo
theorem test_speculating_checks : (match speculating.issuer with
    | some (_, t, g) => g.bram.isSome && !legal t.la.hdr t.la.nb (.movi hl false 127 0)
    | none => false) = true := by decide +kernel
/-- One lane of the group, of which all are members, arrives; with an own mask, and with one that does not name it. -/
def oneLane (m : Word) : State := { inGroup (fun g => g.wv 0 5 m) demo with cur := some ⟨0, 0, 1, 64⟩ }
theorem test_rendezvous : (match (oneLane 3).issuer with
    | some (c, t, g) => decide (screen (.vote hg pt 1 2 5 true 0 false) (oneLane 3) t c.gi = none) && decide ((maskChk (.vote hg pt 1 2 5 true 0 false) c g).2 = 0) &&
        !allArrived (t.modGroup c.gi (Group.arrive 3 .group c.lanes)) (unitGroups t c.gi .group) .group 3 c.pc
    | none => false) = true ∧
    (match (oneLane 2).issuer with
     | some (c, t, g) => decide (screen (.vote hg pt 1 2 5 true 0 false) (oneLane 2) t c.gi = none) && decide ((maskChk (.vote hg pt 1 2 5 true 0 false) c g).2 = 1)
     | none => false) = true := by decide +kernel
/-- Rows that disagree stand between a complete rendezvous and MMA's effect. -/
def rowsApart : State := inGroup (fun g => { g with p := [(0, 1)] }) demo
theorem test_hindered : (match rowsApart.issuer with
    | some (c, t, g) => decide (screen (.mma hg ⟨false, 0⟩ 8 16 20 24 .f16) rowsApart t c.gi = none) && (match gather (.mma hg ⟨false, 0⟩ 8 16 20 24 .f16) rowsApart c t g with
      | .go s1 x => decide (hindrance (.mma hg ⟨false, 0⟩ 8 16 20 24 .f16) s1 { x with part := participants s1 (.mma hg ⟨false, 0⟩ 8 16 20 24 .f16) x } t = .trap { code := tMEMB })
      | .stop _ => false)
    | none => false) = true := by decide +kernel
/-- An enabled flag that a participant raises: ∞ − ∞ under NV. -/
def enabled : State := inGroup (fun g => (({ g with fpctl := fNV } : Group).wv 3 2 0x7F800000).wv 3 3 0xFF800000) demo
theorem test_fpx_due : met (enabled.performing (.faddLr hl false 1 2 3)) (fun s x t => fpxLanes s x.tid
    ⟨(laneRes t x (fun _ g l => ([], (fmtF32.fadd .rne (g.rv l 2).toNat (g.rv l 3).toNat).2))).lanes.take (if uniOf x.i then 1 else x.lanes.length),
      [], [], []⟩ == [(0, 3)]) = true := by decide +kernel
theorem test_completion_site : met (demo.performing (.movi hl false 1 7)) (fun s x t => decide (s.team? x.tid = some t) && decide (x.mem = [(0, 0xFFFFFFFF)]) &&
    !(traits x.i).varLat && (match t.groups[0]? with
      | some g => (List.range 32).all (fun l => decide (l < g.lanes.length ∧ (g.lane l).st ≠ .exited)) &&
          ([⟨0, 31, [.v 1 7], 0⟩] : List LRes).filter (fun q => q.gi == 0 && q.lane == 31) == [⟨0, 31, [.v 1 7], 0⟩]
      | none => false)) = true ∧ met (demo.performing (.ldsLm hl false 1 2 0)) (fun _ x t => (traits x.i).varLat && !t.la.bridle) = true ∧
    met (demoBridle.performing (.ldsLm hl false 1 2 0)) (fun _ x t => (traits x.i).varLat && t.la.bridle) = true := by decide +kernel
theorem test_register_only_and_loads : [Instr.andLr hl false 1 2 3, .ldsLm hl false 1 2 0, .ldsXm hl false pt 1 2 2 0, .ldpLm hl false 1 2 0].all (performs demo) = true ∧
    registerOnly (.andLr hl false 1 2 3) = true := by decide +kernel
theorem test_store_issues : [Instr.stsLm hl 1 2 0, .stsXm hl pt 1 2 2 0, .stpLm hl 1 2 0, .stpXm hl pt 1 2 2 1 0].all (performs demo) = true ∧
    (match demo.tg 0 0 with
     | some (t, g) => !t.la.bridle && g.bram.isNone && t.present 4092 && decide (4092 % 4 = 0 ∧ 4092 + 4 ≤ t.la.hdr.shared) && decide (4090 % 4 ≠ 0)
     | none => false) = true ∧
    (demo.tlb 0 0 8).isSome ∧ (demo.tlb 0 0 0x100000).isNone := by decide +kernel
/-- A queued store to team shared memory, and a write to the pad in flight. -/
def queued : State := inGroup (fun g => { g with sq := [⟨false, 0, .store (.shm 8) [1, 2] 0⟩] }) demo
theorem test_queued_store : (match queued.team? 0 with
    | some t => !t.la.bridle && (match t.groups[0]? with
      | some g => g.sq == [⟨false, 0, .store (.shm 8) [1, 2] 0⟩]
      | none => false)
    | none => false) = true := by decide +kernel
def flying : State := demo.modCore 0 (fun c => { c with fly := [⟨.pad 0 0 8, [1, 2], 0, 0, 0, []⟩] })
theorem test_flying_write : ((flying.core 0).fly[0]?).map (·.loc) = some (.pad 0 0 8) := by decide +kernel

/-- The agenda asks for the issue of the small team's first lane; its words at offset 64 are those given. -/
def asked (bs : List Byte) : State := { demoOf (demoLaunch 1 0 false) with mem := setBytes [] 0x10040 bs, agenda := [.issue 0 0 0] }
/-- What an issue of the agenda must meet, and what its fetch gives. -/
def issues (s : State) (f : Fetched → Bool) : Bool :=
  let s0 : State := { s with agenda := [] }
  s.powered && (match s0.team? 0 with
    | some t => !t.la.bridle && (match t.groups[0]? with
      | some g => canIssue t 0 g && s0.mayIssue 0 0 && decide (g.selectPath = some (64, true)) && decide ((g.lane 0).st = .ready ∧ (g.lane 0).pc = 64) && g.mayRun 64 true 0 &&
          f (fetch (s0.selected 0 t 0 g 64 true) (t.selecting 0 g 64 true) 0 0 64 (g.selecting t.halt.isSome 64 true))
      | none => false)
    | none => false)
theorem test_step_runs : issues (asked (leBytes 4 0x0160C480)) (fun f => match f with
      | .words _ w v => (match decodeWords w v with
        | .ok i => i == .movLr hl false 3 9
        | .error _ => false)
      | _ => false) = true ∧
    issues (asked (leBytes 4 0x07C00000)) (fun f => match f with
      | .words _ w v => (match decodeWords w v with
        | .error _ => true
        | .ok _ => false)
      | _ => false) = true := by decide +kernel
theorem test_step_fetch_stops : issues (inTeam (fun t => { t with la := { t.la with hdr := { t.la.hdr with codesz := 64 } } }) (asked [])) (fun f => match f with
      | .fault c a => c == tBOUNDS && a == 64
      | _ => false) = true ∧
    issues ((asked []).modCore 0 (fun c => { c with tlb := [] })) (fun f => match f with
      | .park _ => true
      | _ => false) = true := by decide +kernel
/-- On a path that goes on, the bundle of lanes 16 to 31 issued last, so that lane 0's waits (the example after R29). -/
def goesOn : State := inGroup (fun g => { g with path := some 64, issued := 1, run := some 16
                                                 lanes := (enum g.lanes).map (fun p => { p.2 with st := .ready, bundle := p.1 / 16 * 16 }) }) { asked [] with agenda := [] }
theorem test_bundle_waits : goesOn.mayIssue 0 0 = true ∧ (match goesOn.tg 0 0 with
    | some (t, g) => canIssue t 0 g && decide (g.selectPath = some (64, false)) && !g.mayRun 64 false 0 && g.mayRun 64 false 16
    | none => false) = true := by decide +kernel
/-- Illegal words of the four instructions of R312, R322, R327 and R401: a reserved field that is not 0. -/
theorem test_step_illegal : issues (asked (leBytes 4 0x06000000 ++ leBytes 4 0x70F00041)) (fun f => match f with
      | .words _ w v => bit w 31 == false && fld w 21 6 == 0x30 && fld v 20 8 == 0x0F && fld v 0 6 != 0 && (match decodeWords w v with
        | .error _ => true
        | .ok _ => false)
      | _ => false) = true := by decide +kernel
theorem test_fetch_words : ([(0x06000000, 68), (0x06000000, 64), (0x0160C480, 64)].all (fun p => issues (asked (leBytes 4 p.1 ++ leBytes 8 p.1)) (fun _ =>
    match (asked (leBytes 4 p.1 ++ leBytes 8 p.1)).team? 0 with
    | some t => decide (p.2 < t.la.hdr.codesz) && (match t.groups[0]? with
      | some g => (g.loopWords p.2).isNone && (match (asked (leBytes 4 p.1 ++ leBytes 8 p.1)).translate t.pcore t.ctx (t.la.base + p.2) false true (g.lane 0).declined with
        | .ok ((l, _) :: _) => l.at % 8 == p.2 % 8 && ((asked (leBytes 4 p.1 ++ leBytes 8 p.1)).core t.pcore).icache.isEmpty &&
            (twoWords ((asked (leBytes 4 p.1 ++ leBytes 8 p.1)).memNat l.at 4) == (p.1 == 0x06000000))
        | _ => false)
      | none => false)
    | none => false))) = true := by decide +kernel
theorem test_reset_issues_nothing : State.reset.cur = none ∧ next (step State.reset) (fun s => s == State.reset) = true := by decide +kernel
theorem test_without_power : next (runMove (.elapse 0 1 1) { State.reset with powered := false }) (fun s => !s.powered) = true ∧
    (Move.elapse 0 1 1 ≠ .event .powerUp) := by decide +kernel
/-! ## Witnesses for the statements about events -/

/-- All of these hold. -/
def every (l : List Bool) : Bool := l.all id
def team0 (s : State) (c : Team → Bool) : Bool := (s.team? 0).any c
def group0 (s : State) (c : Group → Bool) : Bool := (s.group? 0 0).any c

theorem test_core_events_meet : every
    [group0 (inGroup (fun g => { g with issued := 32 }) demo) (fun g => decide (32 ≤ g.issued) && g.cinch.isNone && { g with issued := 32 }.selectPath == some (64, true)),
     group0 demo (fun g => decide (g.issued < 32)), group0 (inGroup (fun g => { g with issued := 32, cinch := some 5 }) demo) (fun g => g.cinch.isSome),
     group0 (inGroup (fun g => { g with pend := [⟨[(3, [.v 1 7])], []⟩] }) demo) (fun g => (g.pend[0]?).any (fun e => e.lanes.all (fun q => (8 : Mask).has q.1))),
     group0 speculating (fun g => g.bram.any (fun b => !b.past)), group0 demo (fun g => g.bram.isNone),
     team0 (inTeam (fun t => { t with msgs := [⟨1, 0, 0, false, [], 1, 0⟩] }) demo) (fun t => (t.msgs[0]?).any (fun m => !m.landed && demo.firstFlying t m)),
     flyFree (flying.core 0).fly 0,
     !flyFree ((flying.modCore 0 (fun c => { c with fly := c.fly ++ [⟨.pad 0 0 16, [1], 0, 0, 1, []⟩] })).core 0).fly 1] = true := by decide +kernel

/-- A grid of one team that is still to be placed, on a part that stands idle. -/
def demoGrid (la : Launch) : Grid :=
  { gid := 5, ctx := 0, queue := 0, idx := 0, gx := 1, gy := 1, gz := 1, cw := 1, ch := 1, la := la, start := 0, signal := false, bfirst := 0, bcount := 12
    placed := 0, retired := 0, snaps := [], synced := false, layer := [], pred := none, graph := none, held := [], since := 0, killed := false }
def gridded (la : Launch) : State := { demoOf la with teams := [], grids := [demoGrid la], nextId := 6 }
/-- Its team saved, to be placed again; a task queued on die 0. -/
def shelved (la : Launch) : State :=
  { gridded la with
    grids := [{ demoGrid la with placed := 1 }]
    saved := [⟨{ Team.start 0 0 5 0 1 1 1 1 1 la ⟨0, 0, 0, [(0, 0)]⟩ 0 [0] 0 64 1 with halt := some ⟨1, 0, 0, 0, 0, 0, 0, 0, 0, [], []⟩ }, 0, 0x100000, false, false, true, []⟩] }
def demoTask : Task := ⟨7, 0, 0, 0, 0, 0, 1, none, leBytes 4 64 ++ leBytes 4 0 ++ leBytes 4 1, .queued, 0, 0, []⟩
def tasking : State := mapped { gridded oneLaunch with grids := [], tasks := [demoTask] }
theorem test_placement_meets : every
    [((gridded (demoLaunch 1 0 false)).nextWant 5 false).any (fun p => !p.1.back && !p.2.2.any (fun sp => (gridded (demoLaunch 1 0 false)).coreStuck p.1.ctx [] sp.core)) && ((gridded oneLaunch).grid? 5).isSome,
     ((gridded (demoLaunch 1 0 true)).nextWant 5 true).any (fun p => !p.1.back),
     ((shelved (demoLaunch 1 0 false)).nextWant 5 false).any (fun p => p.1.back)] = true := by decide +kernel
theorem test_task_placement_meets : every
    [tasking.binTasks 0 (tasking.die 0).bin == [demoTask], !tasking.binSpent 0, !tasking.launchFirst demoTask,
     (match tasking.taskType 0 0 with
      | .ok (some ty) => (tasking.taskTakes demoTask (tasking.taskLaunch demoTask ty)).any (fun q => !tasking.coreStuck 0 [] q.1.core)
      | _ => false)] = true := by decide +kernel
theorem test_bin_switch_meets : every
    [(tasking.modDie 0 (fun d => { d with bin := 3 })).binTasks 0 3 == [], (tasking.modDie 0 (fun d => { d with bin := 3 })).nextBin 0 == some 0,
     (tasking.modDie 0 (fun d => { d with binMade := 4096 })).binSpent 0, (tasking.modDie 0 (fun d => { d with binMade := 4096 })).nextBin 0 == some 0] = true := by decide +kernel
/-- The small team with a halt latch of a kind and code; one that may run again; and one whose block is to be read back. -/
def halted (kind code : Nat) (s : State) : State := inTeam (fun t => { t with halt := some ⟨kind, code, 0, 0, 64, 0, 0, 0, 0, [0], []⟩ }) s
def again : State := inTeam (fun t => { t with la := { t.la with restart := true } }) (halted 0 tMCHK demo)
def coming : State :=
  mapped (inTeam (fun t => { t with la := { t.la with nb := 0, hdr := { t.la.hdr with vregs := 8, shared := 0 } }, bars := [], back := some (0, 0, 0x10000) }) demo)
theorem test_team_events_meet : every
    [team0 ((inGroup (fun g => { g with lanes := g.lanes.map (fun l => { l with st := .parked .gwait }) }) demo).modDie 0 (fun d => { d with time := 1000000 }))
       (fun t => decide (t.since + 10000 * 100 ≤ 1000000) && !t.idle && t.groups.all (fun g => g.ready == 0)),
     bitsAt (demo.bar (ctxOff 0 0x30)) 20 12 == 100,
     team0 demo (fun t => t.halt.isNone && t.back.isNone), team0 (halted 1 0 demo) (fun t => t.halt.isSome && !t.rerunnable),
     team0 again (fun t => t.rerunnable && again.shmQuiet 0 && t.tickets.all (fun k => !k.busy) && (match again.again t with
       | .ok _ => true
       | .error _ => false)),
     team0 coming (fun t => match coming.loadBlock t 0 0x10000 with
       | .ok _ => t.back == some (0, 0, 0x10000)
       | .error _ => false)] = true := by decide +kernel
/-- The small team with every group retired, and its grid, of one team or of two, all placed. -/
def retired (la : Launch) (n : Nat) : State :=
  inGroup (fun g => { g with retired := true }) (inTeam (fun t => { t with grid := 5 }) { demoOf la with grids := [{ demoGrid la with gx := n, placed := n }] })
theorem test_retirement_meets : every
    [team0 (retired oneLaunch 1) (fun t => (retired oneLaunch 1).retirable t && t.task.isNone && !t.la.bridle && ((retired oneLaunch 1).stuckIn t.pcore (fun _ => true)).isNone),
     ((retired oneLaunch 1).grid? 5).any (fun g => { g with retired := g.retired + 1 }.over), ((retired oneLaunch 2).grid? 5).any (fun g => !{ g with retired := g.retired + 1 }.over),
     team0 (retired (demoLaunch 1 0 true) 1) (fun t => (retired (demoLaunch 1 0 true) 1).retirable t && t.la.bridle), (retired oneLaunch 1).saved == [],
     team0 demo (fun t => !demo.retirable t), (demo.anyTeam? 0).isSome] = true := by decide +kernel
/-- A realtime cluster that has waited for more team shared memory than any core has; die 0 alone is open. -/
def urgent : State :=
  { gridded { oneLaunch with prio := 3, hdr := { oneLaunch.hdr with shared := 393344 } } with
    dies := { Die.reset with time := 20000 } :: List.replicate 3 { Die.reset with reinit := true } }
theorem test_realtime_meets : (urgent.wants.find? (fun w => w.gid == 5)).any (fun w => urgent.waitedLong w && (urgent.takes w).isNone && (urgent.yielding w).isSome) = true := by
  decide +kernel
/-- A bridle team whose one group has ended its quantum at a barrier instruction, at a step of the round end. -/
def ending (step : Nat) : State :=
  inTeam (fun t => { t with roundStep := step }) (inGroup (fun g =>
    { g with ended := some ⟨.bara hg 0 false 0, 64, 0xFFFFFFFF, 0xFFFFFFFF, 0, false⟩
             lanes := g.lanes.map (fun l => { l with pc := 68, st := .parked .round }) }) (demoOf (demoLaunch 1 0 true)))
theorem test_round_end_meets : every
    [team0 demoBridle (fun t => !t.roundOver), team0 (ending 3) (fun t => decide (3 ≤ t.roundStep)),
     team0 (ending 0) (fun t => t.roundOver && decide (t.roundStep = 0)),
     team0 ((ending 0).commitGroups 0 1) (fun t => t.halt.isNone), team0 ((((ending 0).commitGroups 0 1).countLnxt 0).modTeam 0 (Team.atStep 1)) (fun t => t.halt.isNone),
     (State.runEnds true 0 1 0 ((((ending 0).commitGroups 0 1).countLnxt 0).modTeam 0 (Team.atStep 1))).2,
     (State.runEnds false 0 1 0 ((State.runEnds true 0 1 0 ((((ending 0).commitGroups 0 1).countLnxt 0).modTeam 0 (Team.atStep 1))).1.modTeam 0 (Team.atStep 2))).2,
     team0 (ending 1) (fun t => t.roundOver && decide (t.roundStep = 1) && t.halt.isNone), (State.runEnds true 0 1 0 (ending 1)).2,
     (State.runEnds false 0 1 0 ((State.runEnds true 0 1 0 (ending 1)).1.modTeam 0 (Team.atStep 2))).2,
     team0 (ending 2) (fun t => t.roundOver && decide (t.roundStep = 2) && t.halt.isNone), (State.runEnds false 0 1 0 ((ending 2).modTeam 0 (Team.atStep 2))).2,
     team0 (ending 3) (fun t => decide (t.roundStep = 3) && !t.idle && decide (t.chanq = []) && t.groups.all (fun g => g.lanes.all (fun l => !l.st.ends)) &&
       decide (t.ewts = []))] = true := by decide +kernel
/-- A bridle grid whose one team has executed LNXT, or has retired. -/
def merging (snaps : List (Nat × List Held)) (r : Nat) (synced : Bool) : State :=
  { demoOf (demoLaunch 1 0 true) with grids := [{ demoGrid (demoLaunch 1 0 true) with placed := 1, retired := r, snaps := snaps, synced := synced, held := [(0, [])] }] }
theorem test_merges_meet : every
    [((merging [(0, [])] 0 false).grid? 5).any (fun g => g.la.bridle && !g.killed && !g.synced && (merging [(0, [])] 0 false).allLnxt g &&
       ((merging [(0, [])] 0 false).mergeStop g.atSync).isNone && (conflictOf g.atSync).isNone),
     ((merging [(0, [])] 1 true).grid? 5).any (fun g => g.over && g.synced && (merging [(0, [])] 1 true).predOver g && !g.killed &&
       ((merging [(0, [])] 1 true).mergeStop g.remaining).isNone && (conflictOf g.remaining).isNone),
     ((merging [] 1 false).grid? 5).any (fun g => g.over && decide (g.snaps = []) && (conflictOf g.remaining).isNone && (merging [] 1 false).predOver g &&
       ((merging [] 1 false).mergeStop g.remaining).isNone)] = true := by decide +kernel

/-- A card in flight on a die for the small team, from its 64 bytes; the die's L2 TLB maps its pages. -/
def demoCard (bs : List Byte) : Card :=
  { cid := 9, ctx := 0, core := 0, tid := some 0, gi := 0, sn := 0, pc := 64, slot := 0, seq := 3, words := wordsOf bs, desc := [], succ := none, mc := [0], mcNext := []
    pres := [], presNext := [], st := .waiting, land := [], page := none, fail := none, view := none, node := none, task := none, since := 0 }
def carded (f : Card → Card) : State :=
  (demoOf (demoLaunch 1 0 false)).modDie 0 (fun d => { d with l2tlb := [demoPage], cards := [f (demoCard (cardOf 1 0 0 0 [(0, 0x1000, 64), gone, (0, 0x2000, 64), gone]))] })
def card9 (s : State) (p : Card → Bool) : Bool := (s.card? 0 9).any p
def landing (l : Loc) : Card → Card := fun c => { c with st := .running, land := [⟨l, 0, [1]⟩] }
theorem test_cards_meet : every
    [card9 (carded id) (fun c => kindOf c.words != 7 && (carded id).cardReady 0 c && (carded id).cardAdmitted 0 c && (match (engWork c).run (carded id) with
       | .ok _ => true
       | .error _ => false) && c.fail.isNone),
     card9 (carded (landing (.phys 0x2000 .pkg false false 0))) (fun c => decide (c.st = .running) && c.fail.isNone && !(carded id).landHeld c.land && c.succ.isNone && decide (c.pres = []) &&
       decide ((c.splitLine (.mem 64)).1 ≠ []) && decide (lineKey (.mem 64) = none)),
     card9 (carded (fun c => { landing (.shm 0) c with succ := some (c.words, []), pres := [(1, 0)] })) (fun c => c.succ.isSome && !(carded id).landHeld c.land &&
       decide ((c.splitLine (.shm 0 0)).1 ≠ []) && c.pres.contains (1, 0) && decide (lineKey (.shm 0 0) = some (1, 0))),
     card9 (carded (fun c => { c with fail := some (1, 0x1000) })) (fun c => decide (c.fail = some (1, 0x1000)) && decide (c.tid = some 0) && c.node.isNone)] = true := by
  decide +kernel
/-- A card that has read one sector early copies its old bytes, and the new bytes of the other (R172): each sector is read at a time of its own. -/
theorem test_sectors_read_apart : (let s := (carded id).readEarly 0 9 2 128
    let s := { s with mem := setBytes (setBytes s.mem 0x1000 [7]) 0x1020 [8] }
    match (s.card? 0 9).map (fun c => (engWork c).run s) with
    | some (.ok (ls, _)) => (let bs := (ls.map (·.bytes)).flatten
        decide (bs.length = 64) && bs[0]? == some 0 && bs[32]? == some 8)
    | _ => false) = true := by decide +kernel
/-- The four dies' cards of a reduction of one word. -/
def meeting (across aux : Nat) : State :=
  let s := demoOf (demoLaunch 1 0 false)
  { s with dies := (List.range 4).map (fun d => { Die.reset with
      l2tlb := [demoPage], cards := [{ demoCard (cardOf 7 across 0 aux [(0, 0x1000, 4), gone, (0, 0x2000, 4), gone]) with cid := d, core := 120 * d }] }) }
/-- The cards meet where they agree, are admitted, and their work goes through. -/
def meets (s : State) (peers : List (List Byte)) : Bool :=
  match s.aredAt 0 5 0, s.aredAt 0 5 1, s.aredAt 0 5 2, s.aredAt 0 5 3 with
  | some c0, some c1, some c2, some c3 =>
    aredShape c1 == aredShape c0 && aredShape c2 == aredShape c0 && aredShape c3 == aredShape c0 && s.cardAdmitted 0 c0 && s.cardAdmitted 1 c1 && s.cardAdmitted 2 c2 &&
    s.cardAdmitted 3 c3 && decide ((aredShape c0).2.1 = 1 → bitsAt (s.bar 0x0080_0000) 10 10 + 1 = (aredShape c0).2.2) &&
    decide ((aredShape c0).2.1 = 1 → 1 < (aredShape c0).2.2 → ∃ q ∈ s.ports, q.up = true ∧ q.key.isSome = true) &&
    (match aredReads s [(0, c0), (1, c1), (2, c2), (3, c3)] with
     | .ok (bs, s1) => match s.aredResult 0 ((aredShape c0).2.1 == 1) (aredShape c0).2.2 bs peers with
       | some out => match aredWrites out s1 [(0, c0), (1, c1), (2, c2), (3, c3)] with
         | .ok _ => true
         | .error _ => false
       | none => false
     | .error _ => false)
  | _, _, _, _ => false
theorem test_reductions_meet : every [meets (meeting 0 5) [], meets (meeting 1 5) [leBytes 4 0],
    meets ({ meeting 1 (5 + 2 ^ 16) with ports := [⟨true, some 5, 0⟩] }.setBar 0x0080_0000 (2 ^ 10)) [[], leBytes 4 7]] = true := by decide +kernel

/-- Queue 3 of context 0 with a packet of 64 bytes at 0xA000, and a graph table of one WAIT node at 0xB000. -/
def posting (bs : List Byte) : State :=
  let s := mapped { demoOf (demoLaunch 1 0 false) with teams := [] }
  let m := setBytes (setBytes s.mem 0xA000 bs) 0xB000 (leBytes 4 0x0951C0DE ++ leBytes 4 1)
  let m := setBytes (setBytes m 0xB040 (leBytes 4 6 ++ leBytes 4 0xFFFFFFFF)) 0xB048 (leBytes 8 50)
  ((({ s with mem := m } : State).setBar64 (queueOff 0 3 0) 0xA000).setBar (queueOff 0 3 8) (4 + 2 ^ 8 + 7 * 2 ^ 16)).setBar (queueOff 0 3 0xC) 1
def launchPacket : List Byte := leBytes 4 0x00110001 ++ leBytes 4 0 ++ leBytes 8 0x9040
theorem test_packets_meet : every
    [(match (posting []).tryPacket 0 3 with
      | .reject c => c == 1
      | _ => false),
     (match (posting launchPacket).tryPacket 0 3 with
      | .launch _ _ => (posting launchPacket).firstQueue 0 3
      | _ => false),
     (match (posting (leBytes 4 2 ++ leBytes 4 0 ++ leBytes 8 0xB000)).tryPacket 0 3 with
      | .graph _ _ _ => (posting (leBytes 4 2 ++ leBytes 4 0 ++ leBytes 8 0xB000)).firstQueue 0 3
      | _ => false),
     (match (posting []).tryPacket 0 4 with
      | .no => true
      | _ => false)] = true := by decide +kernel
theorem test_queue_registers_meet : every
    [decide ((16 + 2 ^ 32 - (posting []).bar (queueOff 0 3 0x10)) % 2 ^ 32 ≤ 2 ^ bitsAt ((posting []).bar (queueOff 0 3 8)) 0 5),
     decide (2 ^ bitsAt ((posting []).bar (queueOff 0 3 8)) 0 5 < (17 + 2 ^ 32 - (posting []).bar (queueOff 0 3 0x10)) % 2 ^ 32),
     !(posting []).qHalt 0 3, ((posting []).haltQueue 0 3 1).qHalt 0 3 && ((posting []).haltQueue 0 3 1).qCode 0 3 != 8 && decide (((posting []).haltQueue 0 3 1).startedOf 0 3 = []),
     ((posting []).haltQueue 0 3 8).qHalt 0 3 && ((posting []).haltQueue 0 3 8).qCode 0 3 == 8,
     bitsAt 0x7FF0010 8 3 == 0, bitsAt 0x7FF0110 8 3 == 1, decide ((posting []).enabledQueues 0 < bitsAt ((posting []).bar (ctxOff 0 0x30)) 0 8), !(posting []).qEn 0 4,
     decide (bitsAt (((posting []).setBar (ctxOff 0 0x30) 1).bar (ctxOff 0 0x30)) 0 8 ≤ ((posting []).setBar (ctxOff 0 0x30) 1).enabledQueues 0)] = true := by decide +kernel
/-- A graph whose one node waits until time 50 has begun, at a time of its die; and one with a LAUNCH node. -/
def waiting (now kind : Nat) (begun : Bool) : State :=
  demo.modDie 0 (fun d => { d with time := now, graphs :=
    [{ id := 4, ctx := 0, queue := 3, idx := 0, loc := 0xB000, table := leBytes 4 kind ++ leBytes 4 0xFFFFFFFF ++ leBytes 8 50 ++ leBytes 16 0, nodes := 1, start := 10, budget := 5
       corecap := 0, rem := 0, active := [⟨0, begun, 50⟩], joins := [], loops := [], failed := false, prio := 1, signal := false, usAt := 0 }] })
def node0 (s : State) (p : Graph → GNode → Bool) : Bool := (s.graph? 0 4).any (fun g => (g.active.find? (fun a => a.node == 0)).any (p g))
theorem test_graphs_meet : every
    [node0 (waiting 9 6 true) (fun g _ => decide (9 < g.start)), node0 (waiting 10 1 false) (fun g a => decide (g.start ≤ 10) && !a.begun),
     node0 (waiting 50 6 true) (fun g a => (waiting 50 6 true).nodeDone 0 g a && !g.failed && decide ((g.node 0).kind = 6) && decide (a.due ≤ 50) && decide (a.node = 0)),
     node0 (waiting 49 6 true) (fun g a => decide ((g.node 0).kind = 6) && a.begun && decide (49 < a.due)), decide (0 < demo.dies.length)] = true := by decide +kernel

/-- A walk of an address under way on die 0, with an entry of the table that it does not map the first gigabyte by. -/
def walking (entry va : Nat) : State :=
  let s := mapped (demoOf (demoLaunch 1 0 false))
  ({ s with mem := setBytes s.mem 0x4008 (leBytes 8 entry) } : State).modDie 0 (fun d => { d with walks := [⟨0, va, false, false, false⟩] })
def walksTo (s : State) (c : Walked → Bool) : Bool := ((s.die 0).walks.find? (fun w => w.ctx == 0)).any (fun w =>
  c (((s.walkUse 0 w.va).modDie 0 (fun x => { x with walks := x.walks.filter (fun k => !(k.ctx == 0 && pageOf k.va == pageOf w.va)) })).walk 0 w.va))
theorem test_walks_meet : every
    [walksTo (walking 0 0x1000) (fun w => match w with
      | .ok _ => true
      | _ => false),
     walksTo (walking 0 (2 ^ 48)) (fun w => match w with
      | .absent => true
      | _ => false),
     walksTo (walking 3 (2 ^ 48)) (fun w => match w with
      | .fail => true
      | _ => false)] = true := by decide +kernel
/-- A line whose record names a requester on another die so many times in a row; and a write to the host's page 5 that is in flight. -/
def asking (n : Nat) : State := demo.modDie 0 (fun d => { d with l2 := [⟨8, 0, none, none, 128, n, true, false⟩] })
def ioFlying : State := demo.modCore 0 (fun c => { c with fly := [⟨.phys (2 ^ 51 + 0x5000) .sys false false 0, [1], 0, 0, 1, []⟩] })
theorem test_lines_meet : every
    [ioFlying.ioBusy 5, !ioFlying.ioBusy 4,
     ((asking 8).l2Find 8).any (fun r => decide (8 ≤ r.count) && r.mig && farNode r.req (r.holder.getD ((asking 8).homeNode 8)) && !(asking 8).lineHeld 8 &&
       decide (r.req ≠ (asking 8).homeNode 8) && ((((asking 8).recall 0 ((asking 8).homeNode 8)).roomL2 r.req none).1.l2Find 8).isSome),
     ((asking 7).l2Find 8).any (fun r => decide (r.count < 8))] = true := by decide +kernel
/-- Partition 1 with two equal masks on die 0. -/
def samely : State := (demo.setBar64 (partOff 0 1 0) 128).setBar64 (partOff 0 1 8) 128
theorem test_no_context_at_reset : ∀ x < 1024, State.reset.ctxEn x = false := by
  intro x hx
  have h : barReset 1 (ctxOff x 0x2C) = 0 := by
    unfold barReset ctxOff
    rw [if_pos (by omega), if_neg (by omega)]
  simp [State.ctxEn, State.bar, State.reset, SMap.get, h, bitsAt]
theorem test_partitions_meet : every
    [demo.partHeld 0, independent ((List.range 7).map (demo.shMask 0 1)), !independent ((List.range 7).map (samely.shMask 0 1)),
     Nat.testBit (2 ^ 14 + 2 ^ 8) 14, bitsAt (2 ^ 14 + 2 ^ 8) 8 3 != 7, demo.ctxEn 0, decide (0x44 < 0x48 ∧ 3 < demo.dies.length),
     ((demo.modDie 0 (fun d => { d with remap := [(0x110000, 3)] })).die 0).remap == [(0x110000, 3)]] = true := by decide +kernel
theorem test_free_partition : State.reset.partHeld 1 = false := by
  simp only [State.partHeld, List.any_eq_false, List.mem_range]
  intro x hx
  simp [test_no_context_at_reset x hx]
theorem test_no_mirror_at_reset : ∀ b, State.reset.mirrorable b = false := by
  intro b
  have h : State.reset.mirSize (b / Config.dieHbm) = 0 := by
    have h : barReset 1 (dieOff (b / Config.dieHbm) 0x11004C) = 0 := by
      unfold barReset dieOff
      by_cases h : 0x0200_0000 ≤ 0x0200_0000 + 0x0100_0000 * (b / Config.dieHbm) + 0x11004C ∧ 0x0200_0000 + 0x0100_0000 * (b / Config.dieHbm) + 0x11004C < 0x0600_0000
      · have hr : (0x0200_0000 + 0x0100_0000 * (b / Config.dieHbm) + 0x11004C) % 0x0100_0000 = 0x11004C := by omega
        rw [if_neg (by omega), if_pos h, hr]
        rfl
      · rw [if_neg (by omega), if_neg h]
    simp [State.mirSize, State.bar, State.reset, SMap.get, h, bitsAt]
  simp [State.mirrorable, h]
theorem test_outside_meets : every
    [demo.outsideOk 0x1000 2 true, demo.outsideOk 0x1000 2 false, demo.outsideOk (Config.hbmBytes - 2) 2 true, !demo.outsideOk (Config.hbmBytes - 1) 2 true,
     State.reset.outsideOk 0x1000 2 true, !demo.trust.recovery,
     demo.dies.all (fun d => d.lost == []), decide (0x1000 % atomWidth 0 Ty.n32 = 0)] = true := by decide +kernel
/-- Port 0 with a key, after so many failures in a row. -/
def keyed (n : Nat) : State := { demo with ports := [⟨true, some 5, n⟩] }
theorem test_ports_meet : every [((keyed 1).ports[0]?).any (fun p => p.up && p.key.isSome && decide (p.fails < 2)), ((keyed 2).ports[0]?).any (fun p => p.fails == 2)] = true := by
  decide +kernel

/-- Die 0 with its power state changed. -/
def powered (f : Power → Power) (s : State) : State := s.modPower 0 f
theorem test_network_meets : every
    [!(demo.die 0).power.halted && !(demo.die 0).power.throttled, decide (bitsAt (demo.nocWord 0) 24 8 < bitsAt (demo.nocWord 0) 16 8),
     decide (bitsAt (demo.nocWord 0) 16 8 ≤ 40), decide (15 ≤ bitsAt (demo.nocWord 0) 24 8) && decide ((demo.die 0).power.lowRun < 7),
     ((powered (fun p => { p with lowRun := 7 }) demo).die 0).power.lowRun == 7, decide (bitsAt (demo.nocWord 0) 24 8 < 16 ∧ 39 < bitsAt (demo.nocWord 0) 16 8),
     demo.channel 0 == 0, (powered (fun p => { p with hbm := [(0, 2)], wanted := [0] }) demo).channel 0 != 0 &&
       (powered (fun p => { p with hbm := [(0, 2)], wanted := [0] }) demo).channelWanted 0, !demo.channelWanted 0, channelDie 383 < demo.dies.length] = true := by decide +kernel
/-- A cluster of class 2 waits, no block of whose pool there is on the one open die. -/
def poolless : State :=
  { gridded { oneLaunch with oc := 2 } with dies := Die.reset :: List.replicate 3 { Die.reset with reinit := true } }
theorem test_pools_meet : every
    [((powered (fun p => { p with moves := [⟨2, 1, 9⟩] }) demo).die 0).power.moves.find? (fun m => m.block == 2) == some ⟨2, 1, 9⟩,
     (poolless.wantOf 5).any (fun w => !poolless.poolTakes w && !w.la.bridle && poolless.dies.all (fun x => x.power.moves.all (fun m => m.gid != 5)) &&
       (((List.range 4).map (fun i => (poolless.lastDie + 1 + i) % 4)).findSome? (fun d => (poolless.moveFrom w d).map (fun b => (d, b)))) == some (0, 0))] = true := by decide +kernel
/-- A card that waits for admission, since time 0, where the die has overdrawn its budget. -/
def ageing : State := powered (fun p => { p with overdraw := [(32, 10000000)] }) ((carded (fun c => { c with st := .waiting, since := 0 })).modDie 0 (fun d => { d with time := 128000 }))
theorem test_ageing_meets : ((ageing.waiting 0).find? (fun w => w.1 == 1 && w.2.1 == 9) == some (1, 9, 0) && (ageing.die 0).power.aged.isNone &&
    decide (128000 ≤ (ageing.die 0).time) && (ageing.waiting 0).all (fun v => decide (0 ≤ v.2.2))) = true := by decide +kernel
/-- The die's hottest block has a sensor at 90 °C, and the team on it has stood for 1 ms. -/
def hot (t : Nat) : State := (demo.setBar (powOff 0 0x400) t).modDie 0 (fun d => { d with time := 1000000 })
theorem test_heat_meets : every
    [demo.trips 0 == 0, (powered (fun p => { p with below := some 0, throttled := true }) (hot 0)).die 0 |>.power.throttled, (hot 0).cooler 0 95, !(hot 760).cooler 0 95,
     ((powered (fun p => { p with halted := true }) (hot 0)).die 0).power.halted, (hot 720).hotBlock 0, team0 (hot 720) (fun t => !t.idle && decide (t.since + 1000000 ≤ 1000000) &&
       (((hot 720).rects (dieOf t.pcore) t.cw t.ch).find? (fun cs => cs.head? == some 9)).any (fun cs => (hot 720).teams.all (fun u => !cs.contains u.pcore) &&
         cs.all (fun k => (hot 720).poolFits k ((hot 720).classOf t.la) && !(hot 720).claimed (2 ^ 64) (fun _ => false) k)))] = true := by decide +kernel
theorem test_budgets_meet : every
    [powerWritable 0 && isBudget 0 && decide (powerReset 1 0 < (2 ^ 32 - 1) % 2 ^ 32), powerWritable 4 && !isBudget 4, powerWritable 0xA4, decide (4300000 % 2 ^ 32 ≤ powerReset 1 0),
     decide (bitsAt (40 * 2 ^ 16 + 40 * 2 ^ 24) 16 8 ≤ bitsAt (40 * 2 ^ 16 + 40 * 2 ^ 24) 24 8), decide (bitsAt (41 * 2 ^ 16 + 40 * 2 ^ 24) 24 8 < bitsAt (41 * 2 ^ 16 + 40 * 2 ^ 24) 16 8),
     !({ demo with powered := false } : State).powered] = true := by decide +kernel

/-- The small team saved with a trap, at a block of context 0; the context then holds no team. -/
def trapped : State :=
  let s := shelved (demoLaunch 1 0 false)
  { s with saved := s.saved.map (fun k => { k with trapped := true, waiting := false }) }
theorem test_resume_meets : every
    [(List.range 5).all (fun a => ((trapped.modCtx 0 (fun c => { c with resumeHi := latchAfter c.resumeHi none })).halted? 0 (joined (trapped.ctx 0).resumeHi (BitVec.ofNat 32 (0x100000 + a)) none)).isSome),
     (trapped.halted? 0 (joined (trapped.ctx 0).resumeHi 0x200001 none)).isNone,
     card9 (carded (fun c => { c with page := some 1 })) (fun c => decide (c.ctx = 0) && decide (c.page = some 1)) && decide ((demo.die 0).walks = []), (0x1000 : Word).getLsbD 0 == false, (0x1001 : Word).getLsbD 0] = true := by decide +kernel
theorem test_contexts_meet : every
    [decide ((demo.bar (ctxOff 0 0x24) + 2 ^ 32 - demo.bar (ctxOff 0 0x28)) % 2 ^ 32 < (1 % 2 ^ 32 + 2 ^ 32 - demo.bar (ctxOff 0 0x28)) % 2 ^ 32),
     decide ((0 % 2 ^ 32 + 2 ^ 32 - demo.bar (ctxOff 0 0x28)) % 2 ^ 32 ≤ (demo.bar (ctxOff 0 0x24) + 2 ^ 32 - demo.bar (ctxOff 0 0x28)) % 2 ^ 32) && (demo.ctx 0).heldNotices == [],
     demo.ctxEn 0 && bitsAt (2 ^ 26) 26 1 == 1, !demo.ctxEn 1 && !demo.partPads 1, demo.partPads 0 && demo.bar64 (ctxOff 1 0x48) == 0, (demo.setBar64 (ctxOff 1 0x48) 4096).bar64 (ctxOff 1 0x48) != 0,
     !demo.ctxIdle 0, { demo with teams := [] }.ctxIdle 0, !demo.qEn 0 3, (posting []).qEn 0 3] = true := by decide +kernel

/-- The core holds the page of an address of the small team as mirrored. -/
def mirroredPage : State := { demo with cores := [(0, { Core.empty with tlb := [{ demoPage with mir := true }] })] }
theorem test_errors_meet : every
    [group0 demo (fun g => (g.lane 31).st != .exited && !g.stopped) && team0 demo (fun t => t.back.isNone && !demo.mirrored t.pcore t.ctx 0x1000),
     team0 mirroredPage (fun t => mirroredPage.mirrored t.pcore t.ctx 0x1000), ((carded (fun c => { c with st := .running })).card? 0 9).any (fun c => c.st == .running && c.fail.isNone),
     (((demo.modDie 0 (fun d => { d with l2 := [⟨8, 0, some 0, none, 0, 0, false, false⟩] })).l2Find 8).bind (·.dctx)) == some 0, ((asking 0).l2Find 8).any (fun r => r.dctx.isNone), (demo.l2Find 8).isNone,
     [((32 : Nat), 0)].any (fun e => e.1 == 1024 / 32), demo.teams.all (fun t => decide (t.groups ≠ [])),
     [0, 16].all (fun n => (let s := demo.modDie 0 (fun d => { d with l2 := [⟨8, 0, some 0, none, 0, 0, false, false⟩], lost := List.replicate n (33, 0) })
       decide (((s.die 0).lost.filter (fun e => s.homeNode (e.1 / 4) == s.homeNode 8)).length = n) && !(s.die 0).lost.any (fun e => e.1 == 1024 / 32)))] = true := by decide +kernel
theorem test_repair_meets : every
    [!demo.badSites.contains (demo.site 0), demo.teams.any (fun t => t.pcore == 0), { demo with badSites := [0] }.badSites.contains ({ demo with badSites := [0] }.site 0),
     demo.teams.all (fun t => t.pcore != 1) && (demo.core 1).fly == [] && (demo.core 1).kept == [] && (demo.stuckIn 1 (fun _ => true)).isNone && decide (1 < demo.sites.length) &&
       (({ demo.blankCore 1 with badSites := demo.site 1 :: (demo.blankCore 1).badSites } : State).spareSite (dieOf 1)).isSome,
     decide (SMap.get 0 (demo.die 0).spares 127 < 2), !(demo.die 3).rowHold.contains 383, (demo.modDie 3 (fun d => { d with rowHold := [383] })).die 3 |>.rowHold.contains 383,
     !demo.laneSpares.contains 0, !(demo.die 0).reinit && (demo.die 0).padOut == [] && demo.teams.any (fun t => dieOf t.pcore == 0),
     State.reset.teams == [] && (State.reset.die 0).cards == [] && !(State.reset.die 0).reinit && (State.reset.die 0).padOut == [] &&
       (List.range 120).all (fun k => (State.reset.stuckIn (120 * 0 + k) (fun _ => true)).isNone),
     (demo.modDie 0 (fun d => { d with reinit := true })).die 0 |>.reinit, demo.trust.running == 0 && !demo.trust.recovery, ((keyed 0).ports[0]?).isSome,
     decide (State.reset.lifeA.seqn ≤ State.reset.lifeB.seqn)] = true := by decide +kernel

/-! ## Decoding, word by word -/

/-- Each pair of words, written from the encoding tables (R69-R88), is the instruction beside it: a legal one. -/
def wordsAre (l : List (Nat × Nat × Instr)) : Bool :=
  l.all (fun p => (match decodeWords p.1 p.2.1 with
    | .ok i => i == p.2.2
    | .error _ => false) && wellFormed p.2.2 && decodeTableWord (32 * p.2.2.words) (p.1 + 2 ^ 32 * p.2.1) == some p.2.2)
theorem test_words_1 : wordsAre
    [(0x48A78803, 0x00000000, .andLr ⟨true, .lane⟩ true 30 16 3),
     (0x5A30BF10, 0x00000000, .andLi ⟨true, .group⟩ true 66 126 16),
     (0x6604380A, 0xB2500040, .andXi ⟨true, .set⟩ false ⟨true, 3⟩ 16 112 10 .n32),
     (0x6E1A3063, 0xB0F00040, .andn ⟨true, .set⟩ true ⟨true, 3⟩ 104 96 99),
     (0xF73A2000, 0x27F7B2AE, .ared ⟨true, .team⟩ 52 16 670544558),
     (0x0693876C, 0xC7240840, .atomg ⟨false, .lane⟩ ⟨true, 4⟩ 78 14 108 32 7 false 2 .n32),
     (0x468B880D, 0x67A8EC40, .atomp ⟨true, .lane⟩ ⟨false, 6⟩ 46 16 13 71 7 false 3 .n32),
     (0x168C3F52, 0x27628C40, .atoms ⟨false, .group⟩ ⟨false, 2⟩ 48 126 82 20 7 false 3 .n32),
     (0x44CA2E40, 0x00000000, .bar ⟨true, .lane⟩ 10 true 28 true),
     (0x44C67600, 0x00000000, .bara ⟨true, .lane⟩ 6 true 44),
     (0x44D58000, 0x00000000, .barw ⟨true, .lane⟩ 21),
     (0x6E0CC208, 0x906AA040, .bfi ⟨true, .set⟩ true ⟨true, 1⟩ 51 4 8 85),
     (0x4E021204, 0x60500000, .bfx ⟨true, .lane⟩ true ⟨false, 6⟩ 8 36 4 .i32),
     (0x44850000, 0x00000000, .bpt ⟨true, .lane⟩),
     (0x54103CBC, 0x00000000, .bra ⟨true, .group⟩ 1064124),
     (0x4603E5C7, 0x74000000, .braGuarded ⟨true, .lane⟩ ⟨false, 7⟩ 255431),
     (0x5E1C2E00, 0xB0900040, .brev ⟨true, .group⟩ true ⟨true, 3⟩ 112 92),
     (0x64403800, 0x00000000, .brx ⟨true, .set⟩ 112),
     (0x66001780, 0xA4200000, .brxGuarded ⟨true, .set⟩ ⟨true, 2⟩ 47),
     (0x543FB46C, 0x00000000, .call ⟨true, .group⟩ 2077804),
     (0x66014593, 0x14100000, .callGuarded ⟨true, .set⟩ ⟨false, 1⟩ 83347),
     (0x44603100, 0x00000000, .calx ⟨true, .lane⟩ 98),
     (0x56001C00, 0x84300000, .calxGuarded ⟨true, .group⟩ ⟨true, 0⟩ 56),
     (0xD1D80000, 0x00000000, .clk ⟨true, .group⟩ 48)] = true := by
  decide +kernel
theorem test_words_2 : wordsAre
    [(0x4E110900, 0x50800040, .clz ⟨true, .lane⟩ true ⟨false, 5⟩ 68 18),
     (0xF66D0800, 0x2DDF0D21, .cpy ⟨true, .team⟩ 26 4 769592609),
     (0xF6A82800, 0x09884598, .cpyg ⟨true, .team⟩ 16 20 159925656),
     (0xD6D41E00, 0xB3D498A2, .cpyr ⟨true, .group⟩ 40 15 3017054370),
     (0xF6824000, 0x61C8EF5B, .cpyt ⟨true, .team⟩ 4 32 1640558427),
     (0x464C3E00, 0xD0000F19, .cvt ⟨true, .lane⟩ false ⟨true, 5⟩ 48 124 .e2m3 3 .e4m3 true),
     (0x4E5BEC08, 0xA0100D06, .cvtp ⟨true, .lane⟩ true ⟨true, 2⟩ 111 88 8 .i8 3 false),
     (0x66423A3C, 0xC02010DB, .cvtx ⟨true, .set⟩ false ⟨true, 4⟩ 8 116 60 .n16 4 .e3m2 true),
     (0x465A2400, 0x10458B07, .dqmx ⟨true, .lane⟩ ⟨false, 1⟩ 104 72 44 .e2m3 2 .f16),
     (0xD2315000, 0x00000000, .eqry ⟨true, .group⟩ 34 40),
     (0xD2001000, 0x00000000, .ewt ⟨true, .group⟩ 8),
     (0x44810000, 0x00000000, .exit ⟨true, .lane⟩),
     (0x69817874, 0x00000000, .faddLr ⟨true, .set⟩ true 5 112 116),
     (0x4E305C8C, 0xD0100980, .faddXf ⟨true, .lane⟩ true ⟨true, 5⟩ 65 57 12 2),
     (0x6BEB475B, 0x00000000, .fcmpLc ⟨true, .set⟩ true 2 14 91 13),
     (0x5E210B60, 0xC100018F, .fcmpXf ⟨true, .group⟩ true ⟨true, 4⟩ 4 22 96 .f32 15),
     (0x6E281200, 0xA0C00180, .fcos ⟨true, .set⟩ true ⟨true, 2⟩ 32 36),
     (0x6E329F00, 0xA0900180, .fex2 ⟨true, .set⟩ true ⟨true, 2⟩ 74 62),
     (0x6E340400, 0x50A00180, .flg2 ⟨true, .set⟩ true ⟨false, 5⟩ 80 8),
     (0x4E230200, 0xA0600180, .frcp ⟨true, .lane⟩ true ⟨true, 2⟩ 12 4),
     (0x5E231480, 0x40700180, .frsq ⟨true, .group⟩ true ⟨false, 4⟩ 12 41),
     (0x4E239A00, 0x60B00180, .fsin ⟨true, .lane⟩ true ⟨false, 6⟩ 14 52),
     (0x4E251A00, 0xA0800180, .fsqrt ⟨true, .lane⟩ true ⟨true, 2⟩ 20 52),
     (0x54A00000, 0x00000000, .fenceAcq ⟨true, .group⟩)] = true := by
  decide +kernel
theorem test_words_3 : wordsAre
    [(0x44A40000, 0x00000000, .fenceRel ⟨true, .lane⟩),
     (0x54A80000, 0x00000000, .fenceFull ⟨true, .group⟩),
     (0x44AC0000, 0x00000000, .fenceX ⟨true, .lane⟩),
     (0x5E253860, 0xF00A4980, .ffma ⟨true, .group⟩ true ⟨true, 7⟩ 20 112 96 82 2),
     (0x59E21A84, 0x00000000, .fmaxLr ⟨true, .group⟩ true 8 53 4),
     (0x4E27DFF8, 0xF0400180, .fmaxXf ⟨true, .lane⟩ true ⟨true, 7⟩ 31 63 120),
     (0x69CE4602, 0x00000000, .fminLr ⟨true, .set⟩ true 57 12 2),
     (0x4E234708, 0xA0300180, .fminXf ⟨true, .lane⟩ true ⟨true, 2⟩ 13 14 8),
     (0x59AF4323, 0x00000000, .fmulLr ⟨true, .group⟩ true 61 6 35),
     (0x4E3F9030, 0xB0200980, .fmulXf ⟨true, .lane⟩ true ⟨true, 3⟩ 126 32 48 2),
     (0x5E210A80, 0x70500D80, .frnd ⟨true, .group⟩ true ⟨false, 7⟩ 4 21 3),
     (0x560B1C08, 0xA0B24041, .fshf ⟨true, .group⟩ false ⟨true, 2⟩ 44 56 8 18 true),
     (0x56A61000, 0x205E45E0, .gargx ⟨true, .group⟩ ⟨false, 2⟩ 24 32 114 true 1),
     (0x56AC3000, 0xA03209A0, .gred ⟨true, .group⟩ ⟨true, 2⟩ 48 96 16 true 2 .f32 false),
     (0x56AC2780, 0x404C09A0, .gscan ⟨true, .group⟩ ⟨false, 4⟩ 48 79 96 true 2 .f32),
     (0xD2C00000, 0x00000000, .gwait ⟨true, .group⟩),
     (0x4E243650, 0xA0D00E00, .hadd2 ⟨true, .lane⟩ true ⟨true, 2⟩ 16 108 80 .bf16 3),
     (0x4E22200E, 0xA0F20DC0, .hfma2 ⟨true, .lane⟩ true ⟨true, 2⟩ 8 64 14 16 .f16 3),
     (0x6E36284E, 0xD0E00DC0, .hmul2 ⟨true, .set⟩ true ⟨true, 5⟩ 88 80 78 .f16 3),
     (0xF704F000, 0x4130F9FC, .hgb ⟨true, .team⟩ 9 56 1093728764),
     (0xD6FC6000, 0x3340A0A1, .hgf ⟨true, .group⟩ 56 48 859873441),
     (0x4E0F8800, 0x40300000, .iabs ⟨true, .lane⟩ true ⟨false, 4⟩ 62 16 false),
     (0x680E1818, 0x00000000, .iaddLr ⟨true, .set⟩ true 56 48 24),
     (0x5A05C17C, 0x00000000, .iaddLi ⟨true, .group⟩ true 23 2 124)] = true := by
  decide +kernel
theorem test_words_4 : wordsAre
    [(0x5E09F0DE, 0xE20000C0, .iaddXi ⟨true, .group⟩ true ⟨true, 6⟩ 39 97 94 .n16 false),
     (0x58982031, 0x00000000, .imaxLr ⟨true, .group⟩ true 96 64 49),
     (0x5E06B040, 0x624000C0, .imaxXi ⟨true, .group⟩ true ⟨false, 6⟩ 26 96 64 .n16),
     (0x48610160, 0x00000000, .iminLr ⟨true, .lane⟩ true 4 2 96),
     (0x5E023960, 0x62300080, .iminXi ⟨true, .group⟩ true ⟨false, 6⟩ 8 114 96 .i16),
     (0x484C2360, 0x00000000, .imulLr ⟨true, .lane⟩ true 48 70 96),
     (0x4E02FC08, 0x72200000, .imulXi ⟨true, .lane⟩ true ⟨false, 7⟩ 11 120 8 .i32),
     (0x483DAC40, 0x00000000, .isubLr ⟨true, .lane⟩ true 118 88 64),
     (0x5E183310, 0x521000C0, .isubXi ⟨true, .group⟩ true ⟨false, 5⟩ 96 102 16 .n16 false),
     (0x4E1A20F0, 0xB0C00075, .iaddx ⟨true, .lane⟩ true ⟨true, 3⟩ 104 65 112 5 6),
     (0x4BECB87C, 0x00000000, .icmpLc ⟨true, .lane⟩ true 3 112 124 2),
     (0x5E01BA58, 0x211003C7, .icmpXi ⟨true, .group⟩ true ⟨false, 2⟩ 6 116 88 .i64 7),
     (0x5E1D8C30, 0x40E58140, .idp4 ⟨true, .group⟩ true ⟨false, 4⟩ 118 24 48 44 .n8),
     (0x66071078, 0xB0110040, .imad ⟨true, .set⟩ false ⟨true, 3⟩ 28 32 120 8 .n32),
     (0x4E0BB88C, 0xE0268000, .imadw ⟨true, .lane⟩ true ⟨true, 6⟩ 46 113 12 52 .i32),
     (0x56020768, 0x50000040, .imulh ⟨true, .group⟩ false ⟨false, 5⟩ 8 14 104 .n32),
     (0x5E03394C, 0x30400005, .isel ⟨true, .group⟩ true ⟨false, 3⟩ 12 114 76 false 5),
     (0x44840000, 0x00000000, .isync ⟨true, .lane⟩),
     (0x46620847, 0xB0003B3B, .ldg ⟨true, .lane⟩ false ⟨true, 3⟩ 8 16 4 1 3 15163),
     (0x5B837CA0, 0x00000000, .ldkLm ⟨true, .group⟩ true 13 121 32),
     (0x6E77B6E3, 0xD06712DC, .ldkXm ⟨true, .set⟩ true ⟨true, 5⟩ 94 109 6 3 463580),
     (0x5B512450, 0x00000000, .ldpLm ⟨true, .group⟩ true 68 72 80),
     (0x4E6A2420, 0x5042F236, .ldpXm ⟨true, .lane⟩ true ⟨false, 5⟩ 40 72 2 0 193078),
     (0x5B0B3A09, 0x00000000, .ldsLm ⟨true, .group⟩ true 44 116 9)] = true := by
  decide +kernel
theorem test_words_5 : wordsAre
    [(0x5E6DD250, 0x2020611A, .ldsXm ⟨true, .group⟩ true ⟨false, 2⟩ 55 36 5 24858),
     (0x567A2224, 0x5088536C, .ldr ⟨true, .group⟩ ⟨false, 5⟩ 104 68 2 1 545644),
     (0x4617AC06, 0xE0D0004C, .lea ⟨true, .lane⟩ false ⟨true, 6⟩ 94 88 6 .n32 12),
     (0xD2E00000, 0x00000000, .lnxt ⟨true, .group⟩),
     (0x56B23900, 0x602803E0, .matchLanes ⟨true, .group⟩ ⟨false, 6⟩ 72 114 64 true .i64),
     (0x56D41000, 0xE0200301, .mld ⟨true, .group⟩ ⟨true, 6⟩ 80 32 .e2m3 1),
     (0x56D23E70, 0xB0080200, .mma ⟨true, .group⟩ ⟨true, 3⟩ 72 124 112 64 .bf16),
     (0x46D41658, 0x90180AA3, .mmax ⟨true, .lane⟩ ⟨true, 1⟩ 80 44 88 64 .e5m2 2 3 true),
     (0x66DC2000, 0x40300182, .mst ⟨true, .set⟩ ⟨false, 4⟩ 112 64 .f32),
     (0x56C80000, 0x60400000, .mzro ⟨true, .group⟩ ⟨false, 6⟩ 32),
     (0x59630980, 0x00000000, .movLr ⟨true, .group⟩ true 12 19),
     (0x4E1B3000, 0xD2B00000, .movXi ⟨true, .lane⟩ true ⟨true, 5⟩ 108 96 .i32),
     (0x4AFC1900, 0x00000000, .movg ⟨true, .lane⟩ true 112 50),
     (0x4FFB4000, 0xF23F66B6, .movi ⟨true, .lane⟩ true 109 4064241334),
     (0x5BD8C500, 0x00000000, .movs ⟨true, .group⟩ true 99 10),
     (0x44820000, 0x00000000, .nop ⟨true, .lane⟩),
     (0x46FC3C18, 0x40064000, .oadm ⟨true, .lane⟩ ⟨false, 4⟩ 112 120 24 50),
     (0x66FC8406, 0x90160000, .osgd ⟨true, .set⟩ ⟨true, 1⟩ 114 8 6 48),
     (0x58C435F2, 0x00000000, .orLr ⟨true, .group⟩ true 16 107 114),
     (0x4A43BE84, 0x00000000, .orLi ⟨true, .lane⟩ true 14 125 4),
     (0x56008432, 0x62600040, .orXi ⟨true, .group⟩ false ⟨false, 6⟩ 2 8 50 .n32),
     (0x56601521, 0xB0A6709F, .pfg ⟨true, .group⟩ ⟨true, 3⟩ 42 1 422047),
     (0x54EE8000, 0x00000000, .phf ⟨true, .group⟩ 14),
     (0x44F84000, 0x00000000, .phw ⟨true, .lane⟩ 24 true)] = true := by
  decide +kernel
theorem test_words_6 : wordsAre
    [(0x66008206, 0xB100040E, .plop ⟨true, .set⟩ false ⟨true, 3⟩ 2 4 6 14 true),
     (0x5E1A1700, 0xD0700040, .popc ⟨true, .group⟩ true ⟨true, 5⟩ 104 46),
     (0x5E152838, 0x90AC2040, .pswz ⟨true, .group⟩ true ⟨true, 1⟩ 84 80 56 97),
     (0x6653202D, 0x6034CB60, .qmx ⟨true, .set⟩ ⟨false, 6⟩ 76 64 45 38 .e2m1 2 true),
     (0xD7433800, 0x59A367E6, .rast ⟨true, .group⟩ 6 28 1503881190),
     (0x652F2E10, 0x00000000, .recv ⟨true, .set⟩ 92 15 1),
     (0x45182810, 0x00000000, .send ⟨true, .lane⟩ 80 24 1),
     (0x66800213, 0x370FA840, .redg ⟨true, .set⟩ ⟨false, 3⟩ 4 19 125 7 false 2 .n32),
     (0x46801E48, 0x8A800980, .redp ⟨true, .lane⟩ ⟨true, 0⟩ 60 72 0 10 false 2 .f32),
     (0x56801811, 0x6B500A00, .reds ⟨true, .group⟩ ⟨false, 6⟩ 48 17 0 11 true 2 .bf16),
     (0x54800000, 0x00000000, .ret ⟨true, .group⟩),
     (0x472BB408, 0x90000004, .rxbox ⟨true, .lane⟩ ⟨true, 1⟩ 46 104 8 4),
     (0x473E0468, 0xE0100003, .rxtri ⟨true, .lane⟩ ⟨true, 6⟩ 120 8 104 3),
     (0xD347B400, 0x00000000, .sets ⟨true, .group⟩ 15 26),
     (0x56A53E74, 0x800B2820, .shfl ⟨true, .group⟩ ⟨true, 0⟩ 20 124 116 89 true 2 false),
     (0x59014D04, 0x00000000, .shlLr ⟨true, .group⟩ true 5 26 4),
     (0x4A8C0C02, 0x00000000, .shlLi ⟨true, .lane⟩ true 48 24 2),
     (0x460411EE, 0xA2800040, .shlXi ⟨true, .lane⟩ false ⟨true, 2⟩ 16 35 110 .n32),
     (0x692183A4, 0x00000000, .shrLr ⟨true, .set⟩ true 6 7 36),
     (0x5ABF8384, 0x00000000, .shrLi ⟨true, .group⟩ true 126 7 4),
     (0x56021C0C, 0x72900040, .shrXi ⟨true, .group⟩ false ⟨false, 7⟩ 8 56 12 .n32),
     (0x49510806, 0x00000000, .shraLr ⟨true, .lane⟩ true 68 16 6),
     (0x5AC1851C, 0x00000000, .shraLi ⟨true, .group⟩ true 6 10 28),
     (0x5E1001BC, 0xA2A00000, .shraXi ⟨true, .group⟩ true ⟨true, 2⟩ 64 3 60 .i32)] = true := by
  decide +kernel
theorem test_words_7 : wordsAre
    [(0x46622824, 0xF0900003, .stc ⟨true, .lane⟩ ⟨true, 7⟩ 8 80 2 1 3),
     (0x66770647, 0xF0118091, .stg ⟨true, .set⟩ ⟨true, 7⟩ 92 12 4 1 3 98449),
     (0x43A2A06A, 0x00000000, .stkLm ⟨true, .lane⟩ 10 64 106),
     (0x56620C32, 0x107A5AE3, .stkXm ⟨true, .group⟩ ⟨false, 1⟩ 8 24 3 2 678627),
     (0x6366B04A, 0x00000000, .stpLm ⟨true, .set⟩ 26 96 74),
     (0x46761B24, 0xD057ADD3, .stpXm ⟨true, .lane⟩ ⟨true, 5⟩ 88 54 2 1 503251),
     (0x43303A0D, 0x00000000, .stsLm ⟨true, .lane⟩ 64 116 13),
     (0x46741830, 0x203BD474, .stsXm ⟨true, .lane⟩ ⟨false, 2⟩ 80 48 3 775284),
     (0x57030200, 0x9025E001, .texg ⟨true, .group⟩ ⟨true, 1⟩ 12 4 47 1),
     (0x57060428, 0xD0148000, .texl ⟨true, .group⟩ ⟨true, 5⟩ 24 8 40 36),
     (0x47081C00, 0x80052000, .texs ⟨true, .lane⟩ ⟨true, 0⟩ 32 56 41),
     (0xF1E20000, 0x00000000, .time ⟨true, .team⟩ 4),
     (0xE3607800, 0x00000000, .tlbiPage ⟨true, .set⟩ 60),
     (0xD3600A01, 0x00000000, .tlbiCtx ⟨true, .group⟩ 5),
     (0xE3600002, 0x00000000, .tlbiAll ⟨true, .set⟩),
     (0x548659B9, 0x00000000, .trap ⟨true, .group⟩ 22969),
     (0xF32C1608, 0x00000000, .tspn ⟨true, .team⟩ 24 11 1),
     (0xF3001070, 0x00000000, .tsus ⟨true, .team⟩ 8 14),
     (0xF0085040, 0x00000000, .uadd ⟨true, .team⟩ 16 40 8),
     (0xD03850F8, 0x00000000, .usub ⟨true, .group⟩ 48 40 31),
     (0xD05C1E60, 0x00000000, .umul ⟨true, .group⟩ 56 15 12),
     (0xD0686840, 0x00000000, .uand ⟨true, .group⟩ 16 52 8),
     (0xF08FB440, 0x00000000, .uor ⟨true, .team⟩ 31 26 8),
     (0xD0A31140, 0x00000000, .uxor ⟨true, .group⟩ 6 8 40)] = true := by
  decide +kernel
theorem test_words_8 : wordsAre
    [(0xF0D754E0, 0x00000000, .ushl ⟨true, .team⟩ 46 42 28),
     (0xF0E3A021, 0x00000000, .ushr ⟨true, .team⟩ 7 16 4 true),
     (0xE6201001, 0x9C9DCA1F, .ubra ⟨true, .set⟩ 8 true 2627586591),
     (0xF1042182, 0x00000000, .ucmp ⟨true, .team⟩ 8 16 48 2),
     (0xE19B72A8, 0x00000000, .uldShared ⟨true, .set⟩ 54 57 21),
     (0xD1858961, 0x00000000, .uldPad ⟨true, .group⟩ 11 4 44),
     (0xF18461A2, 0x00000000, .uldGlobal ⟨true, .team⟩ 8 48 52),
     (0xD1B84610, 0x00000000, .ustShared ⟨true, .group⟩ 48 35 2),
     (0xD1A17481, 0x00000000, .ustPad ⟨true, .group⟩ 2 58 16),
     (0xE1AE0D02, 0x00000000, .ustGlobal ⟨true, .set⟩ 28 6 32),
     (0xE64F8000, 0x186F8D8B, .uloop ⟨true, .set⟩ 31 409963915),
     (0xD14C2200, 0x00000000, .umov ⟨true, .group⟩ 24 17),
     (0xD6070000, 0x8561F8ED, .umovi ⟨true, .group⟩ 14 2237790445),
     (0xE16C3A00, 0x00000000, .umovv ⟨true, .set⟩ 24 58),
     (0xE12C1500, 0x00000000, .usel ⟨true, .set⟩ 24 10 32),
     (0x56A18280, 0xC0108828, .vote ⟨true, .group⟩ ⟨true, 4⟩ 6 5 4 true 2 true),
     (0xD2BE2800, 0x00000000, .wbak ⟨true, .group⟩ 60 20),
     (0xE25C5000, 0x00000000, .wpin ⟨true, .set⟩ 56 40),
     (0xF284D000, 0x00000000, .wpub ⟨true, .team⟩ 9 40),
     (0xE2601018, 0x00000000, .wunp ⟨true, .set⟩ 8 3),
     (0x58FE0FD8, 0x00000000, .xorLr ⟨true, .group⟩ true 120 31 88),
     (0x4A7F4364, 0x00000000, .xorLi ⟨true, .lane⟩ true 125 6 100),
     (0x5E12203C, 0xA2700000, .xorXi ⟨true, .group⟩ true ⟨true, 2⟩ 72 64 60 .i32),
     (0x54830000, 0x00000000, .yld ⟨true, .group⟩)] = true := by
  decide +kernel

/-! ## Worked examples of the specification -/

/-- The small team with vector registers (lane, register, value) and predicates (number, mask) of its group. -/
def given (vs : List (Nat × Nat × Word)) (ps : List (Nat × Mask)) (s : State) : State :=
  inGroup (fun g => { vs.foldl (fun g v => g.wv v.1 v.2.1 v.2.2) g with p := ps }) s
/-- The group after the instruction of two words, with its results written. -/
def ran (w0 w1 : Nat) (s : State) : Option Group :=
  match decodeWords w0 w1 with
  | .ok i => match exec i s with
    | .next s => (s.group? 0 0).map Group.deliver
    | .fault _ => none
    | .refused _ => none
  | .error _ => none
/-- Lane 0's registers become these, its predicates these, and its sticky flags these. -/
def lane0 (vs : List (Nat × Word)) (ps : List (Nat × Mask)) (w0 w1 : Nat) (wants : List (Nat × Word)) (preds : List (Nat × Bool)) (fl : Flags) : Bool :=
  (ran w0 w1 (given (vs.map (fun v => (0, v.1, v.2))) ps demo)).any (fun g =>
    wants.all (fun v => g.rv 0 v.1 == v.2) && preds.all (fun p => g.rp 0 p.1 == p.2) && (g.lane 0).fl == fl)
/-- The group's registers (lane, register, value) become these. -/
def lanes (vs : List (Nat × Nat × Word)) (ps : List (Nat × Mask)) (w0 w1 : Nat) (wants : List (Nat × Nat × Word)) : Bool :=
  (ran w0 w1 (given vs ps demo)).any (fun g => wants.all (fun v => g.rv v.1 v.2.1 == v.2.2))
/-- R311 to R327, R349 to R361, R373, R393, R401, R416: worked values of integer instructions. -/
theorem test_integer_examples : every
    [lane0 [(2, 0xF2345678), (3, 0x804)] [] 0x06004103 0x70500040 [(1, 0x67)] [] 0, lane0 [(2, 0xF2345678), (3, 0x804)] [] 0x06004103 0x70500000 [(1, 0x67)] [] 0,
     lane0 [(2, 0xF2345678), (3, 0x81C)] [] 0x06004103 0x70500040 [(1, 0xF)] [] 0, lane0 [(2, 0xF2345678), (3, 0x81C)] [] 0x06004103 0x70500000 [(1, 0xFFFFFFFF)] [] 0,
     lane0 [(1, 9), (2, 0xF2345678), (3, 0x30)] [] 0x06004103 0x70500000 [(1, 0)] [] 0, lane0 [(2, 0xF2345678), (3, 0x804)] [] 0x06004103 0x70608040 [(1, 0x780)] [] 0,
     lane0 [(2, 0x89ABCDEF), (3, 0x01234567), (4, 8)] [] 0x06004103 0x70B08041 [(1, 0x6789ABCD)] [] 0,
     lane0 [(2, 0x89ABCDEF), (3, 0x01234567), (4, 8)] [] 0x06004103 0x70B08040 [(1, 0x23456789)] [] 0,
     lane0 [(2, 0x7FFF0001), (3, 0x0001FFFF)] [] 0x06004103 0x72000081 [(1, 0x7FFF0000)] [] 0, lane0 [(2, 0x7FFF0001), (3, 0x0001FFFF)] [] 0x06004103 0x72000080 [(1, 0x80000000)] [] 0,
     lane0 [(2, 0xFFFFFFFF), (3, 1)] [] 0x06004103 0x72300040 [(1, 1)] [] 0, lane0 [(2, 0xFFFFFFFF), (3, 1)] [] 0x00604103 0 [(1, 0xFFFFFFFF)] [] 0,
     lane0 [(0, 9), (2, 0xFFFFFFFF), (4, 1)] [] 0x06000104 0x70C0004F [(0, 0)] [(1, true)] 0, lane0 [(3, 0), (5, 0)] [(1, 1)] 0x06004185 0x70C00079 [(1, 1)] [] 0,
     lane0 [(5, 1), (7, 0xFFFFFFFF)] [(3, 1)] 0x06008206 0x311003C6 [] [(2, true)] 0, lane0 [(5, 1), (7, 0xFFFFFFFF)] [(2, 1), (3, 1)] 0x06008206 0x311003C2 [] [(2, false)] 0,
     lane0 [(2, 0x010203FF), (3, 0x01010101), (4, 10)] [] 0x06004103 0x70E08100 [(1, 15)] [] 0, lane0 [(2, 0x010203FF), (3, 0x01010101), (4, 10)] [] 0x06004103 0x70E08140 [(1, 271)] [] 0,
     lane0 [(2, 0x80000000), (3, 2)] [] 0x06004103 0x70000000 [(1, 0xFFFFFFFF)] [] 0, lane0 [(2, 0x80000000), (3, 2)] [] 0x06004103 0x70000040 [(1, 1)] [] 0,
     lane0 [(2, 0xFFFFFFF8), (3, 0x7F00), (4, 1)] [] 0x06000104 0x70D00043 [(0, 0), (1, 0x7F01)] [] 0,
     lane0 [(2, 0xFFFFFFF8), (3, 0x7F00), (4, 0xFFFFFFFF)] [] 0x06000104 0x70D00003 [(0, 0xFFFFFFF0), (1, 0x7F00)] [] 0,
     lane0 [(2, 0x44332211), (3, 0x88776655), (4, 0x03020100)] [] 0x06004103 0x70A08040 [(1, 0x44332211)] [] 0,
     lane0 [(2, 0x44332211), (3, 0x88776655), (4, 0x04050607)] [] 0x06004103 0x70A08040 [(1, 0x55667788)] [] 0,
     lane0 [(2, 0x44332211), (3, 0x88776655), (4, 0x30001027)] [] 0x06004103 0x70A08040 [(1, 0x881100FF)] [] 0,
     lane0 [(2, 0x44332211), (3, 0x88776655), (4, 8)] [] 0x06004103 0x70A08040 [(1, 0x111111EE)] [] 0,
     lane0 [(2, 0x80000010), (3, 4)] [] 0x01404103 0 [(1, 0xF8000001)] [] 0, lane0 [(2, 0x80000010), (3, 4)] [] 0x01204103 0 [(1, 0x08000001)] [] 0,
     lane0 [(2, 0x80000010), (3, 40)] [] 0x01404103 0 [(1, 0xFFFFFFFF)] [] 0, lane0 [(1, 9), (2, 0x80000010), (3, 40)] [] 0x01204103 0 [(1, 0)] [] 0] = true := by
  decide +kernel
/-- R104, R346 to R353, R359, R395: worked values of float instructions. -/
theorem test_float_examples : every
    [lane0 [(2, 0x3F800000), (3, 0x33800000)] [] 0x01804103 0 [(1, 0x3F800000)] [] fNX, lane0 [(2, 0x3F800000), (3, 0x33800000)] [] 0x06204103 0x70100980 [(1, 0x3F800001)] [] fNX,
     lane0 [(2, 0x7E00)] [(0, 1), (1, 1)] 0x06204103 0x010001CC [] [(1, false)] fNV, lane0 [(2, 0x7E00)] [(0, 1)] 0x06204103 0x010001CB [] [(1, true)] 0,
     lane0 [(2, 0x3F800800), (3, 0x3F800800), (4, 0xBF800000)] [] 0x06204103 0x70008180 [(1, 0x3A000400)] [] 0,
     lane0 [(2, 0x3F800800), (3, 0x3F800800)] [] 0x01A04103 0 [(1, 0x3F801000)] [] fNX, lane0 [(2, 0x3F801000), (3, 0xBF800000)] [] 0x01804103 0 [(1, 0x3A000000)] [] 0,
     lanes [(0, 2, 0x40200000)] [] 0x06204100 0x70500180 [(0, 1, 0x40000000)], lanes [(0, 2, 0xC0200000)] [] 0x06204100 0x70500D80 [(0, 1, 0xC0400000)],
     lanes [(0, 2, 0xBECCCCCD)] [] 0x06204100 0x70500580 [(0, 1, 0x80000000)], lanes [(0, 2, 0x3F000000)] [] 0x06204100 0x70500980 [(0, 1, 0x3F800000)],
     lane0 [(2, 0x3C007BFF), (3, 0x3C003C00)] [] 0x06204103 0x70D001C0 [(1, 0x40007BFF)] [] fNX, lane0 [(2, 0x3C007BFF), (3, 0x3C003C00)] [] 0x06204103 0x70D009C0 [(1, 0x40007C00)] [] (fOF ||| fNX),
     lane0 [(2, 0x40400000)] [] 0x06204100 0x70600180 [(1, 0x3EAAAAAB)] [] fNX, lane0 [(2, 0x40000000)] [] 0x06204100 0x70800180 [(1, 0x3FB504F3)] [] fNX,
     lane0 [(2, 0x3F000000)] [] 0x06204100 0x70A00180 [(1, 0xBF800000)] [] 0, lane0 [(2, 0x3E800000)] [] 0x06204100 0x70B00180 [(1, 0x3F800000)] [] 0,
     lane0 [(2, 0xBF000000)] [] 0x06204100 0x70B00180 [(1, 0x80000000)] [] 0, lane0 [(1, 9), (2, 0x3E800000)] [] 0x06204100 0x70C00180 [(1, 0)] [] 0,
     lane0 [(2, 0x80000000)] [] 0x06204100 0x70800180 [(1, 0x80000000)] [] 0] = true := by decide +kernel
/-- R104, R334 to R338, R403: worked conversions. -/
theorem test_conversion_examples : every
    [lane0 [(5, 0x43FA0000)] [] 0x0640C280 0x70000246 [(3, 0x7E)] [] (fOF ||| fNX), lane0 [(5, 0x43960000)] [] 0x0640C280 0x70000246 [(3, 0x79)] [] fNX,
     lane0 [(5, 0x4788B800)] [] 0x0640C280 0x70000286 [(3, 0x7C)] [] (fOF ||| fNX), lane0 [(5, 0x4788B800)] [] 0x0640C280 0x70000296 [(3, 0x7B)] [] (fOF ||| fNX),
     lane0 [(5, 0x40200000)] [] 0x0640C280 0x70000346 [(3, 4)] [] fNX, lane0 [(5, 0xBE99999A)] [] 0x0640C280 0x70000346 [(3, 9)] [] (fUF ||| fNX),
     lane0 [(3, 9), (5, 0x7FC00000)] [] 0x0640C280 0x70000346 [(3, 0)] [] fNV,
     lane0 [(8, 0x3F800000), (9, 0xC0000000), (10, 0x43FA0000), (11, 0x7FC00000)] [] 0x0641040A 0x70100246 [(4, 0x7F7EC038)] [] (fOF ||| fNX),
     lane0 [(5, 0x3A), (6, 0x78)] [] 0x0640C286 0x70200189 [(3, 0x3C200000)] [] 0, lane0 [(5, 0x3A), (6, 0xFF)] [] 0x0640C286 0x70200189 [(3, 0x7FC00000)] [] 0,
     lane0 [(4, 0x3A7C), (2, 0x78000000)] [] 0x06440200 0x70404246 [(16, 0x40400000), (17, 0x3C200000)] [] 0,
     lane0 [(4, 0x3A7C), (2, 0x78000000)] [] 0x06440200 0x70404247 [(16, 0x21004200)] [] 0,
     lanes [(0, 16, 0x40400000), (0, 17, 0x3C23D70A), (0, 5, 9)] [] 0x16410800 0x70304240 [(0, 4, 0x3A7C), (0, 5, 0), (0, 6, 0), (0, 7, 0), (0, 2, 0x78000000), (1, 2, 0x78000000)]] = true := by
  decide +kernel
/-- The guard p1 holds in lanes 0 to 3, and 1.0 and three times 2⁻²⁴ stand in v4. -/
def four : List (Nat × Nat × Word) := [(0, 4, 0x3F800000), (1, 4, 0x33800000), (2, 4, 0x33800000), (3, 4, 0x33800000), (4, 5, 9)]
/-- R315, R356, R357, R380, R415, R442: worked values of group instructions. -/
theorem test_group_examples : every
    [lanes four [(1, 0xF)] 0x16A14200 0x10300180 [(0, 5, 0x3F800001), (1, 5, 0x3F800001), (3, 5, 0x3F800001), (4, 5, 9)],
     lanes four [(1, 0xF)] 0x16A14200 0x10400180 [(0, 5, 0x3F800000), (1, 5, 0x3F800000), (2, 5, 0x3F800000), (3, 5, 0x3F800000), (4, 5, 9)],
     lanes ((0, 5, 9) :: four) [(1, 0xF)] 0x16A14200 0x10400580 [(0, 5, 0), (1, 5, 0x3F800000), (2, 5, 0x3F800000), (3, 5, 0x3F800000), (4, 5, 9)],
     lanes [(0, 4, 7), (1, 4, 9), (2, 4, 7), (3, 4, 7), (4, 5, 9)] [(1, 0xF)] 0x16A14200 0x10200000 [(0, 5, 0xD), (1, 5, 2), (2, 5, 0xD), (3, 5, 0xD), (4, 5, 9)],
     lanes [(0, 4, 10), (1, 4, 11), (2, 4, 12), (3, 4, 13), (0, 6, 1), (1, 6, 1), (3, 6, 1), (2, 5, 9)] [(1, 0xB)] 0x16A14206 0x10000800 [(0, 5, 11), (1, 5, 11), (2, 5, 9), (3, 5, 13)],
     lanes [(4, 5, 9)] [(2, 0xD), (3, 0xF)] 0x16A14100 0x30100800 [(0, 5, 0xD), (3, 5, 0xD), (4, 5, 9)],
     (ran 0x16A04100 0x30100408 (given [] [(1, 0xFFFFFFFF), (2, 0xD), (3, 0xF)] demo)).any (fun g => !g.rp 0 1 && !g.rp 3 1 && g.rp 4 1),
     (ran 0x06808184 0x10600040 (given [(0, 3, 0x100), (1, 3, 0x100), (2, 3, 0x100), (3, 3, 0x100), (0, 4, 1), (1, 4, 2), (2, 4, 3), (3, 4, 4), (4, 2, 9)] [(1, 0xF)]
       (inTeam (fun t => { t with shm := [(0x100, 10)] }) demo))).any (fun g => [0, 1, 2, 3, 4].map (fun l => g.rv l 2) == [10, 11, 13, 16, 9])] = true := by decide +kernel
/-- The first register that lane 0 receives of an MMA.BF16 in a group. -/
def mma0 (s : State) : Option Wr :=
  (s.group? 0 0).bind (fun g => ((mmaLanes 0 g 1 .bf16 16 0 16 (fun k j => fragElem g .bf16 4 j k))[0]?).bind (fun r => r.ws[0]?))
/-- R113 to R116, R384, R385: the worked values of the matrix instructions. -/
theorem test_matrix_examples : every
    [mma0 (given ([(0, 0, 0x33803380), (0, 1, 0x33803380), (0, 16, 0x3F800000)] ++ [4, 5, 6, 7].flatMap (fun r => [(0, r, 0x3F803F80), (1, r, 0x3F803F80)])) [] demo) ==
       some (.v 16 0x3F800002),
     mmaOut 0 [(scaled (mxVal .e4m3 0x38) 0x7D, scaled (mxVal .e4m3 0x40) 0x80)] == 0x3F800000, mmaOut 0 [(scaled (mxVal .e4m3 0x38) 0xFF, scaled (mxVal .e4m3 0) 0x80)] == 0x7FC00000,
     mmaOut 0 [(.inf false, fmtBF16.val 0)] == 0x7FC00000, mmaOut 0 [(.inf false, fmtBF16.val 0x4000)] == 0x7F800000,
     mmaOut 0x7F800000 [(.inf false, fmtBF16.val 0xBF80)] == 0x7FC00000] = true := by decide +kernel
/-- R394, R413, R432, R434: worked values of optimiser, ray and uniform instructions. -/
theorem test_other_examples : every
    [(ran 0x06E2860E 0x70010000 (inGroup (fun g => ((((g.wg 8 0x3F000000).wg 9 0x3F400000).wg 10 0x40000000).wg 11 0x40800000).wg 12 0x3E800000) (given
       [(0, 10, 0x3F800000), (0, 14, 0x40000000)] [] demo))).any (fun g => [10, 11, 12, 13].map (g.rv 0) == [0x3F400000, 0x3F40, 0x3F800000, 0x3F800000] && (g.lane 0).fl == 0),
     lane0 [(2, 0xBF800000), (6, 0x3F800000), (7, 0x41200000), (8, 0xBF800000), (9, 0xBF800000), (11, 0x3F800000), (12, 0xBF800000), (15, 0x3F800000)] [] 0x07250008 0x70100001
       [(20, 0x3F800000), (21, 0x3E800000), (22, 0x3F000000), (23, 1)] [(1, true)] 0,
     lane0 [(2, 0xBF800000), (6, 0x3F800000), (7, 0x3F000000), (8, 0xBF800000), (9, 0xBF800000), (11, 0x3F800000), (12, 0xBF800000), (15, 0x3F800000), (20, 9)] [] 0x07250008 0x70100001
       [(20, 9)] [(1, false)] 0,
     (ran 0x90E18829 0 (inGroup (fun g => (g.wg 4 0x80000010).wg 5 4) demo)).any (fun g => g.rg 3 == 0xF8000001),
     (ran 0x90E18829 0 (inGroup (fun g => (g.wg 4 0x80000010).wg 5 40) demo)).any (fun g => g.rg 3 == 0xFFFFFFFF),
     (ran 0x9101882E 0 (inGroup (fun g => ((g.wg 3 9).wg 4 0xFFFFFFFF).wg 5 1) demo)).any (fun g => g.rg 3 == 0), (ran 0x9101882A 0 (inGroup (fun g => (g.wg 4 0xFFFFFFFF).wg 5 1) demo)).any (fun g => g.rg 3 == 1),
     [maxKey 0x3C00 5, maxKey 0x3C00 9, maxKey 0 2, maxKey 0x8000 3, maxKey 0xC000 1, maxKey 0x7E00 7] == [0xBC00FFFA, 0xBC00FFF6, 0x8000FFFD, 0x7FFFFFFC, 0x3FFFFFFE, 0xFFFFFFF8],
     State.reset.homeSlice 0x1234567880 == 43, hbmChannel 0x1234567880 == (0, 8)] = true := by decide +kernel
/-- R273 to R278: the load whose lane 1 is misaligned and lane 2 out of bounds. -/
theorem test_partial_fault :
    (match exec (.ldsXm hl false ⟨false, 1⟩ 4 2 3 0) (given [(0, 2, 0x100), (1, 2, 0x10C), (2, 2, 0x800), (1, 4, 9)] [(1, 7)]
        (inTeam (fun t => { t with la := { t.la with hdr := { t.la.hdr with shared := 0x800 } }, shm := [(0x100, 1), (0x104, 2)] }) demo)) with
    | .next s => ((s.group? 0 0).map Group.deliver).any (fun g => g.rv 0 4 == 1 && g.rv 0 5 == 2 && g.rv 1 4 == 9) &&
        ((s.team? 0).bind (·.halt)).any (fun h => h.code == tALIGN && h.low == 1 && h.addr == 0x10C &&
          h.ents.map (fun e => (e.ecode, e.mask, e.sib)) == [(0, 0xFFFFFFF9, 6), (tALIGN, 2, 0xFFFFFFFD), (tBOUNDS, 4, 0xFFFFFFFB)])
    | _ => false) = true := by decide +kernel

/-! ## Words that are refused -/

/-- Are they all ill-formed. -/
def illFormed (l : List Instr) : Bool := l.all (fun i => !wellFormed i)
theorem test_ill_formed_1 : illFormed
    [.andXi hl false pt 1 2 3 .f32, .ared hl 1 2 0, .atomg hl pt 2 4 6 0 14 false 0 .n32, .atomg hl pt 2 4 6 0 0 false 0 .f32,
     .atomg hl pt 2 4 6 8 0 false 0 .n32, .atomg hl pt 2 4 6 0 0 true 0 .n32, .atomg hl pt 2 4 6 0 0 false 4 .n32, .atomg hl pt 2 5 6 0 0 false 0 .n32,
     .atomg hl pt 3 4 6 0 0 false 0 .i64, .atomg hl pt 2 4 7 0 0 false 0 .i64, .atomg hl pt 2 4 6 9 7 false 0 .i64, .atomp hl pt 2 4 6 0 0 false 0 .i64,
     .atomp hl pt 2 4 6 1 0 false 0 .n32, .atomp hl pt 2 4 6 0 0 true 0 .n32, .atomp hl pt 2 4 6 0 0 false 4 .n32, .atoms hl pt 2 4 6 0 15 false 0 .n32,
     .atoms hl pt 2 4 6 0 0 false 0 .i64, .bar hl 0 false 1 false, .bara hl 0 false 1, .bfx hl false pt 1 2 3 .i16, .clk hl 2, .clk hg 3, .cpy hl 1 2 0,
     .cpyg hl 1 2 0, .cpyr hl 1 2 0, .cpyt hl 1 2 0, .cvt hl false pt 1 2 .f32 5 .f16 false, .cvt hl false pt 1 3 .f32 0 .i64 false,
     .cvt hl false pt 1 2 .i64 0 .f32 false, .cvtp hl false pt 1 4 8 .e4m3 5 false, .cvtp hl false pt 1 4 8 .f32 0 false,
     .cvtp hl false pt 1 3 8 .e4m3 0 false, .cvtp hl false pt 1 4 6 .e2m1 0 false, .cvtx hl false pt 1 2 3 .f32 0 .e8m0 false,
     .cvtx hl false pt 1 2 3 .i64 0 .f32 false, .cvtx hl false pt 1 2 3 .f32 5 .f16 false, .dqmx hl pt 16 4 2 .f16 0 .f32, .dqmx hl pt 16 4 2 .e4m3 0 .i8,
     .dqmx hl pt 16 5 2 .e4m3 0 .f32, .dqmx hl pt 8 4 2 .e4m3 0 .f32] = true := by decide +kernel
theorem test_ill_formed_2 : illFormed
    [.dqmx hl pt 16 4 2 .e4m3 5 .f32, .eqry hl 1 2, .ewt hl 2, .faddXf hl false pt 1 2 3 4, .fcmpLc hl false 1 2 3 9, .fcmpXf hl false pt 1 2 3 .i32 12,
     .fcmpXf hl false pt 1 2 3 .f32 9, .ffma hl false pt 1 2 3 4 4, .fmulXf hl false pt 1 2 3 4, .frnd hl false pt 1 2 4, .gargx hl pt 1 2 3 true 0,
     .gargx hg pt 1 2 3 false 0, .gargx hg pt 1 2 0 false 2, .gred hl pt 1 2 3 true 0 .n32 false, .gred hg pt 1 2 3 false 0 .n32 false,
     .gred hg pt 1 2 0 false 0 .n32 true, .gred hs pt 16 2 0 false 0 .n32 true, .gred hs pt 1 16 0 false 0 .n32 true, .gred hg pt 1 2 0 false 6 .n32 false,
     .gred hg pt 1 2 0 false 0 .i16 false, .gred hg pt 1 2 0 false 3 .f32 false, .gscan hl pt 1 2 3 true 0 .n32, .gscan hg pt 1 2 3 false 0 .n32,
     .gscan hg pt 1 2 0 false 3 .n32, .gscan hg pt 1 2 0 false 0 .i64, .gwait hl, .hadd2 hl false pt 1 2 3 .f32 0, .hadd2 hl false pt 1 2 3 .f16 4,
     .hfma2 hl false pt 1 2 3 4 .f32 0, .hfma2 hl false pt 1 2 3 4 .f16 4, .hmul2 hl false pt 1 2 3 .f32 0, .hmul2 hl false pt 1 2 3 .f16 4, .hgb hl 1 2 0,
     .hgf hl 1 2 0, .iaddXi hl false pt 1 2 3 .i8 false, .imaxXi hl false pt 1 2 3 .i64, .iminXi hl false pt 1 2 3 .i64, .imulXi hl false pt 1 2 3 .i16,
     .isubXi hl false pt 1 2 3 .f32 false, .icmpLc hl false 1 2 3 10] = true := by decide +kernel
theorem test_ill_formed_3 : illFormed
    [.icmpXi hl false pt 1 2 3 .i16 0, .icmpXi hl false pt 1 2 3 .i32 10, .icmpXi hl false pt 1 3 4 .i64 0, .icmpXi hl false pt 1 2 5 .i64 0,
     .idp4 hl false pt 1 2 3 4 .i32, .imad hl false pt 1 2 3 4 .i16, .imadw hl false pt 1 2 3 4 .n32, .imadw hl false pt 2 2 3 5 .n32,
     .imadw hl false pt 2 2 3 4 .i64, .imulh hl false pt 1 2 3 .i64, .ldg hl false pt 4 2 7 0 0 0, .ldg hl false pt 4 2 2 2 0 0,
     .ldg hl false pt 4 3 2 0 0 0, .ldg hl false pt 5 2 3 0 0 0, .ldg hl false pt 6 2 4 0 0 0, .ldg hl true pt 4 2 2 1 0 0, .ldkXm hl false pt 4 2 7 0 0,
     .ldkXm hl false pt 5 2 3 0 0, .ldpXm hl false pt 4 2 7 0 0, .ldpXm hl false pt 4 2 2 2 0, .ldpXm hl false pt 5 2 3 0 0, .ldpXm hl true pt 4 2 2 1 0,
     .ldsXm hl false pt 4 2 7 0, .ldsXm hl false pt 5 2 3 0, .ldr hl pt 4 2 0 0 0, .ldr hl pt 4 2 2 2 0, .ldr hl pt 4 3 2 0 0, .ldr hl pt 5 2 3 0 0,
     .lea hl false pt 2 4 6 .i16 0, .lea hl false pt 3 4 6 .n32 0, .lea hl false pt 2 5 6 .n32 0, .lnxt hl, .matchLanes hl pt 1 2 3 true .i32,
     .matchLanes hg pt 1 2 3 false .i32, .matchLanes hg pt 1 2 0 false .n32, .matchLanes hg pt 1 3 0 false .i64, .mld hg pt 8 2 .f16 3,
     .mld hg pt 8 2 .f16 2, .mld hg pt 4 2 .f32 2, .mld hg pt 8 2 .f32 0] = true := by decide +kernel
theorem test_ill_formed_4 : illFormed
    [.mld hg pt 2 2 .f16 0, .mld hs pt 16 2 .f16 1, .mld hs pt 4 2 .e4m3 1, .mma hg pt 8 4 4 8 .f32, .mma hg pt 4 4 4 8 .f16, .mma hg pt 8 2 4 8 .f16,
     .mma hg pt 8 4 4 4 .f16, .mma hg pt 8 4 2 8 .f16, .mma hs pt 8 4 16 8 .f16, .mma hs pt 8 4 4 8 .e4m3, .mmax hg pt 8 4 4 2 .f16 0 0 false,
     .mmax hs pt 8 4 4 2 .e4m3 0 0 false, .mmax hg pt 4 4 4 2 .e4m3 0 0 false, .mmax hg pt 8 2 4 2 .e4m3 0 0 false, .mmax hg pt 8 4 2 2 .e4m3 0 0 false,
     .mmax hg pt 8 4 4 3 .e4m3 0 0 false, .mst hg pt 8 2 .e4m3, .mst hg pt 4 2 .f32, .mzro hg pt 4, .movXi hl false pt 1 2 .f32, .movs hl false 1 22,
     .movs hl false 1 63, .oadm hl pt 3 4 6 8, .oadm hl pt 2 5 6 8, .oadm hl pt 2 2 6 8, .osgd hl pt 3 6 7 8, .osgd hl pt 2 2 6 8, .osgd hl pt 2 3 6 8,
     .orXi hl false pt 1 2 3 .i64, .pfg hl pt 3 0 0, .phf hl 1, .qmx hg pt 4 16 0 2 .e4m3 5 false, .qmx hg pt 4 16 0 2 .f16 0 false,
     .qmx hg pt 4 8 0 2 .e4m3 0 false, .qmx hg pt 4 16 0 2 .e2m1 0 false, .qmx hg pt 2 16 0 8 .e4m3 0 false, .qmx hg pt 4 16 0 7 .e4m3 0 false,
     .qmx hg pt 4 16 1 2 .e4m3 0 false, .rast hl 1 2 0, .recv hl 1 4 3] = true := by decide +kernel
theorem test_ill_formed_5 : illFormed
    [.recv hl 1 5 1, .send hl 1 6 2, .send hl 1 4 3, .redg hl pt 4 6 0 0 false 1 .n32, .redg hl pt 5 6 0 0 false 0 .n32, .redp hl pt 4 6 0 0 false 3 .n32,
     .redp hl pt 4 6 0 0 false 0 .i64, .reds hl pt 4 6 0 0 false 1 .n32, .reds hl pt 4 6 0 14 false 0 .n32, .rxbox hl pt 2 4 8 1, .rxbox hl pt 2 8 4 1,
     .rxbox hl pt 3 8 8 1, .rxtri hl pt 4 4 8 1, .rxtri hl pt 4 8 2 1, .rxtri hl pt 2 8 8 1, .sets hl 17 1, .sets hg 14 1, .shfl hl pt 1 2 3 4 true 0 false,
     .shfl hg pt 1 2 3 4 false 0 false, .shfl hg pt 1 2 3 0 false 4 false, .shfl hg pt 1 2 3 0 false 0 true, .shfl hs pt 16 2 3 0 false 0 true,
     .shlLi hl false 1 2 32, .shrLi hl false 1 2 32, .shraLi hl false 1 2 32, .shlXi hl false pt 1 2 3 .i16, .shrXi hl false pt 1 2 3 .i16,
     .shraXi hl false pt 1 2 3 .i16, .stc hl pt 4 2 0 0 1, .stc hl pt 4 2 2 2 1, .stc hl pt 4 3 2 0 1, .stc hl pt 5 2 3 0 1, .stg hl pt 4 2 5 0 0 0,
     .stg hl pt 4 2 2 2 0 0, .stg hl pt 4 3 2 0 0 0, .stg hl pt 5 2 3 0 0 0, .stkXm hl pt 4 2 5 0 0, .stkXm hl pt 5 2 3 0 0, .stpXm hl pt 4 2 5 0 0,
     .stpXm hl pt 4 2 2 2 0] = true := by decide +kernel
theorem test_ill_formed_6 : illFormed
    [.stpXm hl pt 5 2 3 0 0, .stsXm hl pt 4 2 5 0, .stsXm hl pt 5 2 3 0, .texg hl pt 4 3 8 0, .texg hl pt 2 2 8 0, .texl hl pt 4 3 6 8, .texl hl pt 2 2 6 8,
     .texs hl pt 4 3 8, .texs hl pt 2 2 8, .time hl 2, .time hg 3, .tlbiPage hl 2, .tlbiPage hg 3, .tlbiCtx hl 2, .tlbiAll hl, .tspn hl 1 2 3, .tsus hl 2 3,
     .uadd hl 1 2 3, .usub hl 1 2 3, .umul hl 1 2 3, .uand hl 1 2 3, .uor hl 1 2 3, .uxor hl 1 2 3, .ushl hl 1 2 3, .ushr hl 1 2 3 false,
     .ubra hl 1 false 0, .ucmp hl 1 2 3 0, .uldShared hl 1 2 3, .uldPad hl 1 2 3, .uldGlobal hl 1 2 3, .uldGlobal hg 1 3 3, .ustShared hl 1 2 3,
     .ustPad hl 1 2 3, .ustGlobal hl 1 2 3, .ustGlobal hg 1 3 3, .uloop hl 1 0, .uloop hg 0 0, .umov hl 1 2, .umovi hl 1 0, .umovv hl 1 2] = true := by decide +kernel
theorem test_ill_formed_7 : illFormed
    [.usel hl 1 2 3, .vote hl pt 1 2 3 true 0 false, .vote hg pt 1 2 3 false 0 false, .vote hg pt 1 2 0 false 3 false, .vote hg pt 8 2 0 false 0 false,
     .wbak hl 2 4, .wbak hg 3 4, .wbak hg 2 5, .wbak hg 0 4, .wpin hl 4 2, .wpin hg 2 2, .wpin hg 4 3, .wpin hg 0 2, .wpub hl 1 2, .wpub hg 1 3,
     .wunp hl 2 1, .wunp hg 3 1, .xorXi hl false pt 1 2 3 .f16] = true := by decide +kernel
/-- Words with a reserved major or code, or with a bit set that must be 0, are no instruction (R69-R90). -/
theorem test_reserved_words :
    ([(0x05400000, 0), (0x07400000, 0), (0x83800000, 0), (0x87600000, 0), (0x04870000, 0), (0x04820001, 0), (0x04B00000, 0), (0x04C0C000, 0), (0x06004103, 0x71200040), (0x06204103, 0x71100180),
      (0x06604103, 0x70B00000), (0x06804103, 0x70C00040), (0x06A14200, 0x70600000), (0x06C00000, 0x70500000), (0x06E00000, 0x70200000), (0x07000000, 0x70300000), (0x07200000, 0x70200000),
      (0x0160C481, 0), (0x98028C38, 0), (0x06004100, 0x70700041), (0x07E0C001, 5)] : List (Nat × Nat)).all (fun p => match decodeWords p.1 p.2 with
      | .ok i => !wellFormed i
      | .error _ => true) = true := by decide +kernel

/-- A register word of the next state. -/
def regAfter (r : Host.Outcome State Fault Refusal) (rd : Nat) : Option Nat :=
  match r with
  | .next t => some (t.readBar .host rd 4)
  | _ => none
/-- Privileged software enables a queue with its VEC and RLOG; the context's user mapping does not, and rings no other context's doorbell (R234, R299). -/
theorem test_user_mapping : regAfter (exec (.registerWrite .host 0x01000008 0x00050104 false) State.reset) 0x01000008 = some 0x00050104 ∧
    regAfter (exec (.registerWrite (.user 0) 0x01000008 0x00050104 false) State.reset) 0x01000008 = some 0 ∧
    regAfter (exec (.registerWrite (.user 0) 0x0100000C 1 false) State.reset) 0x0100000C = some 1 ∧
    regAfter (exec (.registerWrite (.user 1) 0x0100000C 1 false) State.reset) 0x0100000C = some 0 ∧
    State.reset.readBar .host 0x00700030 4 = 100 * 2 ^ 20 + 128 ∧ State.reset.readBar (.user 0) 0x00700030 4 = 0 := by decide +kernel

/-! ## Witnesses for the cases of the checks, the waits and the clocks -/

/-- A branch target that is no word of the code, and a call with no level left. -/
def misled : State := inGroup (fun g => g.wv 0 1 2) demo
def deepest : State := inGroup (fun g => { g with lanes := g.lanes.map (fun l => { l with depth := oneLaunch.hdr.depth }) }) demo
theorem test_branch_traps : [Instr.bra hl 0x0FFFFF, .braGuarded hl pt 0x0FFFFF].all (fun i => met (demo.performing i) (fun x0 x t => x.lanes.any (fun q =>
      (x0.group? 0 q.1).isSome && decide (targetChk t.la (x.pc + 4 * 0xFFFFF) ≠ .ok)))) = true ∧
    [Instr.brx hl 1, .brxGuarded hl pt 1].all (fun i => met (misled.performing i) (fun _ x t => x.lanes.any (fun q => match t.groups[q.1]? with
      | some g => decide (targetChk t.la (g.rv q.2 1).toNat = .fault tALIGN 2)
      | none => false))) = true ∧
    [Instr.call hl 1, .callGuarded hl pt 1, .calx hl 1, .calxGuarded hl pt 1].all (fun i => met (deepest.performing i) (fun _ x t => x.lanes.any (fun q => match t.groups[q.1]? with
      | some g => decide (callChk (fun x _ _ => x.pc + 4) t x g q.2 = .fault tDEPTH 0) && decide (callChk (fun _ g l => (g.rv l 1).toNat) t x g q.2 = .fault tDEPTH 0)
      | none => false))) = true := by decide +kernel
/-- A write of the group is still to be acknowledged. -/
def unacknowledged : State := demo.modCore 0 (fun c => { c with fly := [⟨.pad 0 0 0x800, [1, 2], 0, 0, 0, []⟩] })
theorem test_atomics_wait : [(Instr.atomg hl pt 4 2 6 8 7 false 2 .i64, Space.global, 8), (.atomp hl pt 1 2 3 0 10 false 2 .f32, .pad, 4), (.redg hl pt 2 3 0 11 true 2 .f16, .global, 2),
    (.redp hl pt 2 3 0 5 false 2 .n32, .pad, 4)].all (fun p => met (unacknowledged.atPoint p.1) (fun s x t => !t.la.bridle && pointWait true s x &&
      x.lanes.all (fun q => laneAcc p.2.1 p.2.2 true true (fun _ _ => 0) s x q.1 q.2 == .ok))) = true ∧
    met (unacknowledged.atPoint (.stc hl pt 1 2 2 1 3)) (fun s x _ => !anyOwn .global 4 (globalAddr 2 0) s x && pointWait true s x &&
      x.lanes.all (fun q => ownAcc .global 4 false (globalAddr 2 0) s x q.1 q.2 == .ok)) = true := by decide +kernel
/-- At set scope, the role of the other group forbids the instruction. -/
theorem test_set_role : (match (demoSet.modGroup 0 1 (fun g => { g with role := 1 })).issuer with
    | some (c, t, g) => g.bram.isNone && legal t.la.hdr t.la.nb (.mma hs pt 0 0 0 0 .f16) && !isPriv (.mma hs pt 0 0 0 0 .f16) && (roleGroups t c.gi .set).any (fun j => match t.groups[j]? with
      | some g => roleForbids g.role (.mma hs pt 0 0 0 0 .f16)
      | none => false)
    | none => false) = true := by decide +kernel
/-- What stands between a gathered issue and its effect. -/
def hinders (i : Instr) (s : State) (p : Pre → Bool → Bool) : Bool :=
  match s.issuer with
  | some (c, t, g) => !isEvent i && decide (screen i s t c.gi = none) && (g.bram.isNone || !stallClass i) && (match gather i s c t g with
    | .go s1 x => p (hindrance i s1 { x with part := participants s1 i x } ((s1.team? c.tid).getD t)) (speculates { x with part := participants s1 i x } ((s1.team? c.tid).getD t))
    | .stop _ => false)
  | none => false
def fencing : State := inGroup (fun g => { g with fence := some ⟨true, true, false, .core, 0, [], 0⟩ }) demo
def checkedLanes : State := inGroup (fun g => g.wv 3 2 5) (inTeam (fun t => { t with la := { t.la with chk := true } }) demo)
theorem test_hindrances :
    hinders (.ldsLm hl false 1 2 0) fencing (fun h _ => decide (h = .wait .fence)) = true ∧
    hinders (.mma hg ⟨false, 0⟩ 8 16 20 24 .f16) rowsApart (fun h v => decide (h = .trap { code := tMEMB }) && !v) = true ∧
    hinders (.mma hg ⟨false, 0⟩ 8 16 20 24 .f16) (inGroup (fun g => { g with p := [(0, 1)] }) speculating) (fun h v => decide (h = .trap { code := tMEMB }) && v) = true ∧
    hinders (.andLr hl true 1 2 3) checkedLanes (fun h v => decide (h = .trap { code := tUNIF }) && !v) = true ∧
    (match speculating.issuer with
     | some (c, t, g) => decide (screen (.bar hg 0 false 0 false) speculating t c.gi = none) && g.bram.isSome && stallClass (.bar hg 0 false 0 false)
     | none => false) = true := by decide +kernel
/-- A group of a halted die may not issue. -/
theorem test_not_chosen : (let s : State := { (asked (leBytes 4 0x0160C480)).modDie 0 (fun d => { d with power := { d.power with halted := true } }) with agenda := [] }
    match s.team? 0 with
    | some t => !s.mayIssue 0 0 && (match t.groups[0]? with
      | some g => canIssue t 0 g && decide (g.selectPath = some (64, true))
      | none => false)
    | none => false) = true := by decide +kernel
/-- The code's first sector is lost, and its page mirrored or not. -/
def codeLost (mir : Bool) : State :=
  ((asked []).modDie 0 (fun d => { d with lost := [(0x10040 / 32, 0)] })).modCore 0 (fun c => { c with tlb := [{ onePage with mir := mir }] })
theorem test_lost_code : [true, false].all (fun mir => match (codeLost mir).team? 0 with
    | some t => decide (64 < t.la.hdr.codesz) && (match t.groups[0]? with
      | some g => (g.loopWords 64).isNone && (match (codeLost mir).translate t.pcore t.ctx (t.la.base + 64) false true (g.lane 0).declined with
        | .ok ((l, _) :: _) => l.at % 8 == 0 && (codeLost mir).lostIn [(l, 4)] == !mir
        | _ => false)
      | none => false)
    | none => false) = true := by decide +kernel

theorem test_core_clocks_meet : every
    [decide (demo.blockClk 0 % 4 = 0) && decide ((demo.core 0).formed ≠ demo.blockClk 0 + 1), decide (((demo.modCore 0 (fun c => { c with formed := 1 })).core 0).formed = demo.blockClk 0 + 1),
     group0 (inGroup (fun g => { g with cinch := some 0 }) demo) (fun g => g.cinchOver false),
     group0 (inGroup (fun g => { g with cinch := some 5, path := some 64, lanes := g.lanes.map (fun l => { l with resv := some ⟨3, false⟩ }) }) demo) (fun g => !g.cinchOver false),
     (powered (fun p => { p with hbm := [(channelOf 0x4000, 1)] }) demo).flightHeld ⟨.phys 0x4000 .die false false 0, [1], 0, 0, 0, []⟩] = true := by decide +kernel
/-- The small team after one time slice of 1 ms, alone, or with another context's cluster waiting that would take its place. -/
def sliced (prio : Nat) : State :=
  ({ gridded { oneLaunch with prio := prio } with
      teams := demo.teams
      grids := [{ demoGrid { oneLaunch with prio := prio } with ctx := 1 }]
      dies := { Die.reset with time := 1000000 } :: List.replicate 3 { Die.reset with reinit := true }, unavail := (List.range 119).map (· + 1) } : State)
theorem test_slices_meet : every
    [team0 (sliced 3) (fun t => (sliced 3).sliceDue t && (sliced 3).wanted t), team0 (demo.modDie 0 (fun d => { d with time := 1000000 })) (fun t =>
       (demo.modDie 0 (fun d => { d with time := 1000000 })).sliceDue t && !(demo.modDie 0 (fun d => { d with time := 1000000 })).wanted t && t.groups.any (fun g => g.ready != 0)),
     team0 demo (fun t => !demo.sliceDue t)] = true := by decide +kernel
/-- A bridle team that has retired, with what a card wrote still to join its versions, for which there is no room. -/
def joining : State := inTeam (fun t => { t with joins := [(1, ⟨.pad 0 0 0x800, List.replicate 32 1, 0xFFFFFFFF⟩)] }) (retired (demoLaunch 1 0 true) 1)
theorem test_joins_meet : team0 joining (fun t => joining.retirable t && t.la.bridle && joining.saved == [] &&
    ((((t.joins.map Prod.fst).eraseDups.foldl (fun s x => s.joinCards 0 0 0 x) joining).team? 0).bind (·.halt)).isSome) = true := by decide +kernel
/-- A round end at step 3 whose one group ended it at an EWT. -/
def ewtEnding : State := inGroup (fun g => { g with ended := some ⟨.ewt hg 2, 64, 0xFFFFFFFF, 0xFFFFFFFF, 0, false⟩ }) (ending 3)
theorem test_resume_joins_meet : team0 ewtEnding (fun t => decide (t.roundStep = 3) && !t.idle && decide (t.chanq = []) && t.ewts == [(0, 64, 0)] &&
    t.groups.all (fun g => g.ended.isNone || g.lanes.all (fun l => !l.st.ends)) &&
    ((t.ewts.foldl (fun s e => s.joinCards 0 e.1 e.2.1 e.2.2) ewtEnding).team? 0).all (fun u => u.halt.isNone)) = true := by decide +kernel

/-- The part in recovery. -/
def recovering : State := { demo with trust := { demo.trust with recovery := true } }
theorem test_clocks_meet : every
    [!recovering.hostOpen && demo.hostOpen && State.reset.hostOpen, (((waiting 1000 6 true).graph? 0 4).any (fun g => g.chargeDue 1000)),
     decide ((({ demo with bar0 := SMap.set 0 demo.bar0 (dieOff 0 0x0040_0008) 100 }.modDie 0 (fun d => { d with time := 250 })).frame 0) ≠
       (({ demo with bar0 := SMap.set 0 demo.bar0 (dieOff 0 0x0040_0008) 100 }.modDie 0 (fun d => { d with time := 250 })).die 0).frameAt),
     decide (demo.frame 0 = (demo.die 0).frameAt)] = true := by decide +kernel

/-- The walk under way on die 0, its first entry held back or lost; a lane or no lane that waits for its page. -/
def walkAt (s : State) (c : State → Walk → Bool) : Bool := (((s.die 0).walks.take 4096).find? (fun w => w.ctx == 0)).any (fun w =>
  c ((s.walkUse 0 w.va).modDie 0 (fun x => { x with walks := x.walks.filter (fun k => !(k.ctx == 0 && pageOf k.va == pageOf w.va)) })) w)
def walkAsleep : State := powered (fun p => { p with hbm := [(channelOf 0x4000, 1)] }) (walking 0 0x1000)
def walkGone : State := (walking 0 0x1000).modDie 0 (fun d => { d with lost := [(0x4000 / 32, 0)] })
theorem test_walk_cases_meet : every
    [walkAt (walking 0 0x1000) (fun s w => !(walking 0 0x1000).walkHeld 0 w.va && !s.walkLost 0 w.va), walkAt walkAsleep (fun _ w => walkAsleep.walkHeld 0 w.va),
     walkAt walkGone (fun s w => !walkGone.walkHeld 0 w.va && s.walkLost 0 w.va),
     walkAt (inGroup (fun g => { g with lanes := g.lanes.map (fun l => { l with st := .parked (.walk (2 ^ 48) false false) }) }) (walking 0 (2 ^ 48))) (fun s w =>
       s.walkWanted (fun t => dieOf t.pcore == 0 && t.ctx == 0) 0 0 (pageOf w.va)),
     !(keyed 0).ports.all (fun p => !(p.up && p.key.isSome)), demo.ports.all (fun p => !(p.up && p.key.isSome)), SMap.get 0 demo.qps 65535 == 0, SMap.get 0 ({ demo with qps := [(65535, 1)] } : State).qps 65535 != 0,
     (splitAt' 128 (2 ^ 50 + 2 ^ 40) 2) == [(2 ^ 50 + 2 ^ 40, 2)] && decide ((2 ^ 50 + 2 ^ 40) / 2 ^ 50 = 1 ∧ (2 ^ 50 + 2 ^ 40) / 2 ^ 40 % 1024 = 1)] = true := by
  decide +kernel
/-- With every port up and keyed, whichever the hash of a line chooses carries it. -/
theorem test_link_open : (keyed 0).linkOpen ((2 ^ 50 + 2 ^ 40) / 128) = true := by
  have h : (keyed 0).hashPorts = [0] := by decide +kernel
  have h1 : (keyed 0).portOf ((2 ^ 50 + 2 ^ 40) / 128) = some 0 := by
    simp only [State.portOf, h, List.length_singleton, Nat.mod_one]
    rfl
  rw [State.linkOpen, h1]
  rfl
theorem test_idle_and_intervals_meet : every
    [(demo.modDie 0 (fun d => { d with time := 256 })).idleFor 0 256, !demo.idleFor 0 256, (powered (fun p => { p with hbm := [(0, 1)] }) (demo.modDie 0 (fun d => { d with time := 100000 }))).idleFor 0 100000,
     ((powered (fun p => { p with hbm := [(0, 1)] }) demo).channel 0 == 1), ((demo.modDie 0 (fun d => { d with time := 8000 })).die 0).intervalDue, !(demo.die 0).intervalDue,
     team0 (hot 720) (fun t => t.moved == 0), State.reset.trust.slotA.key == State.reset.trust.fused || !State.reset.trust.slotA.valid] = true := by decide +kernel

/-- A running card of a core that holds its page as mirrored. -/
def mirroredCard : State := (carded (fun c => { c with st := .running })).modCore 0 (fun c => { c with tlb := [{ demoPage with mir := true }] })
/-- So many corrected errors of core 0 in the last second. -/
def ailing (n : Nat) : State := { demo with coreErrs := List.replicate n (0, 0) }
theorem test_error_cases_meet : every
    [card9 mirroredCard (fun c => c.st == .running && c.fail.isNone && mirroredCard.mirrored c.core c.ctx 0x1000),
     card9 (carded (fun c => { c with st := .running })) (fun c => !(carded (fun c => { c with st := .running })).mirrored c.core c.ctx 0x100000),
     team0 mirroredPage (fun t => t.back.isNone), demo.sites.findIdx? (· == demo.site 0) == some 0 && !demo.unavail.contains 0 && decide (demo.site 0 < 512),
     decide (1 + ((ailing 64).coreErrs.filter (fun e => e.1 == 0 && decide (((ailing 64).die (dieOf 0)).time < e.2 + 1000000000))).length = 65),
     decide (1 + ((ailing 63).coreErrs.filter (fun e => e.1 == 0 && decide (((ailing 63).die (dieOf 0)).time < e.2 + 1000000000))).length = 64),
     ({ demo with unavail := [1] } : State).unavail.contains 1 && decide ((({ ({ demo with unavail := [1] } : State).blankCore 1 with badSites := demo.site 1 :: demo.badSites } : State).spareSite
       (dieOf 1)).isSome), !demo.unavail.contains 0, demo.recordDue == false, (demo.modDie 0 (fun d => { d with time := 600000000000 })).recordDue,
     decide (State.reset.lifeA.number ≤ State.reset.lifeB.number), decide (({ State.reset with lifeA := { State.reset.lifeA with good := true, seqn := 1 } } : State).lifeB.number <
       ({ State.reset with lifeA := { State.reset.lifeA with good := true, seqn := 1 } } : State).lifeA.number)] = true := by decide +kernel
/-- A commanded power-down writes the record first, and a loss of power does not (R295). -/
theorem test_power_down : next (runMove .powerDown State.reset) (fun s => !s.powered && s.lifeA.seqn == 1) = true ∧
    next (execPowerLoss State.reset) (fun s => !s.powered && s.lifeA.seqn == 0) = true := by decide +kernel

/-! ## Witnesses for what waits alone, goes first, or is fetched first -/

/-- The lanes have met at a group-scope load, and make their accesses alone. -/
def metAlready : State := inGroup (fun g => { g with lanes := g.lanes.map (fun l => { l with met := true }) }) demo
theorem test_met_lanes : (match metAlready.issuer with
    | some (c, t, g) => decide (screen (.ldsLm hg false 1 2 0) metAlready t c.gi = none) && decide (c.metLanes g ≠ 0)
    | none => false) = true ∧ (match demo.issuer with
    | some (c, _, g) => decide (c.metLanes g = 0)
    | none => false) = true := by decide +kernel
/-- Signalling NaNs, in every format: each of the forms raises NV, which is enabled. -/
def nans : State := inGroup (fun g => ((({ g with fpctl := fNV } : Group).wv 3 2 0x7F800000).wv 3 3 0).wv 3 4 0) demo
def nans16 : State := inGroup (fun g => ((({ g with fpctl := fNV } : Group).wv 3 2 0x7E007C00).wv 3 3 0).wv 3 4 0) demo
theorem test_fpx_forms :
    [(Instr.fmulLr hl false 1 2 3, fun (g : Group) l => (fmtF32.fmul .rne (g.rv l 2).toNat (g.rv l 3).toNat).2),
     (.fmulXf hl false pt 1 2 3 2, fun g l => (fmtF32.fmul (.ofM 2 0) (g.rv l 2).toNat (g.rv l 3).toNat).2),
     (.ffma hl false pt 1 2 3 4 0, fun g l => (fmtF32.ffma (.ofM 0 0) (g.rv l 2).toNat (g.rv l 3).toNat (g.rv l 4).toNat).2)].all (fun p =>
      met (nans.performing p.1) (fun s x t => fpxLanes s x.tid { lanes := (laneRes t x (fun _ g l => ([], p.2 g l))).lanes.take (if uniOf x.i then 1 else x.lanes.length) } == [(0, 3)])) = true ∧
    [(Instr.hmul2 hl false pt 1 2 3 .f16 0, fun (g : Group) l => (halves .f16 (fun f x y _ => f.fmul (.ofM 0 0) x y) (g.rv l 2) (g.rv l 3) 0).2),
     (.hfma2 hl false pt 1 2 3 4 .f16 0, fun g l => (halves .f16 (fun f x y z => f.ffma (.ofM 0 0) x y z) (g.rv l 2) (g.rv l 3) (g.rv l 4)).2)].all (fun p =>
      met (nans16.performing p.1) (fun s x t => fpxLanes s x.tid { lanes := (laneRes t x (fun _ g l => ([], p.2 g l))).lanes.take (if uniOf x.i then 1 else x.lanes.length) } == [(0, 3)])) = true := by
  decide +kernel
/-- A NaN under an ordered comparison, FLT, in each of its formats. -/
theorem test_fpx_compares : [(Ty.f32, fmtF32, 0x7FC00000), (.f16, fmtF16, 0x7E00), (.bf16, fmtBF16, 0x7FC0)].all (fun p =>
    met ((inGroup (fun g => ({ g with fpctl := fNV } : Group).wv 3 2 p.2.2) demo).performing (.fcmpXf hl false pt 1 2 3 p.1 12)) (fun s x t =>
      fpxLanes s x.tid { lanes := (laneRes t x (fun _ g l => ([], (p.2.1.fcmp 12 (g.rv l 2).toNat (g.rv l 3).toNat).2))).lanes.take (if uniOf x.i then 1 else x.lanes.length) } == [(0, 3)])) = true := by
  decide +kernel
/-- A queued store to the pad. -/
theorem test_queued_pad_store : ((inGroup (fun g => { g with sq := [⟨false, 0, .store (.pad 0 0 8) [1, 2] 0⟩] }) demo).team? 0).any (fun t => !t.la.bridle &&
    (t.groups[0]?).any (fun g => g.sq == [⟨false, 0, .store (.pad 0 0 8) [1, 2] 0⟩])) = true := by decide +kernel
/-- TSUS tries again after its check: the ticket it found is done, and the command's card gone. -/
theorem test_suspend_judged : met ((inGroup (fun g => { g with lanes := g.lanes.map (fun l => { l with judged := some 0 }) }) (mapped (ticketIn 2))).atPoint (.tsus hg 2 3)) (fun s x t =>
    (t.groups[x.gi]?).any (fun g => (g.lane x.uniLane).judged.isSome && !t.suspends (g.rg 2).toNat && (s.cardOf t 2).isNone)) = true := by decide +kernel
/-- Two groups of one quarter: the older has a U-set instruction in its loop buffer, the younger one still to fetch: another of the U-set, or one of the L-set. -/
def abreast (w : Nat) : State :=
  let s : State := { demoOf (demoLaunch 2 0 false) with mem := setBytes [] 0x10060 (leBytes 4 w) }
  (s.modGroup 0 0 (fun g => { g with quarter := 0, age := 0, loopbuf := [(64, 0x90028C38)] })).modGroup 0 1
    (fun g => { g with quarter := 0, age := 1, lanes := g.lanes.map (fun l => { l with pc := 96 }) })
/-- What the younger group's issue comes to once its word is fetched. -/
def fetchedFirst (w : Nat) (c : State → State → Bool) : Bool :=
  let s0 := abreast w
  !s0.knowsPipe 0 1 && s0.mayIssue 0 1 && (s0.team? 0).any (fun t => (t.groups[1]?).any (fun g => canIssue t 1 g && decide (g.selectPath = some (96, true)) &&
    (match fetch (s0.selected 0 t 1 g 96 true) (t.selecting 1 g 96 true) 1 0 96 (g.selecting t.halt.isSome 96 true) with
      | .words s2 w v => (match decodeWords w v with
        | .ok _ => c s0 { s2.passOver (t.selecting 1 g 96 true) 1 g.quarter (bit w 31) with cur := some ⟨0, 1, g.bundleOf 96 0, 96⟩ }
        | .error _ => false)
      | _ => false)))
theorem test_fetched_first : fetchedFirst 0x90028C38 (fun s s3 => !(s.fetchedOnly s3 0 1).mayIssue 0 1) = true ∧
    fetchedFirst 0x0160C480 (fun s s3 => (s.fetchedOnly s3 0 1).mayIssue 0 1) = true := by decide +kernel

end Sys2Proof.Tests
end

section
/-! PROOFS. The registers of a group and the bytes of memory read back what is written to them (R4, R51). -/
namespace Sys2Proof.Machine

/-! ## One bit of a mask -/

theorem laneBit_getLsbD (l : Nat) {l' : Nat} (h : l' < 32) : (laneBit l).getLsbD l' = decide (l' = l) := by
  rw [laneBit, BitVec.getLsbD_ofNat, Nat.testBit_two_pow]
  simp [h, eq_comm]
/-- Setting a lane's bit changes that bit alone. -/
theorem setBit_getLsbD (m : Mask) (l : Nat) (b : Bool) {l' : Nat} (h : l' < 32) :
    (setBit m l b).getLsbD l' = if l' = l then b else m.getLsbD l' := by
  cases b with
  | false =>
    simp only [setBit, Bool.false_eq_true, if_false, BitVec.getLsbD_and, BitVec.getLsbD_not, laneBit_getLsbD l h]
    by_cases e : l' = l <;> simp [e, h]
  | true =>
    simp only [setBit, if_true, BitVec.getLsbD_or, laneBit_getLsbD l h]
    by_cases e : l' = l <;> simp [e]

/-! ## Registers of a group (R51) -/

@[simp] theorem Group.wp_seven (g : Group) (l : Nat) (b : Bool) : g.wp l 7 b = g := rfl
@[simp] theorem Group.rv_wv_same (g : Group) (l r : Nat) (x : Word) : (g.wv l r x).rv l r = x := SMap.get_set_same 0 g.v (r * 32 + l) x
/-- The registers of the 32 lanes lie apart, so a write changes the one register of the one lane. -/
theorem Group.rv_wv_other (g : Group) {l r l' r' : Nat} (x : Word) (hl : l < 32) (hl' : l' < 32) (h : (l', r') ≠ (l, r)) :
    (g.wv l r x).rv l' r' = g.rv l' r' := by
  have apart : r' * 32 + l' ≠ r * 32 + l := by
    intro e
    exact h (Prod.ext (by omega) (by omega))
  exact SMap.get_set_other 0 g.v x apart
theorem Group.rg_wg_same (g : Group) {r : Nat} (x : Word) (h : r ≠ 0) : (g.wg r x).rg r = x := by
  simp [Group.wg, Group.rg, h]
theorem Group.rg_wg_other (g : Group) {r r' : Nat} (x : Word) (h : r' ≠ r) : (g.wg r x).rg r' = g.rg r' := by
  by_cases h0 : r = 0
  · simp [h0]
  · simp [Group.wg, Group.rg, h0, SMap.get_set_other, h]
/-- A predicate other than p7 after a write to one other than p7. -/
theorem Group.rp_wp (g : Group) (l : Nat) {r l' r' : Nat} (b : Bool) (h : r ≠ 7) (h' : r' ≠ 7) (hl' : l' < 32) :
    (g.wp l r b).rp l' r' = if r' = r ∧ l' = l then b else g.rp l' r' := by
  simp only [Group.wp, Group.rp, h, h', if_false, SMap.get_set]
  by_cases e : r' = r
  · simp [e, setBit_getLsbD _ _ _ hl']
  · simp [e]
theorem Group.rp_wp_same (g : Group) {l r : Nat} (b : Bool) (hl : l < 32) (h : r ≠ 7) : (g.wp l r b).rp l r = b := by
  simp [Group.rp_wp g l b h h hl]
theorem Group.rp_wp_other (g : Group) {l r l' r' : Nat} (b : Bool) (hl' : l' < 32) (h : (l', r') ≠ (l, r)) :
    (g.wp l r b).rp l' r' = g.rp l' r' := by
  by_cases h7 : r = 7
  · simp [h7]
  by_cases h7' : r' = 7
  · simp [h7']
  have apart : ¬ (r' = r ∧ l' = l) := fun ⟨er, el⟩ => h (Prod.ext el er)
  simp [Group.rp_wp g l b h7 h7' hl', apart]

/-! ## Bytes of memory (R4) -/

/-- Bytes written stand at their addresses, and every other address reads as before. -/
theorem get_setBytes (m : SMap Byte) (a b : Nat) (bs : List Byte) :
    SMap.get 0 (setBytes m a bs) b = if a ≤ b ∧ b < a + bs.length then (bs[b - a]?).getD 0 else SMap.get 0 m b := by
  induction bs generalizing m a with
  | nil => rw [if_neg (by simp)]; rfl
  | cons x r ih =>
    rw [setBytes, ih, SMap.get_set, List.length_cons]
    obtain hlt | rfl | hgt := Nat.lt_trichotomy b a
    · rw [if_neg (by omega), if_neg (by omega), if_neg (by omega)]
    · rw [if_neg (by omega), if_pos rfl, if_pos (by omega), Nat.sub_self, List.getElem?_cons_zero, Option.getD_some]
    · obtain ⟨k, rfl⟩ : ∃ k, b = a + 1 + k := ⟨b - (a + 1), by omega⟩
      have hk : a + 1 + k - a = k + 1 := by omega
      have hin : (a + 1 ≤ a + 1 + k ∧ a + 1 + k < a + 1 + r.length) ↔ (a ≤ a + 1 + k ∧ a + 1 + k < a + (r.length + 1)) := by omega
      have hne : a + 1 + k ≠ a := by omega
      simp only [hin, hne, hk, Nat.add_sub_cancel_left, List.getElem?_cons_succ, if_false]

/-! ## Numbers as bytes, the low byte first (R4) -/

@[simp] theorem leBytes_length (n x : Nat) : (leBytes n x).length = n := by
  induction n generalizing x with
  | zero => rfl
  | succ n ih => simp [leBytes, ih]
/-- Byte `i` of a number's `n` bytes holds its bits from 8 × `i` on. -/
theorem leBytes_getElem? {n i : Nat} (x : Nat) (h : i < n) : (leBytes n x)[i]? = some (BitVec.ofNat 8 (x / 2 ^ (8 * i))) := by
  induction n generalizing x i with
  | zero => omega
  | succ n ih =>
    cases i with
    | zero => simp [leBytes]
    | succ i =>
      have shift : x / 256 / 2 ^ (8 * i) = x / 2 ^ (8 * (i + 1)) := by
        rw [Nat.div_div_eq_div_mul, Nat.mul_succ, Nat.pow_add, Nat.mul_comm]
      rw [leBytes, List.getElem?_cons_succ, ih _ (by omega), shift]
/-- A number's `n` bytes read back as the number, as far as they hold it. -/
theorem leNat_leBytes (n x : Nat) : leNat (leBytes n x) = x % 2 ^ (8 * n) := by
  induction n generalizing x with
  | zero => simp [leBytes, leNat, Nat.mod_one]
  | succ n ih =>
    calc leNat (leBytes (n + 1) x)
        = x % 256 + 256 * (x / 256 % 2 ^ (8 * n)) := by rw [leBytes, leNat, ih, BitVec.toNat_ofNat]
      _ = x % (256 * 2 ^ (8 * n)) := (Nat.mod_mul).symm
      _ = x % 2 ^ (8 * (n + 1)) := by rw [Nat.mul_succ, Nat.pow_add, Nat.mul_comm]

/-- Physical memory reads back the bytes just written. -/
theorem State.memBytes_setBytes (s : State) (pa : Nat) (bs : List Byte) :
    ({ s with mem := setBytes s.mem pa bs } : State).memBytes pa bs.length = bs := by
  refine List.ext_getElem (by simp [State.memBytes]) fun i _ hi => ?_
  have read : SMap.get 0 (setBytes s.mem pa bs) (pa + i) = bs[i] := by
    rw [get_setBytes, if_pos (by omega), Nat.add_sub_cancel_left, List.getElem?_eq_getElem hi, Option.getD_some]
  simpa [State.memBytes] using read

/-- Settles O50: registers by their places in the sparse maps, memory by induction on the bytes written. -/
theorem registersAndMemoryReadBackWhatIsWritten : Obligations.RegistersAndMemoryReadBackWhatIsWritten := by
  unfold Obligations.RegistersAndMemoryReadBackWhatIsWritten
  refine ⟨fun g l r x b hl => ?_, get_setBytes, leNat_leBytes, fun n x i h => leBytes_getElem? x h, fun s pa n x => ?_⟩
  · exact ⟨g.rg_zero, g.wg_zero x, g.rp_seven l, g.wp_seven l b,
      g.rv_wv_same l r x, fun _ _ hl' h => g.rv_wv_other x hl hl' h,
      g.rg_wg_same x, fun _ h => g.rg_wg_other x h,
      g.rp_wp_same b hl, fun _ _ hl' h => g.rp_wp_other b hl' h⟩
  · have written := s.memBytes_setBytes pa (leBytes n x)
    rw [leBytes_length] at written
    rw [written, leNat_leBytes]

end Sys2Proof.Machine
end

section
/-! PROOFS. The uniform instructions, CLK, TIME, MOVS and SETS complete (R54, R56, R200, R326, R392, R414, R426, R432-R440). -/
namespace Sys2Proof.Machine

/-! ## Shifts by any amount (R417) -/

theorem shl_eq_shiftLeft (a s : Word) : shl a s = a <<< s.toNat := by
  unfold shl
  split
  · rfl
  · exact (BitVec.shiftLeft_eq_zero (by omega)).symm
theorem shr_eq_ushiftRight (a s : Word) : shr a s = a >>> s.toNat := by
  unfold shr
  split
  · rfl
  · exact (BitVec.ushiftRight_eq_zero (by omega)).symm
/-- From an amount of 31 on, every bit is the sign. -/
theorem shra_eq_sshiftRight (a s : Word) : shra a s = a.sshiftRight s.toNat := by
  unfold shra
  split
  · rfl
  · rename_i hs
    refine BitVec.eq_of_getElem_eq fun j hj => ?_
    have far : ¬ s.toNat + j < 32 := by omega
    rw [BitVec.getElem_sshiftRight, BitVec.getElem_sshiftRight, dif_neg far]
    split
    · obtain rfl : j = 0 := by omega
      exact (BitVec.msb_eq_getLsbD_last a).symm
    · rfl

/-! ## Issues whose body only runs -/

theorem group?_of_team? {s : State} {tid : Nat} {t : Team} (h : s.team? tid = some t) (gi : Nat) : s.group? tid gi = t.groups[gi]? := by
  unfold State.group?
  rw [h]
/-- A body without checks, whose results carry no flags, completes with what it runs to; under UNI for the lowest participant. -/
theorem issue_run_lead {i : Instr} {run : State → Site → State × Res} {s s1 s2 : State} {x : Site} {t : Team} {r : Res}
    (hp : s.performing i = some (s1, x, t)) (he : (traits i).ends = false) (hr : run s1 (x.lead (uniOf i)) = (s2, r))
    (hf : ∀ q ∈ r.lanes, q.fl = 0) : issue i { run := run } s = .next (s2.finish x (spread x (uniOf i) r)) := by
  obtain ⟨rfl, -⟩ := performing_site hp
  rw [issue_lead hp rfl (fun _ _ => rfl) (by simp [defers, he]) (by simpa only [hr] using hf)]
  simp only [hr]
/-- The same without UNI, where no lane has a result. -/
theorem issue_run {i : Instr} {run : State → Site → State × Res} {s s1 s2 : State} {x : Site} {t : Team} {r : Res}
    (hp : s.performing i = some (s1, x, t)) (hu : uniOf i = false) (he : (traits i).ends = false) (hr : run s1 x = (s2, r))
    (hf : r.lanes = []) : issue i { run := run } s = .next (s2.finish x r) := by
  have done := issue_run_lead (run := run) (s2 := s2) (r := r) hp he (by rw [hu]; exact hr) (by simp [hf])
  rwa [hu] at done

/-! ## Results by lane, under UNI those of the lowest participant (R91) -/

/-- Each participant of the leading site is its own source. -/
theorem source_lead {x : Site} {q : Nat × Nat} (h : q ∈ (x.lead (uniOf x.i)).lanes) : (x.lead (uniOf x.i)).source q = q := by
  have hi : (x.lead (uniOf x.i)).i = x.i := by cases uniOf x.i <;> rfl
  rw [Site.source, hi]
  rw [lead_lanes] at h ⊢
  split
  · rename_i hu
    rw [if_pos hu] at h
    cases hx : x.lanes with
    | nil => rfl
    | cons p r =>
      rw [hx, List.take_succ_cons, List.take_zero, List.mem_singleton] at h
      exact h.symm
  · rfl
/-- The leading site's results, spread, are those of the whole site. -/
theorem spread_laneRes_lead (t : Team) (x : Site) (f : Nat → Group → Nat → List Wr × Flags) :
    spread x (uniOf x.i) (laneRes t (x.lead (uniOf x.i)) f) = laneRes t x f := by
  cases hu : uniOf x.i with
  | false => rfl
  | true =>
    have hi : (x.lead true).i = x.i := rfl
    simp only [spread, laneRes, Site.source, lead_lanes, hi, hu, if_true]
    cases hx : x.lanes with
    | nil => rfl
    | cons q r =>
      simp only [List.take_succ_cons, List.take_zero, List.map_cons, List.map_nil, List.headD_cons]
      cases t.groups[q.1]? <;> rfl
theorem laneRes_no_flags {t : Team} {x : Site} {f : Nat → Group → Nat → List Wr} :
    ∀ q ∈ (laneRes t x (fun gi g l => (f gi g l, 0))).lanes, q.fl = 0 := by
  intro q hq
  simp only [laneRes, List.mem_map] at hq
  obtain ⟨p, _, rfl⟩ := hq
  cases t.groups[(x.source p).1]? <;> rfl

/-! ## MOVS, SETS and UMOVV -/

/-- What MOVS reads at the leading site (R392). -/
theorem movsBody_run_lead {s : State} {x : Site} {t : Team} (d k : Nat) (ht : s.team? x.tid = some t) :
    (movsBody d k).run s (x.lead (uniOf x.i)) =
      (s, laneRes t (x.lead (uniOf x.i)) (fun gi g l => ([.v d (BitVec.ofNat 32 (s.special t gi g l k))], 0))) := by
  simp only [movsBody, laneRes, lead_tid, ht]
  congr 2
  refine List.map_congr_left fun q hq => ?_
  rw [source_lead hq]
  cases t.groups[q.1]? <;> rfl
theorem movs_completes {h : Head} {u : Bool} {v k : VReg} {s s1 : State} {x : Site} {t : Team}
    (hp : s.performing (.movs h u v k) = some (s1, x, t)) :
    exec (.movs h u v k) s =
      .next (s1.finish x (laneRes t x (fun gi g l => ([.v v.toNat (BitVec.ofNat 32 (s1.special t gi g l k.toNat))], 0)))) := by
  obtain ⟨hi, ht⟩ := performing_site hp
  have hr := movsBody_run_lead v.toNat k.toNat ht
  rw [← spread_laneRes_lead]
  rw [hi] at hr ⊢
  exact issue_run_lead hp rfl hr laneRes_no_flags
theorem sets_completes {h : Head} {d a : GReg} {s s1 : State} {x : Site} {t : Team} {g : Group}
    (hp : s.performing (.sets h d a) = some (s1, x, t)) (hg : t.groups[x.gi]? = some g) :
    exec (.sets h d a) s =
      .next ((s1.eachGroup x.tid x.mem (fun _ m g' => g'.setSpecial m d.toNat (g.rg a.toNat))).finish x {}) := by
  obtain ⟨-, ht⟩ := performing_site hp
  have issuing : x.group s1 = some g := (group?_of_team? ht x.gi).trans hg
  exact issue_run hp rfl rfl (by simp only [issuing]) rfl
theorem umovv_completes {h : Head} {d : GReg} {v : VReg} {s s1 : State} {x : Site} {t : Team} {q : Nat × Nat} {r : List (Nat × Nat)} {g : Group}
    (hp : s.performing (.umovv h d v) = some (s1, x, t)) (hm : x.members = q :: r) (hg : t.groups[q.1]? = some g) :
    exec (.umovv h d v) s = .next (s1.finish x { gs := [(d.toNat, g.rv q.2 v.toNat)] }) := by
  obtain ⟨-, ht⟩ := performing_site hp
  have first : s1.group? x.tid q.1 = some g := (group?_of_team? ht q.1).trans hg
  exact issue_run hp rfl rfl (by simp only [hm, first]) rfl

/-- Settles O13: each instruction through the lemma of its body, a shift by its amount first. -/
theorem uniformAndSpecialRegisterInstructionsComplete : Obligations.UniformAndSpecialRegisterInstructionsComplete := by
  unfold Obligations.UniformAndSpecialRegisterInstructionsComplete
  refine ⟨fun h d a b v cc w => ⟨?add, ?sub, ?mul, ?and, ?or, ?xor, ?shl, ?shr, ?shra, ?cmp, ?mov, ?movi, ?sel, ?movv⟩,
    fun h u d a v k => ⟨?clk, ?time, fun _ _ _ _ => movs_completes, fun _ _ _ _ _ => sets_completes⟩⟩
  case shl =>
    simp only [← shl_eq_shiftLeft]
    exact computesU_uniBody rfl rfl fun _ => rfl
  case shr =>
    simp only [← shr_eq_ushiftRight]
    exact computesU_uniBody rfl rfl fun _ => rfl
  case shra =>
    simp only [← shra_eq_sshiftRight]
    exact computesU_uniBody rfl rfl fun _ => rfl
  case movv => exact fun _ _ _ _ _ _ _ hp => umovv_completes hp
  all_goals exact computesU_uniBody rfl rfl fun _ => rfl

end Sys2Proof.Machine
end

section
/-! PROOFS. A fetch reads the words at its address (R63, R70, R179, R289, R291). -/
namespace Sys2Proof.Machine

/-- A part of a run of bytes is the run of bytes at its place. -/
theorem State.memBytes_drop_take (s : State) (pa : Nat) {n o k : Nat} (h : o + k ≤ n) :
    ((s.memBytes pa n).drop o).take k = s.memBytes (pa + o) k := by
  refine List.ext_getElem (by simp [State.memBytes]; omega) fun i _ _ => ?_
  simp [State.memBytes, Nat.add_assoc]
theorem State.memBytes_congr {s s' : State} (h : s.mem = s'.mem) (pa n : Nat) : s.memBytes pa n = s'.memBytes pa n := by
  rw [State.memBytes, h, State.memBytes]
/-- The word read `o` bytes after an address, within the bytes of its 32-byte sector. -/
theorem State.leNat_sector (s : State) (a o : Nat) (h : a % 32 + o + 4 ≤ 32) :
    leNat (((s.memBytes (a / 32 * 32) 32).drop (a % 32 + o)).take 4) = s.memNat (a + o) 4 := by
  have place : a / 32 * 32 + (a % 32 + o) = a + o := by omega
  rw [s.memBytes_drop_take _ h, place, State.memNat]

/-! ## The instruction cache's sectors (R179, R289, R291) -/

section
variable {s : State} {t : Team} {l : Loc} (hmiss : (s.core t.pcore).icache.find? (fun p => p.1 == l.at / 32) = none)
include hmiss

theorem State.codeSector_lost (hlost : s.lostIn [(l, 4)] = true) : s.codeSector t l = none := by
  unfold State.codeSector
  simp only [hmiss, hlost, if_true]
/-- A fill brings the sector's bytes of memory, restored from a mirror copy where need be, and changes no byte itself. -/
theorem State.codeSector_filled (hlost : s.lostIn [(l, 4)] = false) :
    ∃ s2, s.codeSector t l = some (s2, (s.fromMirror [(l, 4)]).memBytes (l.at / 32 * 32) 32) ∧ s2.mem = (s.fromMirror [(l, 4)]).mem := by
  unfold State.codeSector
  simp only [hmiss, hlost, Bool.false_eq_true, if_false]
  cases l with
  | shm a => exact ⟨_, rfl, rfl⟩
  | pad d sl off => exact ⟨_, rfl, rfl⟩
  | phys pa shr mir mig cp =>
    have touch := State.l2Touch_mem (s.fromMirror [(.phys pa shr mir mig cp, 4)]) t.ctx
      ((s.fromMirror [(.phys pa shr mir mig cp, 4)]).site t.pcore) pa mig cp false
    exact ⟨_, congrArg some (Prod.ext rfl (State.memBytes_congr touch _ _)), touch⟩
end

/-! ## The fetch (R63, R70) -/

theorem fetch_past_end {s : State} {t : Team} {gi lane pc : Nat} {g : Group} (h : t.la.hdr.codesz ≤ pc) :
    fetch s t gi lane pc g = .fault tBOUNDS pc := if_pos h

section
variable {s : State} {t : Team} {gi lane pc : Nat} {g : Group} {l : Loc} {n : Nat} {rest : List (Loc × Nat)} (hin : pc < t.la.hdr.codesz)
  (hloop : g.loopWords pc = none)
  (htr : s.translate t.pcore t.ctx (t.la.base + pc) false true (g.lane lane).declined = .ok ((l, n) :: rest))
include hin hloop htr

theorem fetch_lost (hsec : s.codeSector t l = none) : fetch s t gi lane pc g = .fault tMCHK (t.la.base + pc) := by
  simp only [fetch, Nat.not_le.2 hin, hloop, htr, hsec, if_false]

variable {s2 : State} {bs : List Byte} {w0 : Nat} (hsec : s.codeSector t l = some (s2, bs)) (hw0 : leNat ((bs.drop (l.at % 32)).take 4) = w0)
include hsec hw0

theorem fetch_oneWord (h1 : twoWords w0 = false) : ∃ s3, fetch s t gi lane pc g = .words s3 w0 0 ∧ s3.mem = s2.mem := by
  simp only [fetch, Nat.not_le.2 hin, hloop, htr, hsec, Nat.add_zero, hw0, h1, Bool.false_and, Bool.false_eq_true, if_false]
  exact ⟨_, rfl, rfl⟩
theorem fetch_misaligned (h2 : twoWords w0 = true) (h4 : pc % 8 = 4) : fetch s t gi lane pc g = .fault tALIGN pc := by
  simp [fetch, Nat.not_le.2 hin, hloop, htr, hsec, hw0, h2, h4]
theorem fetch_twoWords (h2 : twoWords w0 = true) (h4 : pc % 8 ≠ 4) :
    ∃ s3, fetch s t gi lane pc g = .words s3 w0 (leNat ((bs.drop (l.at % 32 + 4)).take 4)) ∧ s3.mem = s2.mem := by
  simp [fetch, Nat.not_le.2 hin, hloop, htr, hsec, hw0, h2, h4]
end

/-- Settles O46: a sector lost or filled; then one word or two, which lie in that sector as the address lies in its 8 bytes. -/
theorem fetchReadsTheCodeBytes : Obligations.FetchReadsTheCodeBytes := by
  unfold Obligations.FetchReadsTheCodeBytes
  refine fun s t gi lane pc g => ⟨fetch_past_end, fun l n rest s1 hin hword hloop htr hat hmiss hs1 => ⟨fun hlost => ?_, fun hlost => ?_⟩⟩
  · exact fetch_lost hin hloop htr (State.codeSector_lost hmiss hlost)
  · subst hs1
    obtain ⟨s2, hsec, hmem⟩ := State.codeSector_filled hmiss hlost
    have hw0 := (s.fromMirror [(l, 4)]).leNat_sector l.at 0 (by omega)
    simp only [Nat.add_zero] at hw0
    refine ⟨fetch_misaligned hin hloop htr hsec hw0, fun h2 h0 => ?_, fun h1 => ?_⟩
    · have hw1 := (s.fromMirror [(l, 4)]).leNat_sector l.at 4 (by omega)
      rw [← hw1, ← hmem]
      exact fetch_twoWords hin hloop htr hsec hw0 h2 (by omega)
    · rw [← hmem]
      exact fetch_oneWord hin hloop htr hsec hw0 h1

end Sys2Proof.Machine
end

section
/-! PROOFS. What the integer operations compute under each type (R113, R364, R367). -/
namespace Sys2Proof.Machine

/-! ## Integers as bits (R75) -/

section
variable {w : Nat}

theorem toIntW_signed (x : BitVec w) : toIntW w true x.toNat = x.toInt := by
  cases w with
  | zero => simp [toIntW, BitVec.of_length_zero]
  | succ w =>
    have range : ((2 ^ (w + 1) : Nat) : Int) = 2 ^ (w + 1) := Int.natCast_pow 2 (w + 1)
    rw [toIntW, BitVec.toInt_eq_toNat_cond, Nat.mod_eq_of_lt x.isLt, Nat.add_sub_cancel, range, Bool.true_and]
    by_cases negative : 2 ^ w ≤ x.toNat
    · have big : ¬ 2 * x.toNat < 2 ^ (w + 1) := by rw [Nat.pow_succ]; omega
      rw [if_pos (decide_eq_true negative), if_neg big]
    · have small : 2 * x.toNat < 2 ^ (w + 1) := by rw [Nat.pow_succ]; omega
      rw [if_neg (mt of_decide_eq_true negative), if_pos small]
theorem toIntW_unsigned (x : BitVec w) : toIntW w false x.toNat = x.toNat := by
  simp [toIntW, Nat.mod_eq_of_lt x.isLt]
theorem ofInt_toIntW (sg : Bool) (x : BitVec w) : BitVec.ofInt w (toIntW w sg x.toNat) = x := by
  cases sg with
  | true => rw [toIntW_signed, BitVec.ofInt_toInt]
  | false => rw [toIntW_unsigned, BitVec.ofInt_natCast, BitVec.ofNat_toNat, BitVec.setWidth_eq]
theorem wrapW_lt (i : Int) : wrapW w i < 2 ^ w := by
  have pos : (0 : Int) < 2 ^ w := Int.pow_pos (by decide)
  rw [wrapW, Int.toNat_lt (Int.emod_nonneg i (Int.ne_of_gt pos))]
  exact_mod_cast Int.emod_lt_of_pos i pos
theorem ofNat_wrapW (i : Int) : BitVec.ofNat w (wrapW w i) = BitVec.ofInt w i := by
  refine BitVec.eq_of_toNat_eq ?_
  rw [BitVec.toNat_ofNat, BitVec.toNat_ofInt, Nat.mod_eq_of_lt (wrapW_lt i), wrapW]
  norm_cast

/-! ## Integers wrapped and clamped (R364) -/

theorem clampI_eq_max_min {lo hi : Int} (h : lo ≤ hi) (i : Int) : clampI lo hi i = max lo (min hi i) := by
  unfold clampI
  split
  · omega
  · split <;> omega
theorem putInt_lt (sg sat : Bool) (i : Int) : putInt w sg sat i < 2 ^ w := wrapW_lt _
theorem ofNat_putInt_wrapped (sg : Bool) (i : Int) : BitVec.ofNat w (putInt w sg false i) = BitVec.ofInt w i := ofNat_wrapW i
theorem toInt_putInt_clamped (hw : 0 < w) (i : Int) :
    (BitVec.ofNat w (putInt w true true i)).toInt = max (-2 ^ (w - 1)) (min (2 ^ (w - 1) - 1) i) := by
  have pos : (0 : Int) < 2 ^ (w - 1) := Int.pow_pos (by decide)
  have clamped : clampI (minW w true) (maxW w true) i = max (-2 ^ (w - 1)) (min (2 ^ (w - 1) - 1) i) :=
    clampI_eq_max_min (show -2 ^ (w - 1) ≤ (2 ^ (w - 1) - 1 : Int) by omega) i
  rw [putInt, if_pos rfl, ofNat_wrapW, clamped, BitVec.toInt_ofInt_eq_self hw (by omega) (by omega)]
theorem toNat_putInt_clamped (i : Int) : (BitVec.ofNat w (putInt w false true i)).toNat = min i.toNat (2 ^ w - 1) := by
  have pos : (0 : Int) < 2 ^ w := Int.pow_pos (by decide)
  have clamped : clampI (minW w false) (maxW w false) i = max 0 (min (2 ^ w - 1) i) :=
    clampI_eq_max_min (show 0 ≤ (2 ^ w - 1 : Int) by omega) i
  rw [putInt, if_pos rfl, ofNat_wrapW, clamped, BitVec.toNat_ofInt, Int.emod_eq_of_lt (by omega) (by push_cast; omega)]
  have cast : ((2 ^ w : Nat) : Int) = 2 ^ w := by push_cast; rfl
  omega

/-! ## Sum, difference, minimum and maximum of two words of one width -/

variable (sg : Bool) (x y : BitVec w)

theorem add_wrapped : BitVec.ofNat w (putInt w sg false (toIntW w sg x.toNat + toIntW w sg y.toNat)) = x + y := by
  rw [ofNat_putInt_wrapped, BitVec.ofInt_add, ofInt_toIntW, ofInt_toIntW]
theorem sub_wrapped : BitVec.ofNat w (putInt w sg false (toIntW w sg x.toNat - toIntW w sg y.toNat)) = x - y := by
  rw [ofNat_putInt_wrapped, Int.sub_eq_add_neg, BitVec.ofInt_add, BitVec.ofInt_neg, ofInt_toIntW, ofInt_toIntW, BitVec.sub_eq_add_neg]
theorem add_clamped_signed {lo hi : Int} (hw : 0 < w) (hlo : -2 ^ (w - 1) = lo) (hhi : 2 ^ (w - 1) - 1 = hi) :
    (BitVec.ofNat w (putInt w true true (toIntW w true x.toNat + toIntW w true y.toNat))).toInt = max lo (min hi (x.toInt + y.toInt)) := by
  rw [toInt_putInt_clamped hw, toIntW_signed, toIntW_signed, hlo, hhi]
theorem sub_clamped_signed {lo hi : Int} (hw : 0 < w) (hlo : -2 ^ (w - 1) = lo) (hhi : 2 ^ (w - 1) - 1 = hi) :
    (BitVec.ofNat w (putInt w true true (toIntW w true x.toNat - toIntW w true y.toNat))).toInt = max lo (min hi (x.toInt - y.toInt)) := by
  rw [toInt_putInt_clamped hw, toIntW_signed, toIntW_signed, hlo, hhi]
theorem add_clamped_unsigned : (BitVec.ofNat w (putInt w false true (toIntW w false x.toNat + toIntW w false y.toNat))).toNat =
    min (x.toNat + y.toNat) (2 ^ w - 1) := by
  rw [toNat_putInt_clamped, toIntW_unsigned, toIntW_unsigned]
  rfl
/-- A difference is never above the range. -/
theorem sub_clamped_unsigned : (BitVec.ofNat w (putInt w false true (toIntW w false x.toNat - toIntW w false y.toNat))).toNat =
    x.toNat - y.toNat := by
  rw [toNat_putInt_clamped, toIntW_unsigned, toIntW_unsigned, Int.toNat_sub]
  omega
/-- A choice between two words. -/
theorem ofNat_ite {p : Prop} [Decidable p] : BitVec.ofNat w (if p then x.toNat else y.toNat) = if p then x else y := by
  rw [apply_ite (BitVec.ofNat w), BitVec.ofNat_toNat, BitVec.ofNat_toNat, BitVec.setWidth_eq, BitVec.setWidth_eq]
theorem min_signed : (if toIntW w true y.toNat < toIntW w true x.toNat then y else x).toInt = min x.toInt y.toInt := by
  rw [toIntW_signed, toIntW_signed]
  split <;> omega
theorem max_signed : (if toIntW w true x.toNat < toIntW w true y.toNat then y else x).toInt = max x.toInt y.toInt := by
  rw [toIntW_signed, toIntW_signed]
  split <;> omega
theorem min_unsigned : (if toIntW w false y.toNat < toIntW w false x.toNat then y else x).toNat = min x.toNat y.toNat := by
  rw [toIntW_unsigned, toIntW_unsigned]
  split <;> omega
theorem max_unsigned : (if toIntW w false x.toNat < toIntW w false y.toNat then y else x).toNat = max x.toNat y.toNat := by
  rw [toIntW_unsigned, toIntW_unsigned]
  split <;> omega
end

/-! ## The elements of a register (R75, R364) -/

/-- The types of one element of 32 bits, and of two of 16, by their sign. -/
def wordTy (sg : Bool) : Ty := if sg then .i32 else .n32
def halfTy (sg : Bool) : Ty := if sg then .i16 else .n16

theorem toNat_lowHalf (x : Word) : (x.extractLsb' 0 16).toNat = x.toNat % 2 ^ 16 := by
  simp [BitVec.extractLsb'_toNat]
theorem toNat_highHalf (x : Word) : (x.extractLsb' 16 16).toNat = x.toNat / 2 ^ 16 := by
  rw [BitVec.extractLsb'_toNat, Nat.shiftRight_eq_div_pow, Nat.mod_eq_of_lt (by omega)]
theorem lowHalf_ofNat (lo hi : Nat) : (BitVec.ofNat 32 (lo + 2 ^ 16 * hi)).extractLsb' 0 16 = BitVec.ofNat 16 lo := by
  refine BitVec.eq_of_toNat_eq ?_
  rw [toNat_lowHalf, BitVec.toNat_ofNat, BitVec.toNat_ofNat]
  omega
theorem highHalf_ofNat {lo : Nat} (hi : Nat) (h : lo < 2 ^ 16) : (BitVec.ofNat 32 (lo + 2 ^ 16 * hi)).extractLsb' 16 16 = BitVec.ofNat 16 hi := by
  refine BitVec.eq_of_toNat_eq ?_
  rw [toNat_highHalf, BitVec.toNat_ofNat, BitVec.toNat_ofNat]
  omega

section
variable (sg sat : Bool) (a b : Word)

theorem elemWise_word (f : Nat → Bool → Nat → Nat → Nat) : elemWise (wordTy sg) f a b = BitVec.ofNat 32 (f 32 sg a.toNat b.toNat) := by
  cases sg <;> rfl
theorem iadd_word : iadd (wordTy sg) sat a b = BitVec.ofNat 32 (putInt 32 sg sat (toIntW 32 sg a.toNat + toIntW 32 sg b.toNat)) :=
  elemWise_word sg a b _
theorem isub_word : isub (wordTy sg) sat a b = BitVec.ofNat 32 (putInt 32 sg sat (toIntW 32 sg a.toNat - toIntW 32 sg b.toNat)) :=
  elemWise_word sg a b _
theorem imin_word : imin (wordTy sg) a b = if toIntW 32 sg b.toNat < toIntW 32 sg a.toNat then b else a :=
  (elemWise_word sg a b _).trans (ofNat_ite b a)
theorem imax_word : imax (wordTy sg) a b = if toIntW 32 sg a.toNat < toIntW 32 sg b.toNat then b else a :=
  (elemWise_word sg a b _).trans (ofNat_ite b a)

variable {k : Nat} (hk : k = 0 ∨ k = 16)
include hk

/-- A half of an element-wise result is the function of the same halves of the operands. -/
theorem elemWise_half {f : Nat → Bool → Nat → Nat → Nat} (hf : ∀ x y : BitVec 16, f 16 sg x.toNat y.toNat < 2 ^ 16) :
    (elemWise (halfTy sg) f a b).extractLsb' k 16 = BitVec.ofNat 16 (f 16 sg (a.extractLsb' k 16).toNat (b.extractLsb' k 16).toNat) := by
  have halves : elemWise (halfTy sg) f a b = BitVec.ofNat 32 (f 16 sg (a.extractLsb' 0 16).toNat (b.extractLsb' 0 16).toNat +
      2 ^ 16 * f 16 sg (a.extractLsb' 16 16).toNat (b.extractLsb' 16 16).toNat) := by
    simp only [toNat_lowHalf, toNat_highHalf]
    cases sg <;> rfl
  rw [halves]
  obtain rfl | rfl := hk
  · exact lowHalf_ofNat _ _
  · exact highHalf_ofNat _ (hf _ _)
theorem iadd_half : (iadd (halfTy sg) sat a b).extractLsb' k 16 =
    BitVec.ofNat 16 (putInt 16 sg sat (toIntW 16 sg (a.extractLsb' k 16).toNat + toIntW 16 sg (b.extractLsb' k 16).toNat)) :=
  elemWise_half sg a b hk fun _ _ => putInt_lt _ _ _
theorem isub_half : (isub (halfTy sg) sat a b).extractLsb' k 16 =
    BitVec.ofNat 16 (putInt 16 sg sat (toIntW 16 sg (a.extractLsb' k 16).toNat - toIntW 16 sg (b.extractLsb' k 16).toNat)) :=
  elemWise_half sg a b hk fun _ _ => putInt_lt _ _ _
theorem imin_half : (imin (halfTy sg) a b).extractLsb' k 16 =
    if toIntW 16 sg (b.extractLsb' k 16).toNat < toIntW 16 sg (a.extractLsb' k 16).toNat then b.extractLsb' k 16 else a.extractLsb' k 16 :=
  (elemWise_half sg a b hk fun x y => by split <;> exact BitVec.isLt _).trans (ofNat_ite _ _)
theorem imax_half : (imax (halfTy sg) a b).extractLsb' k 16 =
    if toIntW 16 sg (a.extractLsb' k 16).toNat < toIntW 16 sg (b.extractLsb' k 16).toNat then b.extractLsb' k 16 else a.extractLsb' k 16 :=
  (elemWise_half sg a b hk fun x y => by split <;> exact BitVec.isLt _).trans (ofNat_ite _ _)
end

/-! ## Sums of products (R113, R367) -/

theorem bitsAt_toNat (x : Word) (lo n : Nat) : bitsAt x.toNat lo n = (x.extractLsb' lo n).toNat := by
  rw [bitsAt, BitVec.extractLsb'_toNat, Nat.shiftRight_eq_div_pow]
/-- Byte `k` of a word, extended by its sign for I8 and by zeros else. -/
def byteWord (t : Ty) (x : Word) (k : Nat) : Word := BitVec.ofInt 32 (toIntW 8 (t == .i8) (bitsAt x.toNat (8 * k) 8))
theorem byteWord_i8 (x : Word) (k : Nat) : byteWord .i8 x k = (x.extractLsb' (8 * k) 8).signExtend 32 := by
  rw [byteWord, bitsAt_toNat]
  exact congrArg (BitVec.ofInt 32) (toIntW_signed _)
theorem byteWord_n8 (x : Word) (k : Nat) : byteWord .n8 x k = (x.extractLsb' (8 * k) 8).zeroExtend 32 := by
  rw [byteWord, bitsAt_toNat]
  exact (congrArg (BitVec.ofInt 32) (toIntW_unsigned _)).trans ((BitVec.ofInt_natCast _ _).trans (BitVec.ofNat_toNat _ _))
theorem idp4_eq (t : Ty) (a b c : Word) : idp4 t a b c = c + byteWord t a 0 * byteWord t b 0 + byteWord t a 1 * byteWord t b 1 +
    byteWord t a 2 * byteWord t b 2 + byteWord t a 3 * byteWord t b 3 := by
  simp [idp4, byteWord, List.range_succ, BitVec.ofInt_add, BitVec.ofInt_mul, BitVec.ofInt_natCast, BitVec.add_assoc]
/-- An exact sum of products added to an accumulator is, modulo 2³², the products added one by one. -/
theorem ofInt_sum_products (i : Int) (l : List (BitVec 8 × BitVec 8)) :
    BitVec.ofInt 32 (i + ((l.map (fun p => (p.1.toInt, p.2.toInt))).map (fun p => p.1 * p.2)).sum) =
      l.foldl (fun w p => w + p.1.signExtend 32 * p.2.signExtend 32) (BitVec.ofInt 32 i) := by
  induction l generalizing i with
  | nil => simp
  | cons p r ih =>
    have next : BitVec.ofInt 32 (i + p.1.toInt * p.2.toInt) = BitVec.ofInt 32 i + p.1.signExtend 32 * p.2.signExtend 32 := by
      rw [BitVec.ofInt_add, BitVec.ofInt_mul]
      rfl
    rw [List.foldl_cons, ← next, ← ih, List.map_cons, List.map_cons, List.sum_cons, Int.add_assoc]

/-- Settles O3: each operation on a word, or on a half of one, is its sum, difference, minimum or maximum as an integer; the sums of products by
induction on the products. -/
theorem integerResultsByType : Obligations.IntegerResultsByType := by
  unfold Obligations.IntegerResultsByType
  refine ⟨fun a b => ⟨?addI32, ?addN32, ?subI32, ?subN32, ?addI32Sat, ?subI32Sat, ?addN32Sat, ?subN32Sat, fun t ht => ?halves,
      fun k hk => ⟨?addI16Sat, ?subI16Sat, ?addN16Sat, ?subN16Sat⟩⟩,
    fun a b => ⟨?minI32, ?maxI32, ?minN32, ?maxN32, fun k hk => ⟨?minI16, ?maxI16, ?minN16, ?maxN16⟩⟩,
    fun a b c => ⟨?dotN8, ?dotI8⟩, fun c l => ?product⟩
  case addI32 => exact (iadd_word true false a b).trans (add_wrapped _ a b)
  case addN32 => exact (iadd_word false false a b).trans (add_wrapped _ a b)
  case subI32 => exact (isub_word true false a b).trans (sub_wrapped _ a b)
  case subN32 => exact (isub_word false false a b).trans (sub_wrapped _ a b)
  case addI32Sat => exact (congrArg BitVec.toInt (iadd_word true true a b)).trans (add_clamped_signed a b (by decide) rfl rfl)
  case subI32Sat => exact (congrArg BitVec.toInt (isub_word true true a b)).trans (sub_clamped_signed a b (by decide) rfl rfl)
  case addN32Sat => exact (congrArg BitVec.toNat (iadd_word false true a b)).trans (add_clamped_unsigned a b)
  case subN32Sat => exact (congrArg BitVec.toNat (isub_word false true a b)).trans (sub_clamped_unsigned a b)
  case halves =>
    obtain ⟨sg, rfl⟩ : ∃ sg, t = halfTy sg := ht.elim (⟨true, ·⟩) (⟨false, ·⟩)
    exact ⟨(iadd_half sg false a b (.inl rfl)).trans (add_wrapped _ _ _), (iadd_half sg false a b (.inr rfl)).trans (add_wrapped _ _ _),
      (isub_half sg false a b (.inl rfl)).trans (sub_wrapped _ _ _), (isub_half sg false a b (.inr rfl)).trans (sub_wrapped _ _ _)⟩
  case addI16Sat => exact (congrArg BitVec.toInt (iadd_half true true a b hk)).trans (add_clamped_signed _ _ (by decide) rfl rfl)
  case subI16Sat => exact (congrArg BitVec.toInt (isub_half true true a b hk)).trans (sub_clamped_signed _ _ (by decide) rfl rfl)
  case addN16Sat => exact (congrArg BitVec.toNat (iadd_half false true a b hk)).trans (add_clamped_unsigned _ _)
  case subN16Sat => exact (congrArg BitVec.toNat (isub_half false true a b hk)).trans (sub_clamped_unsigned _ _)
  case minI32 =>
    rw [← toIntW_signed, ← toIntW_signed]
    exact imin_word true a b
  case maxI32 =>
    rw [← toIntW_signed, ← toIntW_signed]
    exact imax_word true a b
  case minN32 =>
    simp only [← Int.ofNat_lt, ← toIntW_unsigned]
    exact imin_word false a b
  case maxN32 =>
    simp only [← Int.ofNat_lt, ← toIntW_unsigned]
    exact imax_word false a b
  case minI16 => exact (congrArg BitVec.toInt (imin_half true a b hk)).trans (min_signed _ _)
  case maxI16 => exact (congrArg BitVec.toInt (imax_half true a b hk)).trans (max_signed _ _)
  case minN16 => exact (congrArg BitVec.toNat (imin_half false a b hk)).trans (min_unsigned _ _)
  case maxN16 => exact (congrArg BitVec.toNat (imax_half false a b hk)).trans (max_unsigned _ _)
  case dotN8 => simp only [idp4_eq, byteWord_n8, Nat.reduceMul]
  case dotI8 => simp only [idp4_eq, byteWord_i8, Nat.reduceMul]
  case product => rw [mmaOutI, ofNat_wrapW, ofInt_sum_products, BitVec.ofInt_natCast, BitVec.ofNat_toNat, BitVec.setWidth_eq]

end Sys2Proof.Machine
end

section
/-! PROOFS. FMIN, FMAX and FCMP on NaNs and zeros (R103, R346). -/
namespace Sys2Proof.Machine

/-! ## Comparisons of values -/

theorem Val.nan_of_isNan {v : Val} (h : v.isNan = true) : v = .nan := by
  cases v with
  | nan => rfl
  | inf n => cases h
  | fin n m e => cases h
@[simp] theorem Val.nan_lt (v : Val) : Val.nan.lt v = false := rfl
@[simp] theorem Val.lt_nan (v : Val) : v.lt .nan = false := by cases v <;> rfl
/-- Zeros are not in order, whatever their signs. -/
@[simp] theorem Val.zero_lt_zero (s s' : Bool) (e e' : Int) : (Val.fin s 0 e).lt (.fin s' 0 e') = false := by
  simp [Val.lt, signedAt]

/-! ## The codes of the zeros (R97) -/

theorem Fmt.val_zero (f : Fmt) : f.val 0 = .fin false 0 (1 - (f.bias : Int) - f.mb) := by
  have positive : ¬ f.signBit ≤ 0 := Nat.not_le.2 (Nat.two_pow_pos _)
  simp [Fmt.val, positive]
theorem Fmt.val_signBit (f : Fmt) : f.val f.signBit = .fin true 0 (1 - (f.bias : Int) - f.mb) := by
  have inCode : f.signBit % 2 ^ f.bits = f.signBit :=
    Nat.mod_eq_of_lt (Nat.pow_lt_pow_right (by omega) (by unfold Fmt.bits; omega))
  simp [Fmt.val, inCode]

theorem Fmt.val_of_zero {f : Fmt} {z : Nat} (hz : z = 0 ∨ z = f.signBit) : ∃ neg, f.val z = .fin neg 0 (1 - (f.bias : Int) - f.mb) := by
  obtain rfl | rfl := hz
  · exact ⟨false, f.val_zero⟩
  · exact ⟨true, f.val_signBit⟩

/-! ## FMIN and FMAX (R103) -/

section
variable {f : Fmt} {a n m : Nat}

theorem Fmt.fmin_nan_right (hn : (f.val n).isNan = true) (ha : (f.val a).isNan = false) : f.fmin a n = a := by simp [Fmt.fmin, hn, ha]
theorem Fmt.fmin_nan_left (hn : (f.val n).isNan = true) (ha : (f.val a).isNan = false) : f.fmin n a = a := by simp [Fmt.fmin, hn, ha]
theorem Fmt.fmax_nan_right (hn : (f.val n).isNan = true) (ha : (f.val a).isNan = false) : f.fmax a n = a := by simp [Fmt.fmax, hn, ha]
theorem Fmt.fmax_nan_left (hn : (f.val n).isNan = true) (ha : (f.val a).isNan = false) : f.fmax n a = a := by simp [Fmt.fmax, hn, ha]
theorem Fmt.fmin_nans (hn : (f.val n).isNan = true) (hm : (f.val m).isNan = true) : f.fmin n m = f.qnan := by simp [Fmt.fmin, hn, hm]
theorem Fmt.fmax_nans (hn : (f.val n).isNan = true) (hm : (f.val m).isNan = true) : f.fmax n m = f.qnan := by simp [Fmt.fmax, hn, hm]
end

/-- −0 is below +0. -/
theorem fltZ_signBit_zero (f : Fmt) : fltZ f f.signBit 0 = true := by
  simp [fltZ, Fmt.val_zero, Fmt.val_signBit, Val.isZero, Val.sign]
theorem fltZ_zero_signBit (f : Fmt) : fltZ f 0 f.signBit = false := by
  simp [fltZ, Fmt.val_zero, Fmt.val_signBit, Val.sign]
theorem Fmt.isNan_val_zero (f : Fmt) : (f.val 0).isNan = false := by rw [f.val_zero]; rfl
theorem Fmt.isNan_val_signBit (f : Fmt) : (f.val f.signBit).isNan = false := by rw [f.val_signBit]; rfl

/-! ## FCMP (R103, R346) -/

/-- FCMP tells no zero from another. -/
theorem Fmt.fcmp_zeros {f : Fmt} {x y : Nat} (cc : Nat) (hx : x = 0 ∨ x = f.signBit) (hy : y = 0 ∨ y = f.signBit) : f.fcmp cc x y = f.fcmp cc 0 0 := by
  obtain ⟨sx, hsx⟩ := Fmt.val_of_zero hx
  obtain ⟨sy, hsy⟩ := Fmt.val_of_zero hy
  simp only [Fmt.fcmp, Val.eq, hsx, hsy, f.val_zero, Val.zero_lt_zero, Val.isNan]

section
variable {f : Fmt} {a b cc : Nat}

theorem Fmt.fcmp_fun : (f.fcmp 14 a b).1 = ((f.val a).isNan || (f.val b).isNan) := rfl
theorem Fmt.fcmp_ford : (f.fcmp 15 a b).1 = !((f.val a).isNan || (f.val b).isNan) := rfl

variable (h : (f.val a).isNan = true ∨ (f.val b).isNan = true)
include h

/-- A NaN is in no order. -/
theorem Fmt.val_unordered : (f.val a).lt (f.val b) = false ∧ (f.val a).eq (f.val b) = false ∧ ((f.val a).isNan || (f.val b).isNan) = true := by
  obtain h | h := h
  · rw [Val.nan_of_isNan h]
    exact ⟨rfl, rfl, rfl⟩
  · rw [Val.nan_of_isNan h]
    exact ⟨Val.lt_nan _, by simp [Val.eq, Val.isNan], Bool.or_true _⟩
theorem Fmt.fcmp_nan_false (hcc : cc = 10 ∨ cc = 12 ∨ cc = 13) : (f.fcmp cc a b).1 = false := by
  obtain ⟨hlt, heq, hun⟩ := Fmt.val_unordered h
  obtain rfl | rfl | rfl := hcc
  · exact heq
  · exact hlt
  · simp only [Fmt.fcmp, hun, Bool.not_true, Bool.false_and]
theorem Fmt.fcmp_nan_true (hcc : cc = 11 ∨ cc = 14) : (f.fcmp cc a b).1 = true := by
  obtain ⟨-, heq, hun⟩ := Fmt.val_unordered h
  obtain rfl | rfl := hcc
  · simp only [Fmt.fcmp, heq, Bool.not_false]
  · exact hun
end

/-- Settles O10: a NaN by the cases of each operation, the zeros by their values, which are the same in every format. -/
theorem minimumMaximumCompareWithNanAndZero : Obligations.MinimumMaximumCompareWithNanAndZero := by
  unfold Obligations.MinimumMaximumCompareWithNanAndZero
  intro f a b n m _ hn hm _ _ ha hb
  refine ⟨Fmt.fmin_nan_right hn ha, Fmt.fmin_nan_left hn ha, Fmt.fmax_nan_right hn ha, Fmt.fmax_nan_left hn ha,
    Fmt.fmin_nans hn hm, Fmt.fmax_nans hn hm, ?minZero, ?minMinus, ?maxZero, ?maxMinus,
    fun cc _ _ => ⟨Fmt.fcmp_zeros cc (.inl rfl) (.inr rfl), Fmt.fcmp_zeros cc (.inr rfl) (.inl rfl)⟩, ?feqZeros,
    fun cc hcc => ⟨Fmt.fcmp_nan_false (.inl hn) hcc, Fmt.fcmp_nan_false (.inr hn) hcc, Fmt.fcmp_nan_false (.inl hn) hcc⟩,
    fun cc hcc => ⟨Fmt.fcmp_nan_true (.inl hn) hcc, Fmt.fcmp_nan_true (.inr hn) hcc, Fmt.fcmp_nan_true (.inl hn) hcc⟩,
    ?fordOrdered, ?funOrdered, ?fordNan⟩
  case minZero => simp [Fmt.fmin, f.isNan_val_zero, f.isNan_val_signBit, fltZ_signBit_zero]
  case minMinus => simp [Fmt.fmin, f.isNan_val_zero, f.isNan_val_signBit, fltZ_zero_signBit]
  case maxZero => simp [Fmt.fmax, f.isNan_val_zero, f.isNan_val_signBit, fltZ_zero_signBit]
  case maxMinus => simp [Fmt.fmax, f.isNan_val_zero, f.isNan_val_signBit, fltZ_signBit_zero]
  case feqZeros => simp [Fmt.fcmp, Val.eq, Fmt.val_zero, Val.isNan]
  case fordOrdered => simp [Fmt.fcmp_ford, ha, hb]
  case funOrdered => simp [Fmt.fcmp_fun, ha, hb]
  case fordNan => simp [Fmt.fcmp_ford, hn]

end Sys2Proof.Machine
end

section
/-! PROOFS. The conversions, DQMX, MZRO, the optimiser steps and the ray tests complete (R98, R104, R105, R124, R125, R127, R128, R334-R336, R338, R387). -/
namespace Sys2Proof.Machine

/-- An instruction whose body works lane by lane, and in no case raises a flag, completes. -/
theorem computes_laneBody_no_flags {i : Instr} {f : Group → Nat → List Wr} {body : Group → Nat → List Wr × Flags} (he : (traits i).ends = false)
    (h : ∀ s, exec i s = issue i (laneBody body) s) (hf : ∀ g l, body g l = (f g l, 0)) : Computes i f := by
  obtain rfl : body = fun g l => (f g l, 0) := funext fun g => funext (hf g)
  exact computes_laneBody he h

/-- Settles O12: each instruction works lane by lane on its registers; RXTRI raises no flag, whether it hits or misses. -/
theorem conversionOptimiserRayInstructionsComplete : Obligations.ConversionOptimiserRayInstructionsComplete := by
  unfold Obligations.ConversionOptimiserRayInstructionsComplete
  refine ⟨fun h u k d a b c t f m x => ⟨?cvt, ?cvtp, ?cvtx, ?dqmx⟩, fun h k d a b c p => ⟨?mzro, ?oadm, ?osgd, ?rxbox, ?rxtri⟩⟩
  case cvt | cvtp | cvtx | oadm | osgd => exact computesF_laneBody rfl fun _ => rfl
  case dqmx | mzro | rxbox => exact computes_laneBody rfl fun _ => rfl
  case rxtri =>
    refine computes_laneBody_no_flags rfl (fun _ => rfl) fun g l => ?_
    generalize rxtri _ _ = hit
    cases hit with
    | none => rfl
    | some q => rfl

end Sys2Proof.Machine
end

section
/-! PROOFS. MMA, MMAX and QMX complete (R110-R118, R384, R385, R403, R404). -/
namespace Sys2Proof.Machine

/-! ## Participants that meet within their group -/

/-- The lanes of the participants' groups, each with its writes, are the results of a group's meeting. -/
theorem groupRes_of_eq {t : Team} {x : Site} {f : Nat → Group → Mask → Nat → List Wr} {F : Nat × Mask → List LRes}
    (hnone : ∀ p, t.groups[p.1]? = none → F p = [])
    (hsome : ∀ p g, t.groups[p.1]? = some g → F p = (lanesOf p.2).map (fun l => ⟨p.1, l, f p.1 g p.2 l, 0⟩)) :
    ({ lanes := x.part.flatMap F } : Res) = groupRes t x f := by
  unfold groupRes
  congr 2
  funext p
  cases hg : t.groups[p.1]? with
  | none => exact hnone p hg
  | some g => exact hsome p g hg
theorem groupRes_no_flags {t : Team} {x : Site} {f : Nat → Group → Mask → Nat → List Wr} : ∀ q ∈ (groupRes t x f).lanes, q.fl = 0 := by
  intro q hq
  obtain ⟨p, _, hp⟩ := List.mem_flatMap.1 hq
  cases hg : t.groups[p.1]? with
  | none => simp [hg] at hp
  | some g =>
    simp only [hg, List.mem_map] at hp
    obtain ⟨_, _, rfl⟩ := hp
    rfl
/-- A body whose checks pass, and whose participants meet within each group, completes with the results of the meeting. -/
theorem issue_groupRes {i : Instr} {pre : State → Site → Pre} {run : State → Site → State × Res} {s s1 s2 : State} {x : Site} {t : Team}
    {f : Nat → Group → Mask → Nat → List Wr} (hp : s.performing i = some (s1, x, t)) (hu : uniOf i = false) (he : (traits i).ends = false)
    (hpre : pre s1 x = .go) (hr : run s1 x = (s2, groupRes t x f)) :
    issue i { pre := pre, run := run } s = .next (s2.finish x (groupRes t x f)) := by
  obtain ⟨rfl, -⟩ := performing_site hp
  rw [issue_go hp hu hpre (fun _ _ => rfl) (by simp [defers, he]) (by simpa only [hr] using groupRes_no_flags)]
  simp only [hr]

/-! ## The bodies' results -/

/-- The identity permutation reads each element at its own position. -/
theorem getD_range_getElem? (n k : Nat) : ((List.range n)[k]?).getD k = k := by
  by_cases h : k < n <;> simp [h]

/-- What lane `l` of MMAX writes (R385), where `pos` gives the K position an element of B is read from, and so the block whose scale it takes. -/
def mmaxWrites (d a b c : Nat) (t : Ty) (asel bsel : Nat) (pos : Nat → Nat) (g : Group) (part : Mask) (l : Nat) : List Wr :=
  let blk (r kk : Nat) : Nat := if t = .e2m1 then 2 * r + kk / 32 else 2 * r
  accWrites d l (fun r j => mmaOut (accElem g d r j) ((List.range (2 * fragHalf t)).map (fun kk =>
    (scaled (mxVal t (fragElem g t a r kk)) (bitsAt (g.rv (blk r kk) c).toNat (8 * asel) 8),
     if part.has (2 * j) then scaled (mxVal t (fragElem g t b j (pos kk))) (bitsAt (g.rv (blk j (pos kk)) (c + 1)).toNat (8 * bsel) 8)
     else .fin false 0 0))))

theorem mmaxBody_run {s : State} {x : Site} {u : Team} (d a b c : Nat) (t : Ty) (m n : Nat) (perm : Bool) (hu : s.team? x.tid = some u) :
    (mmaxBody d a b c t m n perm).run s x = (s.permTouch perm x (2 * fragHalf t) (fun g => g.permBase.toNat), groupRes u x (fun gi g part l =>
      mmaxWrites d a b c t m n (fun kk => ((s.permOf perm x.tid gi g.permBase.toNat (2 * fragHalf t))[kk]?).getD kk) g part l)) := by
  simp only [mmaxBody, hu]
  exact congrArg (Prod.mk _) (groupRes_of_eq (fun p hg => by simp only [hg]) fun p g hg => by simp only [hg, mmaxWrites])

/-- Settles O33: each body's results are those of its groups' meetings; without a permutation MMAX reads every element at its own position. -/
theorem matrixAndQuantisationInstructionsComplete : Obligations.MatrixAndQuantisationInstructionsComplete := by
  unfold Obligations.MatrixAndQuantisationInstructionsComplete
  refine ⟨fun h k d a b c t m n => ⟨fun s s1 x u hp => ?mma, fun s s1 x u hp => ?mmax, fun s s1 x u hp hpre => ?mmaxPerm⟩,
    fun h k d a c b t m p s s1 x u hp hpre => ?qmx⟩
  case mma =>
    refine issue_groupRes hp rfl rfl rfl ?_
    simp only [(performing_site hp).2]
    exact congrArg (Prod.mk _) (groupRes_of_eq (fun p hg => by simp only [hg]) fun p g hg => by simp only [hg, mmaLanes])
  case mmax =>
    refine issue_groupRes hp rfl rfl rfl ((mmaxBody_run _ _ _ _ _ _ _ _ (performing_site hp).2).trans ?_)
    simp only [State.permOf, getD_range_getElem?, Bool.false_eq_true, if_false]
    rfl
  case mmaxPerm =>
    exact issue_groupRes hp rfl rfl hpre (mmaxBody_run _ _ _ _ _ _ _ _ (performing_site hp).2)
  case qmx =>
    refine issue_groupRes hp rfl rfl hpre ?_
    simp only [(performing_site hp).2]
    refine (Prod.mk.injEq _ _ _ _).mpr ⟨?_, groupRes_of_eq (fun q hg => by simp only [hg]) fun q g hg => by simp only [hg]⟩
    cases p <;> rfl

end Sys2Proof.Machine
end

section
/-! PROOFS. The atomics and reductions complete in free mode (R166, R314-R316, R410). -/
namespace Sys2Proof.Machine

/-- Without an offset the address in team shared memory or the pad is the register itself (R374). -/
theorem localAddr_zero (a : Nat) : localAddr a 0 = fun g l => (g.rv l a).toNat := by
  funext g l
  have inWord := (g.rv l a).isLt
  simp only [localAddr, wrapW]
  omega

/-- Settles O22: each instruction runs the body of the atomics, its fields the operation; without an offset, local addresses are the register's. -/
theorem atomicInstructionsComplete : Obligations.AtomicInstructionsComplete := by
  unfold Obligations.AtomicInstructionsComplete
  rintro h g d a b c k x r t _ rfl
  simp only [← localAddr_zero]
  refine ⟨?atomg, ?atoms, ?atomp, ?redg, ?reds, ?redp⟩
  all_goals exact atomics_of_body rfl fun _ => rfl

end Sys2Proof.Machine
end

section
/-! PROOFS. The fences complete in free mode (R168, R349). -/
namespace Sys2Proof.Machine

/-! ## What a fence's body does -/

section
variable {rel acq xd : Bool} {s : State} {x : Site} {t : Team}

/-- Nothing holds a fence in free mode: the write-back of FENCE.X waits at a bridle round end alone (R203, R262). -/
theorem fenceBody_pre_free (ht : s.team? x.tid = some t) (hb : t.la.bridle = false) : (fenceBody rel acq xd).pre s x = .go := by
  simp [fenceBody, ht, hb]

/-- At set or team scope the fence holds every member group, and its members wait for each other (R168). -/
theorem fenceBody_run_wide (ht : s.team? x.tid = some t) (hb : t.la.bridle = false) (hs : x.scope = .set ∨ x.scope = .team) :
    (fenceBody rel acq xd).run s x =
      (let s2 := s.eachGroup x.tid x.mem (fun _ m g => { g with fence := some ⟨rel, acq, xd, g.wm, g.sn, x.mem.map Prod.fst, m⟩, wm := .core })
        if acq then s2.trigger3s x.tid (x.mem.map Prod.fst) else s2,
       { wait := x.members.map (fun q => (q.1, q.2, .parked .fence)) }) := by
  obtain hs | hs := hs
  all_goals simp [fenceBody, ht, hb, hs, Group.fenced]

/-- At lane or group scope one that acquires holds each group alone (R168). -/
theorem fenceBody_run_acquire (ht : s.team? x.tid = some t) (hb : t.la.bridle = false) (hs : x.scope = .lane ∨ x.scope = .group) :
    (fenceBody rel true xd).run s x =
      ((s.eachGroup x.tid x.mem (fun j _ g => { g with fence := some ⟨rel, true, xd, g.wm, g.sn, [j], 0⟩, wm := .core })).trigger3s x.tid
        (x.mem.map Prod.fst), {}) := by
  obtain hs | hs := hs
  all_goals simp [fenceBody, ht, hb, hs, Group.fenced]

/-- A release alone enters each group's store queue (R168). -/
theorem fenceBody_run_release (ht : s.team? x.tid = some t) (hb : t.la.bridle = false) (hs : x.scope = .lane ∨ x.scope = .group) :
    (fenceBody rel false xd).run s x =
      (s.eachGroup x.tid x.mem (fun _ _ g => { g with sq := g.sq ++ [⟨true, g.sn, .fence⟩], sn := g.sn + 1, wm := .core }), {}) := by
  obtain hs | hs := hs
  all_goals simp [fenceBody, ht, hb, hs, Group.fenced]

theorem fenceBody_no_lanes (st : Site) : ((fenceBody rel acq xd).run s st).2.lanes = [] := by
  simp only [fenceBody]
  cases s.team? st.tid with
  | none => rfl
  | some t => cases hb : t.la.bridle <;> simp [hb]
end

/-! ## The fences -/

/-- The four fences run one body, each with its own ordering, over the scope of their head (R349). -/
theorem exec_fence {h : Head} {i : Instr} {rel acq xd : Bool}
    (hi : (i, rel, acq, xd) ∈ [(Instr.fenceAcq h, false, true, false), (Instr.fenceRel h, true, false, false), (Instr.fenceFull h, true, true, false),
      (Instr.fenceX h, true, true, true)]) :
    headOf i = h ∧ uniOf i = false ∧ ∀ s, exec i s = issue i (fenceBody rel acq xd) s := by
  simp only [List.mem_cons, Prod.mk.injEq, List.not_mem_nil, or_false] at hi
  obtain ⟨rfl, rfl, rfl, rfl⟩ | ⟨rfl, rfl, rfl, rfl⟩ | ⟨rfl, rfl, rfl, rfl⟩ | ⟨rfl, rfl, rfl, rfl⟩ := hi
  all_goals exact ⟨rfl, rfl, fun _ => rfl⟩

/-- A fence in free mode completes with what its body runs to. -/
theorem fence_completes {i : Instr} {rel acq xd : Bool} {s s1 s2 : State} {x : Site} {t : Team} {r : Res} (hp : s.performing i = some (s1, x, t))
    (hu : uniOf i = false) (he : ∀ s, exec i s = issue i (fenceBody rel acq xd) s) (hb : t.la.bridle = false)
    (hr : (fenceBody rel acq xd).run s1 x = (s2, r)) : exec i s = .next (s2.finish x r) := by
  obtain ⟨-, ht⟩ := performing_site hp
  have free : defers (fenceBody rel acq xd) s1 x ((s1.team? x.tid).getD t) = false := by simp [defers, ht, hb]
  rw [he, issue_go hp hu (fenceBody_pre_free ht hb) (fun _ _ => rfl) free (by
    intro q hq
    rw [fenceBody_no_lanes] at hq
    cases hq)]
  exact congrArg (fun v : State × Res => Host.Outcome.next (v.1.finish x v.2)) hr

/-- Settles O25: by the scope of the fence, and at lane and group scope by whether it acquires. -/
theorem fenceInstructionsComplete : Obligations.FenceInstructionsComplete := by
  unfold Obligations.FenceInstructionsComplete
  intro h s s1 x t i rel acq xd hb hp hi
  obtain ⟨rfl, ht⟩ := performing_site hp
  obtain ⟨rfl, hu, he⟩ := exec_fence hi
  refine ⟨fun hs => ⟨_, rfl, ?wide⟩, ?acquire, ?release⟩
  case wide => exact fence_completes hp hu he hb (fenceBody_run_wide ht hb hs)
  case acquire =>
    rintro hs rfl
    exact fence_completes hp hu he hb (fenceBody_run_acquire ht hb hs)
  case release =>
    rintro hs rfl
    exact fence_completes hp hu he hb (fenceBody_run_release ht hb hs)

end Sys2Proof.Machine
end

section
/-! PROOFS. What an issue changes beside what its body does: groups, halt latches and nothing else (R32-R40, R192, R273-R276). -/
namespace Sys2Proof.Machine

/-! ## Changes of groups alone -/

/-- What a team holds beside its groups, its halt latch and its waits. -/
def Team.holdings (t : Team) : Nat × Launch × SMap Byte × List Barrier × List Ticket × List Msg := (t.tid, t.la, t.shm, t.bars, t.tickets, t.msgs)
/-- Nothing outside the teams differs, and nothing that a team holds. -/
def SameHoldings (s s' : State) : Prop := { s' with teams := s.teams } = s ∧ s'.teams.map Team.holdings = s.teams.map Team.holdings

theorem SameHoldings.refl (s : State) : SameHoldings s s := ⟨rfl, rfl⟩
theorem SameHoldings.trans {s s' s'' : State} (h : SameHoldings s s') (h' : SameHoldings s' s'') : SameHoldings s s'' := by
  obtain ⟨outside, teams⟩ := h
  obtain ⟨outside', teams'⟩ := h'
  refine ⟨?_, teams'.trans teams⟩
  calc { s'' with teams := s.teams }
      = { ({ s'' with teams := s'.teams } : State) with teams := s.teams } := rfl
    _ = { s' with teams := s.teams } := by rw [outside']
    _ = s := outside
theorem SameHoldings.foldl {α : Type} {f : State → α → State} (h : ∀ s q, SameHoldings s (f s q)) (l : List α) (s : State) :
    SameHoldings s (l.foldl f s) :=
  List.foldlRecOn (motive := SameHoldings s) l f (.refl s) fun s' hs q _ => hs.trans (h s' q)

section
variable (s : State) (tid : Nat)

theorem sameHoldings_modTeam {f : Team → Team} (hf : ∀ t, (f t).holdings = t.holdings) : SameHoldings s (s.modTeam tid f) := by
  refine ⟨rfl, ?_⟩
  simp only [State.modTeam_teams, List.map_map]
  refine List.map_congr_left fun t _ => ?_
  simp only [Function.comp_apply]
  split
  · exact hf t
  · rfl
theorem sameHoldings_modGroup (gi : Nat) (f : Group → Group) : SameHoldings s (s.modGroup tid gi f) := sameHoldings_modTeam s tid fun _ => rfl
theorem sameHoldings_eachGroup (gs : List (Nat × Mask)) (f : Nat → Mask → Group → Group) : SameHoldings s (s.eachGroup tid gs f) :=
  .foldl (α := Nat × Mask) (fun s p => sameHoldings_modGroup s tid p.1 (f p.1 p.2)) gs s

/-- A trap taken stops groups and sets the team's halt latch. -/
theorem sameHoldings_raise (gs : List Nat) (pc low : Nat) (tr : Trap) (es : List Ent) (fpx : List (Nat × Mask)) :
    SameHoldings s (s.raise tid gs pc low tr es fpx) := by
  refine sameHoldings_modTeam s tid fun t => ?_
  dsimp only
  split
  · rfl
  · split <;> rfl
theorem sameHoldings_skidded (gs : List Nat) : SameHoldings s (s.skidded tid gs) := by
  unfold State.skidded
  split
  · exact .foldl (fun s j => sameHoldings_modGroup s tid j _) gs s
  · exact .refl s
theorem sameHoldings_splitCheck (gi : Nat) : SameHoldings s (s.splitCheck tid gi) := by
  unfold State.splitCheck
  split
  · exact .refl s
  · dsimp only
    split
    · exact .refl s
    · exact sameHoldings_raise ..
theorem sameHoldings_stallGroup (gi : Nat) : SameHoldings s (s.stallGroup tid gi) := sameHoldings_modGroup ..
end

section
variable (s : State) (x : Site)

theorem sameHoldings_trapWhole (tr : Trap) : SameHoldings s (s.trapWhole x tr) := (sameHoldings_skidded ..).trans (sameHoldings_raise ..)
theorem sameHoldings_finish (r : Res) : SameHoldings s (s.finish x r) := by
  unfold State.finish
  split
  · exact .refl s
  · exact sameHoldings_eachGroup ..
theorem sameHoldings_splitOff (z : Site) (r : Res) : SameHoldings s (s.splitOff x z r) := (sameHoldings_finish ..).trans (sameHoldings_eachGroup ..)
theorem sameHoldings_trapPart (tr : Trap) (low : Nat) (fpx : List (Nat × Mask)) : SameHoldings s (s.trapPart x tr low fpx) := by
  unfold State.trapPart
  dsimp only
  split
  · exact (sameHoldings_skidded ..).trans (sameHoldings_raise ..)
  · exact (sameHoldings_splitOff ..).trans (sameHoldings_raise ..)
theorem sameHoldings_trapFpx (r : Res) (ls : List (Nat × Nat)) : SameHoldings s (s.trapFpx x r ls) :=
  (sameHoldings_eachGroup ..).trans (sameHoldings_trapPart ..)
theorem sameHoldings_deferIt : SameHoldings s (s.deferIt x) := (sameHoldings_finish ..).trans (sameHoldings_eachGroup ..)
theorem sameHoldings_stallAt : SameHoldings s (s.stallAt x) := sameHoldings_eachGroup ..
end

section
variable (s : State) (c : Cur) (g : Group)

theorem sameHoldings_trapMask (m off : Mask) (sc : Scope) : SameHoldings s (s.trapMask c g m off sc) := by
  unfold State.trapMask
  split
  · exact sameHoldings_stallGroup ..
  · exact (sameHoldings_modGroup ..).trans (sameHoldings_raise ..)
theorem sameHoldings_trapEarly (tr : Trap) : SameHoldings s (s.trapEarly c g tr) := by
  unfold State.trapEarly
  split
  · exact sameHoldings_stallGroup ..
  · exact (sameHoldings_skidded ..).trans (sameHoldings_raise ..)
theorem sameHoldings_trapScreen (i : Instr) (t : Team) (code : Nat) : SameHoldings s (s.trapScreen i c t g code) := by
  unfold State.trapScreen
  dsimp only
  split
  · exact sameHoldings_trapWhole ..
  · exact sameHoldings_trapEarly ..
end

/-! ## What an issue can come to -/

/-- The state of a rendezvous, complete or not. -/
def Gather.state : Gather → State
  | .go s _ => s
  | .stop s => s
theorem sameHoldings_gather (i : Instr) (s : State) (c : Cur) (t : Team) (g : Group) : SameHoldings s (gather i s c t g).state := by
  unfold gather
  dsimp only
  split
  · exact .refl s
  · split
    · exact .refl s
    · split
      · exact sameHoldings_trapMask ..
      · split
        · exact sameHoldings_modGroup ..
        · exact (sameHoldings_modGroup ..).trans (sameHoldings_splitCheck ..)

/-- From one state to the other a body has run, or nothing has happened. -/
def Body.RanOrNot (b : Body) (s s1 : State) : Prop := s1 = s ∨ ∃ z, s1 = (b.run s z).1

/-- Performing runs the body at most once; all else that it does is to the groups. -/
theorem perform_runs (b : Body) (s : State) (x : Site) (t : Team) : ∃ s1, b.RanOrNot s s1 ∧ SameHoldings s1 (perform b s x t).state := by
  have parked (wide : Bool) (ps : List (Nat × Nat × Park)) (s : State) :
      SameHoldings s (ps.foldl (fun s q => s.modGroup x.tid q.1 (fun g => g.parkMet wide (laneBit q.2.1) q.2.2)) s) :=
    .foldl (fun s q => sameHoldings_modGroup s x.tid q.1 _) ps s
  unfold perform
  dsimp only
  split
  · -- the body's own checks trap
    refine ⟨s, .inl rfl, ?_⟩
    split
    · exact sameHoldings_trapPart ..
    · exact sameHoldings_trapWhole ..
  · -- they wait
    simp only [End.state]
    exact ⟨s, .inl rfl, sameHoldings_eachGroup ..⟩
  · split
    · -- a lane's wait holds a bridle issue
      simp only [End.state]
      exact ⟨s, .inl rfl, sameHoldings_eachGroup ..⟩
    · split
      · -- some lane faults: the whole issue does, or the other lanes perform
        split
        · exact ⟨s, .inl rfl, sameHoldings_trapPart ..⟩
        · split
          · exact ⟨s, .inl rfl, (sameHoldings_skidded ..).trans (sameHoldings_raise ..)⟩
          · split
            · exact ⟨s, .inl rfl, ((sameHoldings_deferIt ..).trans (sameHoldings_eachGroup ..)).trans (sameHoldings_raise ..)⟩
            · exact ⟨_, .inr ⟨_, rfl⟩, ((parked ..).trans (sameHoldings_splitOff ..)).trans (sameHoldings_raise ..)⟩
      · -- no lane faults: the UNI access waits, the effect waits for the round end, or the body runs
        split
        · exact ⟨s, .inl rfl, .foldl (fun s q => sameHoldings_eachGroup s x.tid x.part _) _ s⟩
        · split
          · exact ⟨s, .inl rfl, (parked ..).trans (sameHoldings_deferIt ..)⟩
          · split
            · exact ⟨_, .inr ⟨_, rfl⟩, (parked ..).trans (sameHoldings_finish ..)⟩
            · exact ⟨s, .inl rfl, sameHoldings_trapFpx ..⟩

/-- A speculating group's issue performs, or stalls (R192). -/
theorem performOrStall_runs (b : Body) (sp : Bool) (s : State) (x : Site) (t : Team) :
    ∃ s1, b.RanOrNot s s1 ∧ SameHoldings s1 (performOrStall b sp s x t) := by
  have stalls : ∃ s1, b.RanOrNot s s1 ∧ SameHoldings s1 (s.stallAt x) := ⟨s, .inl rfl, sameHoldings_stallAt ..⟩
  obtain ⟨s1, ran, same⟩ := perform_runs b s x t
  unfold performOrStall
  dsimp only
  split
  · split
    · exact stalls
    · rename_i s' ended
      rw [ended] at same
      split
      · exact stalls
      · exact ⟨s1, ran, same⟩
  · exact ⟨s1, ran, same⟩

/-- From one state to the other: changes of groups, what a body does before its issue and in it, and changes of groups. -/
def Body.Issued (b : Body) (s s' : State) : Prop :=
  ∃ s0 s1 s2, SameHoldings s s0 ∧ (s1 = s0 ∨ ∃ x, s1 = b.prep s0 x) ∧ b.RanOrNot s1 s2 ∧ SameHoldings s2 s'

theorem Body.Issued.of_sameHoldings {b : Body} {s s' : State} (h : SameHoldings s s') : b.Issued s s' := ⟨s, s, s, .refl s, .inl rfl, .inl rfl, h⟩
theorem Body.Issued.trans_left {b : Body} {s s' s'' : State} (h : SameHoldings s s') : b.Issued s' s'' → b.Issued s s''
  | ⟨s0, s1, s2, h0, h1, h2, h3⟩ => ⟨s0, s1, s2, h.trans h0, h1, h2, h3⟩
theorem Body.Issued.of_runs {b : Body} {s s' : State} {x : Site} : (∃ s2, b.RanOrNot (b.prep s x) s2 ∧ SameHoldings s2 s') → b.Issued s s'
  | ⟨s2, ran, same⟩ => ⟨s, _, s2, .refl s, .inr ⟨x, rfl⟩, ran, same⟩
/-- What changes of groups keep, and the body's two parts, the issue keeps. -/
theorem Body.Issued.keeps {R : State → State → Prop} {b : Body} (trans : ∀ {s s' s''}, R s s' → R s' s'' → R s s'')
    (same : ∀ {s s'}, SameHoldings s s' → R s s') (prep : ∀ s x, R s (b.prep s x)) (run : ∀ s x, R s (b.run s x).1) {s s' : State} :
    b.Issued s s' → R s s' := by
  rintro ⟨s0, s1, s2, before, prepared, ran, after⟩
  have h1 : R s0 s1 := by
    obtain rfl | ⟨x, rfl⟩ := prepared
    · exact same (.refl _)
    · exact prep s0 x
  have h2 : R s1 s2 := by
    obtain rfl | ⟨z, rfl⟩ := ran
    · exact same (.refl _)
    · exact run s1 z
  exact trans (trans (trans (same before) h1) h2) (same after)

theorem afterGather_issued (i : Instr) (b : Body) (s : State) (x : Site) (t : Team) : b.Issued s (afterGather i b s x t) := by
  unfold afterGather
  dsimp only
  split
  · -- a trap, before which a speculating group stalls
    refine .of_sameHoldings ?_
    split
    · exact sameHoldings_stallAt ..
    · split
      · exact sameHoldings_trapPart ..
      · exact sameHoldings_trapWhole ..
  · -- a fence of the group
    exact .of_sameHoldings (sameHoldings_eachGroup ..)
  · exact .of_runs (performOrStall_runs ..)

/-- An issue changes groups, and runs its body at most once (R32-R40). -/
theorem issue_issued {i : Instr} {b : Body} {s s' : State} (h : issue i b s = .next s') : b.Issued s s' := by
  unfold issue at h
  split at h
  · cases h
  · rename_i c t g _
    cases h
    have met := sameHoldings_gather i s c t g
    unfold issueAt
    split
    · exact .of_sameHoldings (sameHoldings_trapScreen ..)
    · split
      · exact .of_sameHoldings (sameHoldings_stallGroup ..)
      · split
        · rename_i stopped
          rw [stopped] at met
          exact .of_sameHoldings met
        · rename_i gone
          rw [gone] at met
          exact .trans_left met (afterGather_issued ..)

end Sys2Proof.Machine
end

section
/-! PROOFS. The register instructions, and the loads of team shared memory and the pad, change no memory (R157, R310, R337, R372, R374, R380, R393, R431). -/
namespace Sys2Proof.Machine

/-! ## Bodies that keep what the teams hold -/

/-- Neither before its issue nor in it does the body change more than groups. -/
structure Body.KeepsHoldings (b : Body) : Prop where
  prep : ∀ s x, SameHoldings s (b.prep s x)
  run : ∀ s x, SameHoldings s (b.run s x).1

theorem Body.KeepsHoldings.of_issued {b : Body} (h : b.KeepsHoldings) {s s' : State} (hi : b.Issued s s') : SameHoldings s s' :=
  hi.keeps .trans id h.prep h.run
/-- A body that has results alone. -/
theorem Body.KeepsHoldings.of_run_same {b : Body} (h : ∀ s x, (b.run s x).1 = s) (hp : b.prep = fun s _ => s := by rfl) : b.KeepsHoldings where
  prep s x := by rw [hp]; exact .refl s
  run s x := by rw [h]; exact .refl s

theorem umovvBody_keepsHoldings (d v : Nat) : (umovvBody d v).KeepsHoldings := .of_run_same fun s x => by
  simp only [umovvBody]
  split
  · rfl
  · split <;> rfl
theorem ubraBody_keepsHoldings (a : Nat) (z : Bool) (o : BitVec 32) : (ubraBody a z o).KeepsHoldings := .of_run_same fun s x => by
  simp only [ubraBody]
  split
  · rfl
  · split <;> rfl
theorem uloopBody_keepsHoldings (d : Nat) (o : BitVec 32) : (uloopBody d o).KeepsHoldings := .of_run_same fun s x => by
  simp only [uloopBody]
  split
  · rfl
  · split <;> rfl
theorem callBody_keepsHoldings (tgt : Site → Group → Nat → Int) : (callBody tgt).KeepsHoldings where
  prep s _ := .refl s
  run s x := by
    simp only [callBody]
    split
    · exact .refl s
    · exact .foldl (α := Nat × Nat) (fun s q => sameHoldings_modGroup s x.tid q.1 _) x.lanes s
theorem retBody_keepsHoldings : retBody.KeepsHoldings where
  prep s _ := .refl s
  run s x := .foldl (α := Nat × Nat) (fun s q => sameHoldings_modGroup s x.tid q.1 _) x.lanes s
theorem yldBody_keepsHoldings : yldBody.KeepsHoldings where
  prep s _ := .refl s
  run s x := sameHoldings_eachGroup s x.tid x.mem _
theorem setsBody_keepsHoldings (k a : Nat) : (setsBody k a).KeepsHoldings where
  prep s _ := .refl s
  run s x := by
    simp only [setsBody]
    split
    · exact .refl s
    · exact sameHoldings_eachGroup ..

/-! ## Reads of team shared memory and of the pad (R157, R191) -/

/-- A read of team shared memory is noted in its group: in the read set, where the group speculates, and in the watermark. -/
theorem sameHoldings_touchRead_shm (s : State) (tid gi a n ch : Nat) : SameHoldings s (s.touchRead tid gi (.shm a) n ch) := by
  unfold State.touchRead
  split
  · exact .refl s
  · split
    · exact .refl s
    · simp only [Loc.sp, bne_self_eq_false, Bool.false_and, Bool.false_eq_true, if_false, ite_self]
      split
      · exact sameHoldings_modGroup ..
      · exact (sameHoldings_modGroup ..).trans (sameHoldings_modGroup ..)
theorem sameHoldings_permTouch (s : State) (use : Bool) (x : Site) (n : Nat) (base : Group → Nat) : SameHoldings s (s.permTouch use x n base) := by
  unfold State.permTouch
  split
  · exact .refl s
  · refine .foldl (fun s p => ?_) _ s
    split
    · exact .refl s
    · exact .foldl (fun s i => sameHoldings_touchRead_shm ..) _ s
theorem mmaxBody_keepsHoldings (d a b c : Nat) (t : Ty) (m n : Nat) (perm : Bool) : (mmaxBody d a b c t m n perm).KeepsHoldings where
  prep s _ := .refl s
  run _ _ := sameHoldings_permTouch ..
theorem qmxBody_keepsHoldings (d a b c : Nat) (t : Ty) (m : BitVec 3) (perm : Bool) : (qmxBody d a b c t m perm).KeepsHoldings where
  prep s _ := .refl s
  run s x := by
    simp only [qmxBody]
    split
    · exact (sameHoldings_permTouch ..).trans (sameHoldings_eachGroup ..)
    · exact sameHoldings_permTouch ..

/-- Every register instruction issues a body that changes no more than groups. -/
theorem registerOnly_body {i : Instr} (h : registerOnly i = true) : ∃ b : Body, (∀ s, exec i s = issue i b s) ∧ b.KeepsHoldings := by
  cases i with
  | call | callGuarded | calx | calxGuarded => exact ⟨_, fun _ => rfl, callBody_keepsHoldings _⟩
  | ret => exact ⟨_, fun _ => rfl, retBody_keepsHoldings⟩
  | yld => exact ⟨_, fun _ => rfl, yldBody_keepsHoldings⟩
  | sets => exact ⟨_, fun _ => rfl, setsBody_keepsHoldings ..⟩
  | mmax => exact ⟨_, fun _ => rfl, mmaxBody_keepsHoldings ..⟩
  | qmx => exact ⟨_, fun _ => rfl, qmxBody_keepsHoldings ..⟩
  | umovv => exact ⟨_, fun _ => rfl, umovvBody_keepsHoldings ..⟩
  | ubra => exact ⟨_, fun _ => rfl, ubraBody_keepsHoldings ..⟩
  | uloop => exact ⟨_, fun _ => rfl, uloopBody_keepsHoldings ..⟩
  | andLr | andLi | andXi | andn | bfi | bfx | bpt | bra | braGuarded | brev | brx | brxGuarded | clk | clz | cvt | cvtp | cvtx | dqmx | faddLr
  | faddXf | fcmpLc | fcmpXf | fcos | fex2 | flg2 | frcp | frsq | fsin | fsqrt | ffma | fmaxLr | fmaxXf | fminLr | fminXf | fmulLr | fmulXf
  | frnd | fshf | gargx | gred | gscan | hadd2 | hfma2 | hmul2 | iabs | iaddLr | iaddLi | iaddXi | imaxLr | imaxXi | iminLr | iminXi | imulLr
  | imulXi | isubLr | isubXi | iaddx | icmpLc | icmpXi | idp4 | imad | imadw | imulh | isel | lea | matchLanes | mma | mzro | movLr | movXi
  | movg | movi | movs | nop | oadm | osgd | orLr | orLi | orXi | plop | popc | pswz | rxbox | rxtri | shfl | shlLr | shlLi | shlXi | shrLr
  | shrLi | shrXi | shraLr | shraLi | shraXi | time | trap | uadd | usub | umul | uand | uor | uxor | ushl | ushr | ucmp | umov | umovi | usel
  | vote | xorLr | xorLi | xorXi => exact ⟨_, fun _ => rfl, .of_run_same fun _ _ => rfl⟩
  | _ => exact absurd h Bool.false_ne_true

/-! ## Loads of team shared memory and of the pad (R157, R374) -/

/-- The bytes of memory, of the pad and of every team's shared memory are the same. -/
def SameBytes (s s' : State) : Prop := s'.mem = s.mem ∧ s'.pad = s.pad ∧ s'.teams.map (fun t => (t.tid, t.shm)) = s.teams.map (fun t => (t.tid, t.shm))

theorem SameBytes.refl (s : State) : SameBytes s s := ⟨rfl, rfl, rfl⟩
theorem SameBytes.trans {s s' s'' : State} (h : SameBytes s s') (h' : SameBytes s' s'') : SameBytes s s'' := by
  obtain ⟨mem, pad, shm⟩ := h
  obtain ⟨mem', pad', shm'⟩ := h'
  exact ⟨mem'.trans mem, pad'.trans pad, shm'.trans shm⟩
theorem SameHoldings.sameBytes {s s' : State} (h : SameHoldings s s') : SameBytes s s' := by
  obtain ⟨outside, teams⟩ := h
  have teams' := congrArg (List.map fun v => (v.1, v.2.2.1)) teams
  rw [List.map_map, List.map_map] at teams'
  exact ⟨(congrArg State.mem outside :), (congrArg State.pad outside :), teams'⟩
theorem SameBytes.foldl {α : Type} {f : State → α → State} {l : List α} {s : State} (h : ∀ s, ∀ q ∈ l, SameBytes s (f s q)) :
    SameBytes s (l.foldl f s) :=
  List.foldlRecOn (motive := SameBytes s) l f (.refl s) fun s' hs q hq => hs.trans (h s' q hq)

/-- A read of the pad is noted in its group too, and in the writes in flight that it meets (R166). -/
theorem sameBytes_touchRead_pad (s : State) (tid gi d sl off n ch : Nat) : SameBytes s (s.touchRead tid gi (.pad d sl off) n ch) := by
  have inFlight {s' : State} {c c' : Prop} [Decidable c] [Decidable c'] {k : Nat} {f : Core → Core} (h : SameHoldings s s') :
      SameBytes s (if c then s' else if c' then s'.modCore k f else s') := by
    split
    · exact h.sameBytes
    · split
      · exact h.sameBytes.trans ⟨rfl, rfl, rfl⟩
      · exact h.sameBytes
  unfold State.touchRead
  split
  · exact .refl s
  · split
    · exact .refl s
    · rename_i g _
      cases g.bram with
      | none => exact inFlight (sameHoldings_modGroup ..)
      | some b => exact inFlight ((sameHoldings_modGroup ..).trans (sameHoldings_modGroup ..))
theorem sameBytes_touchRead (s : State) (tid gi : Nat) {l : Loc} (n ch : Nat) (hl : l.sp ≠ 2) : SameBytes s (s.touchRead tid gi l n ch) := by
  cases l with
  | phys => exact absurd rfl hl
  | shm a => exact (sameHoldings_touchRead_shm ..).sameBytes
  | pad d sl off => exact sameBytes_touchRead_pad ..
/-- Outside physical memory nothing is read from a mirror copy. -/
theorem fromMirror_eq_self (s : State) {ps : List (Loc × Nat)} (h : ∀ p ∈ ps, p.1.sp ≠ 2) : s.fromMirror ps = s := by
  unfold State.fromMirror
  refine List.foldlRecOn (motive := fun s' => s' = s) ps _ rfl fun s' hs p hp => ?_
  obtain ⟨l, n⟩ := p
  cases l with
  | phys => exact absurd rfl (h _ hp)
  | shm => exact hs
  | pad => exact hs
/-- A pad address leads to a place of the pad (R137). -/
theorem padAddr_sp {s : State} {d part a : Nat} {ps : List (Loc × Nat)} (h : s.padAddr d part a = .ok ps) : ∀ p ∈ ps, p.1.sp = 1 := by
  unfold State.padAddr at h
  dsimp only at h
  split at h
  · split at h
    · cases h
    · split at h
      · cases h
      · cases h
        simp [Loc.sp]
  · split at h
    · cases h
    · cases h
      simp [Loc.sp]
/-- An access to team shared memory or the pad leads to no place of physical memory (R130). -/
theorem resolve_sp {s : State} {t : Team} {g : Group} {l a n : Nat} {sp : Space} {write : Bool} {ps : List (Loc × Nat)} (hsp : sp = .shared ∨ sp = .pad)
    (h : s.resolve t g l sp a n write = .ok ps) : ∀ p ∈ ps, p.1.sp ≠ 2 := by
  unfold State.resolve at h
  dsimp only at h
  split at h
  · cases h
  · obtain rfl | rfl := hsp
    · dsimp only at h
      split at h
      · cases h
      · split at h
        · cases h
        · cases h
          simp [Loc.sp]
    · dsimp only at h
      split at h
      · rename_i qs found
        split at h
        · cases h
          intro p hp
          obtain ⟨q, hq, rfl⟩ := List.mem_map.1 hp
          simp [padAddr_sp found q hq]
        · cases h
      · cases h
      · cases h
/-- One lane's read of team shared memory or the pad. -/
theorem sameBytes_readLane (s : State) (tid gi l a n ch : Nat) {sp : Space} (hsp : sp = .shared ∨ sp = .pad) :
    SameBytes s (s.readLane tid gi l sp a n ch).1 := by
  unfold State.readLane
  split
  · exact .refl s
  · split
    · rename_i ps found
      have outside := resolve_sp hsp found
      simp only [fromMirror_eq_self s outside]
      exact .foldl fun s p hp => sameBytes_touchRead s tid gi p.2 ch (outside p hp)
    · exact .refl s
theorem sameBytes_lanesDo {s : State} {x : Site} {f : State → Group → Nat → Nat → State × List Wr} (h : ∀ s g gi l, SameBytes s (f s g gi l).1) :
    SameBytes s (s.lanesDo x f).1 := by
  unfold State.lanesDo
  refine List.foldlRecOn (motive := fun acc : State × List LRes => SameBytes s acc.1) x.lanes _ (.refl s) fun acc hs q _ => ?_
  dsimp only
  split
  · exact hs
  · exact hs.trans (h ..)
/-- A plain load of team shared memory or the pad, in all that its issue comes to. -/
theorem sameBytes_of_load {sp : Space} {w d ch : Nat} {a : Group → Nat → Nat} {s s' : State} (hsp : sp = .shared ∨ sp = .pad)
    (h : (loadBody sp w d false ch a).Issued s s') : SameBytes s s' :=
  h.keeps .trans SameHoldings.sameBytes (fun s _ => .refl s) fun _ x =>
    sameBytes_lanesDo fun s g gi l => sameBytes_readLane s x.tid gi l (a g l) (wBytes w) ch hsp

/-- Settles O39: an issue runs its body at most once and else changes groups alone; by the bodies of the instructions. -/
theorem instructionsThatLeaveMemory : Obligations.InstructionsThatLeaveMemory := by
  unfold Obligations.InstructionsThatLeaveMemory
  refine ⟨fun i s s2 only next => ?registers, fun h u k d a o w f s s2 i hi next => ?loads⟩
  case registers =>
    obtain ⟨b, issues, keeps⟩ := registerOnly_body only
    rw [issues] at next
    exact keeps.of_issued (issue_issued next)
  case loads =>
    simp only [List.mem_cons, List.not_mem_nil, or_false] at hi
    obtain rfl | rfl | rfl := hi
    · exact sameBytes_of_load (.inl rfl) (issue_issued next)
    · exact sameBytes_of_load (.inl rfl) (issue_issued next)
    · exact sameBytes_of_load (.inr rfl) (issue_issued next)

end Sys2Proof.Machine
end

section
/-! PROOFS. A trap taken: the halt latch, the groups that stop, and what stays (R196, R273, R274). -/
namespace Sys2Proof.Machine

/-! ## Teams by their identity -/

/-- A team found by its identity is found after changes of groups, with all that it holds. -/
theorem SameHoldings.team? {s s' : State} {tid : Nat} {t : Team} (same : SameHoldings s s') (ht : s.team? tid = some t) :
    ∃ u, s'.team? tid = some u ∧ u.holdings = t.holdings := by
  obtain ⟨-, teams⟩ := same
  have byHoldings (s : State) : (s.team? tid).map Team.holdings = (s.teams.map Team.holdings).find? (·.1 == tid) := by
    rw [List.find?_map]
    rfl
  have found : (s'.team? tid).map Team.holdings = some t.holdings := by rw [byHoldings, teams, ← byHoldings, ht]; rfl
  exact Option.map_eq_some_iff.1 found

/-! ## What a rollback leaves (R193) -/

/-- Restoring shadows writes vector registers alone. -/
theorem Group.unshadow_frame (g : Group) (p : Nat × List Word) : g.unshadow p = { g with v := (g.unshadow p).v } :=
  List.foldlRecOn (motive := fun g' : Group => g' = { g with v := g'.v }) _ _ rfl fun g' hg q _ => by
    rw [hg]
    rfl
theorem Group.foldl_unshadow_frame (g : Group) (ps : List (Nat × List Word)) :
    ps.foldl Group.unshadow g = { g with v := (ps.foldl Group.unshadow g).v } :=
  List.foldlRecOn (motive := fun g' : Group => g' = { g with v := g'.v }) ps _ rfl fun g' hg p _ => by
    rw [Group.unshadow_frame, hg]
theorem Group.rollbackNow_of_bram_none {g : Group} (h : g.bram = none) : g.rollbackNow = g := by
  unfold Group.rollbackNow
  rw [h]
/-- A rollback neither stops a group nor starts it, and gives it no secondary code. -/
theorem Group.rollbackNow_trap_fields (g : Group) : g.rollbackNow.stopped = g.stopped ∧ g.rollbackNow.scode = g.scode := by
  unfold Group.rollbackNow
  split
  · rename_i b hb
    simp only [Group.rollback, hb]
    rw [Group.foldl_unshadow_frame]
    exact ⟨rfl, rfl⟩
  · exact ⟨rfl, rfl⟩
@[simp] theorem Group.rollbackNow_stopped (g : Group) : g.rollbackNow.stopped = g.stopped := g.rollbackNow_trap_fields.1
@[simp] theorem Group.rollbackNow_scode (g : Group) : g.rollbackNow.scode = g.scode := g.rollbackNow_trap_fields.2

/-! ## A group of the team that takes a trap (R273, R274) -/

/-- Group `j` after its team takes a trap in the groups `gs`; `sec` where the trap is a later one, `all` where every group stops with it. -/
def Group.afterTrap (gs : List Nat) (code pc : Nat) (sec all : Bool) (j : Nat) (g : Group) : Group :=
  let g := if gs.contains j then g.trapped sec code 0 pc else g
  if all then { g with stopped := true } else g

section
variable (gs : List Nat) (code pc : Nat) (sec all : Bool) (j : Nat) (g : Group)

theorem Group.afterTrap_stopped : (g.afterTrap gs code pc sec all j).stopped = (all || decide (j ∈ gs) || g.stopped) := by
  unfold Group.afterTrap
  cases all with
  | true => rfl
  | false => by_cases h : j ∈ gs <;> simp [Group.trapped, h]
theorem Group.afterTrap_scode : (g.afterTrap gs code pc sec all j).scode = if j ∈ gs ∧ sec = true then code else g.scode := by
  unfold Group.afterTrap
  cases all <;> by_cases h : j ∈ gs <;> simp [Group.trapped, h]
/-- Registers, lanes and the store queue are as they were. -/
theorem Group.afterTrap_frame : (g.afterTrap gs code pc sec all j).v = g.v ∧ (g.afterTrap gs code pc sec all j).g = g.g ∧
    (g.afterTrap gs code pc sec all j).p = g.p ∧ (g.afterTrap gs code pc sec all j).lanes = g.lanes ∧
    (g.afterTrap gs code pc sec all j).sq = g.sq := by
  unfold Group.afterTrap
  dsimp only
  split <;> split <;> exact ⟨rfl, rfl, rfl, rfl, rfl⟩
end

section
variable {s : State} {tid : Nat} {t : Team} (gs : List Nat) (pc low : Nat) (tr : Trap) (es : List Ent)

/-- The first trap of a team sets its halt latch, whatever stopped the team before; who speculates rolls back, and in bridle mode every group stops. -/
theorem team?_raise_first (ht : s.team? tid = some t) (first : ∀ h, t.halt = some h → h.kind ≠ 0) :
    ∃ u, (s.raise tid gs pc low tr es []).team? tid = some u ∧
      u.halt = some ⟨0, tr.code, tr.cause, tr.addr, pc, tr.ticket, 0, low, 0, gs, es⟩ ∧ u.groups.length = t.groups.length ∧
      ∀ j, u.groups[j]? = (t.groups[j]?).map fun g : Group => g.rollbackNow.afterTrap gs tr.code pc false t.la.bridle j := by
  unfold State.raise
  rw [team?_modTeam (fun u => by dsimp only; split <;> split <;> rfl), ht]
  refine ⟨_, rfl, ?_⟩
  cases hh : t.halt
  case' none => simp only [hh, if_true, true_and]
  case' some h => simp only [hh, bne_iff_ne.mpr (first h hh), if_true, true_and]
  all_goals
    refine ⟨by simp [Team.rollbackAll], fun j => ?_⟩
    simp only [Team.rollbackAll, List.getElem?_map, enum_getElem?, Option.map_map]
    rfl
/-- A later trap adds its lane sets to the latch, and its code is the secondary one of the groups that raise it. -/
theorem team?_raise_later (ht : s.team? tid = some t) {h : Halt} (taken : t.halt = some h) (hk : h.kind = 0) :
    ∃ u, (s.raise tid gs pc low tr es []).team? tid = some u ∧
      u.halt = some { h with ents := h.ents ++ es } ∧ u.groups.length = t.groups.length ∧
      ∀ j, u.groups[j]? = (t.groups[j]?).map fun g : Group => g.afterTrap gs tr.code pc true false j := by
  unfold State.raise
  rw [team?_modTeam (fun u => by dsimp only; split <;> split <;> rfl), ht]
  refine ⟨_, rfl, ?_⟩
  have notFirst : (h.kind != 0) = false := by rw [hk, bne_self_eq_false]
  simp only [taken, notFirst, Bool.false_eq_true, if_false]
  refine ⟨rfl, by simp, fun j => ?_⟩
  simp only [List.getElem?_map, enum_getElem?, Option.map_map]
  rfl
theorem team?_raise_ne {k : Nat} (h : k ≠ tid) : (s.raise tid gs pc low tr es []).team? k = s.team? k := by
  unfold State.raise
  exact team?_modTeam_ne (fun u => by dsimp only; split <;> split <;> rfl) h
end

/-- Settles O35: by whether the team has taken a trap before; what it holds beside its groups and its latch stays. -/
theorem takingATrap : Obligations.TakingATrap := by
  unfold Obligations.TakingATrap
  intro s tid gs pc low tr es t ht later
  have same := sameHoldings_raise s tid gs pc low tr es []
  obtain ⟨u, hu, held⟩ := same.team? ht
  simp only [Team.holdings, Prod.mk.injEq] at held
  obtain ⟨-, la, shm, bars, tickets, msgs⟩ := held
  obtain ⟨outside, -⟩ := same
  have others : ∀ k, k ≠ tid → (s.raise tid gs pc low tr es []).team? k = s.team? k := fun k hk => team?_raise_ne gs pc low tr es hk
  refine ⟨u, hu, ?_⟩
  by_cases taken : ∃ h, t.halt = some h ∧ h.kind = 0
  case pos =>
    obtain ⟨h, hh, hk⟩ := taken
    have isLater : later = true := by simp [later, hh, hk]
    obtain ⟨v, hv, halt, length, groups⟩ := team?_raise_later gs pc low tr es ht hh hk
    obtain rfl : v = u := Option.some.inj (hv.symm.trans hu)
    refine ⟨by simp [isLater], fun h' hh' _ => ?_, length, fun j g hg => ⟨_, by rw [groups, hg]; rfl, ?_⟩,
      shm, bars, tickets, msgs, la, outside, others⟩
    · rwa [← Option.some.inj (hh.symm.trans hh')]
    · simp +contextual [Group.afterTrap_stopped, Group.afterTrap_scode, isLater, Group.afterTrap_frame]
  case neg =>
    have first : ∀ h, t.halt = some h → h.kind ≠ 0 := fun h hh hk => taken ⟨h, hh, hk⟩
    have notLater : later = false := by
      cases hh : t.halt with
      | none => simp [later, hh]
      | some h => simp [later, hh, first h hh]
    obtain ⟨v, hv, halt, length, groups⟩ := team?_raise_first gs pc low tr es ht first
    obtain rfl : v = u := Option.some.inj (hv.symm.trans hu)
    refine ⟨fun _ => halt, fun h hh hk => absurd hk (first h hh), length, fun j g hg => ⟨_, by rw [groups, hg]; rfl, ?_⟩,
      shm, bars, tickets, msgs, la, outside, others⟩
    simp +contextual [Group.afterTrap_stopped, Group.afterTrap_scode, notLater, Group.rollbackNow_of_bram_none, Group.afterTrap_frame]

end Sys2Proof.Machine
end

section
/-! PROOFS. Arrivals enter the store queues, and barriers count them (R182, R184, R185). -/
namespace Sys2Proof.Machine

/-! ## Lanes that arrive (R184) -/

/-- The lanes of group `j` whose arrival at barrier `b` is counted already: they are held. -/
def Team.heldAt (t : Team) (b j : Nat) (m : Mask) : Mask := match t.groups[j]? with
  | some g => m &&& g.counted ((t.bars[b]?).getD ⟨false, false, 0, 0, 0⟩) b j
  | none => 0

/-- An arrival in free mode: some lanes are held, and the others enter the store queues. -/
theorem arriveRun_free (b : Nat) (cg : Option Nat) (q w : Bool) {s : State} {x : Site} {t : Team} (ht : s.team? x.tid = some t)
    (hb : t.la.bridle = false) :
    arriveRun b cg q w s x =
      (let cnt (j : Nat) : Option Nat := (t.groups[j]?).bind (·.expects cg)
       let held := (x.part.map (fun p => (p.1, t.heldAt b p.1 p.2))).filter (fun p => decide (p.2 ≠ 0))
       let go := (x.part.map (fun p => (p.1, p.2 &&& ~~~t.heldAt b p.1 p.2))).filter (fun p => decide (p.2 ≠ 0))
       ((if held = [] then s else { s with nextId := s.nextId + 1 }).enqueue x.tid (go.map Prod.fst) true
          (.arrive b (go.map (fun p => (p.1, p.2, cnt p.1))) q w x.pc),
        { wait := waitAll held (fun j => .barred b (.held (cnt j) w q s.nextId)) ++ (if w then waitAll go (fun _ => .barred b .release) else []) })) := by
  unfold arriveRun
  rw [ht]
  dsimp only
  rw [if_neg (by simp [hb])]
  rfl

/-- Where none of the lanes is held, every participant goes on to arrive. -/
theorem participants_split_of_none_held {part : List (Nat × Mask)} {held : Nat → Mask → Mask} (h : ∀ p ∈ part, p.2 ≠ 0 ∧ held p.1 p.2 = 0) :
    (part.map (fun p => (p.1, held p.1 p.2))).filter (fun p => decide (p.2 ≠ 0)) = [] ∧
    (part.map (fun p => (p.1, p.2 &&& ~~~held p.1 p.2))).filter (fun p => decide (p.2 ≠ 0)) = part := by
  constructor
  · simp only [List.filter_eq_nil_iff, List.mem_map]
    rintro _ ⟨p, hp, rfl⟩
    simp [(h p hp).2]
  · have same : part.map (fun p => (p.1, p.2 &&& ~~~held p.1 p.2)) = part := by
      refine (List.map_congr_left fun p hp => ?_).trans part.map_id
      rw [(h p hp).2, show ~~~(0 : Mask) = BitVec.allOnes 32 from rfl, BitVec.and_allOnes]
      rfl
    rw [same, List.filter_eq_self]
    exact fun p hp => decide_eq_true (h p hp).1

/-! ## Counting (R182, R184) -/

theorem testBit_laneBits (gi : Nat) (m : Mask) (i : Nat) : (laneBits gi m).testBit i = (decide (32 * gi ≤ i) && m.getLsbD (i - 32 * gi)) := by
  rw [laneBits, Nat.testBit_mul_two_pow]
  rfl
theorem Barrier.getLsbD_lanes (r : Barrier) (j : Nat) {i : Nat} (hi : i < 32) : (r.lanes j).getLsbD i = r.mask.testBit (32 * j + i) := by
  rw [Barrier.lanes, BitVec.getLsbD_ofNat, decide_eq_true hi, Bool.true_and, Nat.testBit_div_two_pow, Nat.add_comm]
/-- Lanes of a group added to the arrival mask stand in the group's own 32 bits. -/
theorem Barrier.lanes_of_mask_or {r u : Barrier} {gi : Nat} {m : Mask} (hu : u.mask = r.mask ||| laneBits gi m) (j : Nat) :
    u.lanes j = if j = gi then r.lanes gi ||| m else r.lanes j := by
  refine BitVec.eq_of_getLsbD_eq fun i hi => ?_
  rw [Barrier.getLsbD_lanes u j hi, hu, Nat.testBit_or, testBit_laneBits]
  split
  case isTrue own =>
    subst own
    simp [Barrier.getLsbD_lanes r j hi]
  case isFalse other =>
    have outside : (decide (32 * gi ≤ 32 * j + i) && m.getLsbD (32 * j + i - 32 * gi)) = false := by
      by_cases before : 32 * j + i < 32 * gi
      · rw [decide_eq_false (by omega), Bool.false_and]
      · rw [BitVec.getLsbD_of_ge m _ (by omega), Bool.and_false]
    rw [Barrier.getLsbD_lanes r j hi, outside, Bool.or_false]

theorem Barrier.count_none (r : Barrier) (gi : Nat) (m : Mask) :
    r.count gi m none = some { r with arrived := r.arrived + (lanesOf m).length, mask := r.mask ||| laneBits gi m } := rfl
/-- The first explicit count of a phase latches. -/
theorem Barrier.count_of_not_latched {r : Barrier} (h : r.latch = false) (gi : Nat) (m : Mask) (e : Nat) :
    r.count gi m (some e) =
      some { r with latch := true, expect := e, arrived := r.arrived + (lanesOf m).length, mask := r.mask ||| laneBits gi m } := by
  unfold Barrier.count
  rw [h]
  rfl
/-- An explicit count that agrees with the latched one counts as none would; one that differs is not counted. -/
theorem Barrier.count_of_latched {r : Barrier} (h : r.latch = true) (gi : Nat) (m : Mask) (e : Nat) :
    r.count gi m (some e) = if r.expect = e then r.count gi m none else none := by
  unfold Barrier.count
  rw [h]
  rfl

/-! ## Completion (R185) -/

theorem mem_enum {α : Type} {l : List α} {j : Nat} {a : α} : (j, a) ∈ enum l ↔ l[j]? = some a := by
  simp only [List.mem_iff_getElem?, enum_getElem?, Option.map_eq_some_iff, Prod.mk.injEq]
  constructor
  · rintro ⟨_, _, found, rfl, rfl⟩
    exact found
  · exact fun found => ⟨j, a, found, rfl, rfl⟩
/-- The open phase completes when the latched count is reached, or when every live lane is counted. -/
theorem Barrier.complete_iff {r : Barrier} {t : Team} :
    r.complete t = true ↔ (r.latch = true ∧ r.expect ≤ r.arrived) ∨ ∀ j g, t.groups[j]? = some g → g.live &&& ~~~ r.lanes j = 0 := by
  simp only [Barrier.complete, Bool.or_eq_true, Bool.and_eq_true, decide_eq_true_eq, List.all_eq_true, beq_iff_eq, Prod.forall, mem_enum]

/-- Settles O24: without held lanes every participant's group takes the entry; each clause of the count is its own branch. -/
theorem barriersQueueAndCountArrivals : Obligations.BarriersQueueAndCountArrivals := by
  unfold Obligations.BarriersQueueAndCountArrivals
  refine ⟨fun b cg q w s x t ht hb fresh => ?queue,
    fun r t gi m e => ⟨?reached, ?all, ?not, rfl, rfl, rfl, rfl, rfl, ?uncounted, ?first, ?agrees, ?differs⟩⟩
  case queue =>
    have noneHeld : ∀ p ∈ x.part, p.2 ≠ 0 ∧ t.heldAt b p.1 p.2 = 0 := by
      intro p hp
      obtain ⟨present, free⟩ := fresh p hp
      refine ⟨present, ?_⟩
      unfold Team.heldAt
      split
      · rename_i g hg
        exact free g hg
      · rfl
    obtain ⟨held, go⟩ := participants_split_of_none_held noneHeld
    rw [arriveRun_free b cg q w ht hb]
    simp only [held, go, if_true, State.enqueue, List.foldl_map]
    rfl
  case reached => exact fun latched full => Barrier.complete_iff.2 (.inl ⟨latched, full⟩)
  case all => exact fun counted => Barrier.complete_iff.2 (.inr counted)
  case not =>
    intro j g hg uncounted notFull
    rw [← Bool.not_eq_true, Barrier.complete_iff]
    rintro (⟨latched, full⟩ | counted)
    · obtain unlatched | short := notFull
      · simp [unlatched] at latched
      · omega
    · exact uncounted (counted j g hg)
  case uncounted =>
    refine ⟨_, Barrier.count_none .., rfl, rfl, rfl, ?_, fun j hj => ?_⟩
    · exact (Barrier.lanes_of_mask_or rfl gi).trans (if_pos rfl)
    · exact (Barrier.lanes_of_mask_or rfl j).trans (if_neg hj)
  case first => exact fun unlatched => ⟨_, Barrier.count_of_not_latched unlatched .., rfl, rfl, rfl⟩
  case agrees => exact fun latched same => ⟨_, (Barrier.count_of_latched latched ..).trans (if_pos same), latched, same, rfl⟩
  case differs => exact fun latched differ => (Barrier.count_of_latched latched ..).trans (if_neg differ)

end Sys2Proof.Machine
end

section
/-! PROOFS. The barrier and phase instructions complete in free mode (R94, R183, R184, R187, R188, R317, R398, R399). -/
namespace Sys2Proof.Machine

/-! ## A switch marker (R94, R317) -/

/-- Changes of its groups leave all else of a team. -/
theorem team?_eachGroup {s : State} {tid : Nat} {t : Team} (ht : s.team? tid = some t) (gs : List (Nat × Mask)) (f : Nat → Mask → Group → Group) :
    ∃ l, (s.eachGroup tid gs f).team? tid = some { t with groups := l } := by
  refine List.foldlRecOn (motive := fun s' : State => ∃ l, s'.team? tid = some { t with groups := l }) gs _ ⟨t.groups, ht⟩ ?_
  rintro s' ⟨l, hs⟩ p -
  refine ⟨updAt l p.1 (f p.1 p.2), ?_⟩
  exact (team?_modTeam (f := fun u => u.modGroup p.1 (f p.1 p.2)) fun _ => rfl).trans (by rw [hs]; rfl)
/-- The results that a switch marker waits for are written to the groups of the team. -/
theorem team?_swPrep (sw : Bool) {s : State} {x : Site} {t : Team} (ht : s.team? x.tid = some t) :
    ∃ l, (swPrep sw s x).team? x.tid = some { t with groups := l } := by
  unfold swPrep
  split
  · exact team?_eachGroup ht ..
  · exact ⟨t.groups, ht⟩

/-- A body that writes those results first, and whose own results are no lane's, completes in free mode where its checks pass. -/
theorem issue_swPrep {i : Instr} {sw : Bool} {pre : State → Site → Pre} {run : State → Site → State × Res} {s s1 s2 : State} {x : Site} {t : Team}
    {v : State × Res} (hp : s.performing i = some (s1, x, t)) (hu : uniOf i = false) (hb : t.la.bridle = false) (h2 : s2 = swPrep sw s1 x)
    (hpre : pre s2 x = .go) (hr : run s2 x = v) (hv : v.2.lanes = []) :
    issue i { prep := swPrep sw, pre := pre, run := run } s = .next (v.1.finish x v.2) := by
  obtain ⟨-, ht⟩ := performing_site hp
  obtain ⟨l, written⟩ := team?_swPrep sw ht
  subst h2 hr
  exact issue_go hp hu hpre (fun _ _ => rfl) (by simp [defers, written, hb]) (by simp [hv])

/-! ## What the bodies do -/

theorem arriveRun_no_lanes (b : Nat) (cg : Option Nat) (q w : Bool) (s : State) (x : Site) : (arriveRun b cg q w s x).2.lanes = [] := by
  unfold arriveRun
  split
  · rfl
  · dsimp only
    split <;> rfl
/-- An arrival passes its check where each explicit count lies between 1 and 1,024 (R184). -/
theorem arriveBody_pre_go {sw r q w : Bool} {b c : Nat} {s : State} {x : Site}
    (hc : ∀ p ∈ x.mem, ∀ g, s.group? x.tid p.1 = some g → r = true → 1 ≤ (g.rg c).toNat ∧ (g.rg c).toNat ≤ 1024) :
    (arriveBody sw b (if r then some c else none) q w).pre s x = .go := by
  refine if_neg ?_
  simp only [List.any_eq_true, not_exists, not_and]
  intro p hp
  cases hg : s.group? x.tid p.1 with
  | none => simp
  | some g =>
    cases r with
    | false => simp [Group.expects]
    | true =>
      have := hc p hp g hg rfl
      simp [Group.expects]
      omega

section
variable {sw : Bool} {b : Nat} {s : State} {x : Site} {t : Team}

theorem barwBody_run_free (ht : s.team? x.tid = some t) (hb : t.la.bridle = false) :
    (barwBody sw b).run s x = (s, { wait := waitAll x.part (fun _ => .barred b (.phase false)) }) := by
  simp [barwBody, ht, hb]
theorem phwBody_run_free (f : Bool) (ht : s.team? x.tid = some t) (hb : t.la.bridle = false) :
    (phwBody sw b f).run s x = if t.phaseIs b f then ((s.acquire t.pcore (s.wmOf x)).trigger3s x.tid (x.mem.map Prod.fst), {})
      else (s, { jump := x.lanes.map (fun q => (q.1, q.2, x.pc)), wait := waitAll x.part (fun _ => .barred b (.phw f)) }) := by
  simp [phwBody, ht, hb]
theorem phfBody_run_free (ht : s.team? x.tid = some t) (hb : t.la.bridle = false) :
    (phfBody sw b).run s x = (s.enqueue x.tid (x.mem.map Prod.fst) true (.phf b (x.mem.map Prod.fst)), {}) := by
  simp [phfBody, ht, hb]
end

/-- BAR and BARA complete with what their arrival comes to. -/
theorem arrive_completes {i : Instr} {sw r q w : Bool} {b c : Nat} {s s1 s2 : State} {x : Site} {t : Team}
    (he : exec i s = issue i (arriveBody sw b (if r then some c else none) q w) s) (hu : uniOf i = false) (hb : t.la.bridle = false)
    (h2 : s2 = swPrep sw s1 x) (hp : s.performing i = some (s1, x, t))
    (hc : ∀ p ∈ x.mem, ∀ g, s2.group? x.tid p.1 = some g → r = true → 1 ≤ (g.rg c).toNat ∧ (g.rg c).toNat ≤ 1024) :
    exec i s = .next ((arriveRun b (if r then some c else none) q w s2 x).1.finish x (arriveRun b (if r then some c else none) q w s2 x).2) :=
  he.trans (issue_swPrep hp hu hb h2 (arriveBody_pre_go (sw := sw) (b := b) (q := q) (w := w) hc) rfl (arriveRun_no_lanes ..))

/-- Settles O23: each instruction through what its body does to the state in which a switch marker's results stand. -/
theorem barrierInstructionsComplete : Obligations.BarrierInstructionsComplete := by
  unfold Obligations.BarrierInstructionsComplete
  intro h b r q f c s s1 s2 x t hb h2
  have after {i : Instr} (hp : s.performing i = some (s1, x, t)) : ∃ l, s2.team? x.tid = some { t with groups := l } :=
    h2 ▸ team?_swPrep h.sw (performing_site hp).2
  refine ⟨arrive_completes rfl rfl hb h2, arrive_completes rfl rfl hb h2, fun hp => ?barw, fun hp => ?phw, fun hp => ?phf⟩
  case barw =>
    obtain ⟨_, written⟩ := after hp
    exact issue_swPrep hp rfl hb h2 (by rfl) (barwBody_run_free (sw := h.sw) written hb) rfl
  case phw =>
    obtain ⟨_, written⟩ := after hp
    have run := phwBody_run_free (sw := h.sw) (b := b.toNat) f written hb
    split
    case isTrue reached => exact issue_swPrep hp rfl hb h2 (by rfl) (run.trans (if_pos reached)) rfl
    case isFalse waits => exact issue_swPrep hp rfl hb h2 (by rfl) (run.trans (if_neg waits)) rfl
  case phf =>
    obtain ⟨_, written⟩ := after hp
    exact issue_swPrep hp rfl hb h2 (by rfl) (phfBody_run_free (sw := h.sw) written hb) rfl

end Sys2Proof.Machine
end

section
/-! PROOFS. In bridle mode a FENCE.X may be held at its issue, as at the round end; the other fences and the barrier instructions wait for the round
end, and so does a FENCE.X that nothing holds (R200, R201, R203, R262). -/
namespace Sys2Proof.Machine

/-! ## What waits for the round end -/

/-- A body whose checks pass and whose lanes wait for nothing, of an instruction that ends the quantum, defers its effect (R201). -/
theorem perform_defers {b : Body} {s : State} {x : Site} {t : Team} (hu : uniOf x.i = false) (hp : b.pre s x = .go)
    (hl : ∀ q ∈ x.lanes, b.lane s x q.1 q.2 = .ok) (hd : defers b s x t = true) : (perform b s x t).state = s.deferIt x := by
  have hx : x.lead (uniOf x.i) = x := by rw [hu]; rfl
  obtain ⟨faults, parks⟩ := outcomes_ok hl
  unfold perform
  simp only [hx, hp, faults, parks, dropLanes_nil, List.map_nil, List.foldl_nil, ite_self, List.isEmpty_nil, Bool.not_true, Bool.false_and,
    Bool.false_eq_true, if_false, hd, if_true, End.state]

/-- An instruction that ends the quantum, with a body that first changes groups alone: its issue defers its effect where its checks pass. -/
theorem issue_swPrep_defers {i : Instr} {sw : Bool} {pre : State → Site → Pre} {run : State → Site → State × Res} {s s1 : State} {x : Site} {t : Team}
    (hp : s.performing i = some (s1, x, t)) (hu : uniOf i = false) (he : (traits i).ends = true) (hb : t.la.bridle = true)
    (hpre : pre (swPrep sw s1 x) x = .go) :
    issue i { prep := swPrep sw, pre := pre, run := run } s = .next ((swPrep sw s1 x).deferIt x) := by
  obtain ⟨rfl, ht⟩ := performing_site hp
  obtain ⟨l, written⟩ := team?_swPrep sw ht
  rw [issue_of_performing hp]
  exact congrArg Host.Outcome.next (perform_defers hu hpre (fun _ _ => rfl) (by simp [defers, written, hb, he]))

/-- An arrival without count has nothing to check, and defers its effect. -/
theorem issue_arrive_defers {i : Instr} {sw q w : Bool} {b : Nat} {s s1 : State} {x : Site} {t : Team} (hp : s.performing i = some (s1, x, t))
    (hu : uniOf i = false) (he : (traits i).ends = true) (hb : t.la.bridle = true) :
    issue i (arriveBody sw b none q w) s = .next ((swPrep sw s1 x).deferIt x) :=
  issue_swPrep_defers hp hu he hb
    (arriveBody_pre_go (sw := sw) (r := false) (q := q) (w := w) (b := b) (c := 0) fun _ _ _ _ without => nomatch without)

/-- What holds a fence at its issue: FENCE.X waits for a write-back of its context that must wait, where a member's quantum has ended (R203, R262). -/
def FenceHeld (s : State) (x : Site) (t : Team) : Prop :=
  (∃ p ∈ x.mem, ∃ g, t.groups[p.1]? = some g ∧ g.ended.isSome = true) ∧ (s.stuckIn t.pcore (fun y => y.ctx == t.ctx)).isSome = true

/-- Nothing else does. -/
theorem fenceBody_pre_go {rel acq xd : Bool} {s : State} {x : Site} {t : Team} (ht : s.team? x.tid = some t) (hx : xd = true → ¬ FenceHeld s x t) :
    (fenceBody rel acq xd).pre s x = .go := by
  simp only [fenceBody, ht, Option.bind_some]
  split
  case h_2 => rfl
  case h_1 y waits =>
    obtain ⟨hc, stuck⟩ := Option.ite_none_right_eq_some.1 waits
    simp only [Bool.and_eq_true, List.any_eq_true, Option.any_eq_true] at hc
    obtain ⟨⟨-, hxd⟩, member⟩ := hc
    exact absurd ⟨member, by rw [stuck]; rfl⟩ (hx hxd)

/-- A fence that nothing holds defers its effect. -/
theorem issue_fence_defers {i : Instr} {rel acq xd : Bool} {s s1 : State} {x : Site} {t : Team} (hp : s.performing i = some (s1, x, t))
    (hu : uniOf i = false) (he : (traits i).ends = true) (hb : t.la.bridle = true) (hx : xd = true → ¬ FenceHeld s1 x t) :
    issue i (fenceBody rel acq xd) s = .next (s1.deferIt x) :=
  issue_swPrep_defers (sw := false) hp hu he hb (fenceBody_pre_go (rel := rel) (acq := acq) (performing_site hp).2 hx)

/-- What O27 says, where no FENCE.X is held: in bridle mode the barrier instructions without count and the fences wait for the round end (R200,
R201). -/
theorem bridle_effects_wait {h : Head} {b : BitVec 5} {q f : Bool} {c : GReg} {s s1 : State} {x : Site} {t : Team} {i : Instr} {sw : Bool}
    (hb : t.la.bridle = true)
    (hi : (i, sw) ∈ [(Instr.bar h b false c q, h.sw), (.bara h b false c, h.sw), (.barw h b, h.sw), (.phw h b f, h.sw), (.phf h b, h.sw),
      (.fenceAcq h, false), (.fenceRel h, false), (.fenceFull h, false), (.fenceX h, false)])
    (hp : s.performing i = some (s1, x, t)) (free : i = .fenceX h → ¬ FenceHeld s1 x t) : exec i s = .next ((swPrep sw s1 x).deferIt x) := by
  simp only [List.mem_cons, Prod.mk.injEq, List.not_mem_nil, or_false] at hi
  obtain ⟨rfl, rfl⟩ | ⟨rfl, rfl⟩ | ⟨rfl, rfl⟩ | ⟨rfl, rfl⟩ | ⟨rfl, rfl⟩ | ⟨rfl, rfl⟩ | ⟨rfl, rfl⟩ | ⟨rfl, rfl⟩ | ⟨rfl, rfl⟩ := hi
  iterate 2 exact issue_arrive_defers hp rfl rfl hb
  iterate 3 exact issue_swPrep_defers hp rfl rfl hb rfl
  iterate 3 exact issue_fence_defers hp rfl rfl hb nofun
  exact issue_fence_defers hp rfl rfl hb fun _ => free rfl

/-! ## The FENCE.X that is held -/

/-- The state of the refutation: two groups of a bridle team at the address of a team-scope FENCE.X. Lanes 0 to 15 of group 0 have arrived, and its
other lanes have ended its quantum with the EXIT at its Q-th issue; group 1 issues. A dirty sector of the core's L1 waits for its channel, held for a
row's repair. -/
def heldFence : State :=
  let la := { oneLaunch with bridle := true, hdr := { oneLaunch.hdr with groups := 2, bridle := true, roles := [0, 0] } }
  let s : State := { State.reset with
    cores := [(0, { Core.empty with tlb := [onePage], l1 := [⟨0, .core, 0, List.replicate 32 0, 1, false, false⟩] })]
    teams := [Team.start 0 0 0 0 1 1 1 1 1 la ⟨0, 0, 0, [(0, 0)]⟩ 0 [0, 1] 0 64 0xFFFFFFFF]
    cur := some ⟨0, 1, 0xFFFFFFFF, 64⟩ }
  (s.modDie (homeDie 0) (fun d => { d with rowHold := [channelOf 0] })).modGroup 0 0 (fun g => { g with
    ended := some ⟨.exit ⟨false, .lane⟩, 96, 0xFFFF0000, 0, 0, true⟩
    lanes := (enum g.lanes).map (fun p => { p.2 with st := if p.1 < 16 then .arrived 0xFFFFFFFF .team else .exited }) })

/-- The issues that group 1 of the team has counted, where there is a next state. -/
def issuesNext : Host.Outcome State Fault Refusal → Option Nat
  | .next s => (s.group? 0 1).map (·.issues)
  | _ => none

/-- There the instruction is at its issue in bridle mode, and parks: it is not counted, as one whose effect is deferred is. -/
theorem heldFence_not_counted : (heldFence.performing (.fenceX ⟨false, .team⟩)).any (fun p => p.2.2.la.bridle &&
    issuesNext (exec (.fenceX ⟨false, .team⟩) heldFence) == some 0 && issuesNext (.next (p.1.deferIt p.2.1)) == some 1) = true := by
  decide +kernel

/-- Refutes O27: group 1 completes the rendezvous of a team-scope FENCE.X when the quantum of group 0 has ended, and the check that is meant for the
round end (R203, R262) holds the instruction at its issue: it parks for a write-back, uncounted, where R201 has it issue and count. -/
theorem not_bridleEffectsWaitForTheRoundEnd : ¬ Obligations.BridleEffectsWaitForTheRoundEnd := by
  unfold Obligations.BridleEffectsWaitForTheRoundEnd
  intro waits
  obtain ⟨⟨s1, x, t⟩, performs, differs⟩ := (Option.any_eq_true ..).1 heldFence_not_counted
  simp only [Bool.and_eq_true, beq_iff_eq] at differs
  obtain ⟨⟨bridle, parked⟩, counted⟩ := differs
  have deferred : exec (.fenceX ⟨false, .team⟩) heldFence = .next (s1.deferIt x) :=
    waits ⟨false, .team⟩ 0 false false 0 heldFence s1 x t _ false bridle (by simp) performs
  rw [deferred, counted] at parked
  cases parked

end Sys2Proof.Machine
end

section
/-! PROOFS. The eight engine commands complete in free mode (R217, R221, R328). -/
namespace Sys2Proof.Machine

/-! ## Issues whose body checks once -/

theorem tg_eq_some {s : State} {tid gi : Nat} {t : Team} {g : Group} (ht : s.team? tid = some t) (hg : t.groups[gi]? = some g) :
    s.tg tid gi = some (t, g) := by
  simp only [State.tg, ht, hg, Option.map_some]

/-- A body without preparation, whose results are no lane's, completes in free mode where its check passes. -/
theorem issue_pre_run {i : Instr} {pre : State → Site → Pre} {run : State → Site → State × Res} {s s1 s2 : State} {x : Site} {t : Team} {r : Res}
    (hp : s.performing i = some (s1, x, t)) (hu : uniOf i = false) (hb : t.la.bridle = false) (hpre : pre s1 x = .go) (hr : run s1 x = (s2, r))
    (hl : r.lanes = []) : issue i { pre := pre, run := run } s = .next (s2.finish x r) := by
  obtain ⟨-, ht⟩ := performing_site hp
  have done := issue_go (b := { pre := pre, run := run }) hp hu hpre (fun _ _ => rfl) (by simp [defers, ht, hb]) (by simp [hr, hl])
  simpa only [hr] using done

/-! ## What a command finds at issue (R216, R328) -/

/-- A card that breaks no rule is of the command's kind (R216). -/
theorem kindOf_eq_of_cardBad_eq_false {s : State} {t : Team} {kind : Nat} {ws : List Word} {ds : List Byte}
    (h : s.cardBad t (some kind) ws ds = false) : kindOf ws = kind := by
  simp only [State.cardBad, Bool.or_eq_false_iff, Bool.and_eq_false_imp, Option.isSome_some, bne_eq_false_iff_eq, Option.some.injEq] at h
  obtain ⟨⟨⟨⟨-, ofKind⟩, -⟩, -⟩, -⟩ := h
  exact (ofKind trivial).symm

/-- A check that passes has not stopped at its first condition. -/
theorem go_of_ite_go {p : Prop} [Decidable p] {a b : Pre} (go : (if p then a else b) = .go) (stops : a ≠ .go) : ¬ p ∧ b = .go := by
  split at go
  case isTrue => exact absurd go stops
  case isFalse passed => exact ⟨passed, go⟩

/-- A command whose checks pass has read a card of its kind, and a ticket slot is free. -/
theorem card_and_slot_of_cmdPre_go {kind ga succ : Nat} {s : State} {x : Site} {t : Team} {g : Group} (htg : s.tg x.tid x.gi = some (t, g))
    (go : cmdPre kind ga succ s x = .go) :
    ∃ ws ds slot, s.readCard t g (g.rg ga).toNat = .ok ws ds ∧ kindOf ws = kind ∧ t.freeSlot = some slot := by
  simp only [cmdPre, htg] at go
  split at go
  iterate 2 cases go
  rename_i present _
  obtain ⟨-, go⟩ := go_of_ite_go go nofun
  obtain ⟨sound, go⟩ := go_of_ite_go go nofun
  obtain ⟨free, -⟩ := go_of_ite_go go nofun
  simp only [Bool.or_eq_true, not_or, Bool.not_eq_true, Option.isNone_eq_false_iff, Option.isSome_iff_exists] at free
  obtain ⟨⟨slot, free⟩, -⟩ := free
  cases hr : s.readCard t g (g.rg ga).toNat with
  | absent l => simp [hr, CardRead.line] at present
  | bad => simp [hr] at sound
  | ok ws ds =>
    simp only [hr, Bool.or_eq_true, not_or, Bool.not_eq_true] at sound
    exact ⟨ws, ds, slot, rfl, kindOf_eq_of_cardBad_eq_false sound.1, free⟩

/-! ## The queueing of a command (R217, R221) -/

/-- The counts of presence lines are no memory, and no die's. -/
theorem foldl_modCnt_frame (f : Nat → Nat) (l : List (Nat × Nat)) (s : State) :
    (l.foldl (State.modCnt f) s).mem = s.mem ∧ (l.foldl (State.modCnt f) s).pad = s.pad ∧ (l.foldl (State.modCnt f) s).dies = s.dies := by
  refine List.foldlRecOn (motive := fun s' : State => s'.mem = s.mem ∧ s'.pad = s.pad ∧ s'.dies = s.dies) l _ ⟨rfl, rfl, rfl⟩ ?_
  rintro s' same p -
  unfold State.modCnt
  split <;> exact same

/-- A command that joins the die's list is the last of it. -/
theorem die_cards_queued {s s' : State} {dn : Nat} {c : Card} (same : s'.dies = s.dies) (there : dn < s.dies.length) :
    ((s'.modDie dn (fun y => { y with cards := y.cards ++ [c] })).die dn).cards = (s.die dn).cards ++ [c] := by
  rw [die_modDie (same ▸ there), State.die, State.die, same]

/-- The command becomes the last of its die's, and its ticket is the result. -/
theorem cmdRun_queues {ga succ slot : Nat} (d : Nat) {s : State} {x : Site} {t : Team} {g : Group} {ws : List Word} {ds : List Byte}
    (htg : s.tg x.tid x.gi = some (t, g)) (hr : s.readCard t g (g.rg ga).toNat = .ok ws ds) (hs : t.freeSlot = some slot) :
    ∃ (s2 : State) (c : Card), cmdRun d ga succ s x = (s2, { gs := [(d, BitVec.ofNat 32 (slot * 2 ^ 26 + t.nextSeq))] }) ∧
      (dieOf t.pcore < s.dies.length → (s2.die (dieOf t.pcore)).cards = (s.die (dieOf t.pcore)).cards ++ [c]) ∧
      c.tid = some t.tid ∧ c.slot = slot ∧ c.seq = t.nextSeq ∧ c.ctx = t.ctx ∧ c.core = t.pcore ∧ c.st = .waiting ∧
      c.words = ws ∧ c.desc = ds ∧ s2.mem = s.mem ∧ s2.pad = s.pad := by
  unfold cmdRun
  simp only [htg, hr, hs]
  obtain ⟨mem, pad, dies⟩ := foldl_modCnt_frame cntUp _ _
  exact ⟨_, _, rfl, die_cards_queued dies, rfl, rfl, rfl, rfl, rfl, rfl, rfl, rfl, mem, pad⟩

/-! ## The commands -/

/-- An instruction whose body is an engine command. -/
theorem commands_of_body {i : Instr} {kind d a succ : Nat} (hu : uniOf i = false) (h : ∀ s, exec i s = issue i (cmdBody kind d a succ) s) :
    Commands i kind d a succ := by
  intro s s1 x t g hp hg go hb
  obtain ⟨-, ht⟩ := performing_site hp
  have htg := tg_eq_some ht hg
  obtain ⟨ws, ds, slot, read, ofKind, free⟩ := card_and_slot_of_cmdPre_go htg go
  obtain ⟨s2, c, run, last, tid, atSlot, seq, ctx, core, waits, rfl, rfl, mem, pad⟩ := cmdRun_queues d (succ := succ) htg read free
  refine ⟨slot, s2, c, free, ?_, last, tid, atSlot, seq, ctx, core, waits, ofKind, read, mem, pad⟩
  rw [h]
  exact issue_pre_run hp hu hb go run rfl

/-- Settles O28: each of the eight runs the body of the commands, with its kind. -/
theorem engineCommandsComplete : Obligations.EngineCommandsComplete := by
  unfold Obligations.EngineCommandsComplete
  intro h d a i
  refine ⟨?cpy, ?cpyt, ?cpyg, ?cpyr, ?hgf, ?hgb, ?ared, ?rast⟩
  all_goals exact commands_of_body rfl fun _ => rfl

end Sys2Proof.Machine
end

section
/-! PROOFS. EWT and EQRY complete in free mode, and what a ticket names (R218, R262, R340, R341). -/
namespace Sys2Proof.Machine

/-! ## What a ticket names (R218) -/

section
variable {t : Team} {slot seq : Nat}

/-- Number 0 is no ticket. -/
theorem Team.judge_zero (t : Team) (slot : Nat) : t.judge (slot * 2 ^ 26) = .bad := by
  simp [Team.judge]

/-- A ticket is its slot and its number. -/
theorem ticket_parts (h2 : seq < 2 ^ 26) : (slot * 2 ^ 26 + seq) % 2 ^ 26 = seq ∧ (slot * 2 ^ 26 + seq) / 2 ^ 26 = slot := by omega

/-- It is judged by what its slot holds. -/
theorem Team.judge_slot (h1 : 1 ≤ seq) (h2 : seq < 2 ^ 26) {k : Ticket} (holds : t.tickets[slot]? = some k) :
    t.judge (slot * 2 ^ 26 + seq) = if k.seq = seq then .current k
      else if t.seq ≠ 0 ∧ (t.seq + (2 ^ 26 - 1) - seq) % (2 ^ 26 - 1) < 2 ^ 25 then .old else .bad := by
  obtain ⟨number, place⟩ := ticket_parts (slot := slot) h2
  simp only [Team.judge, number, place, holds, Nat.ne_of_gt h1, if_false]

theorem Team.judge_no_slot (h1 : 1 ≤ seq) (h2 : seq < 2 ^ 26) (beyond : t.tickets.length ≤ slot) : t.judge (slot * 2 ^ 26 + seq) = .bad := by
  obtain ⟨number, place⟩ := ticket_parts (slot := slot) h2
  simp only [Team.judge, number, place, List.getElem?_eq_none beyond, Nat.ne_of_gt h1, if_false]

/-- A team that has issued no command has no tickets. -/
theorem Team.judge_none_issued (h1 : 1 ≤ seq) (h2 : seq < 2 ^ 26) (unissued : t.seq = 0) (empty : ∀ j ∈ t.tickets, j.seq = 0) :
    t.judge (slot * 2 ^ 26 + seq) = .bad := by
  cases hk : t.tickets[slot]? with
  | none => exact Team.judge_no_slot h1 h2 (List.getElem?_eq_none_iff.1 hk)
  | some k =>
    have other : k.seq ≠ seq := by
      have := empty k (List.mem_of_getElem? hk)
      omega
    simp only [Team.judge_slot h1 h2 hk, other, unissued, ne_eq, not_true_eq_false, false_and, if_false]
end

/-! ## EWT and EQRY (R340, R341) -/

section
variable {d ga : Nat} {s : State} {x : Site} {t : Team} {g : Group} {k : Ticket} (htg : s.tg x.tid x.gi = some (t, g))
include htg

theorem ewtBody_pre_old (old : t.judge (g.rg ga).toNat = .old) : (ewtBody ga).pre s x = .go := by
  simp only [ewtBody, htg, old]

/-- EWT goes on where the chain has ended and no sector that is dropped waits for its write-back. -/
theorem ewtBody_pre_ended (names : t.judge (g.rg ga).toNat = .current k) (ended : k.busy = false) (clean : s.spanStuck t.pcore k.spans = none) :
    (ewtBody ga).pre s x = .go := by
  simp [ewtBody, htg, names, ended, clean]

theorem ewtBody_run_old (hb : t.la.bridle = false) (old : t.judge (g.rg ga).toNat = .old) :
    (ewtBody ga).run s x = (x.mem.foldl (fun s p => (s.acquire t.pcore .pkg).trigger3 t.tid p.1) s, {}) := by
  simp [ewtBody, htg, hb, State.ewtAcquire, old]
theorem ewtBody_run_current (hb : t.la.bridle = false) (names : t.judge (g.rg ga).toNat = .current k) :
    (ewtBody ga).run s x = (x.mem.foldl (fun s p => ((s.dropSpans t.pcore k.spans).acquire t.pcore k.dom).trigger3 t.tid p.1) s, {}) := by
  simp [ewtBody, htg, hb, State.ewtAcquire, names]

/-- EQRY does not wait in free mode, whatever its ticket. -/
theorem eqryBody_pre_free (hb : t.la.bridle = false) (named : t.judge (g.rg ga).toNat ≠ .bad) : (eqryBody d ga).pre s x = .go := by
  simp only [eqryBody, htg, hb]
  cases hj : t.judge (g.rg ga).toNat with
  | bad => exact absurd hj named
  | old => rfl
  | current k => simp

theorem eqryBody_run_old (hb : t.la.bridle = false) (old : t.judge (g.rg ga).toNat = .old) :
    (eqryBody d ga).run s x = (s, { gs := [(d, 2)] }) := by
  simp [eqryBody, htg, hb, old]

theorem eqryBody_run_current (hb : t.la.bridle = false) (names : t.judge (g.rg ga).toNat = .current k) :
    (eqryBody d ga).run s x = (s, { gs := [(d,
      if k.busy then (if s.running t.tid ((g.rg ga).toNat / 2 ^ 26) ((g.rg ga).toNat % 2 ^ 26) then 1 else 0) else if k.failed then 3 else 2)] }) := by
  simp only [eqryBody, htg, hb, names, Bool.false_eq_true, if_false]
  repeat' split
  all_goals rfl
end

/-- Settles O29: each instruction through its body, by what its ticket is judged to be; a ticket by what its slot holds. -/
theorem ticketsAndTheirInstructions : Obligations.TicketsAndTheirInstructions := by
  unfold Obligations.TicketsAndTheirInstructions
  constructor
  · intro h d a s s1 x t g hg hb
    have here {i : Instr} (hp : s.performing i = some (s1, x, t)) : s1.tg x.tid x.gi = some (t, g) := tg_eq_some (performing_site hp).2 hg
    refine ⟨fun hp old => ?ewtOld, fun k hp names ended clean => ?ewtEnded, fun hp old => ?eqryOld, fun k hp names => ?eqryCurrent⟩
    case ewtOld => exact issue_pre_run hp rfl hb (ewtBody_pre_old (here hp) old) (ewtBody_run_old (here hp) hb old) rfl
    case ewtEnded => exact issue_pre_run hp rfl hb (ewtBody_pre_ended (here hp) names ended clean) (ewtBody_run_current (here hp) hb names) rfl
    case eqryOld =>
      have go := eqryBody_pre_free (d := d.toNat) (ga := a.toNat) (here hp) hb (by simp [old])
      exact issue_pre_run hp rfl hb go (eqryBody_run_old (here hp) hb old) rfl
    case eqryCurrent =>
      have go := eqryBody_pre_free (d := d.toNat) (ga := a.toNat) (here hp) hb (by simp [names])
      exact issue_pre_run hp rfl hb go (eqryBody_run_current (here hp) hb names) rfl
  · intro t slot seq k h1 h2
    exact ⟨fun holds named => (Team.judge_slot h1 h2 holds).trans (if_pos named), t.judge_zero slot, Team.judge_no_slot h1 h2, Team.judge_none_issued h1 h2⟩

end Sys2Proof.Machine
end

section
/-! PROOFS. No operation that drains a store queue retires a team (R161, R166). -/
namespace Sys2Proof.Machine

/-! ## The teams that are resident -/

/-- The same teams are resident, whatever has changed in them. -/
def SameTeams (s s' : State) : Prop := s'.teams.map Team.tid = s.teams.map Team.tid

theorem SameTeams.refl (s : State) : SameTeams s s := rfl
theorem SameTeams.trans {s s' s'' : State} (h : SameTeams s s') (h' : SameTeams s' s'') : SameTeams s s'' := Eq.trans h' h
theorem SameTeams.foldl {α : Type} {f : State → α → State} (h : ∀ s q, SameTeams s (f s q)) (l : List α) (s : State) : SameTeams s (l.foldl f s) :=
  List.foldlRecOn (motive := SameTeams s) l f (.refl s) fun s' same q _ => same.trans (h s' q)
theorem SameHoldings.sameTeams {s s' : State} (h : SameHoldings s s') : SameTeams s s' := by
  have tids := congrArg (List.map Prod.fst) h.2
  rw [List.map_map, List.map_map] at tids
  exact tids

/-- A team that is resident stays findable. -/
theorem SameTeams.team? {s s' : State} {tid : Nat} {t : Team} (same : SameTeams s s') (ht : s.team? tid = some t) : ∃ u, s'.team? tid = some u := by
  have resident : tid ∈ s'.teams.map Team.tid := by
    rw [same]
    exact List.mem_map.2 ⟨t, List.mem_of_find?_eq_some ht, by simpa using List.find?_some ht⟩
  obtain ⟨u, hu, named⟩ := List.mem_map.1 resident
  exact Option.isSome_iff_exists.1 (List.find?_isSome.2 ⟨u, hu, by simpa using named⟩)

section
variable (s : State) (tid : Nat)

theorem sameTeams_map {f : Team → Team} (hf : ∀ t, (f t).tid = t.tid) : SameTeams s { s with teams := s.teams.map f } := by
  simp only [SameTeams, List.map_map]
  exact List.map_congr_left fun t _ => hf t
theorem sameTeams_modTeam {f : Team → Team} (hf : ∀ t, (f t).tid = t.tid) : SameTeams s (s.modTeam tid f) :=
  sameTeams_map s fun t => by
    split
    · exact hf t
    · rfl
theorem sameTeams_modGroup (gi : Nat) (f : Group → Group) : SameTeams s (s.modGroup tid gi f) := sameTeams_modTeam s tid fun _ => rfl
theorem sameTeams_modCore (k : Nat) (f : Core → Core) : SameTeams s (s.modCore k f) := rfl
theorem sameTeams_modDie (d : Nat) (f : Die → Die) : SameTeams s (s.modDie d f) := rfl
theorem sameTeams_addBar64 (o n : Nat) : SameTeams s (s.addBar64 o n) := rfl
theorem sameTeams_loseResv (line : Nat) (core? : Option Nat) : SameTeams s (s.loseResv line core?) :=
  sameTeams_map s fun t => by split <;> rfl
theorem sameTeams_markBram (p : Team → Nat → Bram → Bool) : SameTeams s (s.markBram p) :=
  sameTeams_map s fun t => by split <;> rfl
theorem sameTeams_trigger1 (gi sp a n : Nat) : SameTeams s (s.trigger1 tid gi sp a n) := sameTeams_markBram ..
theorem sameTeams_trigger3s (gs : List Nat) : SameTeams s (s.trigger3s tid gs) := .foldl (α := Nat) (fun s _ => sameTeams_markBram s _) gs s
end

/-! ## Memory and the caches (R141, R142, R149, R153, R262, R289) -/

section
variable (s : State)

theorem sameTeams_useChannel (pa : Nat) : SameTeams s (s.useChannel pa) := by
  unfold State.useChannel
  split <;> rfl
theorem sameTeams_useLine (pa : Nat) : SameTeams s (s.useLine pa) := by
  unfold State.useLine
  split
  · exact .refl s
  · exact sameTeams_useChannel ..
theorem sameTeams_unlose (l : List Nat) : SameTeams s (s.unlose l) := by
  unfold State.unlose
  split <;> rfl
theorem sameTeams_dropReaders (l : Nat) : SameTeams s (s.dropReaders l) := by
  unfold State.dropReaders
  split <;> rfl
theorem sameTeams_putPhys (pa : Nat) (mir : Bool) (bs : List Byte) : SameTeams s (s.putPhys pa mir bs) := by
  unfold State.putPhys
  refine SameTeams.trans ?_ (sameTeams_useLine ..)
  have placed (m : SMap Byte) (l : List Nat) (n : Nat) : SameTeams s (({ s with mem := m }.unlose l).dropReaders n) :=
    (sameTeams_unlose { s with mem := m } l).trans (sameTeams_dropReaders ..)
  split
  · exact placed ..
  · exact placed ..
theorem sameTeams_setD (pte : Nat) : SameTeams s (s.setD pte) := by
  unfold State.setD
  dsimp only
  split
  · exact sameTeams_useLine { s with mem := SMap.set 0 s.mem (pte + 6) (SMap.get 0 s.mem (pte + 6) ||| 0x80) } pte
  · rfl
theorem sameTeams_loseL2 (fill : Option Nat) (y : L2Line) : SameTeams s (s.loseL2 fill y) := by
  have used (f : Die → Die) : SameTeams s ((s.modDie (homeDie (y.line * 128)) f).useChannel (y.line * 128)) :=
    (sameTeams_modDie s _ f).trans (sameTeams_useChannel ..)
  unfold State.loseL2
  cases y.dctx with
  | none => exact sameTeams_modDie ..
  | some c =>
    cases fill with
    | none => exact used _
    | some f =>
      dsimp only
      split
      · exact (used _).trans (sameTeams_addBar64 ..)
      · exact (((used _).trans (sameTeams_addBar64 ..)).trans (sameTeams_addBar64 ..)).trans (sameTeams_addBar64 ..)
theorem sameTeams_freeL2 (n node room : Nat) (fill : Option Nat) (s : State) : SameTeams s (State.freeL2 n node room fill s).1 := by
  induction n generalizing node room fill s with
  | zero => exact .refl s
  | succ n ih =>
    unfold State.freeL2
    dsimp only
    split
    · exact .refl s
    · split
      · exact .refl s
      · split
        · have home (s : State) (line : Nat) : SameTeams s (s.homeL2 line) := rfl
          exact ((ih ..).trans (home ..)).trans (ih ..)
        · exact (sameTeams_loseL2 ..).trans (ih ..)
theorem sameTeams_l2Touch (ctx node pa : Nat) (mig : Bool) (cp : Nat) (write : Bool) : SameTeams s (s.l2Touch ctx node pa mig cp write) := by
  unfold State.l2Touch
  split
  · exact sameTeams_useChannel ..
  · dsimp only
    split
    · have room : SameTeams s (s.roomL2 (s.homeNode (pa / 128)) (some ctx)).1 := by
        unfold State.roomL2
        split
        · exact .refl s
        · exact sameTeams_freeL2 ..
      exact ((room.trans (sameTeams_useChannel ..)).trans (sameTeams_modDie ..)).trans (sameTeams_addBar64 ..)
    · split <;> rfl
theorem sameTeams_writeBack (k : Nat) (x : L1Sec) : SameTeams s (State.writeBack k s x) := by
  unfold State.writeBack
  split
  · exact .refl s
  · have put := (sameTeams_l2Touch s x.ctx (s.site k) (x.sec * 32) false 0 true).trans
      (.foldl (fun s i => sameTeams_putPhys s (x.sec * 32 + i) x.mir ((x.bytes[i]?).toList)) (lanesOf x.dirty) _)
    dsimp only
    split
    · exact put.trans (sameTeams_unlose ..)
    · exact put
theorem sameTeams_dropL1 (k : Nat) (p : L1Sec → Bool) : SameTeams s (s.dropL1 k p) :=
  (SameTeams.foldl (fun s (x : L1Sec) => sameTeams_writeBack s k x) _ s).trans (sameTeams_modCore ..)
theorem sameTeams_wantIn (k : Nat) (p : L1Sec → Bool) : SameTeams s (s.wantIn k p) :=
  .foldl (fun s (x : L1Sec) => .foldl (fun s (ch : Nat) => by split <;> rfl) _ s) _ s
theorem sameTeams_trimL1 (k : Nat) (keep : Bool) (line : Nat) : SameTeams s (s.trimL1 k keep line) := by
  unfold State.trimL1
  dsimp only
  split
  · exact .refl s
  · split
    · exact sameTeams_wantIn ..
    · exact sameTeams_dropL1 ..
theorem sameTeams_fromMirror (ps : List (Loc × Nat)) : SameTeams s (s.fromMirror ps) :=
  .foldl (fun s (p : Loc × Nat) => by
    split
    · split <;> rfl
    · exact .refl s) ps s
end

/-! ## Writes and acquires (R141, R157, R167, R169) -/

section
variable (s : State) (tid : Nat)

theorem sameTeams_land (l : Loc) (bs : List Byte) : SameTeams s (s.land l bs) := by
  cases l with
  | shm a => exact .refl s
  | pad d sl o => exact .refl s
  | phys pa sh mir mig cp => exact (sameTeams_putPhys s pa mir bs).trans (sameTeams_loseResv ..)
theorem sameTeams_landLine (core : Nat) (l : Loc) : SameTeams s (s.landLine core l) := by
  unfold State.landLine
  dsimp only
  split
  · exact .refl s
  · exact (sameTeams_modCore ..).trans (.foldl (fun s (w : Flight) => sameTeams_land s w.loc w.bytes) ..)
theorem sameTeams_updL1 (own : Nat × Nat) (k pa : Nat) (bs : List Byte) : SameTeams s (s.updL1 own k pa bs) := by
  have update {s' : State} (same : SameTeams s s') (f : Core → Core) : SameTeams s (if ((s'.core k).find (pa / 32)).isSome then s'.modCore k f else s') := by
    split
    · exact same.trans (sameTeams_modCore ..)
    · exact same
  unfold State.updL1
  dsimp only
  split
  · exact update (sameTeams_markBram ..) _
  · exact update (.refl s) _
theorem sameTeams_acquire (core : Nat) (d : Dom) : SameTeams s (s.acquire core d) := by
  unfold State.acquire State.invalidate State.loseL1
  dsimp only
  split
  · exact .refl s
  · split
    · exact .refl s
    · exact (sameTeams_dropL1 ..).trans (sameTeams_markBram ..)
theorem sameTeams_perform (gi sn : Nat) (l : Loc) (bs : List Byte) (ch : Nat) : SameTeams s (s.perform tid gi sn l bs ch) := by
  unfold State.perform
  split
  · exact .refl s
  · refine (sameTeams_trigger1 s tid gi l.sp l.at bs.length).trans ?_
    cases l with
    | shm a => exact sameTeams_modTeam _ tid fun _ => rfl
    | pad d sl o => exact sameTeams_modCore ..
    | phys pa sh mir mig cp =>
      dsimp only
      split
      · refine SameTeams.trans ?_ (sameTeams_loseResv ..)
        refine SameTeams.trans ?_ (sameTeams_trimL1 ..)
        refine SameTeams.trans ?_ (sameTeams_markBram ..)
        refine SameTeams.trans ?_ (sameTeams_modCore ..)
        split
        · exact .refl _
        · exact sameTeams_l2Touch ..
      · exact ((sameTeams_l2Touch ..).trans (sameTeams_modCore ..)).trans (sameTeams_updL1 ..)
theorem sameTeams_pointWrite (gi : Nat) (l : Loc) (bs : List Byte) : SameTeams s (s.pointWrite tid gi l bs) := by
  unfold State.pointWrite
  split
  · exact .refl s
  · cases l with
    | shm a => exact sameTeams_perform ..
    | pad d sl o => exact (sameTeams_markBram ..).trans (sameTeams_land ..)
    | phys pa sh mir mig cp =>
      dsimp only
      split
      · exact sameTeams_perform ..
      · exact (((sameTeams_trigger1 ..).trans (sameTeams_l2Touch ..)).trans (sameTeams_land ..)).trans (sameTeams_updL1 ..)
end

/-! ## The entries of a store queue at their turn (R166) -/

section
variable (s : State) (tid : Nat)

theorem sameTeams_mchkLane (gi lane va : Nat) : SameTeams s (s.mchkLane tid gi lane va) := by
  unfold State.mchkLane
  split
  · exact .refl s
  · dsimp only
    split
    · exact .refl s
    · exact (sameHoldings_raise ..).sameTeams
theorem sameTeams_rmwLane (k : Rmw) : SameTeams s (s.rmwLane tid k).1 := by
  unfold State.rmwLane
  split
  · exact .refl s
  · rename_i t _
    have landed : SameTeams s (s.landLine t.pcore k.loc) := sameTeams_landLine ..
    dsimp only
    split
    · exact landed.trans (sameTeams_mchkLane ..)
    · split
      · refine landed.trans (SameTeams.trans ?_ (sameTeams_modGroup ..))
        split
        · refine SameTeams.trans ?_ (sameTeams_pointWrite ..)
          cases k.pte with
          | none => exact .refl _
          | some a => exact sameTeams_setD ..
        · exact .refl _
      · exact (landed.trans (sameTeams_fromMirror ..)).trans (sameTeams_pointWrite ..)
theorem sameTeams_rmwAll (gi : Nat) (ks : List Rmw) : SameTeams s (s.rmwAll tid gi ks) := by
  refine SameTeams.trans ?_ (sameTeams_modGroup ..)
  exact List.foldlRecOn (motive := fun acc : State × List (Nat × List Wr) => SameTeams s acc.1) ks _ (.refl s) fun acc same k _ =>
    same.trans (sameTeams_rmwLane ..)
theorem sameTeams_enqueue (gs : List Nat) (rel : Bool) (a : SqAct) : SameTeams s (s.enqueue tid gs rel a) :=
  .foldl (α := Nat) (fun s _ => sameTeams_modGroup s tid _ _) gs s
theorem sameTeams_completeOnce (b : Nat) : SameTeams s (s.completeOnce tid b) := by
  unfold State.completeOnce
  split
  · exact .refl s
  · dsimp only
    split
    · exact sameTeams_modTeam s tid fun _ => rfl
    · refine SameTeams.trans ?_ ((sameTeams_acquire ..).trans (sameTeams_trigger3s ..))
      refine (sameTeams_modTeam s tid ?_).trans (.foldl (fun s (h : HeldArr) => sameTeams_enqueue s tid _ _ _) _ _)
      exact fun _ => rfl
theorem sameTeams_countLanes (b : Nat) (ls : List (Nat × Mask × Option Nat)) (spec wait : Bool) (pc : Nat) :
    SameTeams s (s.countLanes tid b ls spec wait pc) := by
  refine .foldl (fun s q => ?_) ls s
  split
  · exact .refl s
  · split
    · exact .refl s
    · dsimp only
      split
      · exact .refl s
      · split
        · exact (sameTeams_modTeam s tid fun _ => by rfl).trans (sameTeams_modGroup ..)
        · refine SameTeams.trans ?_ (sameHoldings_raise ..).sameTeams
          split
          · exact sameTeams_modGroup ..
          · exact .refl s
theorem sameTeams_completeBar (b : Nat) : SameTeams s (s.completeBar tid b) := by
  unfold State.completeBar
  split
  · exact .refl s
  · rename_i t _
    have once := sameTeams_completeOnce s tid b
    dsimp only
    split
    · exact once
    · have counted := once.trans (.foldl (fun s h => sameTeams_countLanes s tid b h.lanes false h.wait h.pc) (t.heldArrs b) _)
      repeat' split
      · exact counted.trans (sameTeams_completeOnce ..)
      all_goals exact counted
theorem sameTeams_testBars : SameTeams s (s.testBars tid) := by
  unfold State.testBars
  split
  · exact .refl s
  · refine .foldl (fun s b => ?_) ..
    repeat' split
    · exact sameTeams_completeBar ..
    all_goals exact .refl s
theorem sameTeams_arriveNow (b : Nat) (ls : List (Nat × Mask × Option Nat)) (spec wait : Bool) (pc : Nat) :
    SameTeams s (s.arriveNow tid b ls spec wait pc) := (sameTeams_countLanes ..).trans (sameTeams_testBars ..)
theorem sameTeams_popSq (gi : Nat) : SameTeams s (s.popSq tid gi) := sameTeams_modGroup ..
end

/-! ## The drain of a store queue (R161, R166) -/

theorem sameTeams_drainHead {s s' : State} {tid gi : Nat} (h : s.drainHead tid gi = some s') : SameTeams s s' := by
  have pops {α : Type} (place : α → Nat) (l : List α) : SameTeams s (l.foldl (fun s q => s.popSq tid (place q)) s) :=
    .foldl (fun s q => sameTeams_popSq s tid (place q)) l s
  unfold State.drainHead at h
  iterate 4
    split at h
    · cases h
  split at h
  all_goals simp only [Option.ite_none_left_eq_some, Option.ite_none_right_eq_some, Option.some.injEq] at h
  case h_1 =>
    obtain ⟨-, rfl⟩ := h
    exact (sameTeams_popSq ..).trans (sameTeams_perform ..)
  case h_2 =>
    obtain ⟨-, rfl⟩ := h
    exact (sameTeams_popSq ..).trans (sameTeams_rmwAll ..)
  case h_3 => exact h ▸ sameTeams_popSq ..
  case h_4 => exact h ▸ (sameTeams_popSq ..).trans (sameTeams_modGroup ..)
  case h_5 =>
    obtain ⟨-, rfl⟩ := h
    exact (pops id _).trans (sameTeams_completeBar ..)
  case h_6 =>
    obtain ⟨-, rfl⟩ := h
    exact (pops Prod.fst _).trans (sameTeams_arriveNow ..)
theorem sameTeams_drainUpTo (tid gi n : Nat) (s : State) : SameTeams s (State.drainUpTo tid gi n s) := by
  induction n generalizing s with
  | zero => exact .refl s
  | succ n ih =>
    unfold State.drainUpTo
    split
    · rename_i s' head
      exact (sameTeams_drainHead head).trans (ih s')
    · exact .refl s
theorem sameTeams_drainAll (s : State) (tid gi : Nat) : SameTeams s (s.drainAll tid gi) := by
  unfold State.drainAll
  split
  · exact sameTeams_drainUpTo ..
  · exact .refl s
theorem sameTeams_drainPrep (s : State) (x : Site) : SameTeams s (drainPrep s x) :=
  .foldl (fun s (p : Nat × Mask) => sameTeams_drainAll s x.tid p.1) x.mem s

end Sys2Proof.Machine
end

section
/-! PROOFS. WPIN, WUNP, WPUB and WBAK complete in free mode, and what each does with its descriptor (R233, R443, R444). -/
namespace Sys2Proof.Machine

/-! ## The issue at the coherence point -/

/-- The team of the issue at the coherence point is found there: the drain of its stores retires no team. -/
theorem team?_atPoint {i : Instr} {s s1 : State} {x : Site} {t : Team} (h : s.atPoint i = some (s1, x, t)) : s1.team? x.tid = some t := by
  obtain ⟨s0, t0, hp, rfl, rfl⟩ := atPoint_performing h
  obtain ⟨u, hu⟩ := (sameTeams_drainPrep s0 x).team? (performing_site hp).2
  rw [hu, Option.getD_some]

/-! ## The body of the four instructions (R233, R443) -/

section
variable {ga : Nat} {rel : Bool} {mv : Group → WDesc → WMove} {s s2 : State} {x : Site} {t : Team} {g : Group} {l : Loc} {n : Nat}
  {r : List (Loc × Nat)} {ws : List (Nat × Nat)} {gs : List (Nat × Word)} (htg : s.tg x.tid x.gi = some (t, g))
  (place : s.resolve t g x.uniLane .global (g.rg64 ga) 4 true = .ok ((l, n) :: r))
include htg place

/-- The checks pass at an aligned descriptor of an accessible page shared at PKG or SYS that is not lost, once the stores are done, where the
descriptor lets the instruction. -/
theorem weightBody_pre_go (hb : t.la.bridle = false) (aligned : g.rg64 ga % 64 = 0)
    (shared : ∀ e, s.tlb t.pcore t.ctx (g.rg64 ga) = some e → Dom.pkg.rank ≤ e.shr.rank) (kept : s.lostIn [(l, 4), (l.plus 32, 4)] = false)
    (done : pointWait rel s x = false) (lets : mv g (s.wread t l) = .go ws gs) : (weightBody ga rel mv).pre s x = .go := by
  have wide : (s.tlb t.pcore t.ctx (g.rg64 ga)).any (fun e => decide (e.shr.rank < Dom.pkg.rank)) = false := by
    simpa only [Option.any_eq_false, Bool.not_eq_true, decide_eq_false_iff_not, Nat.not_lt] using shared
  simp only [weightBody, htg, hb, aligned, place, wide, kept, done, lets, ne_eq, not_true_eq_false, Bool.false_eq_true, if_false]

/-- The words are written at the coherence point and the registers given, as the release or the acquire that the instruction is. -/
theorem weightBody_run (h2 : s2 = ((s.fromMirror [(l, 4), (l.plus 32, 4)]).landLine t.pcore l).dirtied t x.gi g x.uniLane .global (g.rg64 ga))
    (moves : mv g (wdesc (s2.pointBytes t l 64)) = .go ws gs) :
    (weightBody ga rel mv).run s x =
      (let s3 := x.mem.foldl (fun s p => s.raiseWm x.tid p.1 l.dom)
        (ws.foldl (fun s w => s.pointWrite x.tid x.gi (l.plus w.1) (leBytes 4 w.2)) s2)
      ((if rel then s3 else (s3.acquire t.pcore l.dom).trigger3s x.tid (x.mem.map Prod.fst)).irrevocable x.tid, { gs := gs })) := by
  subst h2
  simp only [weightBody, htg, place, moves]
end

/-- An instruction whose body updates a descriptor. -/
theorem weights_of_body {i : Instr} {ga : Nat} {rel : Bool} {mv : Group → WDesc → WMove} (hu : uniOf i = false)
    (h : ∀ s, exec i s = issue i (weightBody ga rel mv) s) : Weights i ga rel mv := by
  intro s s1 s2 x t g l n r w0 ws g0 gs hp hg hb aligned place shared kept done lets h2 moves
  have ht := team?_atPoint hp
  obtain ⟨s0, t0, hq, rfl, -⟩ := atPoint_performing hp
  have htg := tg_eq_some ht hg
  have run := weightBody_run (rel := rel) htg place h2 moves
  have free : defers (weightBody ga rel mv) (drainPrep s0 x) x (((drainPrep s0 x).team? x.tid).getD t0) = false := by simp [defers, ht, hb]
  have completes := issue_go (b := weightBody ga rel mv) hq hu (weightBody_pre_go htg place hb aligned shared kept done lets) (fun _ _ => rfl) free (by
    show ∀ q ∈ ((weightBody ga rel mv).run (drainPrep s0 x) x).2.lanes, q.fl = 0
    rw [run]
    simp)
  refine ⟨_, rfl, ?_⟩
  rw [h, completes]
  exact congrArg (fun v : State × Res => Host.Outcome.next (v.1.finish x v.2)) run

/-! ## What the four do with a descriptor (R233) -/

section
variable {d b : Nat} {g : Group} {w : WDesc}

theorem wpinMove_trap_iff : wpinMove d g w = .trap ↔ pick w.pin w.cur = 2 ^ 32 - 1 := by
  unfold wpinMove
  split
  case isTrue full => exact iff_of_true rfl full
  case isFalse room => exact iff_of_false nofun room
theorem wpinMove_counts (room : pick w.pin w.cur ≠ 2 ^ 32 - 1) :
    wpinMove d g w = .go [(0x18 + 4 * w.cur, pick w.pin w.cur + 1)] [(d, BitVec.ofNat 32 w.gen), (d + 1, BitVec.ofNat 32 w.cur),
      (d + 2, BitVec.ofNat 32 (pick w.buf w.cur)), (d + 3, BitVec.ofNat 32 (pick w.buf w.cur / 2 ^ 32))] := if_neg room

/-- WUNP of the buffer that it names: that of the generation given. -/
theorem wunpMove_current (named : (g.rg b).toNat = w.gen) :
    wunpMove b g w = if pick w.pin w.cur = 0 then .trap else .go [(0x18 + 4 * w.cur, pick w.pin w.cur - 1)] [] := by
  simp only [wunpMove, named, if_true]
theorem wunpMove_previous (later : (g.rg b).toNat ≠ w.gen) (named : ((g.rg b).toNat + 1) % 2 ^ 32 = w.gen) :
    wunpMove b g w = if pick w.pin (1 - w.cur) = 0 then .trap else .go [(0x18 + 4 * (1 - w.cur), pick w.pin (1 - w.cur) - 1)] [] := by
  simp only [wunpMove, if_neg later, if_pos named]
theorem wunpMove_neither (later : (g.rg b).toNat ≠ w.gen) (earlier : ((g.rg b).toNat + 1) % 2 ^ 32 ≠ w.gen) : wunpMove b g w = .trap := by
  simp only [wunpMove, if_neg later, if_neg earlier]

theorem wpubMove_handed (handed : w.handed = true) :
    wpubMove d g w = .go [(0x10, 1 - w.cur), (0x14, (w.gen + 1) % 2 ^ 32)] [(d, BitVec.ofNat 32 (w.gen + 1))] := by
  simp [wpubMove, handed, wflags]
theorem wpubMove_not_handed (kept : w.handed = false) : wpubMove d g w = .trap := by
  simp only [wpubMove, kept, Bool.not_false, if_true]

theorem wbakMove_handed (handed : w.handed = true) : wbakMove d g w = .trap := if_pos handed
theorem wbakMove_not_handed (kept : w.handed = false) :
    wbakMove d g w = if pick w.pin (1 - w.cur) ≠ 0 then .pins (0x18 + 4 * (1 - w.cur)) else .go [(0x10, 2 + w.cur)]
      [(d, BitVec.ofNat 32 (pick w.buf (1 - w.cur))), (d + 1, BitVec.ofNat 32 (pick w.buf (1 - w.cur) / 2 ^ 32))] := by
  simp only [wbakMove, kept, Bool.false_eq_true, if_false]
  rfl
end

/-- Settles O31: each instruction runs the body of the four with its own move, and each move is by what the descriptor holds. -/
theorem weightInstructionsUpdateTheirDescriptor : Obligations.WeightInstructionsUpdateTheirDescriptor := by
  unfold Obligations.WeightInstructionsUpdateTheirDescriptor
  refine ⟨fun h d a b => ⟨?wpin, ?wunp, ?wpub, ?wbak⟩, fun d b g w => ⟨wpinMove_trap_iff, wpinMove_counts,
    fun named pinned => (wunpMove_current named).trans (if_neg pinned), fun later named pinned => (wunpMove_previous later named).trans (if_neg pinned),
    wunpMove_neither, fun named unpinned => (wunpMove_current named).trans (if_pos unpinned), wpubMove_not_handed, wpubMove_handed, wbakMove_handed,
    fun kept pinned => (wbakMove_not_handed kept).trans (if_pos pinned),
    fun kept unpinned => (wbakMove_not_handed kept).trans (if_neg fun pinned => pinned unpinned)⟩⟩
  all_goals exact weights_of_body rfl fun _ => rfl

end Sys2Proof.Machine
end

section
/-! PROOFS. The logic, shift, integer, bit, move and float instructions complete, each lane by lane (R310-R312, R318, R322, R327, R344-R353, R359,
R362-R369, R377, R389-R391, R396, R400-R402, R417, R445). -/
namespace Sys2Proof.Machine

/-! ## Operands and results by value -/

theorem toNat_imm7z (i : VReg) : (imm7z i).toNat = i.toNat := BitVec.toNat_setWidth_of_le (by decide)
theorem iadd_i32 (a b : Word) : iadd .i32 false a b = a + b := (iadd_word true false a b).trans (add_wrapped true a b)
theorem isub_i32 (a b : Word) : isub .i32 false a b = a - b := (isub_word true false a b).trans (sub_wrapped true a b)
theorem imin_i32 (a b : Word) : imin .i32 a b = if b.slt a then b else a := by
  rw [show Ty.i32 = wordTy true from rfl, imin_word, toIntW_signed, toIntW_signed]
  simp only [BitVec.slt_iff_toInt_lt]
theorem imax_i32 (a b : Word) : imax .i32 a b = if a.slt b then b else a := by
  rw [show Ty.i32 = wordTy true from rfl, imax_word, toIntW_signed, toIntW_signed]
  simp only [BitVec.slt_iff_toInt_lt]

/-- Settles O1: each logic instruction through the lemma of its body, a shift by its amount first. -/
theorem logicAndShiftInstructionsComplete : Obligations.LogicAndShiftInstructionsComplete := by
  unfold Obligations.LogicAndShiftInstructionsComplete
  refine ⟨fun h u k d a b i t => ⟨?_, ?_, ?_, ?_, ?_, ?_, ?_, ?_, ?_, ?_⟩,
    fun h u k d a b i t => ⟨?shl, ?shlImm, ?shlLong, ?shr, ?shrImm, ?shrLong, ?shra, ?shraImm, ?shraLong⟩⟩
  case shl | shlLong =>
    simp only [← shl_eq_shiftLeft]
    exact computes_laneBody rfl fun _ => rfl
  case shr | shrLong =>
    simp only [← shr_eq_ushiftRight]
    exact computes_laneBody rfl fun _ => rfl
  case shra | shraLong =>
    simp only [← shra_eq_sshiftRight]
    exact computes_laneBody rfl fun _ => rfl
  case shlImm =>
    simp only [← toNat_imm7z, ← shl_eq_shiftLeft]
    exact computes_laneBody rfl fun _ => rfl
  case shrImm =>
    simp only [← toNat_imm7z, ← shr_eq_ushiftRight]
    exact computes_laneBody rfl fun _ => rfl
  case shraImm =>
    simp only [← toNat_imm7z, ← shra_eq_sshiftRight]
    exact computes_laneBody rfl fun _ => rfl
  all_goals exact computes_laneBody rfl fun _ => rfl

/-- Settles O2: each instruction through the lemma of its body; the one-word forms are those of I32. -/
theorem arithmeticInstructionsComplete : Obligations.ArithmeticInstructionsComplete := by
  unfold Obligations.ArithmeticInstructionsComplete
  simp only [← iadd_i32, ← isub_i32, ← imin_i32, ← imax_i32]
  refine fun h u k d a b i t x => ⟨?_, ?_, ?_, ?_, ?_, ?_, ?_, ?_, ?_, ?_, ?_⟩
  all_goals exact computes_laneBody rfl fun _ => rfl

/-- Settles O5: each instruction through the lemma of its body. -/
theorem compareSelectMoveInstructionsComplete : Obligations.CompareSelectMoveInstructionsComplete := by
  unfold Obligations.CompareSelectMoveInstructionsComplete
  refine fun h u k d a b ga w p q r cc n t x => ⟨?_, ?_, ?isel, ?_, ?_, ?_, ?_, ?_⟩
  all_goals exact computes_laneBody rfl fun _ => rfl

/-- Settles O7: each instruction through the lemma of its body. -/
theorem bitInstructionsComplete : Obligations.BitInstructionsComplete := by
  unfold Obligations.BitInstructionsComplete
  refine fun h u k d a b c t x => ⟨?_, ?_, ?_, ?_, ?_, ?_, ?_⟩
  all_goals exact computes_laneBody rfl fun _ => rfl

/-- Settles O8: each instruction through the lemma of its body; FMIN, FMAX and FRND raise no flag. -/
theorem floatInstructionsComplete : Obligations.FloatInstructionsComplete := by
  unfold Obligations.FloatInstructionsComplete
  refine fun h u k d a b c m t => ⟨?_, ?_, ?_, ?_, ?_, ?fmin, ?fminLong, ?fmax, ?fmaxLong, ?frnd, ?_, ?_, ?_⟩
  case fmin | fminLong | fmax | fmaxLong | frnd => exact computes_laneBody rfl fun _ => rfl
  all_goals exact computesF_laneBody rfl fun _ => rfl

/-- Settles O9: each instruction through the lemma of its body; the type names the format of FCMP. -/
theorem specialFunctionAndCompareInstructionsComplete : Obligations.SpecialFunctionAndCompareInstructionsComplete := by
  unfold Obligations.SpecialFunctionAndCompareInstructionsComplete
  refine fun h u k d a b p cc => ⟨fun i f hi => ?special, computesF_laneBody rfl fun _ => rfl, fun t f hf => ?compare⟩
  case special =>
    simp only [List.mem_cons, Prod.mk.injEq, List.not_mem_nil, or_false] at hi
    obtain ⟨rfl, rfl⟩ | ⟨rfl, rfl⟩ | ⟨rfl, rfl⟩ | ⟨rfl, rfl⟩ | ⟨rfl, rfl⟩ | ⟨rfl, rfl⟩ | ⟨rfl, rfl⟩ := hi
    all_goals exact computesF_laneBody rfl fun _ => rfl
  case compare =>
    simp only [List.mem_cons, Prod.mk.injEq, List.not_mem_nil, or_false] at hf
    obtain ⟨rfl, rfl⟩ | ⟨rfl, rfl⟩ | ⟨rfl, rfl⟩ := hf
    all_goals exact computesF_laneBody rfl fun _ => rfl

end Sys2Proof.Machine
end

section
/-! PROOFS. TRAP and BPT take their trap (R273, R319, R428), and without power nothing moves but the power-up (R265, R306). -/
namespace Sys2Proof.Machine

/-! ## Who takes part in an instruction without a guard (R36) -/

theorem getLsbD_foldl_laneBit (ls : List Nat) (m : Mask) {j : Nat} (h : j < 32) :
    (ls.foldl (fun m i => m ||| laneBit i) m).getLsbD j = (m.getLsbD j || decide (j ∈ ls)) := by
  induction ls generalizing m with
  | nil => simp
  | cons i ls ih => simp [ih, laneBit_getLsbD i h, Bool.or_assoc, Bool.decide_or]
theorem getLsbD_maskOf (ls : List Nat) {j : Nat} (h : j < 32) : (maskOf ls).getLsbD j = decide (j ∈ ls) := by
  exact (getLsbD_foldl_laneBit ls 0 h).trans (by simp)
/-- A mask is that of its lanes. -/
theorem maskOf_lanesOf (m : Mask) : maskOf (lanesOf m) = m := by
  refine BitVec.eq_of_getLsbD_eq fun j hj => ?_
  rw [getLsbD_maskOf _ hj]
  simp [mem_lanesOf, hj, Mask.has]

/-- At lane scope every member takes part in an instruction that has no guard. -/
theorem part_eq_mem_of_unguarded {i : Instr} {s s1 : State} {x : Site} {t : Team} (hp : s.performing i = some (s1, x, t))
    (unguarded : guardOf i = ⟨false, 7⟩) (lane : x.scope = .lane) : x.part = x.mem := by
  obtain ⟨hi, -⟩ := performing_site hp
  unfold State.performing at hp
  split at hp
  · cases hp
  · rename_i c t0 g issuing
    obtain ⟨-, ht, hg⟩ := issuer_team issuing
    have alone : gather i s c t0 g = .go s ⟨i, c.tid, c.gi, c.pc, 4 * i.words, [(c.gi, c.lanes)], []⟩ := if_pos (hi ▸ lane)
    have all : maskOf ((lanesOf c.lanes).filter (fun l => g.guard l ⟨false, 7⟩)) = c.lanes :=
      (congrArg maskOf (List.filter_eq_self.2 fun _ _ => rfl)).trans (maskOf_lanesOf _)
    rw [alone] at hp
    split at hp
    · cases hp
    · dsimp only at hp
      split at hp
      · cases hp
      · simp only [Option.some.injEq, Prod.mk.injEq] at hp
        obtain ⟨-, rfl, -⟩ := hp
        simp only [participants, List.map_cons, List.map_nil, group?_of_team? ht, hg, unguarded, all]

/-! ## An instruction's own trap -/

/-- An instruction without a guard takes its own trap as a whole. -/
theorem issue_trapBody {i : Instr} {tr : Trap} {s s1 : State} {x : Site} {t : Team} (hp : s.performing i = some (s1, x, t))
    (unguarded : guardOf i = ⟨false, 7⟩) : issue i (trapBody tr) s = .next (s1.trapWhole x tr) := by
  rw [issue_of_performing hp]
  have whole : ¬(x.scope = .lane ∧ x.part ≠ x.mem ∧ x.lanes ≠ []) := fun ⟨lane, guarded, _⟩ => guarded (part_eq_mem_of_unguarded hp unguarded lane)
  simp only [trapBody, perform, if_neg whole, End.state]

/-- Settles O18: both run the body of an instruction's own trap. -/
theorem trapInstructionsTakeTheirTrap : Obligations.TrapInstructionsTakeTheirTrap := by
  unfold Obligations.TrapInstructionsTakeTheirTrap
  exact fun h c s s1 x t => ⟨fun hp => issue_trapBody hp rfl, fun hp => issue_trapBody hp rfl⟩

/-! ## Without power -/

theorem runMove_without_power {s : State} {m : Move} (off : s.powered = false) (other : m ≠ .event .powerUp) : runMove m s = .next s := by
  unfold runMove
  rw [off, if_neg Bool.false_ne_true]
  split
  · exact absurd rfl other
  · rfl

/-- Settles O49: by whether the agenda names a move. -/
theorem withoutPowerNothingMoves : Obligations.WithoutPowerNothingMoves := by
  unfold Obligations.WithoutPowerNothingMoves
  refine fun s off => ⟨fun idle => ?_, fun m r next other => ?_⟩
  · simp only [step, idle, State.ownMove, off, Bool.false_eq_true, if_false]
  · simp only [step, next]
    exact runMove_without_power off other

end Sys2Proof.Machine
end

section
/-! PROOFS. Firmware, attestation and management messages (R300, R302, R306-R309). -/
namespace Sys2Proof.Machine

/-! ## Bytes of numbers one after another (R4) -/

/-- The bytes of the `k`-th of numbers of `w` bytes each. -/
theorem flatMap_leBytes_drop_take (f : Nat → Nat) (w : Nat) {n k : Nat} (h : k < n) :
    (((List.range n).flatMap (fun i => leBytes w (f i))).drop (w * k)).take w = leBytes w (f k) := by
  induction n generalizing k f with
  | zero => omega
  | succ n ih =>
    rw [List.range_succ_eq_map, List.flatMap_cons, List.flatMap_map]
    cases k with
    | zero => rw [Nat.mul_zero, List.drop_zero, List.take_left' (leBytes_length ..)]
    | succ k =>
      have past : w * (k + 1) = (leBytes w (f 0)).length + w * k := by rw [leBytes_length, Nat.mul_succ, Nat.add_comm]
      rw [past, List.drop_length_add_append]
      exact ih (f ∘ Nat.succ) (Nat.lt_of_succ_lt_succ h)
theorem length_flatMap_leBytes (f : Nat → Nat) (w n : Nat) : ((List.range n).flatMap (fun i => leBytes w (f i))).length = n * w := by
  simp only [List.length_flatMap, leBytes_length, List.map_const', List.length_range, List.sum_replicate_nat]
/-- The same where other bytes follow. -/
theorem flatMap_leBytes_append_drop_take (f : Nat → Nat) (w : Nat) {n k : Nat} (h : k < n) (bs : List Byte) :
    (((List.range n).flatMap (fun i => leBytes w (f i)) ++ bs).drop (w * k)).take w = leBytes w (f k) := by
  have within : w * k + w ≤ ((List.range n).flatMap (fun i => leBytes w (f i))).length := by
    rw [length_flatMap_leBytes, ← Nat.mul_succ, Nat.mul_comm]
    exact Nat.mul_le_mul_right w h
  rw [List.drop_append_of_le_length (by omega), List.take_append_of_le_length (by rw [List.length_drop]; omega), flatMap_leBytes_drop_take f w h]
/-- Byte `i` of numbers of `w` bytes each. -/
theorem flatMap_leBytes_getElem? (f : Nat → Nat) {w : Nat} (hw : 0 < w) {n i : Nat} (h : i < w * n) :
    ((List.range n).flatMap (fun i => leBytes w (f i)))[i]? = (leBytes w (f (i / w)))[i % w]? := by
  rw [← flatMap_leBytes_drop_take f w (Nat.div_lt_of_lt_mul h), List.getElem?_take_of_lt (Nat.mod_lt _ hw), List.getElem?_drop, Nat.div_add_mod]
/-- The bytes of a number are those of what they hold. -/
theorem leBytes_mod (n x : Nat) : leBytes n (x % 2 ^ (8 * n)) = leBytes n x := by
  refine List.ext_getElem? fun i => ?_
  by_cases h : i < n
  · have inside (j : Nat) (hj : j < 8) : j + 8 * i < 8 * n := by omega
    rw [leBytes_getElem? _ h, leBytes_getElem? _ h]
    refine congrArg some (BitVec.eq_of_getLsbD_eq fun j hj => ?_)
    simp only [BitVec.getLsbD_ofNat, Nat.testBit_div_two_pow, Nat.testBit_mod_two_pow, inside j hj, decide_true, Bool.true_and]
  · rw [List.getElem?_eq_none (by simpa using h), List.getElem?_eq_none (by simpa using h)]

/-! ## The messages' bytes -/

theorem length_freshBytes (k n : Nat) : (freshBytes k n).length = n * 4 := length_flatMap_leBytes ..
theorem length_fixedBytes (tag k n : Nat) : (fixedBytes tag k n).length = n * 4 := length_flatMap_leBytes ..
theorem fixedBytes_getElem? (tag k : Nat) {n i : Nat} (h : i < 4 * n) :
    (fixedBytes tag k n)[i]? = (leBytes 4 (Config.freeOf tag (k + i / 4)).toNat)[i % 4]? :=
  flatMap_leBytes_getElem? (fun i => (Config.freeOf tag (k + i)).toNat) (by decide) h

/-- The bytes of the chain that a message asks for. -/
def chainBytes (off len : Nat) : List Byte := ((fixedBytes (2 ^ 76) (off / 4) (len / 4 + 2)).drop (off % 4)).take len
theorem execGetCertificate_eq (off len : Nat) (s : State) : exec (.getCertificate off len) s = .next { s with reply := chainBytes off len } := rfl
theorem length_chainBytes (off len : Nat) : (chainBytes off len).length = len := by
  rw [chainBytes, List.length_take, List.length_drop, length_fixedBytes]
  omega
/-- Each byte is that of the chain at its place. -/
theorem chainBytes_getElem? (off : Nat) {len k : Nat} (h : k < len) :
    (chainBytes off len)[k]? = (leBytes 4 (Config.freeOf (2 ^ 76) ((off + k) / 4)).toNat)[(off + k) % 4]? := by
  have word : off / 4 + (off % 4 + k) / 4 = (off + k) / 4 := by omega
  have byte : (off % 4 + k) % 4 = (off + k) % 4 := by omega
  rw [chainBytes, List.getElem?_take_of_lt h, List.getElem?_drop, fixedBytes_getElem? _ _ (by omega), word, byte]

theorem monitor_temperature (s : State) (d : Nat) {k : Nat} (h : k < 64) :
    ((s.monitor d).drop (4 * k)).take 4 = leBytes 4 (s.bar (powOff d (0x400 + 4 * k))) := by
  simp only [State.monitor, List.append_assoc]
  rw [flatMap_leBytes_append_drop_take (fun k => s.bar (powOff d (0x400 + 4 * k))) 4 h]

theorem Lifetime.length_piece (r : Lifetime) (p : Nat) : (r.piece p).length = 4096 := by
  rw [Lifetime.piece, length_flatMap_leBytes]
/-- A copy begins with its mark and its number in sequence (R294). -/
theorem Lifetime.piece_head (r : Lifetime) : (r.piece 0).take 8 = leBytes 4 0x095111FE ++ leBytes 4 r.seqn := by
  have word (k : Nat) (h : k < 1024) : ((r.piece 0).drop (4 * k)).take 4 = leBytes 4 (r.word k).toNat := by
    rw [Lifetime.piece, flatMap_leBytes_drop_take (fun i => (r.word (1024 * 0 + i)).toNat) 4 h, Nat.mul_zero, Nat.zero_add]
  have mark : (r.piece 0).take 4 = leBytes 4 (r.word 0).toNat := by
    simpa only [Nat.mul_zero, List.drop_zero] using word 0 (by decide)
  have number : ((r.piece 0).drop 4).take 4 = leBytes 4 (r.word 1).toNat := by
    simpa only [Nat.mul_one] using word 1 (by decide)
  have whole : leBytes 4 (BitVec.ofNat 32 r.seqn).toNat = leBytes 4 r.seqn := by rw [BitVec.toNat_ofNat, leBytes_mod]
  rw [show (8 : Nat) = 4 + 4 from rfl, List.take_add, mark, number]
  exact congrArg (leBytes 4 0x095111FE ++ ·) whole

/-! ## Firmware and sessions -/

/-- Outside recovery an image is written to the slot that does not run, and is run if it may boot (R307). -/
theorem Trust.update_outside_recovery (t : Trust) (i : Image) (outside : t.recovery = false) :
    (t.running = 0 → (t.update i).slotB = i ∧ (t.update i).slotA = t.slotA ∧ (t.update i).running = if i.boots t.fused t.rollback then 1 else 0) ∧
    (t.running = 1 → (t.update i).slotA = i ∧ (t.update i).slotB = t.slotB ∧ (t.update i).running = if i.boots t.fused t.rollback then 0 else 1) := by
  constructor <;> intro slot <;> simp [Trust.update, slot, outside]
/-- An image that an update brings may boot where it is signed under the fused key and its version is not below the counter. -/
theorem boots_imageSigned (ver dig fused rollback : Nat) (sg : Option Nat) :
    (imageSigned ver dig sg).boots fused rollback = true ↔ sg = some fused ∧ rollback ≤ ver := by
  simp only [Image.boots, Bool.and_eq_true, decide_eq_true_eq]
  cases sg <;> simp [imageSigned]

theorem State.ports_modPort {s : State} {k : Nat} {p : Port} (f : Port → Port) (hp : s.ports[k]? = some p) : (s.modPort (some k) f).ports[k]? = some (f p) := by
  rw [State.modPort, updAt_getElem?, if_pos rfl, hp, Option.map_some]

/-- Settles O60: each message by what it answers, an update by the slot that runs, a session by whether an exchange is pending. -/
theorem managementEventsComplete : Obligations.ManagementEventsComplete := by
  unfold Obligations.ManagementEventsComplete
  refine ⟨fun s i ver dig sg hi outside => ⟨s.updateFirmware (imageSigned ver dig sg), ?update, rfl, rfl, ?slots⟩, fun s v => ⟨_, rfl, rfl⟩,
    fun s => ⟨rfl, rfl, rfl, ⟨_, rfl, length_fixedBytes .., rfl⟩, _, rfl, rfl⟩,
    fun s off len => ⟨_, execGetCertificate_eq off len s, length_chainBytes off len, rfl, fun k hk => ⟨_, execGetCertificate_eq (off + k) 1 s, ?chain⟩⟩,
    fun s nonce => ⟨⟨_, rfl, List.take_left, ?challenge, rfl⟩, ⟨_, rfl, List.take_left, ?measurements, rfl⟩, _, rfl, rfl, length_freshBytes ..⟩,
    fun s k p hp => ⟨fun exchange => ?finish, ?unverified, fun none => ?idle, _, rfl, rfl, State.ports_modPort _ hp⟩,
    fun s => ⟨fun exchange => ?session, _, rfl, rfl, rfl⟩,
    fun s d hd => ⟨_, congrArg Host.Outcome.next (if_pos hd), rfl, fun k hk => monitor_temperature s d hk⟩,
    fun s p hp => ⟨?copyA, ?copyB, s.lifeA.length_piece p, s.lifeA.piece_head⟩⟩
  case update => obtain rfl | rfl := hi <;> rfl
  case slots =>
    have boots := boots_imageSigned ver dig s.trust.fused s.trust.rollback sg
    have written := s.trust.update_outside_recovery (imageSigned ver dig sg) outside
    simp only [boots] at written
    exact written
  case chain =>
    rw [chainBytes_getElem? off hk]
    exact chainBytes_getElem? (off + k) Nat.one_pos
  case challenge | measurements =>
    refine (List.length_append ..).trans ?_
    rw [length_freshBytes]
  case finish =>
    exact ⟨_, _, congrArg Host.Outcome.next (if_pos ⟨exchange, rfl⟩), rfl, State.ports_modPort _ hp, nofun, rfl, rfl⟩
  case unverified => exact congrArg Host.Outcome.next (if_neg fun h => Bool.false_ne_true h.2)
  case idle => exact congrArg Host.Outcome.next (if_neg fun h => none h.1)
  case session => exact ⟨_, congrArg Host.Outcome.next (if_pos ⟨exchange, rfl⟩), rfl, rfl⟩
  case copyA | copyB => exact congrArg Host.Outcome.next (if_neg (by omega))

end Sys2Proof.Machine
end

section
/-! PROOFS. The conditions of ICMP, the bit functions bit by bit, and what an atomic leaves at its place (R315, R318, R322, R327, R353, R366, R401). -/
namespace Sys2Proof.Machine

/-! ## Bit fields (R318) -/

section
variable {a b c : Word} {j p n : Nat} (hp : p = min (b.toNat % 256) 32) (hn : n = min (b.toNat / 256 % 256) (32 - p))

/-- A bit of a field as a number. -/
theorem testBit_field (a : Word) (p n j : Nat) : (a.toNat / 2 ^ p % 2 ^ n).testBit j = (decide (j < n) && a.getLsbD (p + j)) := by
  rw [Nat.testBit_mod_two_pow, Nat.testBit_div_two_pow, Nat.add_comm]
  rfl

include hp hn
theorem fieldPos_eq : fieldPos b = (p, n) := by
  subst hn hp
  rfl
theorem bfx_n32_getLsbD (hj : j < 32) : (bfx .n32 a b).getLsbD j = (decide (j < n) && a.getLsbD (p + j)) := by
  simp only [bfx, fieldPos_eq hp hn]
  by_cases h0 : n = 0
  · simp [h0]
  · rw [if_neg h0, if_neg (by simp), BitVec.getLsbD_ofNat, testBit_field]
    simp [hj]
/-- The bits above the field are those of its sign. -/
theorem bfx_i32_getLsbD (hj : j < 32) :
    (bfx .i32 a b).getLsbD j = (if j < n then a.getLsbD (p + j) else decide (0 < n) && a.getLsbD (p + n - 1)) := by
  simp only [bfx, fieldPos_eq hp hn]
  by_cases h0 : n = 0
  · simp [h0]
  · have sign : (a.toNat / 2 ^ p % 2 ^ n).testBit (n - 1) = a.getLsbD (p + n - 1) := by
      rw [testBit_field, decide_eq_true (by omega), Bool.true_and, ← Nat.add_sub_assoc (by omega)]
    have bit (x : Nat) : (BitVec.ofNat 32 x).getLsbD j = x.testBit j := by rw [BitVec.getLsbD_ofNat, decide_eq_true hj, Bool.true_and]
    rw [if_neg h0, sign, bit, decide_eq_true (by omega), Bool.true_and]
    by_cases negative : a.getLsbD (p + n - 1) = true
    · have ones : 2 ^ 32 - 2 ^ n = 2 ^ n * (2 ^ (32 - n) - 1) := by
        rw [Nat.mul_sub, ← Nat.pow_add, Nat.mul_one, show n + (32 - n) = 32 by omega]
      rw [if_pos ⟨trivial, negative⟩, ones, Nat.add_comm, Nat.testBit_two_pow_mul_add _ (Nat.mod_lt _ (Nat.two_pow_pos n)), testBit_field,
        Nat.testBit_two_pow_sub_one, negative]
      by_cases inside : j < n
      · simp [inside]
      · simp [inside]; omega
    · rw [if_neg (fun h => negative h.2), testBit_field]
      by_cases inside : j < n <;> simp [inside, negative]
theorem bfi_getLsbD (hj : j < 32) : (bfi a b c).getLsbD j = (if p ≤ j ∧ j < p + n then a.getLsbD (j - p) else c.getLsbD j) := by
  have mask : (BitVec.ofNat 32 ((2 ^ n - 1) * 2 ^ p)).getLsbD j = decide (p ≤ j ∧ j < p + n) := by
    rw [BitVec.getLsbD_ofNat, Nat.testBit_mul_two_pow, Nat.testBit_two_pow_sub_one]
    by_cases h : p ≤ j <;> simp [h, hj]
    omega
  simp only [bfi, fieldPos_eq hp hn, BitVec.getLsbD_or, BitVec.getLsbD_and, BitVec.getLsbD_not, BitVec.getLsbD_shiftLeft, mask]
  by_cases inside : p ≤ j ∧ j < p + n
  · simp [inside, hj, show ¬ j < p by omega]
  · simp [inside, hj]
end

/-! ## Reversal, counts and funnel shifts (R322, R327, R353, R401) -/

theorem brev_getLsbD (a : Word) {j : Nat} (hj : j < 32) : (brev a).getLsbD j = a.getLsbD (31 - j) := by
  rw [brev, BitVec.getLsbD_reverse, BitVec.getMsbD, decide_eq_true hj, Bool.true_and]
theorem clz_toNat (a : Word) : (clz a).toNat = 32 - bitLen a.toNat := by
  rw [clz, BitVec.toNat_ofNat]
  exact Nat.mod_eq_of_lt (by omega)
/-- The highest 1 stands below as many bits as are counted. -/
theorem clz_eq_iff (a : Word) {j : Nat} (hj : j < 32) :
    (clz a).toNat = j ↔ a.getLsbD (31 - j) = true ∧ ∀ m, 31 - j < m → m < 32 → a.getLsbD m = false := by
  rw [clz_toNat, bitLen]
  constructor
  · intro count
    split at count
    · omega
    · rename_i nonzero
      have top : a.toNat.log2 = 31 - j := by
        have := (Nat.log2_lt nonzero).2 a.isLt
        omega
      refine ⟨?_, fun m hm _ => ?_⟩
      · rw [← top]
        exact Nat.testBit_log2 nonzero
      · refine Nat.testBit_lt_two_pow (Nat.lt_of_lt_of_le Nat.lt_log2_self (Nat.pow_le_pow_right (by decide) ?_))
        omega
  · rintro ⟨one, zeros⟩
    have least : 2 ^ (31 - j) ≤ a.toNat := Nat.ge_two_pow_of_testBit one
    have nonzero : a.toNat ≠ 0 := Nat.ne_of_gt (Nat.lt_of_lt_of_le (Nat.two_pow_pos _) least)
    have most : a.toNat < 2 ^ (31 - j + 1) := Nat.lt_pow_two_of_testBit _ fun m hm => by
      by_cases h : m < 32
      · exact zeros m hm h
      · exact BitVec.getLsbD_of_ge a m (by omega)
    rw [if_neg nonzero, (Nat.log2_eq_iff nonzero).2 ⟨least, most⟩]
    omega
theorem clz_eq_32_iff (a : Word) : (clz a).toNat = 32 ↔ a = 0 := by
  rw [clz_toNat, bitLen]
  constructor
  · intro count
    split at count
    · rename_i zero
      exact BitVec.eq_of_toNat_eq zero
    · omega
  · rintro rfl
    rfl
theorem popc_toNat (a : Word) : (popc a).toNat = ((List.range 32).filter a.getLsbD).length := by
  have few : ((List.range 32).filter a.getLsbD).length ≤ 32 := by simpa using List.length_filter_le a.getLsbD (List.range 32)
  exact (BitVec.toNat_ofNat ..).trans (Nat.mod_eq_of_lt (Nat.lt_of_le_of_lt few (by decide)))

/-- A bit of B:A. -/
theorem testBit_pair (a b : Word) (i : Nat) : (b.toNat * 2 ^ 32 + a.toNat).testBit i = if i < 32 then a.getLsbD i else b.getLsbD (i - 32) := by
  rw [Nat.mul_comm, Nat.testBit_two_pow_mul_add _ a.isLt]
  rfl
theorem fshf_left_getLsbD (a b c : Word) {j : Nat} (hj : j < 32) : (fshf false a b c).getLsbD j =
    if c.toNat < 32 then (if c.toNat ≤ j then b.getLsbD (j - c.toNat) else a.getLsbD (32 + j - c.toNat)) else a.getLsbD j := by
  have amount : min c.toNat 32 ≤ 32 + j := by omega
  simp only [fshf, Bool.false_eq_true, if_false, BitVec.getLsbD_ofNat, Nat.testBit_div_two_pow, Nat.testBit_mul_two_pow, testBit_pair, hj, amount, decide_true,
    Bool.true_and, Nat.add_comm j 32]
  by_cases short : c.toNat < 32
  · rw [Nat.min_eq_left (by omega), if_pos short]
    by_cases low : c.toNat ≤ j
    · rw [if_pos low, if_neg (by omega)]
      congr 1
      omega
    · rw [if_neg low, if_pos (by omega)]
  · rw [Nat.min_eq_right (by omega), if_neg short, if_pos (by omega), Nat.add_sub_cancel_left]
theorem fshf_right_getLsbD (a b c : Word) {j : Nat} (hj : j < 32) : (fshf true a b c).getLsbD j =
    if c.toNat < 32 then (if j + c.toNat < 32 then a.getLsbD (j + c.toNat) else b.getLsbD (j + c.toNat - 32)) else b.getLsbD j := by
  simp only [fshf, if_true, BitVec.getLsbD_ofNat, Nat.testBit_div_two_pow, testBit_pair, hj, decide_true, Bool.true_and]
  by_cases short : c.toNat < 32
  · rw [Nat.min_eq_left (by omega), if_pos short]
  · rw [Nat.min_eq_right (by omega), if_neg short, if_neg (by omega), Nat.add_sub_cancel]

/-- The conditions of ICMP on words (R366). -/
theorem icc_word (a b : Word) :
    icc 32 0 a.toNat b.toNat = (a == b) ∧ icc 32 1 a.toNat b.toNat = (a != b) ∧
    icc 32 2 a.toNat b.toNat = a.slt b ∧ icc 32 3 a.toNat b.toNat = a.sle b ∧
    icc 32 4 a.toNat b.toNat = b.slt a ∧ icc 32 5 a.toNat b.toNat = b.sle a ∧
    icc 32 6 a.toNat b.toNat = a.ult b ∧ icc 32 7 a.toNat b.toNat = a.ule b ∧
    icc 32 8 a.toNat b.toNat = b.ult a ∧ icc 32 9 a.toNat b.toNat = b.ule a := by
  have same : (a.toNat == b.toNat) = (a == b) := by
    rw [Bool.eq_iff_iff, beq_iff_eq, beq_iff_eq, BitVec.toNat_inj]
  simp only [icc, toIntW_signed]
  exact ⟨same, congrArg not same, rfl, rfl, rfl, rfl, rfl, rfl, rfl, rfl⟩

/-- Settles O6: each condition and each function through its lemma. -/
theorem conditionsAndBitFunctionsByValue : Obligations.ConditionsAndBitFunctionsByValue := by
  unfold Obligations.ConditionsAndBitFunctionsByValue
  exact ⟨icc_word, fun a b c j p n hj hp hn => ⟨bfx_n32_getLsbD hp hn hj, bfx_i32_getLsbD hp hn hj, bfi_getLsbD hp hn hj, brev_getLsbD a hj,
    clz_eq_iff a hj, clz_eq_32_iff a, popc_toNat a, fshf_left_getLsbD a b c hj, fshf_right_getLsbD a b c hj⟩⟩

/-! ## Atomics (R315) -/

section
variable {w : Nat} {t : Ty} (o b : BitVec w) (c : Nat) (r : Option Nat)

theorem ofNat_toNat_self (x : BitVec w) : BitVec.ofNat w x.toNat = x := by rw [BitVec.ofNat_toNat, BitVec.setWidth_eq]

/-- ADD, modulo the width. -/
theorem atomNew_add (width : 8 * atomWidth 0 t = w) : BitVec.ofNat w (atomNew 0 t r o.toNat b.toNat c) = o + b := by
  refine BitVec.eq_of_toNat_eq ?_
  simp only [atomNew, width, BitVec.toNat_ofNat, BitVec.toNat_add, Nat.mod_mod]
/-- MIN and MAX in the signed order. -/
theorem atomNew_min_signed (signed : intOf t = some (w, true)) : BitVec.ofNat w (atomNew 1 t r o.toNat b.toNat c) = if b.slt o then b else o := by
  simp only [atomNew, signed, toIntW_signed, BitVec.slt]
  exact ofNat_ite ..
theorem atomNew_max_signed (signed : intOf t = some (w, true)) : BitVec.ofNat w (atomNew 2 t r o.toNat b.toNat c) = if o.slt b then b else o := by
  simp only [atomNew, signed, toIntW_signed, BitVec.slt]
  exact ofNat_ite ..
/-- AND, OR, XOR and XCHG. -/
theorem atomNew_bitwise : BitVec.ofNat w (atomNew 3 t r o.toNat b.toNat c) = o &&& b ∧ BitVec.ofNat w (atomNew 4 t r o.toNat b.toNat c) = o ||| b ∧
    BitVec.ofNat w (atomNew 5 t r o.toNat b.toNat c) = o ^^^ b ∧ BitVec.ofNat w (atomNew 6 t r o.toNat b.toNat c) = b :=
  ⟨ofNat_toNat_self (o &&& b), ofNat_toNat_self (o ||| b), ofNat_toNat_self (o ^^^ b), ofNat_toNat_self b⟩
theorem atomNew_cas (k : BitVec w) : BitVec.ofNat w (atomNew 7 t r o.toNat b.toNat k.toNat) = if o = k then b else o := by
  simp only [atomNew, BitVec.toNat_inj]
  exact ofNat_ite ..
/-- MAXK and MINK, and MIN and MAX in the unsigned order. -/
theorem atomNew_maxk : BitVec.ofNat w (atomNew 12 t r o.toNat b.toNat c) = if o.ult b then b else o := by
  rw [← ofNat_ite]
  refine congrArg (BitVec.ofNat w) ?_
  simp only [atomNew, BitVec.ult, decide_eq_true_eq]
  split <;> omega
theorem atomNew_mink : BitVec.ofNat w (atomNew 13 t r o.toNat b.toNat c) = if b.ult o then b else o := by
  rw [← ofNat_ite]
  refine congrArg (BitVec.ofNat w) ?_
  simp only [atomNew, BitVec.ult, decide_eq_true_eq]
  split <;> omega
end

section
variable {t : Ty} (o b : Word) (c : Nat) (r : Option Nat)

theorem atomNew_min_unsigned : BitVec.ofNat 32 (atomNew 1 .n32 r o.toNat b.toNat c) = if b.ult o then b else o := by
  have range (x : Word) : x.toNat % 2 ^ (8 * atomWidth 1 .n32) = x.toNat := Nat.mod_eq_of_lt x.isLt
  simp only [atomNew, intOf, range, BitVec.ult]
  exact ofNat_ite ..
theorem atomNew_max_unsigned : BitVec.ofNat 32 (atomNew 2 .n32 r o.toNat b.toNat c) = if o.ult b then b else o := by
  have range (x : Word) : x.toNat % 2 ^ (8 * atomWidth 2 .n32) = x.toNat := Nat.mod_eq_of_lt x.isLt
  simp only [atomNew, intOf, range, BitVec.ult]
  exact ofNat_ite ..
/-- INC and DEC. -/
theorem atomNew_inc : BitVec.ofNat 32 (atomNew 8 t r o.toNat b.toNat c) = if b.ule o then 0 else o + 1 := by
  simp only [atomNew, BitVec.ule, decide_eq_true_eq]
  split
  · rfl
  · exact BitVec.eq_of_toNat_eq (by simp)
theorem atomNew_dec : BitVec.ofNat 32 (atomNew 9 t r o.toNat b.toNat c) = if o = 0 ∨ b.ult o then b else o - 1 := by
  have zero : o.toNat = 0 ↔ o = 0 := BitVec.toNat_inj (y := 0)
  simp only [atomNew, BitVec.ult, decide_eq_true_eq, zero]
  split
  · exact ofNat_toNat_self b
  · rename_i h
    have least : 1 ≤ o.toNat := by rw [← zero] at h; omega
    refine BitVec.eq_of_toNat_eq ?_
    rw [BitVec.toNat_sub_of_le (by simpa [BitVec.le_def] using least), BitVec.toNat_ofNat]
    exact Nat.mod_eq_of_lt (by omega)
end

/-- A sum with a NaN is one, which no flag marks. -/
theorem Val.add_nan {rd : Bool} {v u : Val} (h : v.isNan = true ∨ u.isNan = true) : v.add rd u = (.nan, fNone) := by
  rcases h with h | h
  · rw [Val.nan_of_isNan h]
    rfl
  · rw [Val.nan_of_isNan h]
    cases v <;> rfl
theorem addF32_nan {o b : Nat} (h : (fmtF32.val o).isNan = true ∨ (fmtF32.val b).isNan = true) : addF32 o b = 0x7FC00000 := by
  rw [addF32, Fmt.fadd, Val.add_nan h]
  rfl

/-- Settles O41: each operation through its lemma; the sums of floats are the model's own. -/
theorem atomicResultsByOperation : Obligations.AtomicResultsByOperation := by
  unfold Obligations.AtomicResultsByOperation
  refine ⟨fun o b c t r ht => ?word, fun o b c r => ?long, fun o b c r => ⟨rfl, fun nan => ?nan, fun t f hf => ?half⟩⟩
  case word =>
    have width : 8 * atomWidth 0 t = 32 := by obtain rfl | rfl := ht <;> rfl
    obtain ⟨and, or, xor, xchg⟩ := atomNew_bitwise (t := t) o b c.toNat r
    exact ⟨atomNew_add o b _ r width, atomNew_min_signed o b _ r rfl, atomNew_min_unsigned o b _ r, atomNew_max_signed o b _ r rfl, atomNew_max_unsigned o b _ r,
      and, or, xor, xchg, atomNew_cas o b r c, atomNew_inc o b _ r, atomNew_dec o b _ r, atomNew_maxk o b _ r, atomNew_mink o b _ r⟩
  case long =>
    obtain ⟨and, or, xor, xchg⟩ := atomNew_bitwise (t := .i64) o b c.toNat r
    exact ⟨atomNew_add o b _ r rfl, atomNew_min_signed o b _ r rfl, atomNew_max_signed o b _ r rfl, and, or, xor, xchg, atomNew_cas o b r c⟩
  case nan => exact addF32_nan nan
  case half =>
    simp only [List.mem_cons, Prod.mk.injEq, List.not_mem_nil, or_false] at hf
    obtain ⟨rfl, rfl⟩ | ⟨rfl, rfl⟩ := hf
    all_goals exact ⟨rfl, fun _ => rfl⟩

end Sys2Proof.Machine
end

section
/-! PROOFS. ANDN, BREV, CLZ and POPC whole (R72, R89, R312, R322, R327, R401): words, effect by bit, illegal forms. -/
namespace Sys2Proof.Machine

/-! ## The counted bits (R327, R401) -/

/-- CLZ finds the first 1 from the highest bit down. -/
theorem clz_eq_find (a : Word) : clz a = BitVec.ofNat 32 (((List.range 32).find? (fun j => a.getMsbD j)).getD 32) := by
  refine BitVec.eq_of_toNat_eq ?_
  cases first : (List.range 32).find? (fun j => a.getMsbD j) with
  | none =>
    have zero : a = 0 := BitVec.eq_of_getMsbD_eq fun j hj => by
      simpa using List.find?_eq_none.1 first j (List.mem_range.2 hj)
    exact (clz_eq_32_iff a).2 zero
  | some j =>
    obtain ⟨one, hj, zeros⟩ := List.find?_range_eq_some.1 first
    rw [List.mem_range] at hj
    rw [Option.getD_some, BitVec.toNat_ofNat, Nat.mod_eq_of_lt (by omega), clz_eq_iff a hj]
    refine ⟨by simpa [BitVec.getMsbD, hj] using one, fun m above hm => ?_⟩
    have zero := zeros (31 - m) (by omega)
    rw [BitVec.getMsbD, decide_eq_true (by omega), Bool.true_and, show 32 - 1 - (31 - m) = m by omega] at zero
    simpa using zero

/-! ## Illegal forms (R77, R89) -/

theorem decodeWords_xi {w v : Nat} (lset : bit w 31 = false) (major : fld w 21 6 = 0x30) : decodeWords w v = decodeXi w v := by
  have two : twoWords w = true := by simp [twoWords, major]
  simp only [decodeWords, two, lset, decodeL2, major]
theorem accept_nonzero {u z : Bool} (i : Instr) (nonzero : z = false) : ∃ e, accept u z i = .error e := by
  subst nonzero
  cases u <;> exact ⟨_, rfl⟩
/-- ANDN whose fields that must be zero, or its type, are otherwise. -/
theorem decodeXi_andn_error {w v : Nat} (fn : fld v 20 8 = 0x0F) (fields : fld v 0 6 ≠ 0 ∨ fld v 6 4 ≠ 1 ∨ fld v 10 10 ≠ 0) :
    ∃ e, decodeXi w v = .error e := by
  simp only [decodeXi, fn]
  refine accept_nonzero _ ?_
  obtain h | h | h := fields <;> simp [h]
/-- The same of BREV, CLZ and POPC, which have no second operand. -/
theorem decodeXi_count_error {w v : Nat} (fn : fld v 20 8 = 0x09 ∨ fld v 20 8 = 0x08 ∨ fld v 20 8 = 0x07)
    (fields : fld w 0 7 ≠ 0 ∨ fld v 0 6 ≠ 0 ∨ fld v 6 4 ≠ 1 ∨ fld v 10 10 ≠ 0) : ∃ e, decodeXi w v = .error e := by
  have nonzero : (fld w 0 7 == 0 && fld v 0 6 == 0 && fld v 10 10 == 0 && fld v 6 4 == 1) = false := by
    obtain h | h | h | h := fields <;> simp [h]
  obtain fn | fn | fn := fn
  all_goals
    simp only [decodeXi, fn]
    exact accept_nonzero _ nonzero

/-! ## Words that decode to nothing (R72, R89) -/

section
variable {s s1 s2 : State} {tid gi lane pc w v : Nat} {new : Bool} {t : Team} {g : Group} {e : Reject} (ht : s.team? tid = some t)
  (free : t.la.bridle = false) (hg : t.groups[gi]? = some g) (can : canIssue t gi g = true) (path : g.selectPath = some (pc, new))
  (ready : (g.lane lane).st = .ready) (there : (g.lane lane).pc = pc) (may : g.mayRun pc new lane = true) (h1 : s1 = s.selected tid t gi g pc new)
  (words : fetch s1 (t.selecting gi g pc new) gi lane pc (g.selecting t.halt.isSome pc new) = .words s2 w v) (none : decodeWords w v = .error e)
include ht free hg can path ready there may h1 words none

/-- The attempt of a bundle in free mode whose words decode to nothing raises #ILL. -/
theorem attempt_undecoded : attempt s tid gi lane = .stop ((s2.passOver (t.selecting gi g pc new) gi g.quarter (bit w 31)).trapEarly
    ⟨tid, gi, g.bundleOf pc lane, pc⟩ (g.selecting t.halt.isSome pc new) { code := tILL }) := by
  subst h1
  have sees : s.seeFirst t gi g = Option.none := by simp [State.seeFirst, State.blindPath, free]
  have runs : ¬(((g.selecting t.halt.isSome pc new).lane lane).st ≠ .ready ∨ ((g.selecting t.halt.isSome pc new).lane lane).pc ≠ pc ∨
      (!(g.selecting t.halt.isSome pc new).mayRun pc new lane) = true) := by
    rintro (h | h | h)
    · exact h ready
    · exact h there
    · exact Bool.false_ne_true ((congrArg not may).symm.trans h)
  unfold attempt
  simp only [ht, free, Bool.false_eq_true, if_false, hg, can, Bool.not_true, sees, path]
  refine (if_neg runs).trans ?_
  simp only [State.selected, Team.selecting, Group.selecting] at words ⊢
  simp only [words, none]
  rfl
end

/-- Settles O44: words by the encoding tables, effects through the bit functions, illegal forms by their fields. -/
theorem andNotReverseAndCountInstructions : Obligations.AndNotReverseAndCountInstructions := by
  unfold Obligations.AndNotReverseAndCountInstructions
  refine ⟨fun h u k d a b => ⟨?w1, ?w2, ?w3, ?w4, ?andn, ?brev, ?clz, ?popc⟩, ?rev1, ?rev2, rfl, rfl,
    fun w v lset major => ⟨fun fn fields => ?_, fun fn fields => ?_⟩, ?_⟩
  case w1 | w2 | w3 | w4 =>
    unfold encode
    simp only [pl, Nat.pow_zero, Nat.mul_one]
  case rev1 | rev2 =>
    refine BitVec.eq_of_getLsbD_eq ?_
    simp only [BitVec.getLsbD_reverse]
    decide
  case andn | brev | popc => exact computes_laneBody rfl fun _ => rfl
  case clz =>
    simp only [← clz_eq_find]
    exact computes_laneBody rfl fun _ => rfl
  · rw [decodeWords_xi lset major]
    exact decodeXi_andn_error fn fields
  · rw [decodeWords_xi lset major]
    exact decodeXi_count_error fn fields
  · intro s s1 s2 tid gi lane pc new t g w v e ht free hg can chosen path ready there may h1 words none
    rw [issueMove, chosen, Bool.not_true, if_neg Bool.false_ne_true, attempt_undecoded ht free hg can path ready there may h1 words none]

end Sys2Proof.Machine
end

section
/-! PROOFS. The loads, the stores and the uniform accesses complete (R373-R375, R419, R420, R435). -/
namespace Sys2Proof.Machine

/-- An address at a word offset (R374). -/
theorem localAddr_word (a i : Nat) : localAddr a (4 * i : Int) = fun g l => ((g.rv l a).toNat + 4 * i) % 2 ^ 32 := by
  funext g l
  simp only [localAddr, wrapW]
  omega

/-- A body without preparation, whose results carry no flags, completes where its checks pass, if its class does not end a bridle quantum. -/
theorem issue_body {i : Instr} {b : Body} {s s1 : State} {x : Site} {t : Team} (hp : s.performing i = some (s1, x, t)) (hu : uniOf i = false)
    (he : (traits i).ends = false) (hpre : b.pre s1 x = .go) (hl : ∀ q ∈ x.lanes, b.lane s1 x q.1 q.2 = .ok) (hf : ∀ q ∈ (b.run s1 x).2.lanes, q.fl = 0)
    (prep : b.prep = fun s _ => s := by rfl) (defer : b.defer = fun _ _ => false := by rfl) :
    issue i b s = .next ((b.run s1 x).1.finish x (b.run s1 x).2) := by
  obtain ⟨hi, -⟩ := performing_site hp
  have done := issue_go (b := b) hp hu
  simp only [prep] at done
  exact done hpre hl (by simp [defers, hi, he, defer]) hf

/-- An instruction whose body stores under a cache hint. -/
theorem stores_of_storeBody {i : Instr} {sp : Space} {w d ch : Nat} {rel : Bool} {a : Group → Nat → Nat} (he : (traits i).ends = false)
    (hu : uniOf i = false) (h : ∀ s, exec i s = issue i (storeBody sp w d rel a ch) s) : Stores i sp w d rel a ch := by
  intro s s1 x t hp hl
  rw [h]
  exact issue_body hp hu he rfl hl (by simp [storeBody])

/-- The same where no lane has a check or a result. -/
theorem issue_checked {i : Instr} {pre : State → Site → Pre} {run : State → Site → State × Res} {s s1 s2 : State} {x : Site} {t : Team} {r : Res}
    (hp : s.performing i = some (s1, x, t)) (hu : uniOf i = false) (he : (traits i).ends = false) (hpre : pre s1 x = .go) (hr : run s1 x = (s2, r))
    (hl : r.lanes = []) : issue i { pre := pre, run := run } s = .next (s2.finish x r) := by
  have done := issue_body (b := { pre := pre, run := run }) hp hu he hpre (fun _ _ => rfl) (by simp [hr, hl])
  simpa only [hr] using done

section
variable {i : Instr} {sp : Space} {d : Nat} {ad : Group → Nat} {s s1 : State} {x : Site} {t : Team} {g : Group}
  (hp : s.performing i = some (s1, x, t)) (hu : uniOf i = false) (he : (traits i).ends = false) (hg : t.groups[x.gi]? = some g)
include hp hu he hg

/-- The one load of a whole group, by its lowest member. -/
theorem issue_uldBody (passes : uniPre sp false ad s1 x = .go) : issue i (uldBody sp d ad) s =
    .next ((s1.readLane x.tid x.gi x.uniLane sp (ad g) 4 0).1.finish x
      { gs := [(d, BitVec.ofNat 32 (leNat (s1.readLane x.tid x.gi x.uniLane sp (ad g) 4 0).2))] }) := by
  obtain ⟨-, ht⟩ := performing_site hp
  have issuing : x.group s1 = some g := (group?_of_team? ht x.gi).trans hg
  exact issue_checked hp hu he passes (by simp only [issuing]) rfl
/-- Its one store. -/
theorem issue_ustBody (passes : uniPre sp true ad s1 x = .go) : issue i (ustBody sp d ad) s =
    .next ((s1.writeLane x.tid x.gi x.uniLane false sp (ad g) 4 (leBytes 4 (g.rg d).toNat)).finish x {}) := by
  obtain ⟨-, ht⟩ := performing_site hp
  have issuing : x.group s1 = some g := (group?_of_team? ht x.gi).trans hg
  exact issue_checked hp hu he passes (by simp only [issuing]) rfl
end

/-- Settles O19: each load through the lemma of its body, a word offset by what it addresses. -/
theorem loadInstructionsComplete : Obligations.LoadInstructionsComplete := by
  unfold Obligations.LoadInstructionsComplete
  simp only [← localAddr_word]
  refine fun h u k d a i w r ch o => ⟨?_, ?_, ?_, ?_, ?_, ?_, ?_⟩
  all_goals exact loads_of_body rfl fun _ => rfl

/-- Settles O20: each store through the lemma of its body; ULD and UST by their space. -/
theorem storeAndUniformAccessInstructionsComplete : Obligations.StoreAndUniformAccessInstructionsComplete := by
  unfold Obligations.StoreAndUniformAccessInstructionsComplete
  simp only [← localAddr_word]
  refine ⟨fun h k d a i w r ch o => ⟨?_, ?_, ?_, ?_, ?_, ?_, ?_⟩, fun h d a b s s1 x t g sp ad =>
    ⟨fun i hi hp hg passes => ?uld, fun i hi hp hg passes => ?ust⟩⟩
  case uld =>
    simp only [List.mem_cons, Prod.mk.injEq, List.not_mem_nil, or_false] at hi
    obtain ⟨rfl, rfl, rfl⟩ | ⟨rfl, rfl, rfl⟩ | ⟨rfl, rfl, rfl⟩ := hi
    all_goals exact issue_uldBody hp rfl rfl hg passes
  case ust =>
    simp only [List.mem_cons, Prod.mk.injEq, List.not_mem_nil, or_false] at hi
    obtain ⟨rfl, rfl, rfl⟩ | ⟨rfl, rfl, rfl⟩ | ⟨rfl, rfl, rfl⟩ := hi
    all_goals exact issue_ustBody hp rfl rfl hg passes
  all_goals exact stores_of_storeBody rfl rfl fun _ => rfl

end Sys2Proof.Machine
end

section
/-! PROOFS. MLD, MST and the texture instructions complete (R381, R382, R386, R422-R425). -/
namespace Sys2Proof.Machine

/-! ## Checks in order -/

theorem chkAll_ok {cs : List Chk} (h : ∀ c ∈ cs, c = .ok) : chkAll cs = .ok := by
  induction cs with
  | nil => rfl
  | cons c cs ih =>
    obtain ⟨rfl, rest⟩ := List.forall_mem_cons.1 h
    exact ih rest
theorem chkTexels_ok {cs : List Chk} (h : ∀ c ∈ cs, c = .ok) : chkTexels cs = .ok := by
  induction cs with
  | nil => rfl
  | cons c cs ih =>
    obtain ⟨rfl, rest⟩ := List.forall_mem_cons.1 h
    exact ih rest
/-- A lane whose group is not found meets nothing; else what is said of its group. -/
theorem tg_cases {s : State} {tid gi : Nat} {t : Team} (ht : s.team? tid = some t) :
    s.tg tid gi = none ∨ ∃ g, t.groups[gi]? = some g ∧ s.tg tid gi = some (t, g) := by
  cases hg : t.groups[gi]? with
  | none => exact .inl (by simp [State.tg, ht, hg])
  | some g => exact .inr ⟨g, rfl, tg_eq_some ht hg⟩

/-! ## The bodies of MLD, MST and the texture instructions -/

/-- A lane that meets nothing at its address meets nothing in its group. -/
theorem accChk_of_laneAcc {sp : Space} {n gi l : Nat} {write read : Bool} {a : Group → Nat → Nat} {s : State} {x : Site} {t : Team} {g : Group}
    (ht : s.team? x.tid = some t) (hg : t.groups[gi]? = some g) (ok : laneAcc sp n write read a s x gi l = .ok) :
    s.accChk t gi g l sp (a g l) n write read = .ok := by
  simpa only [laneAcc, ht, hg] using ok
/-- A lane of a fragment load passes where its one access does. -/
theorem mldBody_lane {sc : Scope} {d a role gi l : Nat} {s : State} {x : Site} {t : Team} (ht : s.team? x.tid = some t) (block : ¬(sc = .set ∧ role = 1))
    (ok : laneAcc .shared (if role = 2 then 32 else 16) false true (fun g l => (g.rv l a).toNat) s x gi l = .ok) :
    (mldBody sc d a role).lane s x gi l = .ok := by
  obtain none | ⟨g, hg, found⟩ := tg_cases (gi := gi) ht
  · simp only [mldBody, none]
  · simpa only [mldBody, found, if_neg block] using accChk_of_laneAcc ht hg ok
theorem mstBody_lane {d a gi l : Nat} {ty : Ty} {s : State} {x : Site} {t : Team} (ht : s.team? x.tid = some t)
    (ok : laneAcc .shared (if ty = .f32 then 32 else 16) true false (fun g l => (g.rv l a).toNat) s x gi l = .ok) :
    (mstBody d a ty).lane s x gi l = .ok := by
  obtain none | ⟨g, hg, found⟩ := tg_cases (gi := gi) ht
  · simp only [mstBody, none]
  · simpa only [mstBody, found] using accChk_of_laneAcc ht hg ok
/-- A lane of a span block passes where its accesses, one for each of its span registers, do. -/
theorem mldBody_lane_span {d a : Nat} {s : State} {x : Site} {t : Team} {q : Nat × Nat} (ht : s.team? x.tid = some t)
    (ok : ∀ g, t.groups[q.1]? = some g → ∀ j < spanWords t, s.accChk t q.1 g q.2 .shared ((g.rv q.2 a).toNat + 4 * j) 4 false true = .ok) :
    (mldBody .set d a 1).lane s x q.1 q.2 = .ok := by
  obtain none | ⟨g, hg, found⟩ := tg_cases (gi := q.1) ht
  · simp only [mldBody, none]
  · simp only [mldBody, found, and_self, if_true]
    refine chkAll_ok fun c hc => ?_
    obtain ⟨j, hj, rfl⟩ := List.mem_map.1 hc
    exact ok g hg j (List.mem_range.1 hj)
/-- A lane of a texture instruction passes where its texels' accesses do. -/
theorem texBody_lane {d a c : Nat} {lod gather : Option Nat} {s : State} {x : Site} {t : Team} {q : Nat × Nat} (ht : s.team? x.tid = some t)
    (ok : ∀ g tx, t.groups[q.1]? = some g → s.texDesc x.tid q.1 c = some tx → ∀ qs, (tx.lane g q.2 a lod gather.isSome).2 = some qs →
      ∀ f ∈ qs, ∀ ad, some ad ∈ f.1 → s.accChk t q.1 g q.2 .global ad tx.z false true = .ok) :
    (texBody d a lod c gather).lane s x q.1 q.2 = .ok := by
  obtain none | ⟨g, hg, found⟩ := tg_cases (gi := q.1) ht
  · simp only [texBody, none]
  · cases desc : s.texDesc x.tid q.1 c with
    | none => simp only [texBody, found, desc]
    | some tx =>
      simp only [texBody, found, desc]
      cases prints : (tx.lane g q.2 a lod gather.isSome).2 with
      | none => rfl
      | some qs =>
        refine chkTexels_ok fun k hk => ?_
        obtain ⟨f, hf, hk⟩ := List.mem_flatMap.1 hk
        obtain ⟨o, ho, hk⟩ := List.mem_filterMap.1 hk
        obtain ⟨ad, rfl, rfl⟩ := Option.map_eq_some_iff.1 hk
        exact ok g tx hg desc qs prints f hf ad ho
theorem samples_of_body {i : Instr} {d a c : Nat} {lod gather : Option Nat} (hu : uniOf i = false) (he : (traits i).ends = false)
    (h : ∀ s, exec i s = issue i (texBody d a lod c gather) s) : Samples i d a lod c gather := by
  intro s s1 x t hp hpre ok
  obtain ⟨-, ht⟩ := performing_site hp
  refine ⟨_, rfl, ?_⟩
  rw [h]
  exact issue_body hp hu he hpre (fun q hq => texBody_lane ht (ok q hq)) lanesDo_flags

/-- Settles O34: MLD by whether it loads a span block; each other through the lemma of its body. -/
theorem fragmentAndTextureInstructionsComplete : Obligations.FragmentAndTextureInstructionsComplete := by
  unfold Obligations.FragmentAndTextureInstructionsComplete
  refine ⟨fun h k d a t r s s1 x u => ⟨fun hp block ok => ⟨_, rfl, ?fragment⟩, fun hp set role ok => ⟨_, rfl, ?span⟩, fun hp ok => ?store⟩,
    fun h k d a b c y => ⟨samples_of_body rfl rfl fun _ => rfl, samples_of_body rfl rfl fun _ => rfl, samples_of_body rfl rfl fun _ => rfl⟩⟩
  case fragment =>
    obtain ⟨-, ht⟩ := performing_site hp
    refine (issue_body (b := mldBody h.scope d.toNat a.toNat r.toNat) hp rfl rfl rfl (fun q hq => mldBody_lane ht block (ok q hq)) lanesDo_flags).trans ?_
    simp only [mldBody, if_neg block]
  case span =>
    obtain ⟨-, ht⟩ := performing_site hp
    have body : mldBody h.scope d.toNat a.toNat r.toNat = mldBody .set d.toNat a.toNat 1 := by rw [set, role]
    refine (congrArg (issue _ · s) body).trans ((issue_body hp rfl rfl rfl (fun q hq => mldBody_lane_span ht (ok q hq)) lanesDo_flags).trans ?_)
    rfl
  case store =>
    obtain ⟨-, ht⟩ := performing_site hp
    exact issue_body (b := mstBody d.toNat a.toNat t) hp rfl rfl rfl (fun q hq => mstBody_lane ht (ok q hq)) (by simp [mstBody])

end Sys2Proof.Machine
end

section
/-! PROOFS. SEND, RECV, GWAIT, LNXT, TSPN, TSUS and TLBI complete (R245, R250, R251, R358, R378, R406-R409, R427, R429, R430). -/
namespace Sys2Proof.Machine

/-! ## Issues at the coherence point -/

/-- A body whose results are no lane's completes with its groups' queues drained where its check passes, in free mode or if its class does not end a
bridle quantum. -/
theorem issue_atPoint {i : Instr} {pre : State → Site → Pre} {run : State → Site → State × Res} {note : State → Site → Option Nat} {s s1 s2 : State}
    {x : Site} {t : Team} {r : Res} (hp : s.atPoint i = some (s1, x, t)) (hu : uniOf i = false) (quiet : t.la.bridle = false ∨ (traits i).ends = false)
    (hpre : pre s1 x = .go) (hr : run s1 x = (s2, r)) (hl : r.lanes = []) :
    issue i { prep := drainPrep, pre := pre, run := run, note := note } s = .next (s2.finish x r) := by
  have ht := team?_atPoint hp
  obtain ⟨s0, t0, hq, rfl, -⟩ := atPoint_performing hp
  obtain ⟨hi, -⟩ := performing_site hq
  have done := issue_go (b := { prep := drainPrep, pre := pre, run := run, note := note }) hq hu hpre (fun _ _ => rfl)
    (by rcases quiet with q | q <;> simp [defers, ht, hi, q]) (by simp [hr, hl])
  simpa only [hr] using done

/-! ## Channels and dependent launch (R245, R358, R378, R406-R409) -/

section
variable {s : State} {x : Site} {t : Team} (ht : s.team? x.tid = some t) (free : t.la.bridle = false)
include ht free

/-- In free mode the lanes of a SEND or RECV park with a wait queued for each member group. -/
theorem chanRun_free (send : Bool) (ch v y : Nat) : chanRun send ch v y s x =
    (s.modTeam x.tid (fun t => { t with chanq := t.chanq ++ chanWaits send ch v y x, irrev := true }),
      { wait := x.members.map (fun q => (q.1, q.2, .parked (.chan ch send))) }) := by
  have still : ((s.modTeam x.tid (fun t => { t with chanq := t.chanq ++ chanWaits send ch v y x, irrev := true })).team? x.tid).any (·.la.bridle) = false := by
    rw [team?_modTeam (f := fun t => { t with chanq := t.chanq ++ chanWaits send ch v y x, irrev := true }) (fun _ => rfl), ht]
    exact free
  simp only [chanRun, still, Bool.false_eq_true, if_false]
/-- A SEND goes on whose channel is declared, has a receiver, and whose groups have released. -/
theorem sendBody_pre_go {ch v y : Nat} (declared : t.chanOk ch y = true) (receiver : (s.sendTo t ch).isSome = true) (released : pointWait true s x = false) :
    (sendBody ch v y).pre s x = .go := by
  have done : unreleased s x = false := released
  have found : (s.sendTo t ch).isNone = false := by rw [Option.isNone_eq_false_iff, receiver]
  simp only [sendBody, ht, free, declared, found, done, Bool.not_true, Bool.false_and, Bool.false_eq_true, if_false]
end

theorem lnxt_enqueue (s : State) (x : Site) :
    s.enqueue x.tid (x.mem.map Prod.fst) true .lnxt = s.eachGroup x.tid x.mem (fun _ _ g => { g with sq := g.sq ++ [⟨true, g.sn, .lnxt⟩], sn := g.sn + 1 }) :=
  List.foldl_map

/-- Settles O26: each instruction through what its body does in free mode. -/
theorem channelAndGridInstructionsComplete : Obligations.ChannelAndGridInstructionsComplete := by
  unfold Obligations.ChannelAndGridInstructionsComplete
  refine fun h v n y s s1 x t free => ⟨fun hp declared receiver released => ?send, fun hp declared => ?recv, fun hp ended => ?gwait, fun hp => ?lnxt⟩
  case send =>
    have ht := team?_atPoint hp
    exact issue_atPoint (note := fun _ _ => none) hp rfl (.inl free) (sendBody_pre_go (v := v.toNat) ht free declared receiver released)
      (chanRun_free ht free true n.toNat v.toNat y.toNat) rfl
  case recv =>
    obtain ⟨-, ht⟩ := performing_site hp
    have passes : (recvBody n.toNat v.toNat y.toNat).pre s1 x = .go := by
      simp only [recvBody, ht]
      exact if_pos declared
    exact issue_pre_run hp rfl free passes (chanRun_free ht free false n.toNat v.toNat y.toNat) rfl
  case gwait =>
    obtain ⟨-, ht⟩ := performing_site hp
    exact issue_pre_run hp rfl free (by simp only [ht, ended, if_true]) (by simp only [ht, free, Bool.false_eq_true, if_false]) rfl
  case lnxt => exact issue_run hp rfl rfl (by rw [lnxt_enqueue]) rfl

/-! ## TLBI (R427) -/

theorem invalidates_of_body {i : Instr} {walk : State → Group → Nat → Nat → Bool} {sel : Group → Option TlbSel} (hu : uniOf i = false)
    (he : (traits i).ends = false) (h : ∀ s, exec i s = issue i (tlbiBody walk sel) s) : Invalidates i walk sel := by
  intro s s1 s2 s3 x t g p hp hg named done idle h2 h3 w hw
  have htg := tg_eq_some (team?_atPoint hp) hg
  subst h2 h3 hw
  rw [h]
  refine issue_atPoint (note := fun _ _ => none) hp hu (.inr he) ?passes ?runs rfl
  case passes => simp only [htg, named, done, idle, Bool.false_eq_true, if_false]
  case runs => simp only [htg, Option.bind_some, named, Option.map_some]

/-- Settles O32: each form through the lemma of their body. -/
theorem tlbInvalidationsComplete : Obligations.TlbInvalidationsComplete := by
  unfold Obligations.TlbInvalidationsComplete
  exact fun h a => ⟨invalidates_of_body rfl rfl fun _ => rfl, invalidates_of_body rfl rfl fun _ => rfl, invalidates_of_body rfl rfl fun _ => rfl⟩

/-! ## Tasks (R250, R251) -/

theorem firstPre_go {ps : List Pre} (h : ∀ p ∈ ps, p = .go) : firstPre ps = .go := by
  induction ps with
  | nil => rfl
  | cons p ps ih =>
    obtain ⟨rfl, rest⟩ := List.forall_mem_cons.1 h
    exact ih rest

section
variable {s : State} {x : Site} {t : Team} {g : Group} (htg : s.tg x.tid x.gi = some (t, g))
include htg

/-- What TSPN puts into the pool: as many of its records as it has room for. -/
theorem tspnBody_run (d a : Nat) {b : Nat} (some' : (g.rg b).toNat ≠ 0) : (tspnBody d a b).run s x =
    ((List.range (min (g.rg b).toNat (s.taskFree t.ctx))).foldl (fun s' i =>
        s'.addTask t.ctx (dieOf t.pcore) t.la.prio t.la.startTime (s.graphOf t) (s.shmBytes t g ((g.rg a).toNat + 2176 * i) 2176) .queued)
      ((s.taskTouches t.ctx ((List.range (g.rg b).toNat).map (fun i => s.shmBytes t g ((g.rg a).toNat + 2176 * i) 2176))).irrevocable x.tid),
      { gs := [(d, BitVec.ofNat 32 (min (g.rg b).toNat (s.taskFree t.ctx)))] }) := by
  have room : min (min (g.rg b).toNat (s.taskFree t.ctx)) (g.rg b).toNat = min (g.rg b).toNat (s.taskFree t.ctx) := by omega
  simp only [tspnBody, htg, if_neg some', ← List.map_take, List.take_range, List.foldl_map, room]
theorem tspnBody_run_none (d a : Nat) {b : Nat} (zero : (g.rg b).toNat = 0) : (tspnBody d a b).run s x = (s.irrevocable x.tid, { gs := [(d, 0)] }) := by
  simp [tspnBody, htg, zero]
/-- What TSUS does with its record: it waits for the ticket's card, or is queued where there is none. -/
theorem tsusBody_run {a b v : Nat} {ty : TaskType} {s2 s3 : State} (type : s.taskType t.ctx (g.rg b).toNat = .ok (some ty))
    (hv : (g.deliver.rg a).toNat = v)
    (h2 : (s.taskTouch t.ctx (g.rg b).toNat).addTask t.ctx (dieOf t.pcore) t.la.prio t.la.startTime ((s.taskTouch t.ctx (g.rg b).toNat).graphOf t)
      (suspendRecord g.deliver (x.pc + x.len) (g.deliver.rg b).toNat v (s.firstOf t (g.lane x.uniLane) v) ty.vlive ty.glive) .ticket = s2)
    (card : ∀ c, s2.cardOf t v = some c → s3 = s2.tagCard c.cid (s2.nextId - 1))
    (noCard : s2.cardOf t v = none → s3 = s2.queueTask (s2.nextId - 1) (((t.tickets[v / 2 ^ 26]?).map Ticket.spans).getD [])) :
    (tsusBody a b).run s x = ((s3.modTeam t.tid (fun t => { t with
      irrev := true, tickets := updAt t.tickets (v / 2 ^ 26) (fun k => { k with busy := false }) })).modGroup x.tid x.gi (fun _ => g.deliver.exitAll), {}) := by
  simp only [tsusBody, htg, type, hv, h2]
  cases found : s2.cardOf t v with
  | none => rw [noCard found]
  | some c => rw [card c found]

variable (free : t.la.bridle = false)
include free

theorem tspnBody_pre_none (d a : Nat) {b : Nat} (zero : (g.rg b).toNat = 0) : (tspnBody d a b).pre s x = .go := by
  simp only [tspnBody, htg, free, zero, Bool.false_eq_true, if_false, if_true]
/-- TSPN goes on with 1 to 16 records that lie in team shared memory, are present and good, and name types, once the pool's memory is there. -/
theorem tspnBody_pre_go (d : Nat) {a b : Nat} (some' : 1 ≤ (g.rg b).toNat) (few : (g.rg b).toNat ≤ 16)
    (inside : (g.rg a).toNat + 2176 * (g.rg b).toNat ≤ t.la.hdr.shared) (aligned : (g.rg a).toNat % 128 = 0)
    (present : t.absentLine (g.rg a).toNat (2176 * (g.rg b).toNat) = none) (owed : g.owesShm = false)
    (good : ∀ i < (g.rg b).toNat, recordBad (s.shmBytes t g ((g.rg a).toNat + 2176 * i) 2176) = false ∧
      ∃ ty, s.taskType t.ctx (fieldAt (s.shmBytes t g ((g.rg a).toNat + 2176 * i) 2176) 4 4 % 64) = .ok (some ty))
    (done : pointWait true s x = false) (pool : State.poolStop t.ctx (((List.range (g.rg b).toNat).map (fun i =>
      s.shmBytes t g ((g.rg a).toNat + 2176 * i) 2176)).take (s.taskFree t.ctx)) s = none) : (tspnBody d a b).pre s x = .go := by
  have fits : ¬(16 < (g.rg b).toNat ∨ t.la.hdr.shared < (g.rg a).toNat + 2176 * (g.rg b).toNat) := by omega
  have sound : (List.range (g.rg b).toNat).any (fun i => recordBad (s.shmBytes t g ((g.rg a).toNat + 2176 * i) 2176)) = false := by
    rw [List.any_eq_false]
    intro i hi
    simp [(good i (List.mem_range.1 hi)).1]
  have typed : firstPre ((List.range (g.rg b).toNat).map (fun i => typePre (g.lane x.uniLane).declined
      (s.taskType t.ctx (fieldAt (s.shmBytes t g ((g.rg a).toNat + 2176 * i) 2176) 4 4 % 64)))) = .go := by
    refine firstPre_go fun p hp => ?_
    obtain ⟨i, hi, rfl⟩ := List.mem_map.1 hp
    obtain ⟨-, ty, hty⟩ := good i (List.mem_range.1 hi)
    rw [hty]
    rfl
  simp only [tspnBody, htg, free, Bool.false_eq_true, if_false, if_neg (Nat.ne_of_gt some'), if_neg fits, aligned, ne_eq, not_true_eq_false, present, owed,
    sound, typed, done, poolPre, pool]

/-- TSUS goes on in a group that is its whole team and has no call under way, with a ticket judged current and a known type, once its stores are done and
the pool has room. -/
theorem tsusBody_pre_go {a b : Nat} {ty : TaskType} (one : t.la.hdr.groups = 1) (shallow : ∀ l ∈ g.lanes, l.st ≠ .exited → l.depth = 0)
    (judged : (g.lane x.uniLane).judged.isSome = true ∨ t.suspends (g.rg a).toNat = true)
    (type : s.taskType t.ctx (g.rg b).toNat = .ok (some ty)) (done : pointWait true s x = false) (room : s.taskFree t.ctx ≠ 0)
    (pool : State.poolStop t.ctx [List.replicate 2176 0] s = none) : (tsusBody a b).pre s x = .go := by
  have level : g.lanes.any (fun l => decide (l.st ≠ .exited) && l.depth != 0) = false := by
    rw [List.any_eq_false]
    intro l hl
    simpa using shallow l hl
  have current : ((g.lane x.uniLane).judged.isNone && !t.suspends (g.rg a).toNat) = false := by
    rcases judged with j | j
    · rw [Option.isNone_eq_false_iff.2 j, Bool.false_and]
    · simp [j]
  simp only [tsusBody, htg, free, one, level, current, type, typePre, done, room, poolPre, pool, Bool.false_eq_true, if_false, ne_eq, not_true_eq_false]
end

/-- Two values given by name. -/
theorem exists_named {α β : Type} {a : α} {f : α → β} {P : α → β → Prop} (h : ∀ y, y = a → ∀ z, z = f y → P y z) : ∃ y z, y = a ∧ z = f y ∧ P y z :=
  ⟨_, _, rfl, rfl, h _ rfl _ rfl⟩

/-- Settles O30: each instruction goes on by its lemma and does what its body then does. -/
theorem taskInstructionsComplete : Obligations.TaskInstructionsComplete := by
  unfold Obligations.TaskInstructionsComplete
  refine fun h d a b s s1 x t g hg free => ⟨fun hp zero => ?none,
    fun hp some' few inside aligned present owed good done pool => ?some,
    fun ty v hp one shallow judged type done room pool hv => exists_named fun s2 h2 s3 h3 => ?tsus⟩
  case none =>
    have htg := tg_eq_some (team?_atPoint hp) hg
    exact issue_atPoint hp rfl (.inl free) (tspnBody_pre_none htg free d.toNat a.toNat zero) (tspnBody_run_none htg d.toNat a.toNat zero) rfl
  case some =>
    have htg := tg_eq_some (team?_atPoint hp) hg
    exact issue_atPoint hp rfl (.inl free) (tspnBody_pre_go htg free d.toNat some' few inside aligned present owed good done pool)
      (tspnBody_run htg d.toNat a.toNat (Nat.ne_of_gt some')) rfl
  case tsus =>
    have htg := tg_eq_some (team?_atPoint hp) hg
    have runs := tsusBody_run (s3 := s3) htg type hv.symm h2.symm (fun c found => by rw [h3, found]) (fun gone => by rw [h3, gone])
    exact issue_atPoint hp rfl (.inl free) (tsusBody_pre_go htg free one shallow judged type done room pool) runs rfl

end Sys2Proof.Machine
end

section
/-! PROOFS. The wide integer instructions, multiply-add, carry and absolute value complete (R362, R365, R367, R368, R377). -/
namespace Sys2Proof.Machine

/-! ## Values of the types -/

theorem imulh_i32 (a b : Word) : imulh .i32 a b = BitVec.ofInt 32 (a.toInt * b.toInt / 2 ^ 32) := by
  unfold imulh
  rw [show (Ty.i32 == Ty.i32) = true from rfl, toIntW_signed, toIntW_signed]
theorem imulh_n32 (a b : Word) : imulh .n32 a b = BitVec.ofNat 32 (a.toNat * b.toNat / 2 ^ 32) := by
  unfold imulh
  rw [show (Ty.n32 == Ty.i32) = false from rfl, toIntW_unsigned, toIntW_unsigned, ← BitVec.ofInt_natCast, Int.natCast_ediv, Int.natCast_mul]
  rfl
/-- A natural number wrapped is its remainder. -/
theorem wrapW_natCast (w n : Nat) : wrapW w (n : Int) = n % 2 ^ w := by
  unfold wrapW
  norm_cast
theorem imadw_i32 (a b : Word) (c : Nat) : imadw .i32 a b c = ((a.toInt * b.toInt + (c : Int)) % 2 ^ 64).toNat := by
  unfold imadw
  rw [show (Ty.i32 == Ty.i32) = true from rfl, toIntW_signed, toIntW_signed]
  rfl
theorem imadw_n32 (a b : Word) (c : Nat) : imadw .n32 a b c = (a.toNat * b.toNat + c) % 2 ^ 64 := by
  unfold imadw
  rw [show (Ty.n32 == Ty.i32) = false from rfl, toIntW_unsigned, toIntW_unsigned, ← wrapW_natCast]
  push_cast
  rfl
theorem lea_i32 (a : Nat) (b : Word) (n : Nat) : lea .i32 a b n = (((a : Int) + b.toInt * 2 ^ n) % 2 ^ 64).toNat := by
  unfold lea
  rw [show (Ty.i32 == Ty.i32) = true from rfl, toIntW_signed]
  rfl
theorem lea_n32 (a : Nat) (b : Word) (n : Nat) : lea .n32 a b n = (a + b.toNat * 2 ^ n) % 2 ^ 64 := by
  unfold lea
  rw [show (Ty.n32 == Ty.i32) = false from rfl, toIntW_unsigned, ← wrapW_natCast]
  push_cast
  rfl

/-! ## Carry and absolute value -/

theorem iaddx_eq (a b : Word) (p : Prop) [Decidable p] : iaddx a b (decide p) =
    (a + b + (if p then 1 else 0), decide (2 ^ 32 ≤ a.toNat + b.toNat + (if p then 1 else 0))) := by
  by_cases carry : p <;> simp [iaddx, carry, BitVec.ofNat_add]
/-- The magnitude modulo 2^32 of a word is the word or its negation. -/
theorem ofInt_natAbs (a : Word) : BitVec.ofInt 32 (a.toInt.natAbs : Int) = if a.slt 0 then -a else a := by
  by_cases negative : a.toInt < 0
  · rw [if_pos (BitVec.slt_iff_toInt_lt.2 negative), Int.ofNat_natAbs_of_nonpos (Int.le_of_lt negative), BitVec.ofInt_neg, BitVec.ofInt_toInt]
  · rw [if_neg (mt BitVec.slt_iff_toInt_lt.1 negative), Int.natAbs_of_nonneg (Int.not_lt.1 negative), BitVec.ofInt_toInt]
/-- The magnitude of any word but the least is in the signed range. -/
theorem natAbs_lt_of_ne_min {a : Word} (h : a ≠ 0x80000000) : (a.toInt.natAbs : Int) ≤ 2 ^ 31 - 1 := by
  have low : a.toInt ≠ -2 ^ 31 := fun e => h (BitVec.eq_of_toInt_eq e)
  have := BitVec.le_toInt a
  have := BitVec.toInt_lt (x := a)
  omega
theorem iabs_eq (sat : Bool) (a : Word) : iabs sat a =
    if a = 0x80000000 then (if sat then 0x7FFFFFFF else 0x80000000) else if a.slt 0 then -a else a := by
  by_cases least : a = 0x80000000
  · subst least
    cases sat <;> decide
  · rw [if_neg least, ← ofInt_natAbs]
    cases sat with
    | false => exact ofNat_putInt_wrapped true _
    | true =>
      have kept : clampI (minW 32 true) (maxW 32 true) (a.toInt.natAbs : Int) = a.toInt.natAbs := by
        have := natAbs_lt_of_ne_min least
        rw [clampI_eq_max_min (by decide)]
        simp only [minW, maxW, if_true]
        omega
      rw [iabs, putInt, if_pos rfl, kept, ofNat_wrapW]

/-- Settles O4: each instruction through the lemma of its body, by the values of its type. -/
theorem wideArithmeticInstructionsComplete : Obligations.WideArithmeticInstructionsComplete := by
  unfold Obligations.WideArithmeticInstructionsComplete
  simp only [← imulh_i32, ← imulh_n32, ← imadw_i32, ← imadw_n32, ← lea_i32, ← lea_n32, ← iabs_eq]
  refine fun h u k d a b c ci co x n => ⟨?_, ?_, fun t => ?_, ?_, ?_, fun t => ?_, ?carry, ?_, ?_, ?_, fun t => ?_, fun t => ?_, fun t => ?_⟩
  case carry =>
    refine computes_laneBody_no_flags rfl (fun _ => rfl) fun g l => ?_
    have index : (ci != 7 && g.rp l ci.toNat) = decide (ci ≠ 7 ∧ g.rp l ci.toNat = true) := by
      rw [Bool.decide_and, Bool.decide_eq_true, decide_not]
      rfl
    rw [index, iaddx_eq]
  all_goals exact computes_laneBody rfl fun _ => rfl

end Sys2Proof.Machine
end

section
/-! PROOFS. Work queues, graphs and budgets (R234-R241, R253-R256, R286, R306). -/
namespace Sys2Proof.Machine

/-! ## The registers of one queue (R234) -/

theorem queueOff_inj {x q o p : Nat} : queueOff x q o = queueOff x q p ↔ o = p := Nat.add_left_cancel_iff
theorem queueOk_of_lt {x q : Nat} (hx : x < 1024) (hq : q < 128) : queueOk x q = true := by
  simp [queueOk, hx, hq]
theorem queue_open {s : State} {x q : Nat} (opened : s.hostOpen = true) (hx : x < 1024) (hq : q < 128) : (s.hostOpen && queueOk x q) = true := by
  rw [opened, queueOk_of_lt hx hq, Bool.and_self]
theorem bitsAt_mod (v : Nat) {m lo n : Nat} (h : lo + n ≤ m) : bitsAt (v % 2 ^ m) lo n = bitsAt v lo n := by
  refine Nat.eq_of_testBit_eq fun i => ?_
  simp only [bitsAt, Nat.testBit_mod_two_pow, Nat.testBit_div_two_pow]
  by_cases hi : i < n
  · simp [show i + lo < m by omega]
  · simp [hi]
/-- A field of a field. -/
theorem bitsAt_bitsAt (v lo : Nat) {n k m : Nat} (h : k + m ≤ n) : bitsAt (bitsAt v lo n) k m = bitsAt v (lo + k) m := by
  rw [show bitsAt v lo n = v / 2 ^ lo % 2 ^ n from rfl, bitsAt_mod _ h, bitsAt, bitsAt, Nat.div_div_eq_div_mul, ← Nat.pow_add]
theorem bar_irq (s : State) (v o : Nat) : (s.irq v).bar o = s.bar o := rfl
theorem bar_setStarted (s : State) (x q : Nat) (l : List Started) (o : Nat) : (s.setStarted x q l).bar o = s.bar o := rfl

section
variable (s : State) (x q : Nat)

theorem qCtl_setHalt (b : Bool) : (s.setHalt x q b).qCtl x q = setBits (s.qCtl x q) 9 1 (if b then 1 else 0) := by
  unfold State.setHalt State.qCtl
  rw [bar_setBar, if_pos rfl, Nat.mod_eq_of_lt (setBits_lt _ _ _ _ (bar_lt s _) (by decide))]
theorem qHalt_setHalt (b : Bool) : (s.setHalt x q b).qHalt x q = b := by
  rw [State.qHalt, qCtl_setHalt, bitsAt_setBits_same]
  cases b <;> rfl
/-- HALT is the one register that changes with it. -/
theorem bar_setHalt (b : Bool) {o : Nat} (h : o ≠ 8) : (s.setHalt x q b).bar (queueOff x q o) = s.bar (queueOff x q o) := by
  rw [State.setHalt, bar_setBar, if_neg (mt queueOff_inj.1 h)]

/-! ## A halt (R237) -/

theorem bar_haltQueue (c o : Nat) : (s.haltQueue x q c).bar (queueOff x q o) =
    if o = 0x1C then s.qRd x q else if o = 0x18 then c % 2 ^ 32 else (s.setHalt x q true).bar (queueOff x q o) := by
  have index : s.qRd x q % 2 ^ 32 = s.qRd x q := Nat.mod_eq_of_lt (bar_lt s _)
  simp only [State.haltQueue, bar_irq, bar_setBar, queueOff_inj, index]
theorem qHalt_haltQueue (c : Nat) : (s.haltQueue x q c).qHalt x q = true := by
  have ctl : (s.haltQueue x q c).qCtl x q = (s.setHalt x q true).qCtl x q := bar_haltQueue s x q c 8
  rw [State.qHalt, ctl, ← State.qHalt, qHalt_setHalt]
theorem qCode_haltQueue {c : Nat} (h : c < 2 ^ 8) : (s.haltQueue x q c).qCode x q = c := by
  rw [State.qCode, bar_haltQueue, if_neg (by decide), if_pos rfl, bitsAt_mod c (by decide), bitsAt, Nat.pow_zero, Nat.div_one, Nat.mod_eq_of_lt h]
theorem irqs_haltQueue (c : Nat) : (s.haltQueue x q c).irqs = s.irqs ++ [s.queueVec x q] := rfl

/-! ## A skipped packet (R238) -/

/-- Sending vectors changes no register. -/
theorem bar_foldl_irq {α : Type} (l : List α) (s : State) (x q o : Nat) : (l.foldl (fun s _ => s.irq (s.queueVec x q)) s).bar o = s.bar o := by
  induction l generalizing s with
  | nil => rfl
  | cons a l ih => exact ih _
/-- DONE passes the packets complete at the head of the queue, and no other register changes. -/
theorem bar_advanceDone (o : Nat) : (s.advanceDone x q).bar (queueOff x q o) =
    if o = 0x14 then (s.qDone x q + ((s.startedOf x q).takeWhile (·.complete)).length) % 2 ^ 32 else s.bar (queueOff x q o) := by
  unfold State.advanceDone
  simp only [bar_foldl_irq, bar_setStarted, bar_setBar, queueOff_inj, Nat.mod_mod, State.qDone]

/-- What SKIP passes: a queue halted for another reason than an overflow. -/
theorem skip_rejected (halted : s.qHalt x q = true) (code : s.qCode x q ≠ 8) : s.skip x q =
    (((s.setHalt x q false).advanceRd x q).setStarted x q (s.startedOf x q ++ [⟨s.qRd x q, true, false⟩])).advanceDone x q := by
  simp only [State.skip, halted, Bool.not_true, Bool.false_eq_true, if_false, if_neg code]

theorem bar_skip_rejected (halted : s.qHalt x q = true) (code : s.qCode x q ≠ 8) {o : Nat} (ho : o ≠ 0x14) :
    (s.skip x q).bar (queueOff x q o) = ((s.setHalt x q false).advanceRd x q).bar (queueOff x q o) := by
  rw [skip_rejected s x q halted code, bar_advanceDone, if_neg ho]
  rfl
theorem qHalt_skip_rejected (halted : s.qHalt x q = true) (code : s.qCode x q ≠ 8) : (s.skip x q).qHalt x q = false := by
  have ctl : (s.skip x q).qCtl x q = (s.setHalt x q false).qCtl x q := by
    rw [State.qCtl, bar_skip_rejected s x q halted code (by decide), State.advanceRd, bar_setBar, if_neg (by rw [queueOff_inj]; decide)]
    rfl
  rw [State.qHalt, ctl, ← State.qHalt, qHalt_setHalt]
theorem qRd_skip_rejected (halted : s.qHalt x q = true) (code : s.qCode x q ≠ 8) : (s.skip x q).qRd x q = (s.qRd x q + 1) % 2 ^ 32 := by
  rw [State.qRd, bar_skip_rejected s x q halted code (by decide), State.advanceRd, bar_setBar, if_pos rfl, Nat.mod_mod, State.qRd,
    bar_setHalt s x q false (by decide), State.qRd]
/-- With no packet of the queue under way, DONE counts the skipped one. -/
theorem qDone_skip_rejected (halted : s.qHalt x q = true) (code : s.qCode x q ≠ 8) (idle : s.startedOf x q = []) :
    (s.skip x q).qDone x q = (s.qDone x q + 1) % 2 ^ 32 := by
  have kept : (((s.setHalt x q false).advanceRd x q).setStarted x q [⟨s.qRd x q, true, false⟩]).qDone x q = s.qDone x q := by
    rw [State.qDone, bar_setStarted, State.advanceRd, bar_setBar, if_neg (by rw [queueOff_inj]; decide), bar_setHalt s x q false (by decide)]
    rfl
  have own : ∀ (s : State) (l : List Started), (s.setStarted x q l).startedOf x q = l := fun s l => by
    simp [State.startedOf, State.setStarted]
  rw [skip_rejected s x q halted code, idle, State.qDone, bar_advanceDone, if_pos rfl, List.nil_append, kept, own]
  rfl

/-! ## The control word (R234, R286) -/

/-- The control word with RLOG, where EN is 0, and VEC as in `v`. -/
def State.ctlBase (v : Nat) : Nat := setBits (if s.qEn x q then s.qCtl x q else setBits (s.qCtl x q) 0 5 v) 16 11 (v / 2 ^ 16)
/-- The control word that a write of `v` leaves, with HALT and SKIP not written. -/
def State.ctlWord (v : Nat) : Nat :=
  if bitsAt v 8 1 = 1 ∧ !s.mayEnable x q then s.ctlBase x q v else setBits (s.ctlBase x q v) 8 1 (v / 2 ^ 8)

variable {s x q}
variable {v : Nat}

theorem writeCtl_eq_setBar (skip : bitsAt v 10 1 = 0) (halt : bitsAt v 9 1 = 0) :
    s.writeCtl x q v = s.setBar (queueOff x q 8) (s.ctlWord x q v) := by
  simp only [State.writeCtl, skip, halt, Nat.zero_ne_one, if_false]
  rfl
theorem ctlBase_lt : s.ctlBase x q v < 2 ^ 32 := by
  have ctl : s.qCtl x q < 2 ^ 32 := bar_lt s _
  refine setBits_lt _ 16 11 _ ?_ (by decide)
  split
  · exact ctl
  · exact setBits_lt _ 0 5 _ ctl (by decide)
theorem ctlWord_lt : s.ctlWord x q v < 2 ^ 32 := by
  unfold State.ctlWord
  split
  · exact ctlBase_lt
  · exact setBits_lt _ 8 1 _ ctlBase_lt (by decide)
/-- RLOG and VEC apart, the word is as it was. -/
theorem bitsAt_ctlBase {lo n : Nat} (h : 5 ≤ lo ∧ lo + n ≤ 16) : bitsAt (s.ctlBase x q v) lo n = bitsAt (s.qCtl x q) lo n := by
  rw [State.ctlBase, bitsAt_setBits_other _ 16 11 _ lo n (.inl h.2)]
  split
  · rfl
  · exact bitsAt_setBits_other _ 0 5 _ lo n (.inr h.1)
/-- EN apart, the word is that of the base. -/
theorem bitsAt_ctlWord {lo n : Nat} (h : lo + n ≤ 8 ∨ 9 ≤ lo) : bitsAt (s.ctlWord x q v) lo n = bitsAt (s.ctlBase x q v) lo n := by
  unfold State.ctlWord
  split
  · rfl
  · exact bitsAt_setBits_other _ 8 1 _ lo n h
theorem bitsAt_ctlWord_vec : bitsAt (s.ctlWord x q v) 16 11 = bitsAt v 16 11 := by
  rw [bitsAt_ctlWord (by decide), State.ctlBase, bitsAt_setBits_same]
  rfl
theorem bitsAt_ctlWord_halt : bitsAt (s.ctlWord x q v) 9 1 = bitsAt (s.qCtl x q) 9 1 := by
  rw [bitsAt_ctlWord (by decide), bitsAt_ctlBase (by decide)]
theorem bitsAt_ctlWord_log : bitsAt (s.ctlWord x q v) 0 5 = if s.qEn x q then s.qLog x q else bitsAt v 0 5 := by
  rw [bitsAt_ctlWord (by decide), State.ctlBase, bitsAt_setBits_other _ 16 11 _ 0 5 (by decide)]
  split
  · rfl
  · rw [bitsAt_setBits_same, bitsAt, Nat.pow_zero, Nat.div_one]
/-- EN is as it was where it may not be set, else as written. -/
theorem bitsAt_ctlWord_en : bitsAt (s.ctlWord x q v) 8 1 =
    if bitsAt v 8 1 = 1 ∧ !s.mayEnable x q then bitsAt (s.qCtl x q) 8 1 else bitsAt v 8 1 := by
  unfold State.ctlWord
  split
  · exact bitsAt_ctlBase (by decide)
  · exact bitsAt_setBits_same _ 8 1 _

/-- What a write of the control word with HALT and SKIP 0 leaves. -/
theorem writeCtl_fields {e : Nat} (he : e < 2) (hv : bitsAt v 8 3 = e) :
    (s.writeCtl x q v).qEn x q = (if e = 1 ∧ !s.mayEnable x q then s.qEn x q else e == 1) ∧ (s.writeCtl x q v).queueVec x q = bitsAt v 16 11 ∧
    (s.writeCtl x q v).qHalt x q = s.qHalt x q ∧ (s.writeCtl x q v).qLog x q = if s.qEn x q then s.qLog x q else bitsAt v 0 5 := by
  have bit : e = 0 ∨ e = 1 := by omega
  have en : bitsAt v 8 1 = e := by rw [← bitsAt_bitsAt v 8 (n := 3) (k := 0) (by decide), hv]; obtain rfl | rfl := bit <;> rfl
  have halt : bitsAt v 9 1 = 0 := by rw [← bitsAt_bitsAt v 8 (n := 3) (k := 1) (by decide), hv]; obtain rfl | rfl := bit <;> rfl
  have skip : bitsAt v 10 1 = 0 := by rw [← bitsAt_bitsAt v 8 (n := 3) (k := 2) (by decide), hv]; obtain rfl | rfl := bit <;> rfl
  have ctl : (s.writeCtl x q v).qCtl x q = s.ctlWord x q v := by
    rw [writeCtl_eq_setBar skip halt, State.qCtl, bar_setBar, if_pos rfl, Nat.mod_eq_of_lt ctlWord_lt]
  refine ⟨?_, ?_, ?_, ?_⟩
  · rw [State.qEn, ctl, bitsAt_ctlWord_en, en]
    split <;> rfl
  · rw [← bitsAt_ctlWord_vec (s := s) (x := x) (q := q), ← ctl]
    rfl
  · rw [State.qHalt, ctl, bitsAt_ctlWord_halt, State.qHalt]
  · rw [State.qLog, ctl, bitsAt_ctlWord_log]
end

/-! ## What each event leaves (R234, R237, R286) -/

section
variable {s : State} {x q v : Nat} (ok : (s.hostOpen && queueOk x q) = true)
include ok

theorem doorbell_next : exec (.doorbell x q v) s = .next (s.doorbell x q v) := congrArg Host.Outcome.next (if_pos ok)
theorem skip_next : exec (.skip x q) s = .next (s.skip x q) := congrArg Host.Outcome.next (if_pos ok)
theorem haltClear_next : exec (.haltClear x q) s = .next (s.setHalt x q false) := congrArg Host.Outcome.next (if_pos ok)
theorem queueEnable_next : exec (.queueEnable x q v) s = .next (s.writeCtl x q (v % 2 ^ 32)) := congrArg Host.Outcome.next (if_pos ok)
/-- What QUEUE_ENABLE leaves with HALT and SKIP 0. -/
theorem queueEnable_fields {e : Nat} (he : e < 2) (hv : bitsAt v 8 3 = e) : ∃ s2, exec (.queueEnable x q v) s = .next s2 ∧
    s2.qEn x q = (if e = 1 ∧ !s.mayEnable x q then s.qEn x q else e == 1) ∧ s2.queueVec x q = bitsAt v 16 11 ∧
    s2.qHalt x q = s.qHalt x q ∧ s2.qLog x q = if s.qEn x q then s.qLog x q else bitsAt v 0 5 := by
  have fields := writeCtl_fields (s := s) (x := x) (q := q) he ((bitsAt_mod v (m := 32) (by decide)).trans hv)
  rw [bitsAt_mod v (by decide), bitsAt_mod v (by decide)] at fields
  exact ⟨_, queueEnable_next ok, fields⟩
end

/-! ## Graphs (R255, R256) -/

section
variable {s : State} {d id k : Nat} {g : Graph} {a : GNode} (hg : s.graph? d id = some g) (ha : g.active.find? (fun a => a.node == k) = some a)
include hg ha

theorem nodeStep_early (early : (s.die d).time < g.start) : s.nodeStep d id k = s := by
  simp only [State.nodeStep, hg, ha, if_pos early]
theorem nodeStep_begins (due : g.start ≤ (s.die d).time) (fresh : a.begun = false) : s.nodeStep d id k = s.beginNode d g k := by
  simp only [State.nodeStep, hg, ha, if_neg (Nat.not_lt.2 due), fresh, Bool.not_false, if_true]
theorem nodeStep_leaves (due : g.start ≤ (s.die d).time) (done : s.nodeDone d g a = true) (sound : g.failed = false) :
    s.nodeStep d id k = s.leaveNode d id k [(g.node k).nexta, (g.node k).nextb] := by
  have begun : a.begun = true := (Bool.and_eq_true_iff.1 done).1
  simp only [State.nodeStep, hg, ha, if_neg (Nat.not_lt.2 due), begun, done, sound, Bool.not_true, Bool.false_eq_true, if_false, if_true]
  rfl
theorem nodeStep_runs (begun : a.begun = true) (under : s.nodeDone d g a = false) : s.nodeStep d id k = s := by
  simp only [State.nodeStep, hg, ha, begun, under, Bool.not_true, Bool.false_eq_true, if_false, ite_self]
omit ha in
theorem waitNodeExpiry_next (kind : (g.node k).kind = 6) : exec (.waitNodeExpiry d id k) s = .next (s.nodeStep d id k) := by
  show Host.Outcome.next _ = _
  simp only [hg, if_pos kind]
end
/-- A WAIT node that has begun is done when its time has come. -/
theorem nodeDone_wait {s : State} {d : Nat} {g : Graph} {a : GNode} (kind : (g.node a.node).kind = 6) (begun : a.begun = true) :
    s.nodeDone d g a = decide (a.due ≤ (s.die d).time) := by
  simp only [State.nodeDone, begun, kind, Bool.true_and]

/-- A die that has a graph is there. -/
theorem lt_dies_of_graph? {s : State} {d id : Nat} {g : Graph} (hg : s.graph? d id = some g) : d < s.dies.length := by
  refine Nat.lt_of_not_le fun h => ?_
  rw [State.graph?, State.die, List.getElem?_eq_none h] at hg
  cases hg
/-- A graph after a change of it that keeps its number. -/
theorem graph?_modGraph {s : State} {d id : Nat} {g : Graph} {f : Graph → Graph} (hg : s.graph? d id = some g) (hf : ∀ g, (f g).id = g.id) :
    (s.modGraph d id f).graph? d id = some (f g) := by
  have own : (fun h : Graph => (if h.id = id then f h else h).id == id) = fun h => h.id == id := by
    funext h
    split <;> simp [*]
  have named : g.id = id := by simpa using List.find?_some hg
  rw [State.graph?, State.modGraph, die_modDie (lt_dies_of_graph? hg)]
  show List.find? _ (List.map _ _) = _
  rw [List.find?_map]
  show Option.map _ (List.find? (fun h : Graph => (if h.id = id then f h else h).id == id) _) = _
  rw [own, show List.find? (fun h : Graph => h.id == id) (s.die d).graphs = some g from hg, Option.map_some, if_pos named]

/-- Settles O54: the queues' events field by field of the registers, the graphs' by the step of a node, the budgets by the graph charged. -/
theorem queueAndGraphEventsComplete : Obligations.QueueAndGraphEventsComplete := by
  unfold Obligations.QueueAndGraphEventsComplete
  refine ⟨fun s x q v closed i hi => ?closed, fun s x q v opened hx hq => ⟨fun fits => ?bell, fun beyond => ?overflow, fun run => ?skipNone,
      fun halted code => ?skip, fun halted code => ?skipOver, ?haltClear, fun off => ?disable, fun on room => ?enable, fun on was full => ?refuse,
      fun no => ?no, fun c no => ?reject, fun p h yes first => ?launch, fun p hb ns yes first => ?graph⟩,
    fun s d id k g a hg ha => ⟨fun early => ?early, fun due fresh => ?begins, fun due done sound => ?leaves, fun kind named begun start due sound => ?expires,
      fun kind begun early => ?waits, ?charge, decide_eq_true_iff⟩,
    fun s d there => ⟨fun changed => ?frame, fun same => ?same⟩⟩
  case closed =>
    have shut : ¬(s.hostOpen && queueOk x q) = true := by simp [closed]
    simp only [List.mem_cons, List.not_mem_nil, or_false] at hi
    obtain rfl | rfl | rfl | rfl := hi
    all_goals exact congrArg Host.Outcome.next (if_neg shut)
  case bell =>
    rw [doorbell_next (queue_open opened hx hq)]
    exact congrArg Host.Outcome.next (if_pos fits)
  case overflow =>
    refine ⟨_, (doorbell_next (queue_open opened hx hq)).trans (congrArg Host.Outcome.next (if_neg (Nat.not_le.2 beyond))), ?_⟩
    exact ⟨qHalt_haltQueue s x q 8, qCode_haltQueue s x q (by decide), bar_haltQueue s x q 8 0x1C, irqs_haltQueue s x q 8⟩
  case skipNone =>
    rw [skip_next (queue_open opened hx hq), State.skip, run]
    rfl
  case skip =>
    exact ⟨_, skip_next (queue_open opened hx hq), qHalt_skip_rejected s x q halted code, qRd_skip_rejected s x q halted code,
      qDone_skip_rejected s x q halted code⟩
  case skipOver =>
    refine ⟨s.setHalt x q false, (skip_next (queue_open opened hx hq)).trans ?_, qHalt_setHalt s x q false, bar_setHalt s x q false (by decide)⟩
    simp only [State.skip, halted, code, Bool.not_true, Bool.false_eq_true, if_false, if_true]
  case haltClear =>
    exact ⟨_, haltClear_next (queue_open opened hx hq), qHalt_setHalt s x q false, bar_setHalt s x q false (by decide), rfl⟩
  case disable => exact queueEnable_fields (queue_open opened hx hq) (by decide) off
  case enable =>
    have may : s.mayEnable x q = true := by simp [State.mayEnable, room]
    obtain ⟨s2, next, en, fields⟩ := queueEnable_fields (queue_open opened hx hq) (by decide) on
    exact ⟨s2, next, by simpa [may] using en, fields⟩
  case refuse =>
    have may : s.mayEnable x q = false := by simp [State.mayEnable, was, full]
    obtain ⟨s2, next, en, -⟩ := queueEnable_fields (queue_open opened hx hq) (by decide) on
    exact ⟨s2, next, by simpa [may, was] using en⟩
  case no =>
    show Host.Outcome.next _ = _
    simp only [no]
  case reject =>
    show Host.Outcome.next _ = _
    simp only [no]
  case launch =>
    show Host.Outcome.next _ = _
    simp only [yes, first, if_true]
  case graph =>
    show Host.Outcome.next _ = _
    simp only [yes, first, if_true]
  case early => exact congrArg Host.Outcome.next (nodeStep_early hg ha early)
  case begins => exact congrArg Host.Outcome.next (nodeStep_begins hg ha due fresh)
  case leaves => exact congrArg Host.Outcome.next (nodeStep_leaves hg ha due done sound)
  case expires =>
    have done : s.nodeDone d g a = true := by rw [nodeDone_wait (by rw [named, kind]) begun, decide_eq_true due]
    rw [waitNodeExpiry_next hg kind, nodeStep_leaves hg ha start done sound]
  case waits =>
    have named : a.node = k := by simpa using List.find?_some ha
    have under : s.nodeDone d g a = false := by rw [nodeDone_wait (by rw [named, kind]) begun, decide_eq_false (Nat.not_le.2 early)]
    rw [waitNodeExpiry_next hg kind, nodeStep_runs hg ha begun under]
  case charge => exact ⟨_, rfl, graph?_modGraph hg fun g => by split <;> rfl⟩
  case frame =>
    refine ⟨_, congrArg Host.Outcome.next (if_pos (bne_iff_ne.2 changed)), ?_⟩
    rw [die_modDie there]
    exact ⟨rfl, rfl⟩
  case same => exact congrArg Host.Outcome.next (if_neg (mt bne_iff_ne.1 (not_not_intro same)))

end Sys2Proof.Machine
end

section
/-! PROOFS. Decoding inverts encoding (R69-R88). -/
namespace Sys2Proof
open Machine

/-! ## The parts of a word -/

/-- A flag, a scope and a type as the bits of their codes; an opcode, to which the other fields are added. -/
def flagBits (b : Bool) : BitVec 1 := BitVec.ofBool b
def Scope.bits (s : Scope) : BitVec 2 := BitVec.ofNat 2 s.code
def Ty.bits (t : Ty) : BitVec 4 := BitVec.ofNat 4 t.code
def opcode (n : Nat) : Nat := n

@[simp] theorem ob_eq_bits (b : Bool) : ob b = (flagBits b).toNat := by cases b <;> rfl
@[simp] theorem Ty.code_eq_bits (t : Ty) : t.code = t.bits.toNat := by cases t <;> rfl
@[simp] theorem flagBits_beq_one (b : Bool) : ((flagBits b).toNat == 1) = b := by cases b <;> rfl
@[simp] theorem flagBits_eq_one (b : Bool) : (flagBits b).toNat = 1 ↔ b = true := by cases b <;> decide
@[simp] theorem Scope.ofCode_bits (s : Scope) : Scope.ofCode s.bits.toNat = s := by cases s <;> rfl
@[simp] theorem Ty.ofCode_bits (t : Ty) : Ty.ofCode t.bits.toNat = t := by cases t <;> rfl
theorem Scope.code_eq_bits (s : Scope) : s.code = s.bits.toNat := by cases s <;> rfl

/-- The head and the guard as fields of their own (R69, R74). -/
@[simp] theorem pl_head (w : Nat) (h : Head) : pl w h.code 0 = pl (pl (opcode w) h.scope.bits.toNat 28) (flagBits h.sw).toNat 30 := by
  simp only [opcode, pl, Head.code, ob_eq_bits, Scope.code_eq_bits]
  omega
@[simp] theorem pl_guard (w : Nat) (g : Guard) : pl w g.code 0 = pl (pl (opcode w) g.p.toNat 28) (flagBits g.neg).toNat 31 := by
  simp only [opcode, pl, Guard.code, ob_eq_bits]
  omega
@[simp] theorem pl_zero_zero (x : BitVec 32) : pl 0 x.toNat 0 = pl (opcode 0) x.toNat 0 := rfl
/-- The fields of a word may be added from the highest down. (`0 + j` keeps `simp` from taking this for a permutation.) -/
@[simp] theorem pl_comm_of_lt {w a b j k : Nat} (_ : j + 1 - k = 0) : pl (pl w a j) b k = pl (pl w b k) a (0 + j) := by
  simp only [pl, Nat.zero_add]
  omega

/-! ## The fields of a word read back -/

@[simp] theorem fld_opcode (a lo len : Nat) : fld (opcode a) lo len = a / 2 ^ lo % 2 ^ len := rfl
@[simp] theorem bit_eq_fld (w i : Nat) : bit w i = (fld w i 1 == 1) := rfl
@[simp] theorem bvAt_eq_fld (n w lo : Nat) : bvAt n w lo = BitVec.ofNat n (fld w lo n) :=
  BitVec.eq_of_toNat_eq (by simp [bvAt, fld])
@[simp] theorem headAt_eq (w : Nat) : headAt w = ⟨bit w 30, Scope.ofCode (fld w 28 2)⟩ := rfl
@[simp] theorem guardAt_eq (w : Nat) : guardAt w = ⟨bit w 31, bvAt 3 w 28⟩ := rfl
@[simp] theorem tyAt_eq (w lo : Nat) : tyAt w lo = Ty.ofCode (fld w lo 4) := rfl

/-- A field added above another leaves it. -/
@[simp] theorem fld_pl_below {w v k lo len : Nat} (h : lo + len - k = 0) : fld (pl w v k) lo len = fld w lo len := by
  obtain ⟨j, rfl⟩ := Nat.exists_eq_add_of_le (Nat.le_of_sub_eq_zero h)
  have split : w + v * 2 ^ (lo + len + j) = w + v * 2 ^ j * 2 ^ len * 2 ^ lo := by
    rw [Nat.pow_add, Nat.pow_add]
    ring
  rw [fld, fld, pl, split, Nat.add_mul_div_right _ _ (Nat.two_pow_pos _), Nat.add_mul_mod_self_right]
section
variable {n w k : Nat} (x : BitVec n) (h : fld w k n = 0)
include h
/-- A field added where the word is clear reads back. -/
@[simp] theorem fld_pl_same : fld (pl w x.toNat k) k n = x.toNat := by
  rw [fld, pl, Nat.add_mul_div_right _ _ (Nat.two_pow_pos _), Nat.add_mod, show w / 2 ^ k % 2 ^ n = 0 from h, Nat.zero_add, Nat.mod_mod,
    Nat.mod_eq_of_lt x.isLt]
/-- It carries nothing into the bits above it. -/
theorem pl_div : pl w x.toNat k / 2 ^ (k + n) = w / 2 ^ (k + n) := by
  have clear := Nat.div_add_mod (w / 2 ^ k) (2 ^ n)
  rw [show w / 2 ^ k % 2 ^ n = 0 from h, Nat.add_zero] at clear
  rw [Nat.pow_add, ← Nat.div_div_eq_div_mul, ← Nat.div_div_eq_div_mul, pl, Nat.add_mul_div_right _ _ (Nat.two_pow_pos _), ← clear,
    Nat.mul_add_div (Nat.two_pow_pos _), Nat.div_eq_of_lt x.isLt, Nat.add_zero, Nat.mul_div_cancel_left _ (Nat.two_pow_pos _)]
@[simp] theorem fld_pl_above {lo len : Nat} (hlo : k + n - lo = 0) : fld (pl w x.toNat k) lo len = fld w lo len := by
  obtain ⟨j, rfl⟩ := Nat.exists_eq_add_of_le (Nat.le_of_sub_eq_zero hlo)
  rw [fld, fld, Nat.pow_add _ _ j, ← Nat.div_div_eq_div_mul, pl_div x h, Nat.div_div_eq_div_mul]
@[simp] theorem pl_lt_iff (hk : k + n - 32 = 0) : pl w x.toNat k < 4294967296 ↔ w < 4294967296 := by
  obtain ⟨j, hj⟩ := Nat.exists_eq_add_of_le (Nat.le_of_sub_eq_zero hk)
  have whole : 4294967296 = 2 ^ j * 2 ^ (k + n) := by rw [← Nat.pow_add, Nat.add_comm j, ← hj]
  rw [whole, ← Nat.div_lt_iff_lt_mul (Nat.two_pow_pos _), ← Nat.div_lt_iff_lt_mul (Nat.two_pow_pos _), pl_div x h]
end
@[simp] theorem opcode_lt (a n : Nat) : opcode a < n ↔ a < n := .rfl

/-! ## An instruction read back from its bytes -/

/-- An instruction is read back from its bytes, and the bytes after them are left. -/
def ReadsBack (i : Instr) : Prop := ∀ r, decode (encodeBytes i ++ r) = .ok (i, r)

theorem leWord_wordBytes {w : Nat} (h : w < 4294967296) :
    leWord (BitVec.ofNat 8 w) (BitVec.ofNat 8 (w / 2 ^ 8)) (BitVec.ofNat 8 (w / 2 ^ 16)) (BitVec.ofNat 8 (w / 2 ^ 24)) = w := by
  simp only [leWord, BitVec.toNat_ofNat]
  omega

theorem readsBack_oneWord {i : Instr} {w : Nat} (he : encode i = [w]) (hw : w < 4294967296) (h2 : twoWords w = false)
    (hd : decodeWords w 0 = .ok i) : ReadsBack i := by
  intro r
  simp only [encodeBytes, he, List.flatMap_cons, List.flatMap_nil, wordBytes, List.append_nil, List.cons_append, List.nil_append, decode,
    leWord_wordBytes hw, h2, hd]
  rfl
theorem readsBack_twoWords {i : Instr} {w v : Nat} (he : encode i = [w, v]) (hw : w < 4294967296) (hv : v < 4294967296) (h2 : twoWords w = true)
    (hd : decodeWords w v = .ok i) : ReadsBack i := by
  intro r
  simp only [encodeBytes, he, List.flatMap_cons, List.flatMap_nil, wordBytes, List.append_nil, List.cons_append, List.nil_append, decode,
    leWord_wordBytes hw, leWord_wordBytes hv, h2, hd]
  rfl

@[simp] theorem accept_true (i : Instr) : accept false true i = .ok i := rfl

/-- One-word and two-word formats of the L set and the U set (R69, R70, R73, R77, R87). -/
theorem readsBack_l1 {i : Instr} {w : Nat} (he : encode i = [w]) (h : w < 4294967296 ∧ fld w 21 6 < 48 ∧ fld w 31 1 = 0 ∧ decodeL1 w = .ok i) :
    ReadsBack i := by
  obtain ⟨hw, hm, hs, hd⟩ := h
  refine readsBack_oneWord he hw (decide_eq_false (Nat.not_le.2 hm)) ?_
  simp only [decodeWords, twoWords, bit, hs, Nat.not_le.2 hm, decide_false, hd]
  rfl
theorem readsBack_u1 {i : Instr} {w : Nat} (he : encode i = [w]) (h : w < 4294967296 ∧ fld w 21 6 < 48 ∧ fld w 31 1 = 1 ∧ decodeU1 w = .ok i) :
    ReadsBack i := by
  obtain ⟨hw, hm, hs, hd⟩ := h
  refine readsBack_oneWord he hw (decide_eq_false (Nat.not_le.2 hm)) ?_
  simp only [decodeWords, twoWords, bit, hs, Nat.not_le.2 hm, decide_false, hd]
  rfl
section
variable {i : Instr} {w v : Nat} (he : encode i = [w, v])
include he
theorem readsBack_l2 (h : w < 4294967296 ∧ v < 4294967296 ∧ 48 ≤ fld w 21 6 ∧ fld w 31 1 = 0 ∧ decodeL2 w v = .ok i) : ReadsBack i := by
  obtain ⟨hw, hv, hm, hs, hd⟩ := h
  refine readsBack_twoWords he hw hv (decide_eq_true hm) ?_
  simp only [decodeWords, twoWords, bit, hs, hm, decide_true, hd]
  rfl
theorem readsBack_u2 (h : w < 4294967296 ∧ v < 4294967296 ∧ 48 ≤ fld w 21 6 ∧ fld w 31 1 = 1 ∧ decodeU2 w v = .ok i) : ReadsBack i := by
  obtain ⟨hw, hv, hm, hs, hd⟩ := h
  refine readsBack_twoWords he hw hv (decide_eq_true hm) ?_
  simp only [decodeWords, twoWords, bit, hs, hm, decide_true, hd]
  rfl
/-- The two-word formats of the L set, each a table of its own (R77-R85). -/
theorem readsBack_table {m : Nat} {table : Nat → Nat → Except Reject Instr} (hm : fld w 21 6 = m) (hl : 48 ≤ m)
    (ht : ∀ w v, fld w 21 6 = m → decodeL2 w v = table w v) (h : w < 4294967296 ∧ v < 4294967296 ∧ fld w 31 1 = 0 ∧ table w v = .ok i) :
    ReadsBack i := by
  obtain ⟨hw, hv, hs, hd⟩ := h
  exact readsBack_l2 he ⟨hw, hv, hm ▸ hl, hs, (ht w v hm).trans hd⟩
end

theorem decodeL2_xi (w v : Nat) (h : fld w 21 6 = 48) : decodeL2 w v = decodeXi w v := by simp only [decodeL2, h]
theorem decodeL2_xf (w v : Nat) (h : fld w 21 6 = 49) : decodeL2 w v = decodeXf w v := by simp only [decodeL2, h]
theorem decodeL2_xc (w v : Nat) (h : fld w 21 6 = 50) : decodeL2 w v = decodeXc w v := by simp only [decodeL2, h]
theorem decodeL2_xm (w v : Nat) (h : fld w 21 6 = 51) : decodeL2 w v = decodeXm w v := by simp only [decodeL2, h]
theorem decodeL2_xa (w v : Nat) (h : fld w 21 6 = 52) : decodeL2 w v = decodeXa w v := by simp only [decodeL2, h]
theorem decodeL2_xg (w v : Nat) (h : fld w 21 6 = 53) : decodeL2 w v = decodeXg w v := by simp only [decodeL2, h]
theorem decodeL2_xx (w v : Nat) (h : fld w 21 6 = 54) : decodeL2 w v = decodeXx w v := by simp only [decodeL2, h]
theorem decodeL2_xo (w v : Nat) (h : fld w 21 6 = 55) : decodeL2 w v = decodeXo w v := by simp only [decodeL2, h]
theorem decodeL2_xt (w v : Nat) (h : fld w 21 6 = 56) : decodeL2 w v = decodeXt w v := by simp only [decodeL2, h]
theorem decodeL2_xy (w v : Nat) (h : fld w 21 6 = 57) : decodeL2 w v = decodeXy w v := by simp only [decodeL2, h]

/-! ## The formats of one word (R73, R87) -/

theorem readsBack_threeRegisters :
    (∀ h u d a b, ReadsBack (.iaddLr h u d a b)) ∧ (∀ h u d a b, ReadsBack (.isubLr h u d a b)) ∧ (∀ h u d a b, ReadsBack (.imulLr h u d a b)) ∧
    (∀ h u d a b, ReadsBack (.iminLr h u d a b)) ∧ (∀ h u d a b, ReadsBack (.imaxLr h u d a b)) ∧ (∀ h u d a b, ReadsBack (.andLr h u d a b)) ∧
    (∀ h u d a b, ReadsBack (.orLr h u d a b)) ∧ (∀ h u d a b, ReadsBack (.xorLr h u d a b)) ∧ (∀ h u d a b, ReadsBack (.shlLr h u d a b)) ∧
    (∀ h u d a b, ReadsBack (.shrLr h u d a b)) ∧ (∀ h u d a b, ReadsBack (.shraLr h u d a b)) ∧ (∀ h u d a b, ReadsBack (.faddLr h u d a b)) ∧
    (∀ h u d a b, ReadsBack (.fmulLr h u d a b)) ∧ (∀ h u d a b, ReadsBack (.fminLr h u d a b)) ∧
    (∀ h u d a b, ReadsBack (.fmaxLr h u d a b)) := by
  and_intros <;> intros <;> exact readsBack_l1 rfl (by simp [decodeL1])

theorem readsBack_immediates :
    (∀ h u d a i, ReadsBack (.iaddLi h u d a i)) ∧ (∀ h u d a i, ReadsBack (.andLi h u d a i)) ∧ (∀ h u d a i, ReadsBack (.orLi h u d a i)) ∧
    (∀ h u d a i, ReadsBack (.xorLi h u d a i)) ∧ (∀ h u d a i, ReadsBack (.shlLi h u d a i)) ∧ (∀ h u d a i, ReadsBack (.shrLi h u d a i)) ∧
    (∀ h u d a i, ReadsBack (.shraLi h u d a i)) ∧ (∀ h u d a i, ReadsBack (.ldsLm h u d a i)) ∧ (∀ h u d a i, ReadsBack (.ldpLm h u d a i)) ∧
    (∀ h u d a i, ReadsBack (.ldkLm h u d a i)) ∧ (∀ h d a i, ReadsBack (.stsLm h d a i)) ∧ (∀ h d a i, ReadsBack (.stpLm h d a i)) ∧
    (∀ h d a i, ReadsBack (.stkLm h d a i)) := by
  and_intros <;> intros <;> exact readsBack_l1 rfl (by simp [decodeL1])

theorem readsBack_moves :
    (∀ h u d a, ReadsBack (.movLr h u d a)) ∧ (∀ h u d a, ReadsBack (.movg h u d a)) ∧ (∀ h u d a, ReadsBack (.movs h u d a)) ∧
    (∀ h o, ReadsBack (.bra h o)) ∧ (∀ h o, ReadsBack (.call h o)) ∧ (∀ h a, ReadsBack (.brx h a)) ∧ (∀ h a, ReadsBack (.calx h a)) := by
  and_intros <;> intros <;> exact readsBack_l1 rfl (by simp [decodeL1])

theorem readsBack_control :
    (∀ h, ReadsBack (.nop h)) ∧ (∀ h, ReadsBack (.exit h)) ∧ (∀ h, ReadsBack (.ret h)) ∧ (∀ h, ReadsBack (.yld h)) ∧
    (∀ h, ReadsBack (.isync h)) ∧ (∀ h, ReadsBack (.bpt h)) ∧ (∀ h x, ReadsBack (.trap h x)) ∧ (∀ h, ReadsBack (.fenceAcq h)) ∧
    (∀ h, ReadsBack (.fenceRel h)) ∧ (∀ h, ReadsBack (.fenceFull h)) ∧ (∀ h, ReadsBack (.fenceX h)) := by
  and_intros <;> intros <;> exact readsBack_l1 rfl (by simp [decodeL1])

theorem readsBack_barriers :
    (∀ h n r g q, ReadsBack (.bar h n r g q)) ∧ (∀ h n r g, ReadsBack (.bara h n r g)) ∧ (∀ h n, ReadsBack (.barw h n)) ∧
    (∀ h n f, ReadsBack (.phw h n f)) ∧ (∀ h n, ReadsBack (.phf h n)) ∧ (∀ h v n y, ReadsBack (.send h v n y)) ∧
    (∀ h v n y, ReadsBack (.recv h v n y)) := by
  and_intros <;> intros <;> exact readsBack_l1 rfl (by simp [decodeL1])

theorem readsBack_uniformArithmetic :
    (∀ h d a b, ReadsBack (.uadd h d a b)) ∧ (∀ h d a b, ReadsBack (.usub h d a b)) ∧ (∀ h d a b, ReadsBack (.umul h d a b)) ∧
    (∀ h d a b, ReadsBack (.uand h d a b)) ∧ (∀ h d a b, ReadsBack (.uor h d a b)) ∧ (∀ h d a b, ReadsBack (.uxor h d a b)) ∧
    (∀ h d a b, ReadsBack (.ushl h d a b)) ∧ (∀ h d a b f, ReadsBack (.ushr h d a b f)) ∧ (∀ h d a b k, ReadsBack (.ucmp h d a b k)) ∧
    (∀ h d a b, ReadsBack (.usel h d a b)) ∧ (∀ h d a, ReadsBack (.umov h d a)) ∧ (∀ h d v, ReadsBack (.umovv h d v)) := by
  and_intros <;> intros <;> exact readsBack_u1 rfl (by simp [decodeU1])

theorem readsBack_uniformAccesses :
    (∀ h d a b, ReadsBack (.uldShared h d a b)) ∧ (∀ h d a b, ReadsBack (.uldPad h d a b)) ∧ (∀ h d a b, ReadsBack (.uldGlobal h d a b)) ∧
    (∀ h d a b, ReadsBack (.ustShared h d a b)) ∧ (∀ h d a b, ReadsBack (.ustPad h d a b)) ∧ (∀ h d a b, ReadsBack (.ustGlobal h d a b)) ∧
    (∀ h d, ReadsBack (.clk h d)) ∧ (∀ h d, ReadsBack (.time h d)) ∧ (∀ h d a, ReadsBack (.sets h d a)) ∧ (∀ h a, ReadsBack (.tlbiPage h a)) ∧
    (∀ h a, ReadsBack (.tlbiCtx h a)) ∧ (∀ h, ReadsBack (.tlbiAll h)) := by
  and_intros <;> intros <;> exact readsBack_u1 rfl (by simp [decodeU1])

theorem readsBack_uniformCommands :
    (∀ h a, ReadsBack (.ewt h a)) ∧ (∀ h d a, ReadsBack (.eqry h d a)) ∧ (∀ h d a, ReadsBack (.wpin h d a)) ∧
    (∀ h a b, ReadsBack (.wunp h a b)) ∧ (∀ h d a, ReadsBack (.wpub h d a)) ∧ (∀ h d a, ReadsBack (.wbak h d a)) ∧ (∀ h, ReadsBack (.gwait h)) ∧
    (∀ h, ReadsBack (.lnxt h)) ∧ (∀ h a b, ReadsBack (.tsus h a b)) ∧ (∀ h d a b, ReadsBack (.tspn h d a b)) := by
  and_intros <;> intros <;> exact readsBack_u1 rfl (by simp [decodeU1])

/-! ## The formats of two words (R77-R85, R88) -/

theorem readsBack_uniformLong :
    (∀ h d i, ReadsBack (.umovi h d i)) ∧ (∀ h a n i, ReadsBack (.ubra h a n i)) ∧ (∀ h d i, ReadsBack (.uloop h d i)) ∧
    (∀ h d a i, ReadsBack (.ared h d a i)) ∧ (∀ h d a i, ReadsBack (.cpy h d a i)) ∧ (∀ h d a i, ReadsBack (.cpyg h d a i)) ∧
    (∀ h d a i, ReadsBack (.cpyr h d a i)) ∧ (∀ h d a i, ReadsBack (.cpyt h d a i)) ∧ (∀ h d a i, ReadsBack (.hgf h d a i)) ∧
    (∀ h d a i, ReadsBack (.hgb h d a i)) ∧ (∀ h d a i, ReadsBack (.rast h d a i)) := by
  and_intros <;> intros <;> exact readsBack_u2 rfl (by simp [decodeU2])

theorem readsBack_wideInteger :
    (∀ h u g d a b t, ReadsBack (.imulh h u g d a b t)) ∧ (∀ h u g d a b c t, ReadsBack (.imad h u g d a b c t)) ∧
    (∀ h u g d a b c t, ReadsBack (.imadw h u g d a b c t)) ∧ (∀ h u g d a x, ReadsBack (.iabs h u g d a x)) ∧
    (∀ h u g d a b n p, ReadsBack (.isel h u g d a b n p)) ∧ (∀ h u g d a b t, ReadsBack (.bfx h u g d a b t)) ∧
    (∀ h u g d a b c, ReadsBack (.bfi h u g d a b c)) ∧ (∀ h u g d a, ReadsBack (.popc h u g d a)) ∧ (∀ h u g d a, ReadsBack (.clz h u g d a)) ∧
    (∀ h u g d a, ReadsBack (.brev h u g d a)) ∧ (∀ h u g d a b c, ReadsBack (.pswz h u g d a b c)) := by
  and_intros <;> intros <;> exact readsBack_table rfl (by simp) (by decide) decodeL2_xi (by simp [decodeXi])

theorem readsBack_integerOperands :
    (∀ h u g d a b c x, ReadsBack (.fshf h u g d a b c x)) ∧ (∀ h u g d a b ci co, ReadsBack (.iaddx h u g d a b ci co)) ∧
    (∀ h u g d a b t x, ReadsBack (.lea h u g d a b t x)) ∧ (∀ h u g d a b c t, ReadsBack (.idp4 h u g d a b c t)) ∧
    (∀ h u g d a b, ReadsBack (.andn h u g d a b)) ∧ (∀ h u g d a b x w, ReadsBack (.plop h u g d a b x w)) ∧
    (∀ h u g p a b t k, ReadsBack (.icmpXi h u g p a b t k)) := by
  and_intros <;> intros <;> exact readsBack_table rfl (by simp) (by decide) decodeL2_xi (by simp [decodeXi])

theorem readsBack_longInteger :
    (∀ h u g d a b t x, ReadsBack (.iaddXi h u g d a b t x)) ∧ (∀ h u g d a b t x, ReadsBack (.isubXi h u g d a b t x)) ∧
    (∀ h u g d a b t, ReadsBack (.imulXi h u g d a b t)) ∧ (∀ h u g d a b t, ReadsBack (.iminXi h u g d a b t)) ∧
    (∀ h u g d a b t, ReadsBack (.imaxXi h u g d a b t)) ∧ (∀ h u g d a b t, ReadsBack (.andXi h u g d a b t)) ∧
    (∀ h u g d a b t, ReadsBack (.orXi h u g d a b t)) ∧ (∀ h u g d a b t, ReadsBack (.xorXi h u g d a b t)) ∧
    (∀ h u g d a b t, ReadsBack (.shlXi h u g d a b t)) ∧ (∀ h u g d a b t, ReadsBack (.shrXi h u g d a b t)) ∧
    (∀ h u g d a b t, ReadsBack (.shraXi h u g d a b t)) ∧ (∀ h u g d a t, ReadsBack (.movXi h u g d a t)) := by
  and_intros <;> intros <;> exact readsBack_table rfl (by simp) (by decide) decodeL2_xi (by simp [decodeXi])

theorem readsBack_guardedBranches :
    (∀ h g o, ReadsBack (.braGuarded h g o)) ∧ (∀ h g o, ReadsBack (.callGuarded h g o)) ∧ (∀ h g a, ReadsBack (.brxGuarded h g a)) ∧
    (∀ h g a, ReadsBack (.calxGuarded h g a)) := by
  and_intros <;> intros <;> exact readsBack_table rfl (by simp) (by decide) decodeL2_xi (by simp [decodeXi])

theorem readsBack_float :
    (∀ h u g d a b c m, ReadsBack (.ffma h u g d a b c m)) ∧ (∀ h u g d a b m, ReadsBack (.faddXf h u g d a b m)) ∧
    (∀ h u g d a b m, ReadsBack (.fmulXf h u g d a b m)) ∧ (∀ h u g d a b, ReadsBack (.fminXf h u g d a b)) ∧
    (∀ h u g d a b, ReadsBack (.fmaxXf h u g d a b)) ∧ (∀ h u g d a b t m, ReadsBack (.hadd2 h u g d a b t m)) ∧
    (∀ h u g d a b t m, ReadsBack (.hmul2 h u g d a b t m)) ∧ (∀ h u g d a b c t m, ReadsBack (.hfma2 h u g d a b c t m)) ∧
    (∀ h u g p a b t k, ReadsBack (.fcmpXf h u g p a b t k)) := by
  and_intros <;> intros <;> exact readsBack_table rfl (by simp) (by decide) decodeL2_xf (by simp [decodeXf])

theorem readsBack_special :
    (∀ h u g d a m, ReadsBack (.frnd h u g d a m)) ∧ (∀ h u g d a, ReadsBack (.frcp h u g d a)) ∧ (∀ h u g d a, ReadsBack (.frsq h u g d a)) ∧
    (∀ h u g d a, ReadsBack (.fsqrt h u g d a)) ∧ (∀ h u g d a, ReadsBack (.fex2 h u g d a)) ∧ (∀ h u g d a, ReadsBack (.flg2 h u g d a)) ∧
    (∀ h u g d a, ReadsBack (.fsin h u g d a)) ∧ (∀ h u g d a, ReadsBack (.fcos h u g d a)) := by
  and_intros <;> intros <;> exact readsBack_table rfl (by simp) (by decide) decodeL2_xf (by simp [decodeXf])

theorem readsBack_conversions :
    (∀ h u g d a t m f x, ReadsBack (.cvt h u g d a t m f x)) ∧ (∀ h u g d a b t m x, ReadsBack (.cvtp h u g d a b t m x)) ∧
    (∀ h u g d a b t m f x, ReadsBack (.cvtx h u g d a b t m f x)) ∧ (∀ h g d a b c t m x, ReadsBack (.qmx h g d a b c t m x)) ∧
    (∀ h g d a c t m f, ReadsBack (.dqmx h g d a c t m f)) := by
  and_intros <;> intros <;> exact readsBack_table rfl (by simp) (by decide) decodeL2_xc (by simp [decodeXc])

theorem readsBack_accesses :
    (∀ h u g d a w r ch o, ReadsBack (.ldg h u g d a w r ch o)) ∧ (∀ h g d a w r ch o, ReadsBack (.stg h g d a w r ch o)) ∧
    (∀ h u g d a w o, ReadsBack (.ldsXm h u g d a w o)) ∧ (∀ h g d a w o, ReadsBack (.stsXm h g d a w o)) ∧
    (∀ h u g d a w r o, ReadsBack (.ldpXm h u g d a w r o)) ∧ (∀ h g d a w r o, ReadsBack (.stpXm h g d a w r o)) ∧
    (∀ h u g d a w ch o, ReadsBack (.ldkXm h u g d a w ch o)) ∧ (∀ h g d a w ch o, ReadsBack (.stkXm h g d a w ch o)) ∧
    (∀ h g d a w r o, ReadsBack (.ldr h g d a w r o)) ∧ (∀ h g d a w r p, ReadsBack (.stc h g d a w r p)) ∧
    (∀ h g a ch o, ReadsBack (.pfg h g a ch o)) := by
  and_intros <;> intros <;> exact readsBack_table rfl (by simp) (by decide) decodeL2_xm (by simp [decodeXm])

theorem readsBack_atomics :
    (∀ h g d a b c k x r t, ReadsBack (.atomg h g d a b c k x r t)) ∧ (∀ h g d a b c k x r t, ReadsBack (.atomp h g d a b c k x r t)) ∧
    (∀ h g d a b c k x r t, ReadsBack (.atoms h g d a b c k x r t)) ∧ (∀ h g a b c k x r t, ReadsBack (.redg h g a b c k x r t)) ∧
    (∀ h g a b c k x r t, ReadsBack (.redp h g a b c k x r t)) ∧ (∀ h g a b c k x r t, ReadsBack (.reds h g a b c k x r t)) := by
  and_intros <;> intros <;> exact readsBack_table rfl (by simp) (by decide) decodeL2_xa (by simp [decodeXa])

theorem readsBack_collectives :
    (∀ h g d a b c x m w, ReadsBack (.shfl h g d a b c x m w)) ∧ (∀ h g d a c x m n, ReadsBack (.vote h g d a c x m n)) ∧
    (∀ h g d a c x t, ReadsBack (.matchLanes h g d a c x t)) ∧ (∀ h g d a c x m t w, ReadsBack (.gred h g d a c x m t w)) ∧
    (∀ h g d a c x m t, ReadsBack (.gscan h g d a c x m t)) ∧ (∀ h g d a c x m, ReadsBack (.gargx h g d a c x m)) := by
  and_intros <;> intros <;> exact readsBack_table rfl (by simp) (by decide) decodeL2_xg (by simp [decodeXg])

theorem readsBack_matrices :
    (∀ h g d a t x, ReadsBack (.mld h g d a t x)) ∧ (∀ h g d a b c t, ReadsBack (.mma h g d a b c t)) ∧
    (∀ h g d a b c t m n x, ReadsBack (.mmax h g d a b c t m n x)) ∧ (∀ h g d a t, ReadsBack (.mst h g d a t)) ∧
    (∀ h g d, ReadsBack (.mzro h g d)) := by
  and_intros <;> intros <;> exact readsBack_table rfl (by simp) (by decide) decodeL2_xx (by simp [decodeXx])

theorem readsBack_optimisers :
    (∀ h g d a b c, ReadsBack (.oadm h g d a b c)) ∧ (∀ h g d a b c, ReadsBack (.osgd h g d a b c)) := by
  and_intros <;> intros <;> exact readsBack_table rfl (by simp) (by decide) decodeL2_xo (by simp [decodeXo])

theorem readsBack_textures :
    (∀ h g d a c, ReadsBack (.texs h g d a c)) ∧ (∀ h g d a b c, ReadsBack (.texl h g d a b c)) ∧
    (∀ h g d a c x, ReadsBack (.texg h g d a c x)) := by
  and_intros <;> intros <;> exact readsBack_table rfl (by simp) (by decide) decodeL2_xt (by simp [decodeXt])

theorem readsBack_rays :
    (∀ h g d a b p, ReadsBack (.rxbox h g d a b p)) ∧ (∀ h g d a b p, ReadsBack (.rxtri h g d a b p)) := by
  and_intros <;> intros <;> exact readsBack_table rfl (by simp) (by decide) decodeL2_xy (by simp [decodeXy])

theorem readsBack_movi (h : Head) (u : Bool) (d : VReg) (i : BitVec 32) : ReadsBack (.movi h u d i) := readsBack_l2 rfl (by simp [decodeL2])

/-- The two compares of one major, by their conditions (R73). -/
theorem readsBack_icmpLc (h : Head) (u : Bool) (p : BitVec 3) (a b : VReg) {k : BitVec 4} (hk : k.toNat < 10) : ReadsBack (.icmpLc h u p a b k) :=
  readsBack_l1 rfl (by simp [decodeL1, hk])
theorem readsBack_fcmpLc (h : Head) (u : Bool) (p : BitVec 3) (a b : VReg) {k : BitVec 4} (hk : 10 ≤ k.toNat) : ReadsBack (.fcmpLc h u p a b k) :=
  readsBack_l1 rfl (by simp [decodeL1, Nat.not_lt.2 hk])

/-- By the tables: each well-formed instruction stands in one of them. -/
theorem readsBack_of_wellFormed (i : Instr) (he : isEvent i = false) (hw : wellFormed i = true) : ReadsBack i := by
  cases i with
  | icmpLc h u p a b k => exact readsBack_icmpLc h u p a b (of_decide_eq_true hw)
  | fcmpLc h u p a b k => exact readsBack_fcmpLc h u p a b (of_decide_eq_true hw)
  | _ => first
    | simp only [readsBack_threeRegisters, readsBack_immediates, readsBack_moves, readsBack_control, readsBack_barriers, readsBack_uniformArithmetic,
        readsBack_uniformAccesses, readsBack_uniformCommands, readsBack_uniformLong, readsBack_wideInteger, readsBack_integerOperands,
        readsBack_longInteger, readsBack_guardedBranches, readsBack_float, readsBack_special, readsBack_conversions, readsBack_accesses,
        readsBack_atomics, readsBack_collectives, readsBack_matrices, readsBack_optimisers, readsBack_textures, readsBack_rays, readsBack_movi]
    | cases he

/-- Settles O42, by the tables of the encoding. -/
theorem decodingInvertsEncoding : Obligations.DecodingInvertsEncoding :=
  fun i r he hw => readsBack_of_wellFormed i he hw r

end Sys2Proof
end


section
/-! PROOFS. Branches and calls go to their legal targets, and take the trap of a check that fails (R30, R71, R320-R325). -/
namespace Sys2Proof.Machine

/-! ## The issues of a whole instruction at lane scope -/

/-- At lane scope the members are the lanes of one group. -/
theorem mem_of_lane_scope {i : Instr} {s s1 : State} {x : Site} {t : Team} (hp : s.performing i = some (s1, x, t)) (lane : x.scope = .lane) :
    x.mem.map Prod.fst = [x.gi] := by
  obtain ⟨hi, -⟩ := performing_site hp
  unfold State.performing at hp
  split at hp
  · cases hp
  · rename_i c t0 g issuing
    have alone : gather i s c t0 g = .go s ⟨i, c.tid, c.gi, c.pc, 4 * i.words, [(c.gi, c.lanes)], []⟩ := if_pos (hi ▸ lane)
    rw [alone] at hp
    split at hp
    · cases hp
    · dsimp only at hp
      split at hp
      · cases hp
      · simp only [Option.some.injEq, Prod.mk.injEq] at hp
        obtain ⟨-, rfl, -⟩ := hp
        rfl

/-- The fault reported first is one of the lanes' faults. -/
theorem firstFault_mem {l : List (Nat × Nat × Nat)} {p : Nat × Nat × Nat} (h : firstFault l = some p) : p ∈ l := by
  have chosen : ∀ (l : List (Nat × Nat × Nat)) (b : Option (Nat × Nat × Nat)), ∀ p, l.foldl (fun b q => match b with
      | none => some q
      | some p => if faultRank q.2.1 < faultRank p.2.1 then some q else some p) b = some p → p ∈ l ∨ b = some p := by
    intro l
    induction l with
    | nil => exact fun b p h => .inr h
    | cons q r ih =>
      intro b p h
      rcases ih _ p h with h | h
      · exact .inl (List.mem_cons_of_mem _ h)
      · cases b with
        | none => exact .inl (Option.some.inj h ▸ List.mem_cons_self)
        | some b =>
          dsimp only at h
          split at h
          · exact .inl (Option.some.inj h ▸ List.mem_cons_self)
          · exact .inr h
  rcases chosen _ _ _ h with h | h
  · exact (List.mem_filter.1 h).1
  · cases h

/-- The faults among the lanes' outcomes. -/
theorem mem_faultsOf {b : Body} {s : State} {x : Site} {f : Nat × Nat × Nat × Nat} :
    f ∈ faultsOf (outcomes b s x) ↔ (f.1, f.2.1) ∈ x.lanes ∧ b.lane s x f.1 f.2.1 = .fault f.2.2.1 f.2.2.2 := by
  simp only [faultsOf, outcomes, List.mem_filterMap, List.mem_map]
  constructor
  · rintro ⟨_, ⟨q, hq, rfl⟩, h⟩
    dsimp only at h
    split at h
    · rename_i c a hc
      cases h
      exact ⟨hq, hc⟩
    · cases h
  · rintro ⟨hq, hc⟩
    exact ⟨_, ⟨_, hq, rfl⟩, by simp only [hc]⟩

/-- An instruction that a lane's fault stops as a whole takes one of its lanes' faults (R321). -/
theorem issue_whole_fault {i : Instr} {b : Body} {s s1 : State} {x : Site} {t : Team} (hp : s.performing i = some (s1, x, t)) (hu : uniOf i = false)
    (whole : b.whole = true) (hprep : b.prep s1 x = s1) (hpre : b.pre s1 x = .go) (unparked : ∀ q ∈ x.lanes, ∀ r, b.lane s1 x q.1 q.2 ≠ .park r)
    {q : Nat × Nat} (hq : q ∈ x.lanes) {c a : Nat} (hc : b.lane s1 x q.1 q.2 = .fault c a) :
    ∃ (low code addr : Nat) (es : List Ent), (∃ q ∈ x.lanes, b.lane s1 x q.1 q.2 = .fault code addr) ∧
      issue i b s = .next ((s1.skidded x.tid (x.mem.map Prod.fst)).raise x.tid (x.mem.map Prod.fst) x.pc low
        { code := code, addr := addr, cause := laneCause code } es []) := by
  obtain ⟨hi, ht⟩ := performing_site hp
  have lead : x.lead false = x := rfl
  have noParks : parksOf (outcomes b s1 x) = [] := by
    simp only [parksOf, outcomes, List.filterMap_eq_nil_iff, List.mem_map]
    rintro _ ⟨q, hq, rfl⟩
    dsimp only
    split
    · rename_i r hr
      exact absurd hr (unparked q hq r)
    · rfl
  obtain ⟨f0, fs, hfs⟩ : ∃ f0 fs, faultsOf (outcomes b s1 x) = f0 :: fs :=
    List.exists_cons_of_ne_nil (List.ne_nil_of_mem (mem_faultsOf.2 (show (q.1, q.2) ∈ x.lanes ∧ _ from ⟨hq, hc⟩) : (q.1, q.2, c, a) ∈ _))
  rw [issue_of_performing hp, hprep, ht, Option.getD_some]
  obtain ⟨best, hbest⟩ : ∃ best, best = (firstFault ((faultsOf (outcomes b s1 x)).map (fun f => (32 * f.1 + f.2.1, f.2.2.1, f.2.2.2)))).getD
      (32 * f0.1 + f0.2.1, f0.2.2.1, f0.2.2.2) := ⟨_, rfl⟩
  have found : best ∈ (faultsOf (outcomes b s1 x)).map (fun f => (32 * f.1 + f.2.1, f.2.2.1, f.2.2.2)) := by
    cases hf : firstFault ((faultsOf (outcomes b s1 x)).map (fun f => (32 * f.1 + f.2.1, f.2.2.1, f.2.2.2))) with
    | none =>
      rw [hf, Option.getD_none] at hbest
      rw [hbest, hfs]
      exact List.mem_cons_self
    | some p =>
      rw [hf, Option.getD_some] at hbest
      exact hbest ▸ firstFault_mem hf
  obtain ⟨f, hf, rfl⟩ := List.mem_map.1 found
  obtain ⟨hl, hlane⟩ := mem_faultsOf.1 hf
  rw [hfs] at hbest
  suffices taken : ∃ low es, perform b s1 x t = .trap ((s1.skidded x.tid (x.mem.map Prod.fst)).raise x.tid (x.mem.map Prod.fst) x.pc low
      { code := f.2.2.1, addr := f.2.2.2, cause := laneCause f.2.2.1 } es []) by
    obtain ⟨low, es, taken⟩ := taken
    exact ⟨low, f.2.2.1, f.2.2.2, es, ⟨_, hl, hlane⟩, by rw [taken]; rfl⟩
  by_cases lane : x.scope = .lane
  · rw [mem_of_lane_scope hp lane]
    simp only [perform, hi, hu, lead, hpre, noParks, ite_self, hfs, ← hbest, lane, whole, Bool.false_or, ne_eq, not_true, decide_false,
      Bool.false_eq_true, if_false, if_true]
    exact ⟨_, _, rfl⟩
  · simp only [perform, hi, hu, lead, hpre, noParks, ite_self, hfs, ← hbest, lane, ne_eq, not_false_iff, decide_true, Bool.or_true, if_true,
      State.trapPart]
    exact ⟨_, _, rfl⟩

/-! ## Targets and levels (R30, R71, R324) -/

theorem targetChk_unparked (la : Launch) (p : Int) (r : Park) : targetChk la p ≠ .park r := by
  unfold targetChk
  dsimp only
  split
  · exact Chk.noConfusion
  · split <;> exact Chk.noConfusion
theorem callChk_unparked (tgt : Site → Group → Nat → Int) (t : Team) (x : Site) (g : Group) (l : Nat) (r : Park) : callChk tgt t x g l ≠ .park r := by
  unfold callChk
  split
  · exact Chk.noConfusion
  · exact targetChk_unparked _ _ _
/-- A check that fails faults. -/
theorem fault_of_ne_ok {c : Chk} (h : c ≠ .ok) (unparked : ∀ r, c ≠ .park r) : ∃ code a, c = .fault code a := by
  cases c with
  | ok => exact absurd rfl h
  | park r => exact absurd rfl (unparked r)
  | fault code a => exact ⟨code, a, rfl⟩

section
variable {s : State} {x : Site} {t : Team} (ht : s.team? x.tid = some t) {tgt : Site → Group → Nat → Int}
include ht
theorem chkLane_eq {f : Team → Group → Nat → Chk} {gi : Nat} {g : Group} (hg : t.groups[gi]? = some g) (l : Nat) : chkLane f s x gi l = f t g l := by
  simp only [chkLane, ht, hg]
theorem chkLane_none {f : Team → Group → Nat → Chk} {gi : Nat} (hg : t.groups[gi]? = none) (l : Nat) : chkLane f s x gi l = .ok := by
  simp only [chkLane, ht, hg]

/-- Has a participant no level left (R30). -/
def Site.deep (x : Site) (t : Team) : Prop := ∃ q ∈ x.lanes, ∃ g, t.groups[q.1]? = some g ∧ t.la.hdr.depth ≤ (g.lane q.2).depth
theorem callBody_lane_deep (h : x.deep t) (gi l : Nat) :
    (callBody tgt).lane s x gi l = if ∃ g, t.groups[gi]? = some g ∧ t.la.hdr.depth ≤ (g.lane l).depth then .fault tDEPTH 0 else .ok := by
  obtain ⟨q, hq, g, hg, hd⟩ := h
  have deep : x.lanes.any (fun q => (t.groups[q.1]?).any (fun g => decide (t.la.hdr.depth ≤ (g.lane q.2).depth))) = true :=
    List.any_eq_true.2 ⟨q, hq, by simpa [hg] using hd⟩
  simp only [callBody, ht, deep, if_true]
  cases hg' : t.groups[gi]? <;> simp
theorem callBody_lane_level (h : ¬x.deep t) (gi l : Nat) :
    (callBody tgt).lane s x gi l = chkLane (fun t g l => targetChk t.la (tgt x g l)) s x gi l := by
  have level : x.lanes.any (fun q => (t.groups[q.1]?).any (fun g => decide (t.la.hdr.depth ≤ (g.lane q.2).depth))) = false := by
    rw [List.any_eq_false]
    intro q hq
    cases hg : t.groups[q.1]? with
    | none => simp
    | some g => simpa using fun hd => h ⟨q, hq, g, hg, hd⟩
  simp only [callBody, ht, level, Bool.false_eq_true, if_false]
end

/-- What a branch checks of a lane. -/
theorem braBody_lane (tgt : Site → Group → Nat → Int) (s : State) (x : Site) (gi l : Nat) :
    (braBody tgt).lane s x gi l = chkLane (fun t g l => targetChk t.la (tgt x g l)) s x gi l := rfl
theorem chkLane_targetChk_unparked (s : State) (x : Site) (tgt : Group → Nat → Int) (gi l : Nat) (r : Park) :
    chkLane (fun t g l => targetChk t.la (tgt g l)) s x gi l ≠ .park r := by
  unfold chkLane
  split
  · exact Chk.noConfusion
  · split
    · exact Chk.noConfusion
    · exact targetChk_unparked _ _ _

/-- A branch with a failing target takes such a target's trap. -/
theorem branchTraps_of_braBody {i : Instr} {tgt : Site → Group → Nat → Int} (hu : uniOf i = false) (h : ∀ s, exec i s = issue i (braBody tgt) s) :
    BranchTraps i (fun t x g l => targetChk t.la (tgt x g l)) := by
  intro s s1 x t hp ⟨q, hq, g, hg, bad⟩
  obtain ⟨-, ht⟩ := performing_site hp
  obtain ⟨code, a, hc⟩ := fault_of_ne_ok bad (targetChk_unparked _ _)
  obtain ⟨low, code, a, es, ⟨q, hq, hc⟩, done⟩ := issue_whole_fault (b := braBody tgt) hp hu rfl rfl rfl
    (fun q _ => chkLane_targetChk_unparked s1 x (tgt x) q.1 q.2) hq (c := code) (a := a) (by rw [braBody_lane, chkLane_eq ht hg]; exact hc)
  refine ⟨low, _, es, (h s).trans done, q, hq, ?_⟩
  rw [braBody_lane] at hc
  cases hg : t.groups[q.1]? with
  | none => rw [chkLane_none ht hg] at hc; cases hc
  | some g => exact ⟨g, rfl, (chkLane_eq ht hg q.2).symm.trans hc⟩

/-! ## Calls -/

section
variable {s : State} {x : Site} {t : Team} (ht : s.team? x.tid = some t) {tgt : Site → Group → Nat → Int}
include ht
theorem callBody_lane_unparked (gi l : Nat) (r : Park) : (callBody tgt).lane s x gi l ≠ .park r := by
  by_cases deep : x.deep t
  · rw [callBody_lane_deep ht deep]
    split <;> exact Chk.noConfusion
  · rw [callBody_lane_level ht deep]
    exact chkLane_targetChk_unparked s x (tgt x) gi l r
/-- A participant's fault in a call is that of its check. -/
theorem callChk_of_callBody_fault {gi l c a : Nat} (hq : (gi, l) ∈ x.lanes) (h : (callBody tgt).lane s x gi l = .fault c a) :
    ∃ g, t.groups[gi]? = some g ∧ callChk tgt t x g l = .fault c a ∧ (x.deep t → c = tDEPTH ∧ a = 0) := by
  by_cases deep : x.deep t
  · rw [callBody_lane_deep ht deep] at h
    split at h
    · rename_i hd
      obtain ⟨g, hg, hd⟩ := hd
      cases h
      exact ⟨g, hg, if_pos hd, fun _ => ⟨rfl, rfl⟩⟩
    · cases h
  · rw [callBody_lane_level ht deep] at h
    cases hg : t.groups[gi]? with
    | none => rw [chkLane_none ht hg] at h; cases h
    | some g =>
      rw [chkLane_eq ht hg] at h
      have level : ¬t.la.hdr.depth ≤ (g.lane l).depth := fun hd => deep ⟨_, hq, g, hg, hd⟩
      exact ⟨g, rfl, (if_neg level).trans h, fun h => absurd h deep⟩
/-- Where a participant's check fails, some participant's lane faults. -/
theorem callBody_fault_of_callChk {q : Nat × Nat} {g : Group} (hq : q ∈ x.lanes) (hg : t.groups[q.1]? = some g) (bad : callChk tgt t x g q.2 ≠ .ok) :
    ∃ q ∈ x.lanes, ∃ c a, (callBody tgt).lane s x q.1 q.2 = .fault c a := by
  by_cases deep : x.deep t
  · obtain ⟨p, hp, d⟩ := id deep
    exact ⟨p, hp, tDEPTH, 0, (callBody_lane_deep ht deep p.1 p.2).trans (if_pos d)⟩
  · have level : ¬t.la.hdr.depth ≤ (g.lane q.2).depth := fun hd => deep ⟨q, hq, g, hg, hd⟩
    rw [callChk, if_neg level] at bad
    obtain ⟨c, a, hc⟩ := fault_of_ne_ok bad (targetChk_unparked _ _)
    exact ⟨q, hq, c, a, by rw [callBody_lane_level ht deep, chkLane_eq ht hg]; exact hc⟩
end

/-- A call with a failing check takes such a check's trap, that of the levels where one has none left. -/
theorem call_traps {i : Instr} {tgt : Site → Group → Nat → Int} (hu : uniOf i = false) (h : ∀ s, exec i s = issue i (callBody tgt) s)
    {s s1 : State} {x : Site} {t : Team} (hp : s.performing i = some (s1, x, t)) {q : Nat × Nat} {g : Group} (hq : q ∈ x.lanes)
    (hg : t.groups[q.1]? = some g) (bad : callChk tgt t x g q.2 ≠ .ok) :
    ∃ (low code addr : Nat) (es : List Ent), exec i s = .next ((s1.skidded x.tid (x.mem.map Prod.fst)).raise x.tid (x.mem.map Prod.fst) x.pc low
        { code := code, addr := addr, cause := laneCause code } es []) ∧
      (∃ q ∈ x.lanes, ∃ g, t.groups[q.1]? = some g ∧ callChk tgt t x g q.2 = .fault code addr) ∧ (x.deep t → code = tDEPTH ∧ addr = 0) := by
  obtain ⟨-, ht⟩ := performing_site hp
  obtain ⟨q, hq, c, a, hc⟩ := callBody_fault_of_callChk ht hq hg bad
  obtain ⟨low, code, a, es, ⟨q, hq, hc⟩, done⟩ := issue_whole_fault (b := callBody tgt) hp hu rfl rfl rfl
    (fun q _ => callBody_lane_unparked ht q.1 q.2) hq hc
  obtain ⟨g, hg, hc, hd⟩ := callChk_of_callBody_fault ht hq hc
  exact ⟨low, code, a, es, (h s).trans done, ⟨q, hq, g, hg, hc⟩, hd⟩
theorem branchTraps_of_callBody {i : Instr} {tgt : Site → Group → Nat → Int} (hu : uniOf i = false) (h : ∀ s, exec i s = issue i (callBody tgt) s) :
    BranchTraps i (callChk tgt) := by
  intro s s1 x t hp ⟨q, hq, g, hg, bad⟩
  obtain ⟨low, code, addr, es, done, taken, -⟩ := call_traps hu h hp hq hg bad
  exact ⟨low, _, es, done, taken⟩
theorem depth_trap_of_callBody {i : Instr} {tgt : Site → Group → Nat → Int} (hu : uniOf i = false) (h : ∀ s, exec i s = issue i (callBody tgt) s)
    {s s1 : State} {x : Site} {t : Team} (hp : s.performing i = some (s1, x, t)) (deep : x.deep t) :
    ∃ (low : Nat) (es : List Ent), exec i s = .next ((s1.skidded x.tid (x.mem.map Prod.fst)).raise x.tid (x.mem.map Prod.fst) x.pc low
      { code := tDEPTH } es []) := by
  obtain ⟨q, hq, g, hg, hd⟩ := id deep
  have bad : callChk tgt t x g q.2 ≠ .ok := by
    rw [callChk, if_pos hd]
    exact Chk.noConfusion
  obtain ⟨low, code, addr, es, done, -, only⟩ := call_traps hu h hp hq hg bad
  obtain ⟨rfl, rfl⟩ := only deep
  exact ⟨low, es, done⟩

/-! ## The branches and calls (R320-R325) -/

theorem targetChk_cases (la : Launch) (p : Int) :
    (p % 4 ≠ 0 → targetChk la p = .fault tALIGN (wrapW 32 p)) ∧
    (p % 4 = 0 → (p < 0 ∨ (la.hdr.codesz : Int) ≤ p) → targetChk la p = .fault tBOUNDS (wrapW 32 p)) ∧
    (p % 4 = 0 → 0 ≤ p → p < (la.hdr.codesz : Int) → targetChk la p = .ok) := by
  unfold targetChk
  refine ⟨fun h => if_pos h, fun h out => ?_, fun h low high => ?_⟩
  · rw [if_neg (not_not_intro h), if_pos out]
  · rw [if_neg (not_not_intro h), if_neg (by omega)]

/-- Settles O15: the branches and calls have the bodies whose targets are their offsets' or their registers'. -/
theorem branchesAndCallsComplete : Obligations.BranchesAndCallsComplete := by
  intro h k o a
  exact ⟨branches_of_body rfl rfl fun _ => rfl, branches_of_body rfl rfl fun _ => rfl, branches_of_body rfl rfl fun _ => rfl,
    branches_of_body rfl rfl fun _ => rfl, calls_of_body rfl rfl fun _ => rfl, calls_of_body rfl rfl fun _ => rfl,
    calls_of_body rfl rfl fun _ => rfl, calls_of_body rfl rfl fun _ => rfl⟩

/-- Settles O16: a target's three outcomes, and the trap of a whole issue among its participants' faults. -/
theorem branchTargetChecks : Obligations.BranchTargetChecks := by
  refine ⟨targetChk_cases, fun h k o a => ?_, fun h k o a i hi s s1 x t hp deep => ?_⟩
  · exact ⟨branchTraps_of_braBody rfl fun _ => rfl, branchTraps_of_braBody rfl fun _ => rfl, branchTraps_of_braBody rfl fun _ => rfl,
      branchTraps_of_braBody rfl fun _ => rfl, branchTraps_of_callBody rfl fun _ => rfl, branchTraps_of_callBody rfl fun _ => rfl,
      branchTraps_of_callBody rfl fun _ => rfl, branchTraps_of_callBody rfl fun _ => rfl⟩
  · simp only [List.mem_cons, List.not_mem_nil, or_false] at hi
    rcases hi with rfl | rfl | rfl | rfl
    · exact depth_trap_of_callBody rfl (fun _ => rfl) hp deep
    · exact depth_trap_of_callBody rfl (fun _ => rfl) hp deep
    · exact depth_trap_of_callBody rfl (fun _ => rfl) hp deep
    · exact depth_trap_of_callBody rfl (fun _ => rfl) hp deep

/-! ## Returns, exits and the uniform branches (R342, R370, R393, R411, R433, R437, R446) -/

/-- Where every participant has a caller, RET checks the stored targets alone. -/
theorem retBody_lane_of_level {s : State} {x : Site} {t : Team} (ht : s.team? x.tid = some t)
    (level : ∀ q ∈ x.lanes, ∀ g, t.groups[q.1]? = some g → (g.lane q.2).depth ≠ 0) (gi l : Nat) :
    retBody.lane s x gi l = chkLane (fun t g l => targetChk t.la (retAddr t.la.hdr g l)) s x gi l := by
  have none_empty : x.lanes.any (fun q => (s.group? x.tid q.1).any (fun g => (g.lane q.2).depth == 0)) = false := by
    rw [List.any_eq_false]
    intro q hq
    rw [group?_of_team? ht]
    cases hg : t.groups[q.1]? with
    | none => simp
    | some g => simpa using level q hq g hg
  exact if_neg (by rw [none_empty]; exact Bool.false_ne_true)

/-- Settles O17: each has a body that checks nothing but RET's, and completes with what it runs to. -/
theorem returnExitAndUniformBranchesComplete : Obligations.ReturnExitAndUniformBranchesComplete := by
  intro h a d z o s s1 x t
  refine ⟨fun hp legal => ?_, fun hp => ?_, fun hp => ?_, fun hp => ?_, fun hp => ?_, fun g hp hg => ?_, fun g hp hg => ?_⟩ <;>
    obtain ⟨hi, ht⟩ := performing_site hp
  · have level := retBody_lane_of_level ht (fun q hq g hg => (legal q hq g hg).1)
    refine (issue_go (b := retBody) hp rfl rfl (fun q hq => (level q.1 q.2).trans (chkLane_ok ht fun g hg => (legal q hq g hg).2)) ?_ ?_).trans ?_
    · simp [defers, retBody, hi, traits]
    · exact fun _ hq => nomatch hq
    · simp only [retBody, jumps, ht]
  · exact issue_run hp rfl rfl rfl rfl
  · exact issue_run hp rfl rfl rfl rfl
  · refine issue_run hp rfl rfl ?_ rfl
    simp only [ht, Option.any_some, Site.scope, hi]
    rfl
  · exact issue_run hp rfl rfl (by simp only [ht]) rfl
  · refine issue_run hp rfl rfl (by simp only [ht, hg]; rfl) ?_
    split <;> rfl
  · refine issue_run hp rfl rfl (by simp only [ht, hg]; rfl) rfl |>.trans ?_
    have last : g.rg d.toNat - 1#32 = 0#32 ↔ g.rg d.toNat = 1#32 := by bv_omega
    simp [last, uniTarget]

end Sys2Proof.Machine
end

section
/-! PROOFS. The collectives within a group and across a set (R42, R119-R121, R354-R357, R379, R415, R416, R441, R442). -/
namespace Sys2Proof.Machine

/-! ## What a collective's body runs to -/

section
variable {α : Type} {val : Header → Group → Nat → α} {f : Header → Nat → List (Nat × α) → Nat → α → List Wr} {s : State} {x : Site} {t : Team}

/-- The values of a group's participants, under their lanes. -/
def Group.vals (g : Group) (part : Mask) (val : Group → Nat → α) : List (Nat × α) := (lanesOf part).map (fun l => (l, val g l))

theorem collBody_run_group (ht : s.team? x.tid = some t) : (collBody false val f).run s x =
    (s, groupRes t x (fun _ g part l => f t.la.hdr 32 (g.vals part (val t.la.hdr)) l (val t.la.hdr g l))) := by
  simp only [collBody, ht, collUnits, Bool.false_eq_true, if_false, List.flatMap_map]
  refine congrArg (Prod.mk s) (groupRes_of_eq (fun p hg => ?_) fun p g hg => ?_)
  · simp [List.filterMap_map, hg]
  · simp [List.filterMap_map, Function.comp_def, hg, Group.vals]
theorem collBody_run_span (ht : s.team? x.tid = some t) : (collBody true val f).run s x =
    (s, spanRes t x (fun g j l => f t.la.hdr (32 * max (setSize t.la.hdr.setcode) 1) (spanVals t x (val t.la.hdr)) j (val t.la.hdr g l))) := by
  simp only [collBody, ht, collUnits, if_true, List.flatMap_cons, List.flatMap_nil, List.append_nil, spanRes, spanVals, List.filterMap_map,
    List.map_filterMap, Function.comp_def, Option.map_map]
theorem spanRes_no_flags {F : Group → Nat → Nat → List Wr} : ∀ q ∈ (spanRes t x F).lanes, q.fl = 0 := by
  intro q hq
  obtain ⟨p, -, hp⟩ := List.mem_filterMap.1 hq
  obtain ⟨g, -, rfl⟩ := Option.map_eq_some_iff.1 hp
  rfl

variable {i : Instr} (hu : uniOf i = false) (he : (traits i).ends = false)
include hu he
/-- A collective within each group computes what its function makes of the group's values. -/
theorem computesG_of_collBody {F : Team → Nat → Group → Mask → Nat → List Wr} {join : Bool} (hj : join = false)
    (h : ∀ s, exec i s = issue i (collBody join val f) s)
    (hF : ∀ t gi g part l, f t.la.hdr 32 (g.vals part (val t.la.hdr)) l (val t.la.hdr g l) = F t gi g part l) : ComputesG i F := by
  intro s s1 x t hp
  have named : F t = fun _ g part l => f t.la.hdr 32 (g.vals part (val t.la.hdr)) l (val t.la.hdr g l) := by
    funext gi g part l
    exact (hF t gi g part l).symm
  subst hj
  rw [h, named]
  exact issue_groupRes hp hu he rfl (collBody_run_group (performing_site hp).2)
/-- A collective across the set computes what its function makes of the set's values. -/
theorem computesS_of_collBody {F : Team → Site → Group → Nat → Nat → List Wr} {join : Bool} (hj : join = true)
    (h : ∀ s, exec i s = issue i (collBody join val f) s)
    (hF : ∀ t y g j l, f t.la.hdr (32 * max (setSize t.la.hdr.setcode) 1) (spanVals t y (val t.la.hdr)) j (val t.la.hdr g l) = F t y g j l) :
    ComputesS i F := by
  intro s s1 x t hp
  obtain ⟨hi, ht⟩ := performing_site hp
  have run := collBody_run_span (val := val) (f := f) ht
  simp only [hF] at run
  subst hj
  rw [h, issue_go (b := collBody true val f) hp hu rfl (fun _ _ => rfl) (by simp [defers, hi, he, collBody])
    (show ∀ q ∈ ((collBody true val f).run s1 x).2.lanes, q.fl = 0 by rw [run]; exact spanRes_no_flags)]
  show Host.Outcome.next (((collBody true val f).run s1 x).1.finish x ((collBody true val f).run s1 x).2) = _
  rw [run]
end

/-! ## The lane that SHFL reads (R416) -/

/-- The value of the lane an index names, where that lane is a participant. -/
theorem find?_lanesOf (m : Mask) (v : Nat → Word) (k : Int) :
    ((lanesOf m).map (fun l => (l, v l))).find? (fun q => (q.1 : Int) == k) =
      if 0 ≤ k ∧ k < 32 ∧ m.has k.toNat then some (k.toNat, v k.toNat) else none := by
  split
  · rename_i named
    obtain ⟨low, high, has⟩ := named
    have listed : k.toNat ∈ lanesOf m := mem_lanesOf.2 ⟨by omega, has⟩
    rw [List.find?_map]
    cases hf : (lanesOf m).find? ((fun q : Nat × Word => (q.1 : Int) == k) ∘ fun l => (l, v l)) with
    | none => exact absurd (List.find?_eq_none.1 hf _ listed) (by simp; omega)
    | some l =>
      have found : (l : Int) = k := by simpa using List.find?_some hf
      rw [← found]
      rfl
  · rename_i unnamed
    rw [List.find?_eq_none]
    intro q hq same
    obtain ⟨l, hl, rfl⟩ := List.mem_map.1 hq
    obtain ⟨lt, has⟩ := mem_lanesOf.1 hl
    have same : (l : Int) = k := by simpa using same
    exact unnamed ⟨by omega, by omega, by rw [← same]; exact has⟩
/-- The index that SHFL's mode makes of a lane and its operand. -/
def shflIndex (m : BitVec 3) (l o : Nat) : Int :=
  if m = 0 then ((o % 32 : Nat) : Int) else if m = 1 then (l : Int) - o else if m = 2 then (l : Int) + o else ((Nat.xor l (o % 32) : Nat) : Int)
theorem shfl_lanesOf (m : BitVec 3) (part : Mask) (v : Nat → Word) (l : Nat) (a b : Word) :
    shfl m.toNat 32 ((lanesOf part).map (fun j => (j, v j))) l a b =
      if 0 ≤ shflIndex m l b.toNat ∧ shflIndex m l b.toNat < 32 ∧ part.has (shflIndex m l b.toNat).toNat then v (shflIndex m l b.toNat).toNat else a := by
  have index : shfl m.toNat 32 ((lanesOf part).map (fun j => (j, v j))) l a b =
      match ((lanesOf part).map (fun j => (j, v j))).find? (fun q => (q.1 : Int) == shflIndex m l b.toNat) with
      | some q => q.2
      | none => a := by
    obtain rfl | rfl | rfl | high : m = 0 ∨ m = 1 ∨ m = 2 ∨ 3 ≤ m.toNat := by bv_omega
    · rfl
    · rfl
    · rfl
    · obtain ⟨k, hk⟩ : ∃ k, m.toNat = k + 3 := ⟨m.toNat - 3, by omega⟩
      have h0 : m ≠ 0 := by rintro rfl; cases hk
      have h1 : m ≠ 1 := by rintro rfl; cases hk
      have h2 : m ≠ 2 := by rintro rfl; cases hk
      simp only [shflIndex, h0, h1, h2, if_false, hk]
      rfl
  rw [index, find?_lanesOf]
  by_cases named : 0 ≤ shflIndex m l b.toNat ∧ shflIndex m l b.toNat < 32 ∧ part.has (shflIndex m l b.toNat).toNat
  · rw [if_pos named, if_pos named]
  · rw [if_neg named, if_neg named]
theorem toNat_beq_toNat (a b : Word) : (a.toNat == b.toNat) = (a == b) := by
  rw [Bool.eq_iff_iff, beq_iff_eq, beq_iff_eq, BitVec.toNat_inj]
theorem spanVals_map {α β : Type} (t : Team) (y : Site) (val : Group → Nat → α) (r : α → β) :
    (spanVals t y val).map (fun q => (q.1, r q.2)) = spanVals t y (fun g l => r (val g l)) := by
  simp only [spanVals, List.map_filterMap, Option.map_map, Function.comp_def]

/-- Settles O14: each collective has the body of a collective, of one group or of the set, and its function is the one stated. -/
theorem collectivesComplete : Obligations.CollectivesComplete := by
  refine ⟨fun h k d a b c p x n m t => ⟨?shfl, ?any, ?all, fun many => ?ballot, fun word => ?matchWord, ?matchPair, ?gred, ?gscan, fun group => ?gargx⟩,
    fun h k d a b c x m t => ⟨?shflSpan, ?gredSpan, fun set => ?gargxSet⟩⟩
  case shfl =>
    refine computesG_of_collBody rfl rfl rfl (fun _ => rfl) fun t gi g part l => ?_
    exact congrArg (fun w => [Wr.v d.toNat w]) ((congrArg (fun vs => shfl m.toNat 32 vs l _ _) (List.map_map ..)).trans (shfl_lanesOf ..))
  case any | all => exact computesG_of_collBody rfl rfl rfl (fun _ => rfl) fun t gi g part l => by simp [Group.vals, Function.comp_def]
  case ballot =>
    refine computesG_of_collBody rfl rfl rfl (fun _ => rfl) fun t gi g part l => ?_
    obtain ⟨j, hj⟩ : ∃ j, m.toNat = j + 2 := ⟨m.toNat - 2, by omega⟩
    simp [Group.vals, Function.comp_def, hj, List.filter_map]
  case matchWord =>
    exact computesG_of_collBody rfl rfl rfl (fun _ => rfl) fun t gi g part l => by
      simp [Group.vals, Function.comp_def, word, List.filter_map, toNat_beq_toNat]
  case matchPair =>
    exact computesG_of_collBody rfl rfl rfl (fun _ => rfl) fun t gi g part l => by simp [Group.vals, Function.comp_def, List.filter_map]
  case gred => exact computesG_of_collBody rfl rfl rfl (fun _ => rfl) fun t gi g part l => rfl
  case gscan =>
    exact computesG_of_collBody rfl rfl rfl (fun _ => rfl) fun u gi g part l => by simp [Group.vals, Function.comp_def]
  case gargx => exact computesG_of_collBody rfl rfl (beq_eq_false_iff_ne.2 group) (fun _ => rfl) fun t gi g part l => rfl
  case shflSpan =>
    exact computesS_of_collBody rfl rfl rfl (fun _ => rfl) fun t y g j l =>
      congrArg (fun vs => [Wr.v _ (shfl m.toNat _ vs j _ _)]) (spanVals_map t y _ Prod.fst)
  case gredSpan => exact computesS_of_collBody rfl rfl rfl (fun _ => rfl) fun t y g j l => rfl
  case gargxSet => exact computesS_of_collBody rfl rfl (beq_iff_eq.2 set) (fun _ => rfl) fun t y g j l => rfl

end Sys2Proof.Machine
end

section
/-! PROOFS. LDR, STC and PFG complete (R29, R142, R166, R170, R376, R397, R418). -/
namespace Sys2Proof.Machine

/-- An instruction at the coherence point whose lanes all pass, and which no access of the team's own puts off to the round's end, completes with what
its body runs to. -/
theorem issue_drained {i : Instr} {b : Body} {s s1 : State} {x : Site} {t : Team} (hp : s.atPoint i = some (s1, x, t)) (hu : uniOf i = false)
    (he : (traits i).ends = false) (hprep : ∀ s x, b.prep s x = drainPrep s x) (hpre : b.pre s1 x = .go) (hl : ∀ q ∈ x.lanes, b.lane s1 x q.1 q.2 = .ok)
    (hd : b.defer s1 x = false) (hf : ∀ q ∈ (b.run s1 x).2.lanes, q.fl = 0) : issue i b s = .next ((b.run s1 x).1.finish x (b.run s1 x).2) := by
  obtain ⟨s0, t0, hq, rfl, rfl⟩ := atPoint_performing hp
  obtain ⟨hi, -⟩ := performing_site hq
  rw [← hprep] at hpre hl hd hf ⊢
  exact issue_go hq hu hpre hl (by simp only [defers, hi, he, hd, Bool.or_false, Bool.and_false]) hf
/-- Parts that join the store queues have no flags. -/
theorem queueRmw_flags {s : State} {x : Site} {rel : Bool} {mk : State → Team → Group → Nat → Nat → State × Option Rmw} :
    ∀ q ∈ (s.queueRmw x rel mk).2.lanes, q.fl = 0 := by
  intro q hq
  obtain ⟨_, -, rfl⟩ := List.mem_map.1 hq
  rfl

/-- Settles O21: each has its body, and an STC one of its two runs as it must wait or not. -/
theorem reservedAndPrefetchInstructionsComplete : Obligations.ReservedAndPrefetchInstructionsComplete := by
  intro h k d a w r ch p o s s1 x t
  refine ⟨fun hp own ok => ⟨_, rfl, ?ldr⟩, fun hp own ok => ⟨fun wait => ⟨_, rfl, ?queued⟩, fun now => ⟨_, rfl, ?now⟩⟩, fun hp => ?pfg⟩
  case ldr =>
    exact issue_drained (b := ldrBody w.toNat d.toNat (r == 1) (globalAddr a.toNat o.toInt)) hp rfl rfl (fun _ _ => rfl) rfl ok own lanesDo_flags
  case queued =>
    have done := issue_drained (b := stcBody w.toNat d.toNat (r == 1) p.toNat (globalAddr a.toNat 0)) hp rfl rfl (fun _ _ => rfl) rfl ok own
    simp only [stcBody, wait, if_true] at done
    exact done queueRmw_flags
  case now =>
    have done := issue_drained (b := stcBody w.toNat d.toNat (r == 1) p.toNat (globalAddr a.toNat 0)) hp rfl rfl (fun _ _ => rfl) rfl ok own
    simp only [stcBody, now, Bool.false_eq_true, if_false] at done
    exact done lanesDo_flags
  case pfg => exact issue_run hp rfl rfl rfl rfl

end Sys2Proof.Machine
end

section
/-! PROOFS. The checks before the effect: decode, rendezvous, hindrances and enabled flags (R32-R34, R44, R72, R102, R192, R276). -/
namespace Sys2Proof.Machine

/-! ## An issue attempt -/

/-- Every instruction that is no event issues a body. -/
theorem exists_body {i : Instr} (hi : isEvent i = false) : ∃ b : Body, ∀ s, exec i s = issue i b s := by
  cases i with
  | powerUp | bundleFormation | fairnessTimer | cinchWindowClose | variableLatencyWriteback | writeAcknowledge | brambleCommit | clusterPlacement
  | bridleClusterPlacement | teamRetire | cardLineLanded | pageWalkComplete | atsTranslation | lineMigration | partitionWrite | granuleMapWrite
  | granuleRemapComplete | mirrorSizeWrite | hostPostedWrite | hostRead | cxlSnoop | atsInvalidation | roundEnd | roundResume | gridSyncMerge
  | gridEndMerge | cardStart | aredMeet | cardComplete | cardFail | channelMessageArrive | doorbell | skip | haltClear | queueEnable | packetStart
  | realtimePreempt | taskPlacement | binSwitch | graphNodeComplete | waitNodeExpiry | frameBoundary | budgetCharge | issueAgeLimit | poolMove
  | poolMoveComplete | nocGovernorSample | hbmPowerDown | hbmSelfRefresh | hbmExit | controlInterval | admissionAgeing | sensorSample | t4Cutoff
  | throttleRelease | dieReenable | hotspotMigration | powerBudgetWrite | occupancyThresholdWrite | preemption | timeSliceExpiry
  | teamSaveComplete | pgreplyRetry | pgreplyDecline | resumeContinue | resumeSkip | resumeEnd | resumeKill | replyHighWordLatch | tqrdWrite
  | tqerrRetry | contextEnable | contextDisable | uncorrectableError | lostSector | correctedError | coreRetire | subbankSpare | hbmRowRepair
  | linkLaneSpare | dieReinit | dieReinitComplete | lifetimeRecordWrite | enmerFlitReceive | enmerRemoteRequest | peerTimeout | peerMapWrite
  | rdmaWrite | ptpSync | liveUpdate | rollbackCounterAdvance | getVersion | getCapabilities | negotiateAlgorithms | getDigests | getCertificate
  | challenge | getMeasurements | keyExchange | finish | endSession | pldmMonitor | pldmFru | pldmFirmwareUpdate | lifetimeRecordRead
  | registerWrite | powerLoss | hbmRowRepairComplete | teamRestoreComplete => cases hi
  | _ => exact ⟨_, fun _ => rfl⟩
/-- So it makes an attempt of the issue under way. -/
theorem exists_issueAt {i : Instr} (hi : isEvent i = false) {s : State} {c : Cur} {t : Team} {g : Group} (h : s.issuer = some (c, t, g)) :
    ∃ b : Body, exec i s = .next (issueAt i b s c t g) := by
  obtain ⟨b, hb⟩ := exists_body hi
  exact ⟨b, by rw [hb, issue]; simp only [h]⟩

section
variable {i : Instr} {b : Body} {s s1 : State} {c : Cur} {t : Team} {g : Group}

theorem issueAt_screened {code : Nat} (h : screen i s t c.gi = some code) : issueAt i b s c t g = s.trapScreen i c t g code := by
  simp only [issueAt, h]
theorem issueAt_stall (h : screen i s t c.gi = none) (hb : g.bram.isSome = true) (hc : stallClass i = true) :
    issueAt i b s c t g = s.stallGroup c.tid c.gi := by
  simp only [issueAt, h, hb, hc, Bool.and_self, if_true]
section
variable (h : screen i s t c.gi = none) (calm : g.bram = none ∨ stallClass i = false)
include h calm
theorem issueAt_stop (hg : gather i s c t g = .stop s1) : issueAt i b s c t g = s1 := by
  have no_stall : (g.bram.isSome && stallClass i) = false := by rcases calm with h | h <;> simp [h]
  simp only [issueAt, h, no_stall, hg, Bool.false_eq_true, if_false]
theorem issueAt_go {y : Site} (hg : gather i s c t g = .go s1 y) : issueAt i b s c t g = afterGather i b s1 y ((s1.team? c.tid).getD t) := by
  have no_stall : (g.bram.isSome && stallClass i) = false := by rcases calm with h | h <;> simp [h]
  simp only [issueAt, h, no_stall, hg, Bool.false_eq_true, if_false]
end

/-! ## The decode checks (R44, R72) -/

theorem screen_ill {gi : Nat} (h : legal t.la.hdr t.la.nb i = false) : screen i s t gi = some tILL := by
  simp only [screen, h, Bool.not_false, if_true]
theorem screen_priv {gi : Nat} (h : legal t.la.hdr t.la.nb i = true) (hp : isPriv i = true) (hc : s.ctxPriv t.ctx = false) :
    screen i s t gi = some tPRIV := by
  simp [screen, h, hp, hc]
theorem screen_role {gi : Nat} (h : legal t.la.hdr t.la.nb i = true) (hp : isPriv i = false ∨ s.ctxPriv t.ctx = true)
    (hr : ∃ j ∈ roleGroups t gi (headOf i).scope, ∃ g', t.groups[j]? = some g' ∧ roleForbids g'.role i = true) :
    screen i s t gi = some tROLE := by
  have allowed : (isPriv i && !s.ctxPriv t.ctx) = false := by rcases hp with h | h <;> simp [h]
  have forbidden : (roleGroups t gi (headOf i).scope).any (fun j => match t.groups[j]? with
      | some g => roleForbids g.role i
      | none => false) = true := by
    obtain ⟨j, hj, g', hg', hf⟩ := hr
    exact List.any_eq_true.2 ⟨j, hj, by simp only [hg', hf]⟩
  unfold screen
  rw [h, allowed]
  exact if_pos forbidden
theorem screen_of_offence {gi : Nat} (bad : legal t.la.hdr t.la.nb i = false ∨ (isPriv i = true ∧ s.ctxPriv t.ctx = false) ∨
    ∃ j ∈ roleGroups t gi (headOf i).scope, ∃ g', t.groups[j]? = some g' ∧ roleForbids g'.role i = true) :
    ∃ code, screen i s t gi = some code := by
  cases hl : legal t.la.hdr t.la.nb i with
  | false => exact ⟨_, screen_ill hl⟩
  | true =>
    by_cases hp : isPriv i = true ∧ s.ctxPriv t.ctx = false
    · exact ⟨_, screen_priv hl hp.1 hp.2⟩
    · have allowed : isPriv i = false ∨ s.ctxPriv t.ctx = true := by
        simpa only [not_and_or, Bool.not_eq_true, Bool.not_eq_false] using hp
      rcases bad with bad | bad | hr
      · exact absurd bad (by simp [hl])
      · exact absurd bad hp
      · exact ⟨_, screen_role hl allowed hr⟩
theorem roleGroups_narrow {gi : Nat} {sc : Scope} (h : sc = .lane ∨ sc = .group) : roleGroups t gi sc = [gi] := by
  rcases h with rfl | rfl <;> rfl

/-- A code of the decode checks that is not a role's of a wide scope traps the lanes of the attempt. -/
theorem trapScreen_attempt (hb : g.bram = none) {code : Nat} (h : code ≠ tROLE ∨ (headOf i).scope = .lane ∨ (headOf i).scope = .group) :
    s.trapScreen i c t g code = (s.skidded c.tid [c.gi]).raise c.tid [c.gi] c.pc (32 * c.gi + (lanesOf c.lanes).headD 0) { code := code }
        [⟨code, c.gi, 1, c.lanes, 0, c.pc, 0⟩] [] := by
  have alone : (code = tROLE && ((headOf i).scope == .set || (headOf i).scope == .team) && g.bram.isNone) = false := by
    rcases h with h | h | h <;> simp [h]
  refine (if_neg (by rw [Bool.not_eq_true]; exact alone)).trans ?_
  simp only [State.trapEarly, hb]
  rfl
theorem trapScreen_wide (hb : g.bram = none) (h : (headOf i).scope = .set ∨ (headOf i).scope = .team) :
    s.trapScreen i c t g tROLE = s.trapWhole ⟨i, c.tid, c.gi, c.pc, 4 * i.words,
      membersOf t (unitGroups t c.gi (headOf i).scope) (headOf i).scope 0xFFFFFFFF, []⟩ { code := tROLE } := by
  have whole : (tROLE = tROLE && ((headOf i).scope == .set || (headOf i).scope == .team) && g.bram.isNone) = true := by
    rcases h with h | h <;> simp [h, hb]
  exact if_pos whole
theorem trapScreen_speculating (hb : g.bram.isSome = true) {code : Nat} : s.trapScreen i c t g code = s.stallGroup c.tid c.gi := by
  obtain ⟨bram, hb⟩ := Option.isSome_iff_exists.1 hb
  simp [State.trapScreen, State.trapEarly, hb]

/-! ## The rendezvous (R32-R34) -/

theorem gather_met (hs : (headOf i).scope ≠ .lane) (hm : c.metLanes g ≠ 0) :
    gather i s c t g = .go s ⟨i, c.tid, c.gi, c.pc, 4 * i.words, [(c.gi, c.metLanes g)], []⟩ := by
  simp only [gather, hs, hm, ne_eq, not_false_iff, if_false, if_true]
theorem gather_offends (hs : (headOf i).scope ≠ .lane) (hm : c.metLanes g = 0) (ho : (maskChk i (c.widen g) g).2 ≠ 0) :
    gather i s c t g = .stop (s.trapMask (c.widen g) g (maskChk i (c.widen g) g).1 (maskChk i (c.widen g) g).2 (headOf i).scope) := by
  simp only [gather, hs, hm, ho, ne_eq, not_true, not_false_iff, if_false, if_true]
theorem gather_waits (hs : (headOf i).scope ≠ .lane) (hm : c.metLanes g = 0) (ho : (maskChk i (c.widen g) g).2 = 0)
    (ha : allArrived (t.modGroup c.gi (Group.arrive (maskChk i (c.widen g) g).1 (headOf i).scope (c.widen g).lanes)) (unitGroups
          (t.modGroup c.gi (Group.arrive (maskChk i (c.widen g) g).1 (headOf i).scope (c.widen g).lanes)) c.gi (headOf i).scope)
          (headOf i).scope (maskChk i (c.widen g) g).1 c.pc = false) :
    gather i s c t g =
      .stop ((s.modGroup c.tid c.gi (Group.arrive (maskChk i (c.widen g) g).1 (headOf i).scope (c.widen g).lanes)).splitCheck c.tid c.gi) := by
  unfold gather
  rw [if_neg hs, if_neg (not_not_intro hm)]
  dsimp only
  rw [if_neg (not_not_intro ho)]
  exact if_neg (by rw [Bool.not_eq_true]; exact ha)
end

/-! ## Enabled flags (R102, R276) -/

/-- A body whose checks pass, and whose results raise an enabled flag, takes #FPX. -/
theorem perform_fpx {b : Body} {s : State} {x : Site} {t : Team} {q : Nat × Nat} {l : List (Nat × Nat)} (hp : b.pre s (x.lead (uniOf x.i)) = .go)
    (hl : ∀ q ∈ (x.lead (uniOf x.i)).lanes, b.lane s (x.lead (uniOf x.i)) q.1 q.2 = .ok) (hd : defers b s x t = false)
    (hf : fpxLanes s x.tid (if uniOf x.i then (b.run s (x.lead (uniOf x.i))).2 else spread x (uniOf x.i) (b.run s (x.lead (uniOf x.i))).2) = q :: l) :
    (perform b s x t).state = s.trapFpx x (spread x (uniOf x.i) (b.run s (x.lead (uniOf x.i))).2) (q :: l) := by
  unfold perform
  simp only [hp, (outcomes_ok hl).1, (outcomes_ok hl).2]
  simp only [List.map_nil, dropLanes_nil, ite_self, List.isEmpty_nil, Bool.not_true, Bool.false_and, Bool.false_eq_true, if_false, hd, hf, End.state]
/-- The results that the flags are looked for in: the leading lane's under UNI. -/
theorem laneBody_leading_lanes {s : State} {x : Site} {t : Team} {f : Group → Nat → List Wr × Flags} (ht : s.team? x.tid = some t) :
    (if uniOf x.i then ((laneBody f).run s (x.lead (uniOf x.i))).2 else spread x (uniOf x.i) ((laneBody f).run s (x.lead (uniOf x.i))).2) =
      { lanes := (laneRes t x (fun _ g l => f g l)).lanes.take (if uniOf x.i then 1 else x.lanes.length) } := by
  rw [laneBody_res ht]
  cases hu : uniOf x.i with
  | false => simp [laneRes]
  | true =>
    have htid : (x.lead true).tid = x.tid := rfl
    simp only [laneBody, htid, ht, lead_lanes, laneRes, Site.source, hu, if_true, ← List.map_take]
    cases hx : x.lanes with
    | nil => rfl
    | cons q r =>
      simp only [List.take_succ_cons, List.take_zero, List.map_cons, List.map_nil, List.headD_cons]
theorem trapsF_of_laneBody {i : Instr} {f : Group → Nat → List Wr × Flags} (he : (traits i).ends = false)
    (h : ∀ s, exec i s = issue i (laneBody f) s) : TrapsF i f := by
  intro s s1 x t q l hp hf
  obtain ⟨rfl, ht⟩ := performing_site hp
  have team : (((laneBody f).prep s1 x).team? x.tid).getD t = t := by
    show (s1.team? x.tid).getD t = t
    rw [ht]
    rfl
  rw [h, issue_of_performing hp, team]
  show Host.Outcome.next (perform (laneBody f) s1 x t).state = _
  rw [perform_fpx rfl (fun _ _ => rfl) (by simp [defers, he, laneBody]) (by rw [laneBody_leading_lanes ht]; exact hf), laneBody_res ht]

/-- Settles O36: the decode checks of an attempt in their order, the cases of its rendezvous, what hinders it, and #FPX of the bodies that raise flags. -/
theorem checksBeforeTheEffect : Obligations.ChecksBeforeTheEffect := by
  refine ⟨fun i s c t g hi issuing => ?_, fun i s c t g hi issuing screened => ?_, fun h u k d a b c m t p cc => ?_⟩
  · obtain ⟨b, hx⟩ := exists_issueAt hi issuing
    obtain ⟨-, -, hg⟩ := issuer_team issuing
    rw [hx]
    refine ⟨fun calm code hc => congrArg Host.Outcome.next ?_, fun calm hl hp hs hr => congrArg Host.Outcome.next ?_,
      fun bram hb bad => congrArg Host.Outcome.next ?_⟩
    · rcases hc with ⟨hl, rfl⟩ | ⟨hl, hp, hn, rfl⟩ | ⟨hl, hp, hs, hr, rfl⟩
      · rw [issueAt_screened (screen_ill hl), trapScreen_attempt calm (.inl (by decide))]
      · rw [issueAt_screened (screen_priv hl hp hn), trapScreen_attempt calm (.inl (by decide))]
      · rw [issueAt_screened (screen_role hl hp ⟨c.gi, by rw [roleGroups_narrow hs]; exact List.mem_singleton.2 rfl, g, hg, hr⟩),
          trapScreen_attempt calm (.inr hs)]
    · rw [issueAt_screened (screen_role hl hp hr), trapScreen_wide calm hs]
    · obtain ⟨code, hc⟩ := screen_of_offence bad
      rw [issueAt_screened hc, trapScreen_speculating (Option.isSome_of_eq_some hb)]
  · obtain ⟨b, hx⟩ := exists_issueAt hi issuing
    rw [hx]
    refine ⟨fun hb hc => congrArg _ (issueAt_stall screened hb hc), fun calm => ⟨fun hs hm ho ha => ?_, gather_met, fun hs hm ho => ⟨fun hb => ?_, fun hb => ?_⟩, ?_⟩⟩
    · rw [issueAt_stop screened calm (gather_waits hs hm ho ha)]
    · rw [issueAt_stop screened calm (gather_offends hs hm ho)]
      simp only [State.trapMask, hb]
      rfl
    · obtain ⟨bram, hb⟩ := Option.isSome_iff_exists.1 hb
      rw [issueAt_stop screened calm (gather_offends hs hm ho)]
      simp only [State.trapMask, hb]
      rfl
    · rintro s1 x y u hg rfl rfl
      rw [issueAt_go screened calm hg]
      refine ⟨fun r hr => ?_, fun tr hr hs => ?_, fun tr hr hs hc => ?_, fun tr hr hs hc => ?_⟩
      · simp only [afterGather, hr]
      · simp only [afterGather, hr, hs, if_true]
      · simp only [afterGather, hr, hs, hc, Bool.false_eq_true, if_false]
      · simp only [afterGather, hr, hs, hc, Bool.false_eq_true, if_false, if_true]
  · refine ⟨?_, ?_, ?_, ?_, ?_, ?_, ?_, ?_, ?_, fun y f hf => ?_⟩
    case refine_10 =>
      simp only [List.mem_cons, List.not_mem_nil, or_false, Prod.mk.injEq] at hf
      rcases hf with ⟨rfl, rfl⟩ | ⟨rfl, rfl⟩ | ⟨rfl, rfl⟩
      · exact trapsF_of_laneBody rfl fun _ => rfl
      · exact trapsF_of_laneBody rfl fun _ => rfl
      · exact trapsF_of_laneBody rfl fun _ => rfl
    all_goals exact trapsF_of_laneBody rfl fun _ => rfl

end Sys2Proof.Machine
end

section
/-! PROOFS. Completing writes the results, advances the lanes and leaves all else as it stands (R37, R51, R56, R92). -/
namespace Sys2Proof.Machine

/-! ## One lane of a group -/

section
variable {β : Type} {π : Lane → β}
theorem Group.lane_of_lanes {g g' : Group} (h : g'.lanes = g.lanes) (l : Nat) : g'.lane l = g.lane l := by
  rw [Group.lane, h, Group.lane]
/-- What a change of a lane keeps, it keeps in every lane of the group. -/
theorem Group.lane_modLane_keeps (π : Lane → β) {f : Lane → Lane} (g : Group) (l l' : Nat) (hf : ∀ q, π (f q) = π q) :
    π ((g.modLane l f).lane l') = π (g.lane l') := by
  simp only [Group.lane, Group.modLane, updAt_getElem?]
  split
  · cases g.lanes[l']? with
    | none => rfl
    | some q => exact hf q
  · rfl
theorem Group.lane_modLane_ne (f : Lane → Lane) (g : Group) {l l' : Nat} (h : l' ≠ l) : (g.modLane l f).lane l' = g.lane l' := by
  simp only [Group.lane, Group.modLane, updAt_getElem?, if_neg h.symm]
/-- A lane of the group after a change of each lane by its number. -/
theorem Group.lane_map {g g' : Group} {f : Nat × Lane → Lane} (h : g'.lanes = (enum g.lanes).map f) {l : Nat} (hl : l < g.lanes.length) :
    g'.lane l = f (l, g.lane l) := by
  simp [Group.lane, h, List.getElem?_eq_getElem hl]
theorem Group.lane_map_keeps {g g' : Group} {f : Nat × Lane → Lane} (h : g'.lanes = (enum g.lanes).map f) (hf : ∀ p, π (f p) = π p.2) (l : Nat) :
    π (g'.lane l) = π (g.lane l) := by
  by_cases hl : l < g.lanes.length
  · rw [Group.lane_map h hl, hf]
  · simp [Group.lane, h, List.getElem?_eq_none (Nat.not_lt.1 hl)]
end

/-! ## The steps of a completion -/

/-- A group's control registers, role and quarter, its store queue and its watermark. -/
def Group.controls (g : Group) := (g.fpctl, g.seed, g.permBase, g.role, g.quarter, g.sq, g.wm)
/-- The registers, predicates and flags that results name in lane `l` of group `j`. -/
def Res.writesV (r : Res) (j l k : Nat) : Prop := ∃ q ∈ r.lanes, q.gi = j ∧ q.lane = l ∧ ∃ w, Wr.v k w ∈ q.ws
def Res.writesP (r : Res) (j l p : Nat) : Prop := ∃ q ∈ r.lanes, q.gi = j ∧ q.lane = l ∧ ∃ b, Wr.p p b ∈ q.ws
def Res.writesF (r : Res) (j l : Nat) : Prop := ∃ q ∈ r.lanes, q.gi = j ∧ q.lane = l ∧ (q.fl ≠ 0 ∨ ∃ f, Wr.f f ∈ q.ws)
/-- Group `j` after a step of a completion with the results `r`: only what they name has changed, but for the bookkeeping of its issues. -/
structure Group.Framed (r : Res) (j : Nat) (g g' : Group) : Prop where
  controls : g'.controls = g.controls
  vector : ∀ l k, l < 32 → ¬r.writesV j l k → g'.rv l k = g.rv l k
  predicate : ∀ l p, ¬r.writesP j l p → g'.rp l p = g.rp l p
  uniform : ∀ k, (∀ q ∈ r.gs, q.1 ≠ k) → g'.rg k = g.rg k
  flags : ∀ l, ¬r.writesF j l → (g'.lane l).fl = (g.lane l).fl
  kept : ∀ l, ((g'.lane l).depth, (g'.lane l).resv) = ((g.lane l).depth, (g.lane l).resv)

section
variable {r : Res} {j : Nat} {g g' g'' : Group}
theorem Group.Framed.refl (g : Group) : g.Framed r j g := ⟨rfl, fun _ _ _ _ => rfl, fun _ _ _ => rfl, fun _ _ => rfl, fun _ _ => rfl, fun _ => rfl⟩
theorem Group.Framed.trans (h : g.Framed r j g') (h' : g'.Framed r j g'') : g.Framed r j g'' where
  controls := h'.controls.trans h.controls
  vector l k hl hw := (h'.vector l k hl hw).trans (h.vector l k hl hw)
  predicate l p hw := (h'.predicate l p hw).trans (h.predicate l p hw)
  uniform k hw := (h'.uniform k hw).trans (h.uniform k hw)
  flags l hw := (h'.flags l hw).trans (h.flags l hw)
  kept l := (h'.kept l).trans (h.kept l)
/-- A step that changes no register, and of no lane its flags, depth or reservation. -/
theorem Group.Framed.of_bookkeeping (hc : g'.controls = g.controls) (hr : (g'.v, g'.p, g'.g) = (g.v, g.p, g.g))
    (hl : ∀ l, ((g'.lane l).fl, (g'.lane l).depth, (g'.lane l).resv) = ((g.lane l).fl, (g.lane l).depth, (g.lane l).resv)) : g.Framed r j g' := by
  simp only [Prod.mk.injEq] at hr hl
  obtain ⟨hv, hp, hg⟩ := hr
  exact ⟨hc, fun l k _ _ => by simp only [Group.rv, hv], fun l p _ => by simp only [Group.rp, hp], fun k _ => by simp only [Group.rg, hg],
    fun l _ => (hl l).1, fun l => by rw [(hl l).2.1, (hl l).2.2]⟩
theorem Group.Framed.foldl {α : Type} {f : Group → α → Group} {as : List α} (h : ∀ g : Group, ∀ a ∈ as, g.Framed r j (f g a)) (g : Group) :
    g.Framed r j (as.foldl f g) :=
  List.foldlRecOn (motive := g.Framed r j) as f (.refl g) fun g' hg a ha => hg.trans (h g' a ha)

/-! ## Each write -/

theorem framed_wv {l k : Nat} (x : Word) (hl : l < 32) (named : r.writesV j l k) : g.Framed r j (g.wv l k x) where
  controls := rfl
  vector l' k' hl' other := g.rv_wv_other x hl hl' fun same => other (by cases same; exact named)
  predicate _ _ _ := rfl
  uniform _ _ := rfl
  flags _ _ := rfl
  kept _ := rfl
/-- Beyond the 32 lanes a mask has no bit. -/
theorem Group.rp_beyond (g : Group) {l p : Nat} (hl : 32 ≤ l) : g.rp l p = decide (p = 7) := by
  unfold Group.rp
  split
  · simp [*]
  · simp [*]
theorem framed_wp {l k : Nat} (b : Bool) (named : r.writesP j l k) : g.Framed r j (g.wp l k b) where
  controls := by unfold Group.wp; split <;> rfl
  vector l' k' _ _ := by unfold Group.wp; split <;> rfl
  predicate l' k' other := by
    by_cases hl' : l' < 32
    · exact g.rp_wp_other b hl' fun same => other (by cases same; exact named)
    · rw [Group.rp_beyond _ (Nat.not_lt.1 hl'), Group.rp_beyond _ (Nat.not_lt.1 hl')]
  uniform _ _ := by unfold Group.wp; split <;> rfl
  flags _ _ := by unfold Group.wp; split <;> rfl
  kept _ := by unfold Group.wp; split <;> rfl
theorem framed_flags {l : Nat} (x : Flags) (named : r.writesF j l) : g.Framed r j (g.modLane l (fun q => { q with fl := q.fl ||| x })) where
  controls := rfl
  vector _ _ _ _ := rfl
  predicate _ _ _ := rfl
  uniform _ _ := rfl
  flags l' other := congrArg Lane.fl (g.lane_modLane_ne _ fun same => other (by cases same; exact named))
  kept l' := Group.lane_modLane_keeps (fun q => (q.depth, q.resv)) g l l' fun _ => rfl
theorem framed_wg {k : Nat} (x : Word) (named : ∃ q ∈ r.gs, q.1 = k) : g.Framed r j (g.wg k x) where
  controls := by unfold Group.wg; split <;> rfl
  vector _ _ _ _ := by unfold Group.wg; split <;> rfl
  predicate _ _ _ := by unfold Group.wg; split <;> rfl
  uniform k' other := g.rg_wg_other x fun same => by
    obtain ⟨q, hq, rfl⟩ := named
    exact other q hq same.symm
  flags _ _ := by unfold Group.wg; split <;> rfl
  kept _ := by unfold Group.wg; split <;> rfl

/-! ## Results, advance and counts -/

/-- The writes of one result, its flags last. -/
def LRes.writes (q : LRes) : List Wr := if q.fl = 0 then q.ws else q.ws ++ [.f q.fl]
theorem framed_apply {q : LRes} (hq : q ∈ r.lanes) (hj : q.gi = j) (hl : q.lane < 32) : g.Framed r j (g.apply q.lane q.writes) := by
  refine .foldl (fun g w hw => ?_) g
  have listed : w ∈ q.ws ∨ q.fl ≠ 0 ∧ w = .f q.fl := by
    unfold LRes.writes at hw
    split at hw
    · exact .inl hw
    · rcases List.mem_append.1 hw with hw | hw
      · exact .inl hw
      · exact .inr ⟨‹_›, List.mem_singleton.1 hw⟩
  cases w with
  | v k x => exact framed_wv x hl ⟨q, hq, hj, rfl, x, by simpa using listed⟩
  | p k b => exact framed_wp b ⟨q, hq, hj, rfl, b, by simpa using listed⟩
  | f x => exact framed_flags x ⟨q, hq, hj, rfl, listed.elim (fun h => .inr ⟨x, h⟩) fun h => .inl h.1⟩
/-- What the results of a group leave to be written. -/
def Res.pend (r : Res) (j : Nat) : Pend := ⟨(r.lanes.filter (fun q => q.gi == j)).map (fun q => (q.lane, q.writes)), r.gs⟩
theorem framed_deliverOne (hl : ∀ q ∈ r.lanes, q.lane < 32) : g.Framed r j (g.deliverOne (r.pend j)) := by
  refine .trans (.foldl (fun g p hp => ?_) g) (.foldl (fun g p hp => framed_wg p.2 ⟨p, hp, rfl⟩) _)
  obtain ⟨q, hq, rfl⟩ := List.mem_map.1 hp
  obtain ⟨hq, hj⟩ := List.mem_filter.1 hq
  exact framed_apply hq (beq_iff_eq.1 hj) (hl q hq)

/-- The group's shadows taken, and the sequence numbers of its random bits stepped. -/
def Group.stepped (g : Group) (k : Header) (i : Instr) (ls : List LRes) : Group :=
  ls.foldl (fun g q => g.modLane q.lane (fun l => { l with seq := if usesSr i then (l.seq + 1) % 256 else l.seq })) (g.shadow (writtenV k i))
theorem Group.results_eq (g : Group) (k : Header) (bridle : Bool) (i : Instr) (j : Nat) (r : Res) :
    g.results k bridle i j r = if (traits i).varLat && !bridle then
      { g.stepped k i (r.lanes.filter (fun q => q.gi == j)) with pend := (g.stepped k i (r.lanes.filter (fun q => q.gi == j))).pend ++ [r.pend j] }
    else (g.stepped k i (r.lanes.filter (fun q => q.gi == j))).deliverOne (r.pend j) := rfl
theorem Group.shadow_eq (g : Group) (rs : List Nat) : ∃ b, g.shadow rs = { g with bram := b } := by
  unfold Group.shadow
  split
  · exact ⟨g.bram, rfl⟩
  · exact ⟨_, rfl⟩
theorem Group.track_eq (g : Group) (k : Header) (i : Instr) (part : Mask) : ∃ v p u, g.track k i part = { g with pendV := v, pendP := p, pendG := u } := by
  unfold Group.track
  dsimp only
  split
  · exact ⟨_, _, _, rfl⟩
  · exact ⟨g.pendV, g.pendP, g.pendG, rfl⟩
theorem framed_stepped (k : Header) (i : Instr) (ls : List LRes) : g.Framed r j (g.stepped k i ls) := by
  have shadowed : g.Framed r j (g.shadow (writtenV k i)) := by
    obtain ⟨b, hb⟩ := g.shadow_eq (writtenV k i)
    rw [hb]
    exact .of_bookkeeping rfl rfl fun _ => rfl
  refine shadowed.trans (.foldl (fun g q _ => ?_) _)
  exact .of_bookkeeping rfl rfl fun l => Group.lane_modLane_keeps (fun q => (q.fl, q.depth, q.resv)) g q.lane l fun _ => rfl
theorem framed_results (hl : ∀ q ∈ r.lanes, q.lane < 32) (k : Header) (bridle : Bool) (i : Instr) : g.Framed r j (g.results k bridle i j r) := by
  rw [Group.results_eq]
  split
  · exact (framed_stepped ..).trans (.of_bookkeeping rfl rfl fun _ => rfl)
  · exact (framed_stepped ..).trans (framed_deliverOne hl)
theorem framed_track (k : Header) (i : Instr) (part : Mask) : g.Framed r j (g.track k i part) := by
  obtain ⟨v, p, u, h⟩ := g.track_eq k i part
  rw [h]
  exact .of_bookkeeping rfl rfl fun _ => rfl
theorem framed_advance (x : Site) (m : Mask) : g.Framed r j (g.advance x r j m) :=
  .of_bookkeeping rfl rfl (Group.lane_map_keeps (π := fun q => (q.fl, q.depth, q.resv)) rfl fun p => by dsimp only; split <;> rfl)
theorem framed_tick (x : Site) (m : Mask) (skid : Bool) (n : Option Nat) : g.Framed r j (g.tick x j m skid n) :=
  .of_bookkeeping rfl rfl fun _ => rfl
/-- What completing does to a member group. -/
def Group.completed (g : Group) (t : Team) (x : Site) (r : Res) (j : Nat) (m : Mask) : Group :=
  (((g.results t.la.hdr t.la.bridle x.i j r).track t.la.hdr x.i (x.partOf j)).advance x r j m).tick x j m t.halt.isSome
    (if t.la.bridle then some t.la.q else none)
theorem framed_completed (hl : ∀ q ∈ r.lanes, q.lane < 32) (t : Team) (x : Site) (m : Mask) : g.Framed r j (g.completed t x r j m) :=
  (framed_results hl ..).trans ((framed_track ..).trans ((framed_advance ..).trans (framed_tick ..)))
end

/-! ## Each group of a list changed -/

section
variable {s : State} {tid : Nat} {t : Team} {gs : List (Nat × Mask)} {f : Nat → Mask → Group → Group}
theorem finish_eq {x : Site} {r : Res} (ht : s.team? x.tid = some t) : s.finish x r = s.eachGroup x.tid x.mem (fun j m g => g.completed t x r j m) := by
  simp only [State.finish, ht]
  rfl
theorem eachGroup_outside : { s.eachGroup tid gs f with teams := s.teams } = s :=
  List.foldlRecOn (motive := fun s' : State => { s' with teams := s.teams } = s) gs _ rfl fun _ hs _ _ => hs
theorem team?_eachGroup_ne {k : Nat} (h : k ≠ tid) : (s.eachGroup tid gs f).team? k = s.team? k :=
  List.foldlRecOn (motive := fun s' : State => s'.team? k = s.team? k) gs _ rfl fun _ hs _ _ => (team?_modTeam_ne (f := fun u => u.modGroup _ _) (fun _ => rfl) h).trans hs
/-- The team after: its groups one by one in a relation that every change of one keeps, those not named as they were. -/
theorem team?_eachGroup_rel {R : Nat → Group → Group → Prop} (refl : ∀ j g, R j g g) (trans : ∀ {j g g' g''}, R j g g' → R j g' g'' → R j g g'')
    (hf : ∀ p ∈ gs, ∀ g, R p.1 g (f p.1 p.2 g)) (ht : s.team? tid = some t) :
    ∃ l, (s.eachGroup tid gs f).team? tid = some { t with groups := l } ∧ l.length = t.groups.length ∧
      ∀ j g, t.groups[j]? = some g → ∃ g', l[j]? = some g' ∧ (j ∉ gs.map Prod.fst → g' = g) ∧ R j g g' := by
  refine List.foldlRecOn (motive := fun s' : State => ∃ l, s'.team? tid = some { t with groups := l } ∧ l.length = t.groups.length ∧
    ∀ j g, t.groups[j]? = some g → ∃ g', l[j]? = some g' ∧ (j ∉ gs.map Prod.fst → g' = g) ∧ R j g g') gs _
    ⟨t.groups, ht, rfl, fun j g hg => ⟨g, hg, fun _ => rfl, refl j g⟩⟩ ?_
  rintro s' ⟨l, hs, hl, each⟩ p hp
  refine ⟨updAt l p.1 (f p.1 p.2), ?_, by simpa using hl, fun j g hg => ?_⟩
  · exact (team?_modTeam (f := fun u => u.modGroup p.1 (f p.1 p.2)) fun _ => rfl).trans (by rw [hs]; rfl)
  · obtain ⟨g', hg', unnamed, hR⟩ := each j g hg
    by_cases hj : p.1 = j
    · subst hj
      exact ⟨_, by rw [updAt_getElem?, if_pos rfl, hg']; rfl, fun h => absurd (List.mem_map_of_mem hp) h, trans hR (hf p hp g')⟩
    · exact ⟨g', by rw [updAt_getElem?, if_neg hj]; exact hg', unnamed, hR⟩
end

/-- Settles O38: completing changes each member group by steps that change only what the results name. -/
theorem completionFrame : Obligations.CompletionFrame := by
  intro s x t r ht hl
  rw [finish_eq ht]
  refine ⟨eachGroup_outside, fun k hk => team?_eachGroup_ne hk, ?_⟩
  obtain ⟨l, hu, length, each⟩ := team?_eachGroup_rel (R := Group.Framed r) (f := fun j m g => g.completed t x r j m) (fun _ g => .refl g) (fun h h' => h.trans h')
    (fun p _ g => framed_completed hl t x p.2) ht
  refine ⟨_, hu, rfl, rfl, rfl, rfl, rfl, rfl, length, fun j g hg => ?_⟩
  obtain ⟨g', hg', unnamed, framed⟩ := each j g hg
  have controls := framed.controls
  simp only [Group.controls, Prod.mk.injEq] at controls
  obtain ⟨fpctl, seed, permBase, role, quarter, sq, wm⟩ := controls
  refine ⟨g', hg', unnamed, fpctl, seed, permBase, role, quarter, sq, wm, fun l k hl no => framed.vector l k hl ?_, fun l p no => framed.predicate l p ?_,
    framed.uniform, fun l no => framed.flags l ?_, fun l => Prod.mk.inj (framed.kept l)⟩
  · rintro ⟨q, hq, hj, hl, w, hw⟩
    exact no q hq hj hl w hw
  · rintro ⟨q, hq, hj, hl, b, hb⟩
    exact no q hq hj hl b hb
  · rintro ⟨q, hq, hj, hl, hw⟩
    obtain ⟨none, noF⟩ := no q hq hj hl
    rcases hw with hw | ⟨f, hf⟩
    · exact hw none
    · exact noF f hf

/-! ## Where the lanes stand, and what is pending (R37, R92) -/

/-- The lanes' standing, and the results still to be written. -/
def Group.standing (g : Group) : List LaneSt × List Pend := (g.lanes.map (·.st), g.pend)

section
variable {g : Group}
theorem standing_foldl {α : Type} {f : Group → α → Group} (h : ∀ g a, (f g a).standing = g.standing) (as : List α) (g : Group) :
    (as.foldl f g).standing = g.standing :=
  List.foldlRecOn (motive := fun g' => g'.standing = g.standing) as f rfl fun g' hg a _ => (h g' a).trans hg
theorem standing_modLane (l : Nat) {f : Lane → Lane} (hf : ∀ q, (f q).st = q.st) : (g.modLane l f).standing = g.standing := by
  refine congrArg (fun k => (k, g.pend)) (List.ext_getElem? fun j => ?_)
  simp only [Group.modLane, List.getElem?_map, updAt_getElem?]
  split
  · cases g.lanes[j]? with
    | none => rfl
    | some q => exact congrArg some (hf q)
  · rfl
theorem standing_apply (l : Nat) (ws : List Wr) : (g.apply l ws).standing = g.standing := by
  refine standing_foldl (fun g w => ?_) ws g
  cases w with
  | v k x => rfl
  | p k b => simp only [Wr.apply, Group.wp]; split <;> rfl
  | f x => exact standing_modLane l fun _ => rfl
theorem standing_deliverOne (p : Pend) : (g.deliverOne p).standing = g.standing := by
  refine (standing_foldl (fun g q => ?_) p.gs _).trans (standing_foldl (fun g q => standing_apply q.1 q.2) p.lanes g)
  unfold Group.wg
  split <;> rfl
theorem standing_stepped (k : Header) (i : Instr) (ls : List LRes) : (g.stepped k i ls).standing = g.standing := by
  have shadowed : (g.shadow (writtenV k i)).standing = g.standing := by
    obtain ⟨b, hb⟩ := g.shadow_eq (writtenV k i)
    rw [hb]
    rfl
  refine (standing_foldl (fun g q => ?_) ls _).trans shadowed
  exact standing_modLane q.lane fun _ => rfl
/-- Results are written at once, or are the last of the pending ones. -/
theorem standing_results (k : Header) (bridle : Bool) (i : Instr) (j : Nat) (r : Res) :
    (g.results k bridle i j r).standing = (g.lanes.map (·.st), if (traits i).varLat && !bridle then g.pend ++ [r.pend j] else g.pend) := by
  have stepped := standing_stepped (g := g) k i (r.lanes.filter (fun q => q.gi == j))
  simp only [Group.standing, Prod.mk.injEq] at stepped
  obtain ⟨st, pend⟩ := stepped
  rw [Group.results_eq]
  split
  · simp only [Group.standing, st, pend]
  · rw [standing_deliverOne, Group.standing, st, pend]

variable (t : Team) (x : Site) (r : Res) (j : Nat) (m : Mask)
theorem completed_registers :
    let g1 := g.results t.la.hdr t.la.bridle x.i j r
    ((g.completed t x r j m).v, (g.completed t x r j m).g, (g.completed t x r j m).pend) = (g1.v, g1.g, g1.pend) := by
  obtain ⟨v, p, u, h⟩ := (g.results t.la.hdr t.la.bridle x.i j r).track_eq t.la.hdr x.i (x.partOf j)
  simp only [Group.completed, h]
  rfl
/-- A lane that issued and has not exited goes on. -/
theorem completed_lane {l : Nat} (hl : l < g.lanes.length) (has : m.has l = true) (live : (g.lane l).st ≠ .exited) :
    ((g.completed t x r j m).lane l).pc = nextPc x r j l ∧ ((g.completed t x r j m).lane l).st = nextSt r j l := by
  have standing := standing_results (g := g) t.la.hdr t.la.bridle x.i j r
  obtain ⟨st, -⟩ := Prod.mk.inj standing
  obtain ⟨v, p, u, h⟩ := (g.results t.la.hdr t.la.bridle x.i j r).track_eq t.la.hdr x.i (x.partOf j)
  have steps : g.completed t x r j m = (((g.results t.la.hdr t.la.bridle x.i j r).track t.la.hdr x.i (x.partOf j)).advance x r j m).tick x j m
    t.halt.isSome (if t.la.bridle then some t.la.q else none) := rfl
  generalize g.results t.la.hdr t.la.bridle x.i j r = g1 at st h steps
  have length : g1.lanes.length = g.lanes.length := by simpa using congrArg List.length st
  have same : (g1.lane l).st = (g.lane l).st := by
    have at_l := congrArg (·[l]?) st
    simpa [Group.lane, List.getElem?_eq_getElem hl, List.getElem?_eq_getElem (length ▸ hl)] using at_l
  have here : l < (g1.track t.la.hdr x.i (x.partOf j)).lanes.length := by rw [h]; exact length ▸ hl
  have lane : (g1.track t.la.hdr x.i (x.partOf j)).lane l = g1.lane l := by rw [h]; rfl
  have moved := Group.lane_map (g' := g.completed t x r j m) (by rw [steps]; rfl) here
  rw [lane] at moved
  have moved := moved.trans (if_pos ⟨has, same ▸ live⟩)
  exact ⟨congrArg Lane.pc moved, congrArg Lane.st moved⟩
end

/-! ## The one result of a lane, and a uniform one -/

section
variable {g : Group} {l k : Nat} (hl : l < 32)
include hl
/-- Another lane's writes leave a lane's registers. -/
theorem rv_apply_other {l' : Nat} (hl' : l' < 32) (other : l' ≠ l) (ws : List Wr) (g : Group) : (g.apply l' ws).rv l k = g.rv l k := by
  refine List.foldlRecOn (motive := fun g' : Group => g'.rv l k = g.rv l k) ws _ rfl fun g' hg w _ => Eq.trans ?_ hg
  cases w with
  | v k' x => exact g'.rv_wv_other x hl' hl fun same => other (congrArg Prod.fst same).symm
  | p k' b => simp only [Wr.apply, Group.wp]; split <;> rfl
  | f x => rfl
theorem rv_apply_others {qs : List (Nat × List Wr)} (others : ∀ q ∈ qs, q.1 < 32 ∧ q.1 ≠ l) (g : Group) :
    (qs.foldl (fun g q => g.apply q.1 q.2) g).rv l k = g.rv l k :=
  List.foldlRecOn (motive := fun g' : Group => g'.rv l k = g.rv l k) qs _ rfl fun g' hg q hq =>
    (rv_apply_other hl (others q hq).1 (others q hq).2 q.2 g').trans hg
/-- Where a lane's only result names one register, delivering the results leaves the value there. -/
theorem rv_deliverOne {ls : List LRes} {j : Nat} {w : Word} (lanes : ∀ q ∈ ls, q.lane < 32)
    (named : ls.filter (fun q => q.gi == j && q.lane == l) = [⟨j, l, [.v k w], 0⟩]) (g : Group) :
    (g.deliverOne (Res.pend { lanes := ls } j)).rv l k = w := by
  have alone : (ls.filter (fun q => q.gi == j)).filter (fun q => q.lane == l) = [⟨j, l, [.v k w], 0⟩] := by
    rw [List.filter_filter, ← named]
    exact List.filter_congr fun q _ => Bool.and_comm ..
  obtain ⟨before, after, split, -, -, rest⟩ := List.filter_eq_cons_iff.1 alone
  have others : ∀ q ∈ after.map (fun q => (q.lane, q.writes)), q.1 < 32 ∧ q.1 ≠ l := by
    intro p hp
    obtain ⟨q, hq, rfl⟩ := List.mem_map.1 hp
    have listed : q ∈ ls := (List.mem_filter.1 (split ▸ List.mem_append_right _ (List.mem_cons_of_mem _ hq))).1
    exact ⟨lanes q listed, by simpa using List.filter_eq_nil_iff.1 rest q hq⟩
  simp only [Group.deliverOne, Res.pend, split, List.map_append, List.map_cons, List.foldl_append, List.foldl_cons, List.foldl_nil]
  rw [rv_apply_others hl others]
  exact Group.rv_wv_same ..
end

/-- Settles O37: the lane moves on by the advance; its result, and a uniform one, are written, or the result is the last one pending. -/
theorem completionWritesResultsAndAdvances : Obligations.CompletionWritesResultsAndAdvances := by
  intro s x t g j m ht hg hm
  have done (r : Res) : (s.finish x r).group? x.tid j = some (g.completed t x r j m) := by
    rw [finish_eq ht, hm]
    exact group?_modGroup ht hg
  refine ⟨fun l k w ls hl32 has hl live lanes named => ?lane, fun d w now => ?uniform⟩
  case lane =>
    obtain ⟨pc, st⟩ := completed_lane t x { lanes := ls } j m hl has live
    have registers := completed_registers (g := g) t x { lanes := ls } j m
    simp only [Prod.mk.injEq] at registers
    obtain ⟨vector, -, pend⟩ := registers
    have standing := congrArg Prod.snd (standing_results (g := g) t.la.hdr t.la.bridle x.i j { lanes := ls })
    refine ⟨_, done _, pc, st, fun now => ⟨?_, ?_⟩, fun varLat free => ⟨?_, Res.pend { lanes := ls } j, ?_, ?_⟩⟩
    · have written : ((traits x.i).varLat && !t.la.bridle) = false := by rcases now with h | h <;> simp [h]
      rw [Group.rv, vector, Group.results_eq, written]
      exact rv_deliverOne hl32 lanes named _
    · have written : ((traits x.i).varLat && !t.la.bridle) = false := by rcases now with h | h <;> simp [h]
      rw [written] at standing
      exact pend.trans standing
    · have later : ((traits x.i).varLat && !t.la.bridle) = true := by simp [varLat, free]
      rw [Group.rv, vector, Group.results_eq, later]
      exact (framed_stepped (r := {}) (j := j) ..).vector l k hl32 fun ⟨_, h, _⟩ => absurd h List.not_mem_nil
    · have later : ((traits x.i).varLat && !t.la.bridle) = true := by simp [varLat, free]
      rw [later] at standing
      exact pend.trans standing
    · have listed : (⟨j, l, [.v k w], 0⟩ : LRes) ∈ ls.filter (fun q => q.gi == j && q.lane == l) := named ▸ List.mem_singleton.2 rfl
      obtain ⟨listed, -⟩ := List.mem_filter.1 listed
      exact List.mem_map.2 ⟨_, List.mem_filter.2 ⟨listed, beq_iff_eq.2 rfl⟩, rfl⟩
  case uniform =>
    have registers := completed_registers (g := g) t x { gs := [(d, w)] } j m
    simp only [Prod.mk.injEq] at registers
    obtain ⟨-, uniform, -⟩ := registers
    have written : ((traits x.i).varLat && !t.la.bridle) = false := by rcases now with h | h <;> simp [h]
    refine ⟨_, done _, ?_, fun k hk => ?_⟩
    · have read : (g.completed t x { gs := [(d, w)] } j m).rg d = ((g.stepped t.la.hdr x.i []).wg d w).rg d := by
        rw [Group.rg, uniform, Group.results_eq, written]
        rfl
      rw [read]
      split
      · rename_i zero
        rw [zero, Group.rg_zero]
      · exact Group.rg_wg_same _ w ‹_›
    · exact (framed_completed (fun _ h => absurd h List.not_mem_nil) t x m).uniform k fun q hq => by
        rw [List.mem_singleton.1 hq]
        exact hk.symm

end Sys2Proof.Machine
end

section
/-! PROOFS. In free mode a store leaves its bytes in its group's store queue, from which they land in order (R149, R157, R161, R166). -/
namespace Sys2Proof.Machine

/-! ## An issue runs its body for its own team -/

/-- The body, run for the sites of one team alone. -/
def Body.forTeam (b : Body) (tid : Nat) : Body := { b with run := fun s z => if z.tid = tid then b.run s z else (s, {}) }

section
variable {b : Body} {tid : Nat}
theorem Body.forTeam_run {z : Site} (h : z.tid = tid) (s : State) : (b.forTeam tid).run s z = b.run s z := if_pos h
theorem perform_forTeam {x : Site} (h : x.tid = tid) (s : State) (t : Team) : perform (b.forTeam tid) s x t = perform b s x t := by
  have whole (mem part : List (Nat × Mask)) (s : State) : (b.forTeam tid).run s { x with mem := mem, part := part } = b.run s { x with mem := mem, part := part } :=
    Body.forTeam_run (z := { x with mem := mem, part := part }) h s
  have leading (mem part : List (Nat × Mask)) (u : Bool) (s : State) : (b.forTeam tid).run s (Site.lead { x with mem := mem, part := part } u) =
      b.run s (Site.lead { x with mem := mem, part := part } u) :=
    Body.forTeam_run (z := Site.lead { x with mem := mem, part := part } u) ((lead_tid ..).trans h) s
  unfold perform
  simp only [whole, leading]
  rfl
theorem afterGather_forTeam {x : Site} (h : x.tid = tid) (i : Instr) (s : State) (t : Team) :
    afterGather i (b.forTeam tid) s x t = afterGather i b s x t := by
  have performs (part : List (Nat × Mask)) (s : State) (t : Team) : perform (b.forTeam tid) s { x with part := part } t = perform b s { x with part := part } t :=
    perform_forTeam (x := { x with part := part }) h s t
  unfold afterGather performOrStall
  simp only [performs]
  rfl
/-- The issue under way is its team's. -/
theorem issue_forTeam {i : Instr} {s : State} {c : Cur} {t : Team} {g : Group} (h : s.issuer = some (c, t, g)) :
    issue i (b.forTeam c.tid) s = issue i b s := by
  unfold issue
  simp only [h]
  refine congrArg Host.Outcome.next ?_
  unfold issueAt
  split
  · rfl
  · split
    · rfl
    · split
      · rfl
      · rename_i gone
        exact afterGather_forTeam (gather_tid gone) ..
end

/-! ## A store at its issue in free mode (R157, R161) -/

/-- The team is in free mode, where it is resident. -/
def State.freeTeam (s : State) (tid : Nat) : Prop := ∀ t, s.team? tid = some t → t.la.bridle = false

theorem SameHoldings.freeTeam {s s' : State} {tid : Nat} (same : SameHoldings s s') (free : s.freeTeam tid) : s'.freeTeam tid := by
  intro u hu
  obtain ⟨outside, teams⟩ := same
  have back : SameHoldings s' s := ⟨(congrArg (fun z : State => { z with teams := s'.teams }) outside).symm, teams.symm⟩
  obtain ⟨t, ht, held⟩ := back.team? hu
  have la : t.la = u.la := congrArg (fun h => h.2.1) held
  rw [← la]
  exact free t ht

section
variable {s : State} {tid : Nat} (free : s.freeTeam tid)
include free
theorem sameHoldings_store (gi lane : Nat) (rel : Bool) (l : Loc) (bs : List Byte) (ch : Nat) : SameHoldings s (s.store tid gi lane rel l bs ch) := by
  unfold State.store
  split
  · exact .refl s
  · rename_i t ht
    dsimp only
    have noted (s : State) : SameHoldings s (if l.sp = 2 && decide (2 ^ 50 ≤ l.at) then s.modTeam tid (fun t => { t with irrev := true }) else s) := by
      split
      · exact sameHoldings_modTeam s tid fun _ => rfl
      · exact .refl s
    split
    · exact ((sameHoldings_modGroup ..).trans (noted _)).trans (sameHoldings_modGroup ..)
    · rw [free t ht]
      exact ((sameHoldings_modGroup ..).trans (noted _)).trans (sameHoldings_modGroup ..)
end
theorem sameHoldings_storePieces {tid : Nat} (gi lane : Nat) (rel : Bool) (ch : Nat) (ps : List (Loc × Nat)) :
    ∀ {s : State} (bs : List Byte), s.freeTeam tid → SameHoldings s (s.storePieces tid gi lane rel ps bs ch) := by
  induction ps with
  | nil => exact fun bs _ => .refl _
  | cons p r ih =>
    intro s bs free
    have stored := sameHoldings_store free gi lane rel p.1 (bs.take p.2) ch
    exact stored.trans (ih (bs.drop p.2) (stored.freeTeam free))
/-- A lane's write of team shared memory or the pad. -/
theorem sameHoldings_writeLane {s : State} {tid : Nat} (free : s.freeTeam tid) (gi l : Nat) (rel : Bool) {sp : Space} (hsp : sp = .shared ∨ sp = .pad)
    (a n : Nat) (bs : List Byte) (ch : Nat) : SameHoldings s (s.writeLane tid gi l rel sp a n bs ch) := by
  unfold State.writeLane
  split
  · exact .refl s
  · split
    · obtain rfl | rfl := hsp
      · exact sameHoldings_storePieces gi l _ ch _ bs free
      · exact sameHoldings_storePieces gi l _ ch _ bs free
    · exact .refl s
/-- A plain store of team shared memory or the pad, in all that its issue comes to. -/
theorem sameHoldings_of_store {i : Instr} {sp : Space} {w d ch : Nat} {rel : Bool} {a : Group → Nat → Nat} {s s' : State} {c : Cur} {t : Team} {g : Group}
    (hsp : sp = .shared ∨ sp = .pad) (issuing : s.issuer = some (c, t, g)) (free : t.la.bridle = false) (h : issue i (storeBody sp w d rel a ch) s = .next s') :
    SameHoldings s s' := by
  obtain ⟨-, ht, -⟩ := issuer_team issuing
  rw [← issue_forTeam issuing] at h
  have freeNow : s.freeTeam c.tid := fun u hu => by rw [ht] at hu; cases hu; exact free
  refine (issue_issued h).keeps (R := fun s s' => s.freeTeam c.tid → SameHoldings s s') (fun h h' free => (h free).trans (h' ((h free).freeTeam free)))
    (fun same _ => same) (fun s _ _ => .refl s) (fun s x free => ?_) freeNow
  simp only [Body.forTeam]
  split
  · rename_i own
    refine List.foldlRecOn (motive := SameHoldings s) x.lanes _ (.refl s) fun s' same q _ => ?_
    split
    · exact same
    · have freeNow : s'.freeTeam x.tid := by
        rw [own]
        exact same.freeTeam free
      exact same.trans (sameHoldings_writeLane freeNow _ _ rel hsp ..)
  · exact .refl s

/-! ## A store queued (R157, R161) -/

/-- A group's store queue, the number of its next entry, and its speculation. -/
def Group.queue (g : Group) := (g.sq, g.sn, g.bram)
theorem tg_modGroup {s : State} {tid gi : Nat} {t : Team} {g : Group} (h : s.tg tid gi = some (t, g)) (f : Group → Group) :
    (s.modGroup tid gi f).tg tid gi = some (t.modGroup gi f, f g) := by
  unfold State.tg at h ⊢
  cases ht : s.team? tid with
  | none => rw [ht] at h; cases h
  | some u =>
    rw [ht] at h
    obtain ⟨g0, hg, e⟩ := Option.map_eq_some_iff.1 h
    cases e
    rw [State.modGroup, team?_modTeam (f := fun u => u.modGroup gi f) fun _ => rfl, ht]
    simp only [Option.map_some, Team.modGroup, updAt_getElem?, if_pos, hg]
theorem team?_of_tg {s : State} {tid gi : Nat} {t : Team} {g : Group} (h : s.tg tid gi = some (t, g)) : s.team? tid = some t ∧ t.groups[gi]? = some g := by
  unfold State.tg at h
  cases ht : s.team? tid with
  | none => rw [ht] at h; cases h
  | some u =>
    rw [ht] at h
    obtain ⟨g0, hg, e⟩ := Option.map_eq_some_iff.1 h
    cases e
    exact ⟨rfl, hg⟩
/-- A store to team shared memory in free mode is the last entry of its group's queue; the rest of what a read meets is as before. -/
theorem tg_store {s : State} {tid gi lane a ch : Nat} {rel : Bool} {bs : List Byte} {t : Team} {g : Group} (h : s.tg tid gi = some (t, g))
    (free : t.la.bridle = false) (calm : g.bram = none) :
    ∃ u g', (s.store tid gi lane rel (.shm a) bs ch).tg tid gi = some (u, g') ∧ (u.shm, u.la, u.pcore) = (t.shm, t.la, t.pcore) ∧
      g'.queue = (g.sq ++ [⟨rel, g.sn, .store (.shm a) bs ch⟩], g.sn + 1, none) ∧ (s.store tid gi lane rel (.shm a) bs ch).cores = s.cores := by
  obtain ⟨ht, hg⟩ := team?_of_tg h
  have noted (g : Group) : ({ (if g.owesStc lane || g.bram.isSome then g else g.modLane lane (loseOwn (.shm a))) with wm := g.wm.wider (Loc.shm a).dom } : Group).queue =
      g.queue := by
    unfold Group.queue
    split <;> rfl
  have near : ((Loc.shm a).sp = 2 && decide (2 ^ 50 ≤ (Loc.shm a).at)) = false := rfl
  have kept := noted g
  simp only [Group.queue, Prod.mk.injEq] at kept
  obtain ⟨sq, sn, bram⟩ := kept
  have bram := bram.trans calm
  simp only [State.store, ht, hg, Option.bind_some, calm, free, near, Bool.false_eq_true, if_false]
  refine ⟨_, _, tg_modGroup (tg_modGroup h _) _, rfl, ?_, rfl⟩
  simp only [Group.queue, sq, sn, bram]

/-! ## What a group reads of team shared memory (R157, R161) -/

theorem readByte_free {s : State} {t : Team} {g : Group} (free : t.la.bridle = false) (calm : g.bram = none) (l : Loc) (a : Nat) :
    s.readByte t g l a = s.groupByte t g l a := by
  simp [State.readByte, bridled, free, calm]
theorem groupByte_queued {s s' : State} {t t' : Team} {g g' : Group} {e : Sq} {a b ch : Nat} {bs : List Byte} (cores : s'.cores = s.cores)
    (held : (t'.shm, t'.la, t'.pcore) = (t.shm, t.la, t.pcore)) (he : e.act = .store (.shm a) bs ch) (hq : g'.sq = g.sq ++ [e]) :
    s'.groupByte t' g' (.shm b) b = if a ≤ b ∧ b < a + bs.length then (bs[b - a]?).getD 0 else s.groupByte t g (.shm b) b := by
  simp only [Prod.mk.injEq] at held
  obtain ⟨shm, -, pcore⟩ := held
  have home : s'.coreByte t' t'.pcore (.shm b) b = s.coreByte t t.pcore (.shm b) b := by
    simp only [State.coreByte, State.core, cores, pcore, State.homeByte, Loc.sp, shm, if_true]
  simp only [State.groupByte, hq, List.foldl_append, List.foldl_cons, List.foldl_nil, he, home, overByte, Loc.sp, Loc.at, true_and]
  split
  · rename_i inside
    rw [List.getElem?_eq_getElem (by omega)]
    rfl
  · rfl

/-! ## The writes that leave a queue (R161, R166) -/

theorem team?_mapTeams {s : State} {tid : Nat} {f : Team → Team} (hf : ∀ u, (f u).tid = u.tid) :
    State.team? { s with teams := s.teams.map f } tid = (s.team? tid).map f := by
  simp only [State.team?, List.find?_map, Function.comp_def, hf]
/-- The groups of a team, those that speculate and satisfy `p` marked. -/
def Team.marked (p : Team → Nat → Bram → Bool) (t : Team) : Team :=
  if (enum t.groups).any (fun q => q.2.bram.any (p t q.1)) then
    { t with groups := (enum t.groups).map (fun q => { q.2 with bram := q.2.bram.map (fun b => if p t q.1 b then { b with hit := true } else b) }) }
  else t
theorem markBram_eq (s : State) (p : Team → Nat → Bram → Bool) : s.markBram p = { s with teams := s.teams.map (Team.marked p) } := rfl
/-- Marking changes nothing of a team but its groups' marks. -/
theorem Team.marked_groups (p : Team → Nat → Bram → Bool) (t : Team) :
    ∃ gs : List Group, t.marked p = { t with groups := gs } ∧ ∀ (j : Nat) (g : Group), t.groups[j]? = some g → ∃ b, gs[j]? = some { g with bram := b } := by
  unfold Team.marked
  split
  · refine ⟨_, rfl, fun j g hg => ?_⟩
    simp only [List.getElem?_map, enum_getElem?, hg, Option.map_some]
    exact ⟨_, rfl⟩
  · exact ⟨t.groups, rfl, fun j g hg => ⟨g.bram, hg⟩⟩
theorem team?_markBram {s : State} {tid : Nat} {t : Team} (ht : s.team? tid = some t) (p : Team → Nat → Bram → Bool) :
    ∃ gs : List Group, (s.markBram p).team? tid = some { t with groups := gs } ∧ ∀ (j : Nat) (g : Group), t.groups[j]? = some g → ∃ b, gs[j]? = some { g with bram := b } := by
  obtain ⟨gs, marked, each⟩ := t.marked_groups p
  refine ⟨gs, ?_, each⟩
  rw [markBram_eq, team?_mapTeams (fun u => by unfold Team.marked; split <;> rfl), ht, Option.map_some, marked]
theorem sameHoldings_markBram (s : State) (p : Team → Nat → Bram → Bool) : SameHoldings s (s.markBram p) := by
  refine ⟨rfl, ?_⟩
  simp only [State.markBram, List.map_map]
  refine List.map_congr_left fun t _ => ?_
  simp only [Function.comp_apply]
  split <;> rfl

theorem team?_popSq {s : State} {tid : Nat} {t : Team} (ht : s.team? tid = some t) (gi : Nat) :
    (s.popSq tid gi).team? tid = some (t.modGroup gi (fun g => { g with sq := g.sq.tail })) :=
  (team?_modTeam (f := fun u => u.modGroup gi _) fun _ => rfl).trans (by rw [ht]; rfl)
section
variable {s : State} {tid gi : Nat} {t : Team} {g : Group} {e : Sq} {r : List Sq} (ht : s.team? tid = some t) (hg : t.groups[gi]? = some g)
  (hq : g.sq = e :: r)
include ht hg hq
/-- The queue's head, a store that its memory does not hold back, is performed. -/
theorem drainHead_store {sn ch : Nat} {l : Loc} {bs : List Byte} (free : t.la.bridle = false) (he : e = ⟨false, sn, .store l bs ch⟩)
    (ready : s.storeHeld t.pcore l = false) : s.drainHead tid gi = some ((s.popSq tid gi).perform tid gi sn l bs ch) := by
  subst he
  simp [State.drainHead, ht, hg, hq, free, ready]
/-- After the trigger of its write, the team and the group that gave it up. -/
theorem team?_popped (sp a n : Nat) : ∃ gs b, ((s.popSq tid gi).trigger1 tid gi sp a n).team? tid = some { t with groups := gs } ∧
    gs[gi]? = some { g with sq := r, bram := b } := by
  obtain ⟨gs, found, each⟩ := team?_markBram (team?_popSq ht gi) (fun u _ b => u.tid == tid && u.late gi b.bar && b.reads sp a n)
  have popped : (t.modGroup gi (fun g => { g with sq := g.sq.tail })).groups[gi]? = some { g with sq := r } := by
    simp only [Team.modGroup, updAt_getElem?, if_pos, hg, Option.map_some, hq, List.tail_cons]
  obtain ⟨b, hb⟩ := each gi _ popped
  exact ⟨gs, b, found, hb⟩
end

/-! ## The three ways of a store's bytes -/

/-- A write of team shared memory stands in the queue alone, and its group reads it there. -/
theorem writeLane_shared {s : State} {tid gi l a n : Nat} {bs : List Byte} {t : Team} {g : Group} (h : s.tg tid gi = some (t, g))
    (free : t.la.bridle = false) (calm : g.bram = none) (aligned : a % n = 0) (inside : a + n ≤ t.la.hdr.shared) (present : t.present a = true)
    (length : bs.length = n) :
    ∃ u g', (s.writeLane tid gi l false .shared a n bs).tg tid gi = some (u, g') ∧ u.shm = t.shm ∧
      ∀ b, (s.writeLane tid gi l false .shared a n bs).readByte u g' (.shm b) b =
        if a ≤ b ∧ b < a + n then (bs[b - a]?).getD 0 else s.readByte t g (.shm b) b := by
  have placed : s.resolve t g l .shared a n true = .ok [(.shm a, n)] := by
    simp [State.resolve, aligned, Nat.not_lt.2 inside, present]
  have written : s.writeLane tid gi l false .shared a n bs = s.store tid gi l false (.shm a) bs := by
    simp only [State.writeLane, h, placed, State.dirtied, accVa, Bool.false_and, State.storePieces]
    rw [List.take_of_length_le (Nat.le_of_eq length)]
  obtain ⟨u, g', found, held, queue, cores⟩ := tg_store (lane := l) (a := a) (ch := 0) (rel := false) (bs := bs) h free calm
  rw [written]
  simp only [Group.queue, Prod.mk.injEq] at queue
  obtain ⟨sq, -, bram⟩ := queue
  have shm := congrArg Prod.fst held
  have la : u.la = t.la := congrArg (fun p => p.2.1) held
  refine ⟨u, g', found, shm, fun b => ?_⟩
  rw [readByte_free (la ▸ free) bram, readByte_free free calm, groupByte_queued cores held rfl sq, length]

theorem State.useLine_teams (s : State) (pa : Nat) : (s.useLine pa).teams = s.teams := by
  unfold State.useLine State.useChannel
  split
  · rfl
  · split <;> rfl
/-- Setting an entry's D bit changes the one byte of it. -/
theorem setD_fields (s : State) (pte : Nat) : (s.setD pte).pad = s.pad ∧ (s.setD pte).teams = s.teams ∧
    ∀ b, b ≠ pte + 6 → SMap.get 0 (s.setD pte).mem b = SMap.get 0 s.mem b := by
  have changed (b : Nat) (h : b ≠ pte + 6) : SMap.get 0 (SMap.set 0 s.mem (pte + 6) (SMap.get 0 s.mem (pte + 6) ||| 0x80)) b = SMap.get 0 s.mem b :=
    SMap.get_set_other 0 s.mem _ h
  unfold State.setD
  dsimp only
  split
  · refine ⟨(State.useLine_pad ..).trans rfl, ?_, fun b h => by rw [State.useLine_mem]; exact changed b h⟩
    exact State.useLine_teams ..
  · exact ⟨rfl, rfl, changed⟩
/-- A write of global memory in free mode changes no byte but the D bit's of its page. -/
theorem writeLane_global {s : State} {tid gi l a n : Nat} {bs : List Byte} {t : Team} {g : Group} (h : s.tg tid gi = some (t, g))
    (free : t.la.bridle = false) (calm : g.bram = none) :
    (s.writeLane tid gi l false .global a n bs).pad = s.pad ∧
    (s.writeLane tid gi l false .global a n bs).teams.map (fun t => (t.tid, t.shm)) = s.teams.map (fun t => (t.tid, t.shm)) ∧
    ∀ b, (∀ e, s.tlb t.pcore t.ctx a = some e → b ≠ e.pteAt a + 6) → SMap.get 0 (s.writeLane tid gi l false .global a n bs).mem b = SMap.get 0 s.mem b := by
  obtain ⟨ht, hg⟩ := team?_of_tg h
  have dirtied : (s.dirtied t gi g l .global a).pad = s.pad ∧ (s.dirtied t gi g l .global a).teams = s.teams ∧
      ∀ b, (∀ e, s.tlb t.pcore t.ctx a = some e → b ≠ e.pteAt a + 6) → SMap.get 0 (s.dirtied t gi g l .global a).mem b = SMap.get 0 s.mem b := by
    have tid : t.tid = tid := by simpa using List.find?_some ht
    have still : ((s.group? t.tid gi).bind (·.bram)).isSome = false := by
      rw [tid, group?_of_team? ht, hg]
      exact congrArg Option.isSome calm
    simp only [State.dirtied, accVa, State.markDirty, still, Bool.false_eq_true, if_false]
    split
    · rename_i e he
      obtain ⟨pad, teams, mem⟩ := setD_fields s (e.pteAt a)
      exact ⟨pad, teams, fun b hb => mem b (hb e he)⟩
    · exact ⟨rfl, rfl, fun _ _ => rfl⟩
  obtain ⟨pad, teams, mem⟩ := dirtied
  unfold State.writeLane
  rw [h]
  dsimp only
  split
  · have freeThen : (s.dirtied t gi g l .global a).freeTeam tid := by
      intro u hu
      rw [State.team?, teams] at hu
      cases ht.symm.trans hu
      exact free
    obtain ⟨mem', pad', teams'⟩ := (sameHoldings_storePieces (tid := tid) gi l (false && !t.la.bridle) 0 _ bs freeThen).sameBytes
    exact ⟨pad'.trans pad, teams'.trans (by rw [teams]), fun b hb => by rw [mem']; exact mem b hb⟩
  · exact ⟨rfl, rfl, fun _ _ => rfl⟩

/-- Settles O40: a store's issue runs for its free team, whose stores queue; the head of a queue is performed, and a write in flight lands. -/
theorem storesQueueAndLand : Obligations.StoresQueueAndLand := by
  refine ⟨⟨fun h k d a o w r f s s2 i c t g hi issuing free next => ?_, fun s tid gi l a n bs t g h free calm aligned inside present length => ?_,
    fun s tid gi l a n bs t g h free calm => writeLane_global h free calm⟩,
    fun s tid gi sn a ch bs t g r ht hg free hq => ?_, fun s tid gi sn die sl off ch bs t g r ht hg free hq => ?_, fun s core k w die sl off hw loc => ?_⟩
  · simp only [List.mem_cons, List.not_mem_nil, or_false] at hi
    rcases hi with rfl | rfl | rfl | rfl
    · exact (sameHoldings_of_store (.inl rfl) issuing free next).sameBytes
    · exact (sameHoldings_of_store (.inl rfl) issuing free next).sameBytes
    · exact (sameHoldings_of_store (.inr rfl) issuing free next).sameBytes
    · exact (sameHoldings_of_store (.inr rfl) issuing free next).sameBytes
  · exact writeLane_shared h free calm aligned inside present length
  · obtain ⟨gs, b, found, popped⟩ := team?_popped ht hg hq 0 a bs.length
    have performed : (s.popSq tid gi).perform tid gi sn (.shm a) bs ch =
        ((s.popSq tid gi).trigger1 tid gi 0 a bs.length).modTeam tid (fun t => { t with shm := setBytes t.shm a bs }) := by
      simp only [State.perform, team?_popSq ht gi]
      rfl
    refine ⟨_, { t with groups := gs, shm := setBytes t.shm a bs }, { g with sq := r, bram := b }, drainHead_store ht hg hq free rfl rfl, ?_, popped, rfl, ?_, ?_, fun b => get_setBytes t.shm a b bs⟩
    · rw [performed]
      exact (team?_modTeam (f := fun u => { u with shm := setBytes u.shm a bs }) fun _ => rfl).trans (by rw [found]; rfl)
    · rw [performed]
      rfl
    · rw [performed]
      rfl
  · obtain ⟨gs, b, found, popped⟩ := team?_popped ht hg hq 1 (Loc.pad die sl off).at bs.length
    have performed : (s.popSq tid gi).perform tid gi sn (.pad die sl off) bs ch = ((s.popSq tid gi).trigger1 tid gi 1 (Loc.pad die sl off).at bs.length).modCore
        t.pcore (fun c => { c with fly := c.fly ++ [⟨.pad die sl off, bs, tid, gi, sn, []⟩] }) := by
      simp only [State.perform, team?_popSq ht gi]
      rfl
    refine ⟨_, { g with sq := r, bram := b }, drainHead_store ht hg hq free rfl rfl, ?_, rfl, ?_, ?_, ?_, ?_⟩
    · rw [performed]
      exact (group?_of_team? found gi).trans popped
    · rw [performed]
      rfl
    · rw [performed]
      rfl
    · rw [performed]
      have popped : SameHoldings s (s.popSq tid gi) := sameHoldings_modGroup ..
      have marked : SameHoldings s ((s.popSq tid gi).trigger1 tid gi 1 (Loc.pad die sl off).at bs.length) := popped.trans (sameHoldings_markBram ..)
      obtain ⟨-, -, shm⟩ := marked.sameBytes
      exact shm
    · rw [performed]
      rfl
  · have acked : s.ack core k = { s.modCore core (fun c => { c with fly := c.fly.eraseIdx k }) with
        pad := setBytes s.pad w.loc.at w.bytes } := by
      simp only [State.ack, hw, loc, State.land]
      rfl
    rw [acked]
    exact ⟨rfl, rfl, rfl, fun b => get_setBytes s.pad w.loc.at b w.bytes⟩

end Sys2Proof.Machine
end

section
/-! PROOFS. No issue stays under way between steps (R28). -/
namespace Sys2Proof.Machine

/-- The issue under way is the same. -/
def SameCur (s s' : State) : Prop := s'.cur = s.cur

theorem SameCur.refl (s : State) : SameCur s s := rfl
theorem SameCur.trans {s s' s'' : State} (h : SameCur s s') (h' : SameCur s' s'') : SameCur s s'' := Eq.trans h' h
theorem SameCur.foldl {α : Type} {f : State → α → State} (h : ∀ s q, SameCur s (f s q)) (l : List α) (s : State) : SameCur s (l.foldl f s) :=
  List.foldlRecOn (motive := SameCur s) l f (.refl s) fun s' same q _ => same.trans (h s' q)
theorem SameHoldings.sameCur {s s' : State} (h : SameHoldings s s') : SameCur s s' := (congrArg State.cur h.1 :)

section
variable (s : State)

/-! ## Memory and the caches -/

theorem sameCur_useChannel (pa : Nat) : SameCur s (s.useChannel pa) := by
  unfold State.useChannel
  split <;> rfl
theorem sameCur_useLine (pa : Nat) : SameCur s (s.useLine pa) := by
  unfold State.useLine
  split
  · exact .refl s
  · exact sameCur_useChannel ..
theorem sameCur_unlose (l : List Nat) : SameCur s (s.unlose l) := by
  unfold State.unlose
  split <;> rfl
theorem sameCur_putPhys (pa : Nat) (mir : Bool) (bs : List Byte) : SameCur s (s.putPhys pa mir bs) := by
  have placed (m : SMap Byte) (l : List Nat) (n : Nat) : SameCur s (({ s with mem := m }.unlose l).dropReaders n) := by
    unfold State.dropReaders
    split <;> exact sameCur_unlose { s with mem := m } l
  unfold State.putPhys
  refine SameCur.trans ?_ (sameCur_useLine ..)
  split <;> exact placed ..
theorem sameCur_setD (pte : Nat) : SameCur s (s.setD pte) := by
  unfold State.setD
  dsimp only
  split
  · exact sameCur_useLine { s with mem := SMap.set 0 s.mem (pte + 6) (SMap.get 0 s.mem (pte + 6) ||| 0x80) } pte
  · rfl
theorem sameCur_loseL2 (fill : Option Nat) (y : L2Line) : SameCur s (s.loseL2 fill y) := by
  have used (f : Die → Die) : SameCur s ((s.modDie (homeDie (y.line * 128)) f).useChannel (y.line * 128)) :=
    sameCur_useChannel (s.modDie (homeDie (y.line * 128)) f) _
  unfold State.loseL2
  cases y.dctx with
  | none => rfl
  | some c =>
    cases fill with
    | none => exact used _
    | some f =>
      have charged (s' : State) (o n : Nat) (h : SameCur s s') : SameCur s (s'.addBar64 o n) := h
      dsimp only
      split
      · exact charged _ _ _ (used _)
      · exact charged _ _ _ (charged _ _ _ (charged _ _ _ (used _)))
theorem sameCur_freeL2 (n node room : Nat) (fill : Option Nat) (s : State) : SameCur s (State.freeL2 n node room fill s).1 := by
  induction n generalizing node room fill s with
  | zero => exact .refl s
  | succ n ih =>
    unfold State.freeL2
    dsimp only
    split
    · exact .refl s
    · split
      · exact .refl s
      · split
        · have home (s : State) (line : Nat) : SameCur s (s.homeL2 line) := rfl
          exact ((ih ..).trans (home ..)).trans (ih ..)
        · exact (sameCur_loseL2 ..).trans (ih ..)
theorem sameCur_l2Touch (ctx node pa : Nat) (mig : Bool) (cp : Nat) (write : Bool) : SameCur s (s.l2Touch ctx node pa mig cp write) := by
  unfold State.l2Touch
  split
  · exact sameCur_useChannel ..
  · dsimp only
    split
    · have room : SameCur s (s.roomL2 (s.homeNode (pa / 128)) (some ctx)).1 := by
        unfold State.roomL2
        split
        · exact .refl s
        · exact sameCur_freeL2 ..
      exact room.trans (sameCur_useChannel ..)
    · split <;> rfl
theorem sameCur_writeBack (k : Nat) (x : L1Sec) : SameCur s (State.writeBack k s x) := by
  unfold State.writeBack
  split
  · exact .refl s
  · have put := (sameCur_l2Touch s x.ctx (s.site k) (x.sec * 32) false 0 true).trans
      (.foldl (fun s i => sameCur_putPhys s (x.sec * 32 + i) x.mir ((x.bytes[i]?).toList)) (lanesOf x.dirty) _)
    dsimp only
    split
    · exact put.trans (sameCur_unlose ..)
    · exact put
theorem sameCur_dropL1 (k : Nat) (p : L1Sec → Bool) : SameCur s (s.dropL1 k p) :=
  SameCur.foldl (fun s (x : L1Sec) => sameCur_writeBack s k x) _ s
theorem sameCur_cleanL1 (k : Nat) (p : L1Sec → Bool) : SameCur s (s.cleanL1 k p) :=
  SameCur.foldl (fun s (x : L1Sec) => sameCur_writeBack s k x) _ s
theorem sameCur_want (pa : Nat) (mir write : Bool) : SameCur s (s.want pa mir write) :=
  .foldl (fun s (ch : Nat) => by split <;> rfl) _ s
theorem sameCur_wantIn (k : Nat) (p : L1Sec → Bool) : SameCur s (s.wantIn k p) :=
  .foldl (f := State.wantSec) (fun s x => sameCur_want s (x.sec * 32) x.mir true) _ s
theorem sameCur_fromMirror (ps : List (Loc × Nat)) : SameCur s (s.fromMirror ps) :=
  .foldl (fun s (p : Loc × Nat) => by
    split
    · split <;> rfl
    · exact .refl s) ps s
theorem sameCur_land (l : Loc) (bs : List Byte) : SameCur s (s.land l bs) := by
  cases l with
  | shm a => exact .refl s
  | pad d sl o => rfl
  | phys pa sh mir mig cp => exact sameCur_putPhys s pa mir bs
theorem sameCur_acquire (core : Nat) (d : Dom) : SameCur s (s.acquire core d) := by
  unfold State.acquire State.invalidate State.loseL1
  dsimp only
  split
  · exact .refl s
  · split
    · exact .refl s
    · exact sameCur_dropL1 ..
theorem sameCur_trigger3s (tid : Nat) (gs : List Nat) : SameCur s (s.trigger3s tid gs) :=
  .foldl (f := fun s j => s.trigger3 tid j) (fun _ _ => rfl) gs s

/-! ## What comes about in a team (R32-R40, R166-R168, R188, R272, R407) -/

theorem sameCur_fenceStep (tid gi : Nat) : SameCur s (s.fenceStep tid gi) := by
  unfold State.fenceStep
  split
  · exact .refl s
  · split
    · exact .refl s
    · split
      · exact .refl s
      · rename_i t _ _ g _ _ f _
        have acquired : SameCur s (if f.acq then s.acquire t.pcore f.dom else s) := by
          split
          · exact sameCur_acquire ..
          · exact .refl s
        dsimp only
        split
        · have cleaned (s : State) : SameCur s (if f.x then s.cleanL1 t.pcore (fun x => x.ctx == t.ctx) else s) := by
            split
            · exact sameCur_cleanL1 ..
            · exact .refl s
          exact acquired.trans (cleaned _)
        · split
          · exact sameCur_wantIn ..
          · exact .refl s
theorem sameCur_serveOne {s s' : State} {tid : Nat} {w : ChanWait} (h : s.serveOne tid w = some s') : SameCur s s' := by
  unfold State.serveOne at h
  split at h
  · cases h
  · split at h
    · cases h
    · split at h
      · split at h
        · cases h
          rfl
        · split at h
          · cases h
            rfl
          · cases h
      · split at h
        · cases h
        · cases h
          have received (s : State) (t : Team) (gi : Nat) : SameCur s (if t.la.bridle then s else (s.acquire t.pcore Dom.die).trigger3 tid gi) := by
            split
            · exact .refl s
            · exact sameCur_acquire ..
          exact received _ _ _
theorem sameCur_serveChan (tid : Nat) : SameCur s (s.serveChan tid) := by
  unfold State.serveChan
  split
  · exact .refl s
  · rename_i t _
    split
    · exact .refl s
    · have served (ws : List ChanWait) (l : List ChanWait) : SameCur s (ws.foldl (fun (acc : State × List ChanWait) w => match acc.1.serveOne tid w with
          | some s' => (s', acc.2)
          | none => (acc.1, acc.2 ++ [w])) (s, l)).1 := by
        refine List.foldlRecOn (motive := fun acc : State × List ChanWait => SameCur s acc.1) ws _ (.refl s) fun acc same w _ => ?_
        split
        · rename_i one
          exact same.trans (sameCur_serveOne one)
        · exact same
      dsimp only
      split
      · exact .refl s
      · exact served _ _
theorem sameCur_phwStep (tid : Nat) : SameCur s (s.phwStep tid) := by
  unfold State.phwStep
  split
  · exact .refl s
  · dsimp only
    split
    · exact .refl s
    · exact (sameCur_acquire ..).trans (sameCur_trigger3s ..)
theorem sameCur_reachAt (tid gi pc : Nat) : SameCur s (s.reachAt tid gi pc) := by
  unfold State.reachAt
  split
  · exact .refl s
  · split
    · exact .refl s
    · split
      · exact .refl s
      · split
        · exact .refl s
        · dsimp only
          split
          · exact .refl s
          · split
            · exact .refl s
            · split
              · exact (sameHoldings_trapMask ..).sameCur
              · rfl
theorem sameCur_reach (tid gi : Nat) : SameCur s (s.reach tid gi) := by
  unfold State.reach
  split
  · exact .refl s
  · exact .foldl (fun s (pc : Nat) => sameCur_reachAt s tid gi pc) _ s
theorem sameCur_arrivals (tid n : Nat) : SameCur s (s.arrivals tid n) := by
  have reached := SameCur.foldl (fun s (j : Nat) => sameCur_reach s tid j) (List.range n) s
  refine reached.trans (.foldl (f := fun s j =>
    if (s.team? tid).any (fun t => !t.idle && (t.groups[j]?).any (fun g => g.lanes.any (·.st.isArrived))) then s.splitCheck tid j else s)
    (fun s j => ?_) (List.range n) _)
  split
  · exact (sameHoldings_splitCheck ..).sameCur
  · exact .refl s
theorem sameCur_startWalks (t : Team) : SameCur s (s.startWalks t) := by
  refine .foldl (fun s g => .foldl (fun s l => ?_) _ s) _ s
  split
  · unfold State.startWalk
    dsimp only
    split <;> rfl
  · exact .refl s
theorem sameCur_settleTeam (tid : Nat) : SameCur s (s.settleTeam tid) := by
  have changed {s s' : State} {f : Team → Team} (h : SameCur s s') : SameCur s (s'.modTeam tid f) := h
  have woken (s : State) : SameCur s (match s.team? tid with
      | some t => if t.idle then s
        else s.modTeam tid (fun t => { t with groups := (enum t.groups).map (fun (p : Nat × Group) => s.wake t p.1 p.2) })
      | none => s) := by
    split
    · split
      · exact .refl s
      · rfl
    · exact .refl s
  have walking (s : State) : SameCur s (match s.team? tid with
      | some t => s.startWalks t
      | none => s) := by
    split
    · exact sameCur_startWalks ..
    · exact .refl s
  unfold State.settleTeam
  split
  · exact .refl s
  · rename_i t _
    refine SameCur.trans ?_ (walking _)
    refine SameCur.trans ?_ (sameCur_arrivals ..)
    refine SameCur.trans ?_ (woken _)
    refine SameCur.trans ?_ ((sameCur_serveChan ..).trans (sameCur_phwStep ..))
    refine SameCur.trans ?_ (.foldl (f := fun s j => s.fenceStep tid j) (fun s j => sameCur_fenceStep s tid j) (List.range t.groups.length) _)
    exact changed (changed (changed (sameCur_acquire (s.modTeam tid Team.yieldPaths) ..)))
/-- After a step's effect no issue is under way. -/
theorem settle_cur : s.settle.cur = none :=
  SameCur.foldl (f := State.settleTeam) sameCur_settleTeam (s.teams.map Team.tid) { s with cur := none }

/-! ## Held notices, invalidations and ages (R152, R264, R279) -/

theorem SameCur.foldlM {α ε : Type} {f : State → α → Except ε State} (h : ∀ s q s', f s q = .ok s' → SameCur s s') (l : List α) :
    ∀ {s s' : State}, l.foldlM f s = .ok s' → SameCur s s' := by
  induction l with
  | nil =>
    intro s s' h
    cases h
    exact .refl s
  | cons q r ih =>
    intro s s' hs
    rw [List.foldlM_cons] at hs
    cases one : f s q with
    | error e => rw [one] at hs; cases hs
    | ok s1 =>
      rw [one] at hs
      exact (h s q s1 one).trans (ih hs)
theorem sameCur_devWrite {s s' : State} {x va : Nat} {bs : List Byte} (h : s.devWrite x va bs = .ok s') : SameCur s s' := by
  refine SameCur.foldlM (fun s p s' h => ?_) _ h
  cases place : s.devEntry x p.1 true with
  | error e => rw [place] at h; cases h
  | ok e =>
    rw [place] at h
    cases h
    have walked : SameCur s (s.walkUse x p.1) := .foldl (f := State.useLine) (fun s pa => sameCur_useLine s pa) _ s
    have noted (s : State) : SameCur s (s.setA e.2) := rfl
    exact ((walked.trans (noted _)).trans (sameCur_setD ..)).trans (sameCur_land ..)
theorem sameCur_tqErr (x : Nat) : SameCur s (s.tqErr x) := by
  unfold State.tqErr
  split <;> rfl
theorem sameCur_devOver (x : Nat) : SameCur s (s.devOver x) := by
  unfold State.devOver
  split <;> rfl
theorem sameCur_devFail (x va : Nat) : SameCur s (s.devFail x va) := by
  unfold State.devFail
  refine SameCur.trans ?_ (sameCur_devOver ..)
  split <;> rfl
theorem sameCur_writeNotice (x : Nat) (n : Notice) : SameCur s (s.writeNotice x n).1 := by
  have waits (a : Option (Nat × Bool × Bool)) : SameCur s (s.wantAt a) := by
    unfold State.wantAt
    split
    · exact sameCur_want ..
    · exact .refl s
  unfold State.writeNotice
  split
  · exact .refl s
  · dsimp only
    split
    · rename_i s' written
      have same : SameCur s s' := sameCur_devWrite written
      exact same
    · exact waits _
    · rfl
    · exact sameCur_tqErr ..
    · exact (sameCur_devFail ..).trans (sameCur_tqErr ..)
theorem sameCur_flushNotices (x n : Nat) : ∀ s, SameCur s (State.flushNotices x n s) := by
  induction n with
  | zero => exact .refl
  | succ n ih =>
    intro s
    unfold State.flushNotices
    split
    · exact .refl s
    · rename_i m _ _
      have written := sameCur_writeNotice s x m
      split
      · rename_i done
        rw [done] at written
        exact written.trans (ih (State.modCtx _ x _))
      · rename_i held
        rw [held] at written
        exact written
theorem sameCur_retryHeld : SameCur s s.retryHeld := by
  refine .foldl (fun s p => ?_) _ s
  split
  · exact .refl s
  · exact sameCur_flushNotices ..
theorem sameCur_atsDone : SameCur s s.atsDone := by
  unfold State.atsDone
  split <;> rfl
theorem sameCur_ageAll : SameCur s s.ageAll := by
  refine .foldl (fun s d => ?_) _ s
  unfold State.ageDie
  split
  · exact .refl s
  · dsimp only
    split
    · split
      · split
        · exact .refl s
        · rfl
      · split
        · exact .refl s
        · rfl
    · exact .refl s
end

/-! ## Every move of a step -/

theorem settled_cur {o : Host.Outcome State Fault Refusal} {s : State} (h : settled o = .next s) : s.cur = none := by
  cases o with
  | next s' =>
    cases h
    have after : SameCur s'.settle s'.settle.retryHeld.atsDone.ageAll :=
      (sameCur_retryHeld _).trans ((sameCur_atsDone _).trans (sameCur_ageAll _))
    exact Eq.trans after (settle_cur s')
  | fault f => cases h
  | refused r => cases h

section
variable {s s' : State} (idle : s.cur = none)
include idle
theorem issueMove_cur {tid gi lane : Nat} (h : issueMove s tid gi lane = .next s') : s'.cur = none := by
  unfold issueMove at h
  split at h
  · cases h
    exact idle
  · split at h
    · exact settled_cur h
    · split at h <;> exact settled_cur h
theorem runMove_cur {m : Move} (h : runMove m s = .next s') : s'.cur = none := by
  unfold runMove at h
  split at h
  · split at h
    · split at h
      · exact settled_cur h
      · cases h
        exact idle
    · exact issueMove_cur idle h
    · exact settled_cur h
    · exact settled_cur h
    · exact settled_cur h
    · cases h
      rfl
    · exact settled_cur h
  · split at h
    · exact settled_cur h
    · cases h
      exact idle
theorem ownMove_cur (h : s.ownMove = .next s') : s'.cur = none := by
  unfold State.ownMove at h
  split at h
  · split at h
    · rename_i o moved
      obtain ⟨a, -, changed⟩ := List.exists_of_findSome?_eq_some moved
      subst h
      unfold State.changed at changed
      split at changed
      · rename_i done
        split at changed
        · cases changed
        · cases changed
          exact settled_cur done
      · cases changed
      · cases changed
    · split at h
      · exact runMove_cur idle h
      · cases h
        exact idle
  · cases h
    exact idle
end

/-- Settles O48: whatever comes about with a move ends without an issue under way, and what a move changes without it begins with none. -/
theorem noIssueStaysUnderWay : Obligations.NoIssueStaysUnderWay := by
  intro s s2 idle h
  unfold step at h
  split at h
  · rename_i m r _
    exact runMove_cur (s := { s with agenda := r }) idle h
  · exact ownMove_cur idle h

end Sys2Proof.Machine
end

section
/-! PROOFS. A step of a free team's issue: the attempt of the bundle, by what its fetch gives (R24-R29, R70, R257). -/
namespace Sys2Proof.Machine

/-! ## The attempt of a bundle in free mode -/

/-- What an attempt comes to when its fetch is done: `s` is the state with the path selected, `t` its team, `g` its group, `c` the issue. -/
def Fetched.attempted (s : State) (t : Team) (g : Group) (c : Cur) : Fetched → Attempt
  | .park r => .stop (s.modGroup c.tid c.gi (fun h => h.park c.lanes r))
  | .fault code a => .stop (s.trapEarly c g { code := code, addr := a })
  | .words s2 w v => match decodeWords w v with
    | .error _ => .stop ((s2.passOver t c.gi g.quarter (bit w 31)).trapEarly c g { code := tILL })
    | .ok i => .run { s2.passOver t c.gi g.quarter (bit w 31) with cur := some c } i

section
variable {s : State} {tid gi lane pc : Nat} {new : Bool} {t : Team} {g : Group} (ht : s.team? tid = some t) (free : t.la.bridle = false)
  (hg : t.groups[gi]? = some g) (can : canIssue t gi g = true) (path : g.selectPath = some (pc, new))
include ht free hg can path

/-- A bundle that waits for the one that issued last does nothing (R28). -/
theorem attempt_waits (may : g.mayRun pc new lane = false) : attempt s tid gi lane = .stop s := by
  have sees : s.seeFirst t gi g = Option.none := by simp [State.seeFirst, State.blindPath, free]
  unfold attempt
  simp only [ht, free, Bool.false_eq_true, if_false, hg, can, Bool.not_true, sees, path]
  exact if_pos (.inr (.inr (congrArg not may)))

/-- A bundle that may run is fetched, and its attempt is what comes of the fetch. -/
theorem attempt_fetches (ready : (g.lane lane).st = .ready) (there : (g.lane lane).pc = pc) (may : g.mayRun pc new lane = true) :
    attempt s tid gi lane = (fetch (s.selected tid t gi g pc new) (t.selecting gi g pc new) gi lane pc (g.selecting t.halt.isSome pc new)).attempted
      (s.selected tid t gi g pc new) (t.selecting gi g pc new) (g.selecting t.halt.isSome pc new) ⟨tid, gi, g.bundleOf pc lane, pc⟩ := by
  have sees : s.seeFirst t gi g = Option.none := by simp [State.seeFirst, State.blindPath, free]
  have runs : ¬(((g.selecting t.halt.isSome pc new).lane lane).st ≠ .ready ∨ ((g.selecting t.halt.isSome pc new).lane lane).pc ≠ pc ∨
      (!(g.selecting t.halt.isSome pc new).mayRun pc new lane) = true) := by
    rintro (h | h | h)
    · exact h ready
    · exact h there
    · exact Bool.false_ne_true ((congrArg not may).symm.trans h)
  unfold attempt
  simp only [ht, free, Bool.false_eq_true, if_false, hg, can, Bool.not_true, sees, path]
  refine (if_neg runs).trans ?_
  simp only [State.selected, Team.selecting, Group.selecting]
  generalize fetch _ _ _ _ _ _ = f
  cases f <;> rfl
end

/-! ## The step of an issue -/

theorem step_issue {s : State} {tid gi lane : Nat} {r : List Move} (head : s.agenda = .issue tid gi lane :: r) (on : s.powered = true) :
    step s = issueMove { s with agenda := r } tid gi lane := by
  rw [step, head]
  exact if_pos on
theorem issueMove_passed {s : State} {tid gi lane : Nat} (passed : s.mayIssue tid gi = false) : issueMove s tid gi lane = .next s := by
  simp [issueMove, passed]
theorem issueMove_stop {s s2 : State} {tid gi lane : Nat} (chosen : s.mayIssue tid gi = true) (h : attempt s tid gi lane = .stop s2) :
    issueMove s tid gi lane = settled (.next s2) := by
  simp [issueMove, chosen, h]
theorem issueMove_run {s s2 : State} {tid gi lane : Nat} {i : Instr} (chosen : s.mayIssue tid gi = true) (h : attempt s tid gi lane = .run s2 i) :
    issueMove s tid gi lane =
      if s.knowsPipe tid gi || (s.fetchedOnly s2 tid gi).mayIssue tid gi then settled (exec i s2) else settled (.next (s.fetchedOnly s2 tid gi)) := by
  simp [issueMove, chosen, h]

/-- Settles O45: the attempt is what comes of the bundle's fetch, and the issue what comes of the attempt. -/
theorem stepRunsTheDecodedInstruction : Obligations.StepRunsTheDecodedInstruction := by
  unfold Obligations.StepRunsTheDecodedInstruction
  intro s s0 s1 r tid gi lane pc new t g head on h0 ht free hg can path ready there h1
  subst h1
  rw [step_issue head on, ← h0]
  refine ⟨issueMove_passed, fun chosen waits => issueMove_stop chosen (attempt_waits ht free hg can path waits), fun chosen may => ?_⟩
  have att := attempt_fetches ht free hg can path ready there may
  refine ⟨fun s2 w v i words reads s3 h3 => ?_, fun s2 w v e words none => ?_, fun code a faults => ?_, fun p parks => ?_⟩
  · have runs : attempt s0 tid gi lane = .run s3 i := by
      rw [att, words, h3]
      simp only [Fetched.attempted, reads]
      rfl
    rw [issueMove_run chosen runs]
    refine ⟨fun h => if_pos (by simpa using h), fun unknown other => if_neg (by simp [unknown, other])⟩
  · refine issueMove_stop chosen (att.trans ?_)
    rw [words]
    simp only [Fetched.attempted, none]
    rfl
  · exact issueMove_stop chosen (by rw [att, faults]; rfl)
  · exact issueMove_stop chosen (by rw [att, parks]; rfl)

end Sys2Proof.Machine
end

section
/-! PROOFS. What reset leaves: the registers at their reset values (R144, R234, R258, R259, R269, R285). -/
namespace Sys2Proof.Machine

/-- A register at reset holds its reset value. -/
theorem reset_bar (o : Nat) : State.reset.bar o = barReset 1 o % 2 ^ 32 := by
  exact (congrArg BitVec.toNat BitVec.zero_xor).trans (BitVec.toNat_ofNat ..)
theorem reset_bar_ctx {x o : Nat} (hx : x < 1024) (ho : o < 128) : State.reset.bar (ctxOff x o) = if o = 0x30 then 100 * 2 ^ 20 + 128 else 0 := by
  have inside : 0x0070_0000 ≤ ctxOff x o ∧ ctxOff x o < 0x0072_0000 := by unfold ctxOff; omega
  have field : ctxOff x o % 128 = o := by unfold ctxOff; omega
  rw [reset_bar, barReset, if_pos inside, field]
  split <;> rfl
theorem reset_bar_queue {x q o : Nat} (hx : x < 1024) (hq : q < 128) (ho : o < 32) : State.reset.bar (queueOff x q o) = 0 := by
  have notCtx : ¬(0x0070_0000 ≤ queueOff x q o ∧ queueOff x q o < 0x0072_0000) := by unfold queueOff; omega
  have notDie : ¬(0x0200_0000 ≤ queueOff x q o ∧ queueOff x q o < 0x0600_0000) := by unfold queueOff; omega
  rw [reset_bar, barReset, if_neg notCtx, if_neg notDie]
  rfl

/-- The reset value of a die's register, by its offset on the die. -/
theorem reset_bar_die {d o : Nat} (hd : d < 4) (ho : o < 0x0100_0000) : State.reset.bar (dieOff d o) =
    (if 0x0010_0000 ≤ o ∧ o < 0x0010_0038 then
      (if o % 8 = 0 then shmReset ((o - 0x0010_0000) / 8) % 2 ^ 32 else shmReset ((o - 0x0010_0000) / 8) / 2 ^ 32)
    else if o = 0x0010_0038 then 2 ^ 14
    else if 0x0050_0000 ≤ o ∧ o < 0x0050_0500 then powerReset 1 (o - 0x0050_0000)
    else 0) % 2 ^ 32 := by
  have notCtx : ¬(0x0070_0000 ≤ dieOff d o ∧ dieOff d o < 0x0072_0000) := by unfold dieOff; omega
  have onDie : 0x0200_0000 ≤ dieOff d o ∧ dieOff d o < 0x0600_0000 := by unfold dieOff; omega
  have offset : dieOff d o % 0x0100_0000 = o := by unfold dieOff; omega
  rw [reset_bar, barReset, if_neg notCtx, if_pos onDie, offset]
theorem reset_bar_pow {d o : Nat} (hd : d < 4) (ho : o < 0x500) : State.reset.bar (powOff d o) = powerReset 1 o % 2 ^ 32 := by
  rw [powOff, reset_bar_die hd (by omega), if_neg (by omega), if_neg (by omega), if_pos (by omega), Nat.add_sub_cancel_left]
theorem reset_bar64_pow {d o : Nat} (hd : d < 4) (ho : o + 4 < 0x500) :
    State.reset.bar64 (powOff d o) = powerReset 1 o % 2 ^ 32 + 2 ^ 32 * (powerReset 1 (o + 4) % 2 ^ 32) :=
  congrArg₂ (fun a b => a + 2 ^ 32 * b) (reset_bar_pow hd (by omega)) (reset_bar_pow (o := o + 4) hd ho)
/-- Bit 14 of the word at 0x38, which enables a partition, is set in partition 0 alone. -/
theorem reset_bar_partEnable {d p : Nat} (hd : d < 4) (hp : p < 16) : State.reset.bar (partOff d p 0x38) = if p = 0 then 2 ^ 14 else 0 := by
  rw [partOff, reset_bar_die hd (by omega), if_neg (by omega)]
  obtain rfl | other := Nat.eq_zero_or_pos p
  · rfl
  · rw [if_neg (by omega), if_neg (by omega), if_neg (by omega)]
    rfl
theorem reset_bar64_mask {d i : Nat} (hd : d < 4) (hi : i < 7) :
    State.reset.bar64 (partOff d 0 (8 * i)) = shmReset i % 2 ^ 32 + 2 ^ 32 * (shmReset i / 2 ^ 32 % 2 ^ 32) := by
  have low : State.reset.bar (partOff d 0 (8 * i)) = shmReset i % 2 ^ 32 := by
    rw [partOff, reset_bar_die hd (by omega), if_pos (by omega), if_pos (by omega), Nat.mod_mod]
    congr 2
    omega
  have high : State.reset.bar (partOff d 0 (8 * i) + 4) = shmReset i / 2 ^ 32 % 2 ^ 32 := by
    show State.reset.bar (dieOff d (0x0010_0000 + 64 * 0 + 8 * i + 4)) = _
    rw [reset_bar_die hd (by omega), if_pos (by omega), if_neg (by omega)]
    congr 3
    omega
  rw [State.bar64, low, high]

theorem reset_pool {d b : Nat} (hd : d < 4) (hb : b < 32) : State.reset.pool d b = 1 := by
  have off : ∀ n < 32, bitsAt (powerReset 1 (0x10C + 16 * n) % 2 ^ 32) 0 2 = 1 := by decide
  rw [State.pool, reset_bar_pow hd (by omega)]
  exact off b hb
/-- The costs of the kinds of job card (R269). -/
theorem powerReset_cards : ∀ k < 9, 1 ≤ k → powerReset 1 (0x60 + 8 * k) % 2 ^ 32 + 2 ^ 32 * (powerReset 1 (0x60 + 8 * k + 4) % 2 ^ 32) =
    if k ≤ 4 then 1500 * 2 ^ 32 + 2000 else if k ≤ 6 then 2500 * 2 ^ 32 + 3000 else if k = 7 then 8000 * 2 ^ 32 + 20000 else 3000 * 2 ^ 32 + 4000 := by
  decide
/-- The masks of partition 0 share its slices by bit modulo 7 (R144). -/
theorem testBit_shmReset : ∀ i < 7, ∀ j < 64, (shmReset i % 2 ^ 32 + 2 ^ 32 * (shmReset i / 2 ^ 32 % 2 ^ 32)).testBit j =
    (decide (7 ≤ j) && decide (j ≤ 51) && decide (j % 7 = i)) := by
  decide

/-- Settles O47: each register by its reset value, whose place is worked out once for the contexts, the queues and the dies. -/
theorem resetState : Obligations.ResetState := by
  unfold Obligations.ResetState
  refine ⟨rfl, rfl, rfl, rfl, rfl, rfl, rfl, rfl, rfl, fun x hx => ⟨?_, ?_, ?_, fun q o hq ho => reset_bar_queue hx hq ho⟩, fun d hd =>
    ⟨?_, ?_, ?_, fun b hb => reset_pool hd hb, ?_, ?_, ?_, ?_, ?_, ?_, ?_, ?_, fun k low high => ?_, fun p hp => reset_bar_partEnable hd hp,
      fun i j hi hj => ?_⟩⟩
  · rw [State.ctxEn, reset_bar_ctx hx (by omega)]
    rfl
  · rw [State.ctxPriv, reset_bar_ctx hx (by omega)]
    rfl
  · exact reset_bar_ctx hx (by omega)
  iterate 3 exact reset_bar_pow hd (by omega)
  iterate 8 exact reset_bar64_pow hd (by omega)
  · exact (reset_bar64_pow hd (by omega)).trans (powerReset_cards k (by omega) low)
  · rw [reset_bar64_mask hd hi]
    exact testBit_shmReset i hi j hj

end Sys2Proof.Machine
end

section
/-! PROOFS. The events between a core's instructions (R14, R25, R28, R29, R93, R157, R166, R194, R257, R407). -/
namespace Sys2Proof.Machine

/-! ## Bundles, paths and results -/

theorem formCore_eq (s : State) (core : Nat) : s.formCore core =
    { s with teams := s.teams.map (fun t => if t.pcore = core ∧ t.la.bridle = false then { t with groups := t.groups.map Group.form } else t) } := by
  simp only [State.formCore, Bool.not_eq_true']
theorem Group.nextPath_selects {g : Group} {p : Nat} (h : { g with issued := 32 }.selectPath = some (p, true)) :
    g.nextPath = { g with path := some p, issued := 0 } := by
  rw [Group.nextPath, h]
/-- A result all of whose lanes are named is written whole. -/
theorem Group.writeback_all {g : Group} {k : Nat} {e : Pend} {m : Mask} (he : g.pend[k]? = some e) (all : ∀ q ∈ e.lanes, m.has q.1 = true) :
    g.writeback k m = { g.deliverOne e with pend := g.pend.eraseIdx k } := by
  have rest : e.lanes.filter (not ∘ fun q => m.has q.1) = [] := List.filter_eq_nil_iff.2 fun q hq => by simp [all q hq]
  have whole : e.part m = (e, ⟨[], []⟩) := by
    simp only [Pend.part, List.partition_eq_filter_filter, rest, if_true]
  simp only [Group.writeback, he, whole, and_self, if_true]

/-! ## Speculation, messages and acknowledgements -/

theorem commit_of_open {s : State} {tid gi : Nat} {t : Team} {g : Group} (ht : s.team? tid = some t) (hg : t.groups[gi]? = some g)
    (unready : ∀ b, g.bram = some b → b.past = false) : s.commit tid gi = s := by
  unfold State.commit
  simp only [ht, hg]
  cases hb : g.bram with
  | none => rfl
  | some b => simp [unready b hb]
theorem exec_messageArrive {s : State} {tid k : Nat} {t : Team} {m : Msg} (ht : s.team? tid = some t) (hm : t.msgs[k]? = some m)
    (flies : m.landed = false) (first : s.firstFlying t m = true) :
    ∃ s2, exec (.channelMessageArrive tid k) s = .next s2 ∧ s2.team? tid = some { t with msgs := landMsg t.msgs k } := by
  refine ⟨_, rfl, (team?_modTeam fun u => ?_).trans ?_⟩
  · split <;> rfl
  · rw [ht, Option.map_some, hm]
    simp [flies, first]
theorem exec_writeAcknowledge {s : State} {core k : Nat} {w : Flight} (hw : (s.core core).fly[k]? = some w) :
    exec (.writeAcknowledge core k) s =
      .next (if flyFree (s.core core).fly k && !s.flightHeld w then (s.ack core k).releaseHeads core else s) := by
  show execWriteAcknowledge core k s = _
  simp only [execWriteAcknowledge, hw]

/-- Settles O51: the events on a group through its change, and the others by their conditions. -/
theorem coreEventsComplete : Obligations.CoreEventsComplete := by
  unfold Obligations.CoreEventsComplete
  refine ⟨fun s core => ?_, fun s tid gi t g ht hg => ⟨?timer, ?held, ?cinch, ?ageU, ?ageL, ?result, ?before, ?none, rfl, ?message⟩,
    fun s core k w hw => ⟨fun free moves => ?_, fun blocked => ?_⟩⟩
  case timer =>
    intro p due uncinched next
    exact ⟨_, rfl, (group?_modGroup ht hg).trans (by rw [if_pos ⟨due, uncinched⟩, Group.nextPath_selects next])⟩
  case held =>
    intro h
    exact ⟨_, rfl, (group?_modGroup ht hg).trans (by rw [if_neg]; rintro ⟨due, uncinched⟩; exact h.elim (by omega) (· uncinched))⟩
  case cinch =>
    refine ⟨s.modGroup tid gi (fun g => if g.cinchOver t.la.bridle then { g with cinch := none } else g), ?_, group?_modGroup ht hg⟩
    show execCinchWindowClose tid gi s = _
    simp only [execCinchWindowClose, ht]
  case ageU => exact ⟨_, rfl, group?_modGroup ht hg⟩
  case ageL => exact ⟨_, rfl, group?_modGroup ht hg⟩
  case result =>
    intro k e m he all
    exact ⟨_, rfl, (group?_modGroup ht hg).trans (congrArg some (Group.writeback_all he all))⟩
  case before => exact fun b hb unready => congrArg _ (commit_of_open ht hg fun b' hb' => Option.some.inj (hb.symm.trans hb') ▸ unready)
  case none => exact fun no => congrArg _ (commit_of_open ht hg fun b hb => nomatch no.symm.trans hb)
  case message => exact fun k m hm flies first => ⟨by simp only [landMsg, hm], exec_messageArrive ht hm flies first⟩
  · show Host.Outcome.next _ = Host.Outcome.next _
    simp only [formCore_eq]
  · rw [exec_writeAcknowledge hw, free, moves]
    rfl
  · rw [exec_writeAcknowledge hw, if_neg]
    obtain h | h := blocked <;> simp [h]

end Sys2Proof.Machine
end

section
/-! PROOFS. What reads nothing of memory and the caches stays as memory and the caches change (R136-R153, R279). -/
namespace Sys2Proof.Machine

/-! ## Teams apart from their reservations and marks -/

/-- A lane without its reservation. -/
def Lane.unreserved (l : Lane) : Lane := { l with resv := none }
/-- A speculation that is not marked for rollback. -/
def Bram.unmarked (b : Bram) : Bram := { b with hit := false }
/-- A group apart from what another agent's write takes: its lanes' reservations, and its mark for rollback (R171, R193). -/
def Group.frame (g : Group) : Group :=
  { g with lanes := g.lanes.map Lane.unreserved, bram := g.bram.map Bram.unmarked }
/-- A team apart from the same. -/
def Team.frame (t : Team) : Team := { t with groups := t.groups.map Group.frame }

theorem Group.frame_loseResv (g : Group) (line : Nat) :
    Group.frame { g with lanes := g.lanes.map (fun l => if l.resv.map Resv.line = some line then { l with resv := none } else l) } = g.frame := by
  have lanes : (g.lanes.map (fun l => if l.resv.map Resv.line = some line then { l with resv := none } else l)).map Lane.unreserved =
      g.lanes.map Lane.unreserved := by
    rw [List.map_map]
    refine List.map_congr_left fun l _ => ?_
    simp only [Function.comp_apply]
    split <;> rfl
  unfold Group.frame
  rw [lanes]
/-- A mark may be put anywhere. -/
theorem Group.frame_mark (g : Group) (c : Bram → Bool) :
    Group.frame { g with bram := g.bram.map (fun b => if c b then { b with hit := true } else b) } = g.frame := by
  have marks : (g.bram.map (fun b => if c b then { b with hit := true } else b)).map Bram.unmarked = g.bram.map Bram.unmarked := by
    cases g.bram with
    | none => rfl
    | some b =>
      simp only [Option.map_some]
      split <;> rfl
  unfold Group.frame
  rw [marks]
theorem Team.frame_map {t : Team} {gs : List Group} (h : gs.map Group.frame = t.groups.map Group.frame) : Team.frame { t with groups := gs } = t.frame := by
  simp only [Team.frame, h]
theorem map_enum_snd {α β : Type} {f : Nat × α → α} {p : α → β} (h : ∀ q, p (f q) = p q.2) (l : List α) :
    ((enum l).map f).map p = l.map p := by
  refine List.ext_getElem? fun j => ?_
  simp only [List.getElem?_map, enum_getElem?, Option.map_map, Function.comp_def, h]

/-! ## Functions of the state that memory and the caches do not change -/

/-- A function of the state that reads nothing of memory, pads, registers, contexts' notes, the dies but for their number, readers, interrupts and what others'
writes take of a team. -/
structure Aside {α : Type} (p : State → α) : Prop where
  mem : ∀ s x, p { s with mem := x } = p s
  pad : ∀ s x, p { s with pad := x } = p s
  bar0 : ∀ s x, p { s with bar0 := x } = p s
  ctxs : ∀ s x, p { s with ctxs := x } = p s
  dies : ∀ s x, x.length = s.dies.length → p { s with dies := x } = p s
  readers : ∀ s x, p { s with readers := x } = p s
  irqs : ∀ s x, p { s with irqs := x } = p s
  teams : ∀ s x, x.map Team.frame = s.teams.map Team.frame → p { s with teams := x } = p s

theorem aside_frames : Aside (fun s => s.teams.map Team.frame) :=
  ⟨fun _ _ => rfl, fun _ _ => rfl, fun _ _ => rfl, fun _ _ => rfl, fun _ _ _ => rfl, fun _ _ => rfl, fun _ _ => rfl, fun _ _ h => h⟩
theorem aside_live : Aside State.live :=
  ⟨fun _ _ => rfl, fun _ _ => rfl, fun _ _ => rfl, fun _ _ => rfl, fun _ _ _ => rfl, fun _ _ => rfl, fun _ _ => rfl, fun _ _ _ => rfl⟩
theorem aside_sites : Aside (fun s => (s.sites, s.badSites, s.unavail)) :=
  ⟨fun _ _ => rfl, fun _ _ => rfl, fun _ _ => rfl, fun _ _ => rfl, fun _ _ _ => rfl, fun _ _ => rfl, fun _ _ => rfl, fun _ _ _ => rfl⟩
theorem aside_cores : Aside State.cores :=
  ⟨fun _ _ => rfl, fun _ _ => rfl, fun _ _ => rfl, fun _ _ => rfl, fun _ _ _ => rfl, fun _ _ => rfl, fun _ _ => rfl, fun _ _ _ => rfl⟩
theorem aside_dieCount : Aside (fun s => s.dies.length) :=
  ⟨fun _ _ => rfl, fun _ _ => rfl, fun _ _ => rfl, fun _ _ => rfl, fun _ _ h => h, fun _ _ => rfl, fun _ _ => rfl, fun _ _ _ => rfl⟩

/-- What each step of a fold keeps, the fold keeps. -/
theorem foldl_keeps {σ α β : Type} {p : σ → α} {f : σ → β → σ} (hf : ∀ s q, p (f s q) = p s) (l : List β) (s : σ) : p (l.foldl f s) = p s :=
  List.foldlRecOn (motive := fun s' => p s' = p s) l f rfl fun s' same q _ => (hf s' q).trans same

namespace Aside
variable {α : Type} {p : State → α} (h : Aside p)
include h

section
variable (s : State)

theorem modDie (d : Nat) (f : Die → Die) : p (s.modDie d f) = p s := h.dies _ _ (updAt_length ..)
theorem modCtx (x : Nat) (f : Ctx → Ctx) : p (s.modCtx x f) = p s := h.ctxs ..
theorem setBar (o v : Nat) : p (s.setBar o v) = p s := h.bar0 ..
theorem addBar64 (o n : Nat) : p (s.addBar64 o n) = p s := (h.setBar ..).trans (h.setBar ..)
theorem irq (v : Nat) : p (s.irq v) = p s := h.irqs ..
theorem loseResv (line : Nat) (core? : Option Nat) : p (s.loseResv line core?) = p s := by
  refine h.teams _ _ ?_
  rw [List.map_map]
  refine List.map_congr_left fun t _ => ?_
  simp only [Function.comp_apply]
  split
  · rfl
  · refine Team.frame_map ?_
    rw [List.map_map]
    refine List.map_congr_left fun g _ => ?_
    simp only [Function.comp_apply]
    split
    · exact g.frame_loseResv line
    · rfl
theorem markBram (q : Team → Nat → Bram → Bool) : p (s.markBram q) = p s := by
  refine h.teams _ _ ?_
  rw [List.map_map]
  refine List.map_congr_left fun t _ => ?_
  simp only [Function.comp_apply]
  split
  · exact Team.frame_map (map_enum_snd (fun e => e.2.frame_mark _) _)
  · rfl

/-! ## Channels and the L2 -/

theorem useCh (ch : Nat) : p (s.useCh ch) = p s := h.modDie ..
theorem useChannel (pa : Nat) : p (s.useChannel pa) = p s := by
  unfold State.useChannel
  split
  · rfl
  · exact h.useCh ..
theorem useLine (pa : Nat) : p (s.useLine pa) = p s := by
  unfold State.useLine
  split
  · rfl
  · exact h.useChannel ..
theorem walkUse (ctx va : Nat) : p (s.walkUse ctx va) = p s := foldl_keeps h.useLine _ s
theorem want (pa : Nat) (mir write : Bool) : p (s.want pa mir write) = p s := by
  refine foldl_keeps (fun s ch => ?_) _ s
  split
  · exact h.modDie ..
  · rfl
theorem wantAt (a : Option (Nat × Bool × Bool)) : p (s.wantAt a) = p s := by
  cases a with
  | none => rfl
  | some a => exact h.want ..
theorem unlose (l : List Nat) : p (s.unlose l) = p s := by
  unfold State.unlose
  split
  · exact h.dies _ _ (by simp)
  · rfl
theorem dropReaders (line : Nat) : p (s.dropReaders line) = p s := by
  unfold State.dropReaders
  split
  · rfl
  · exact h.readers ..
theorem modLine (line : Nat) (f : L2Line → L2Line) : p (s.modLine line f) = p s := h.modDie ..
theorem homeL2 (line : Nat) : p (s.homeL2 line) = p s := (h.modLine ..).trans (h.modDie ..)
theorem loseL2 (fill : Option Nat) (y : L2Line) : p (s.loseL2 fill y) = p s := by
  unfold State.loseL2
  cases y.dctx with
  | none => exact h.modDie ..
  | some c =>
    cases fill with
    | none => exact (h.useChannel ..).trans (h.modDie ..)
    | some f =>
      dsimp only
      split
      · exact (h.addBar64 ..).trans ((h.useChannel ..).trans (h.modDie ..))
      · exact (h.addBar64 ..).trans ((h.addBar64 ..).trans ((h.addBar64 ..).trans ((h.useChannel ..).trans (h.modDie ..))))
theorem freeL2 (n node room : Nat) (fill : Option Nat) (s : State) : p (State.freeL2 n node room fill s).1 = p s := by
  induction n generalizing node room fill s with
  | zero => rfl
  | succ n ih =>
    unfold State.freeL2
    dsimp only
    split
    · rfl
    · split
      · rfl
      · split
        · exact (ih ..).trans ((h.homeL2 ..).trans (ih ..))
        · exact (ih ..).trans (h.loseL2 ..)
theorem roomL2 (node : Nat) (fill : Option Nat) : p (s.roomL2 node fill).1 = p s := by
  unfold State.roomL2
  split
  · rfl
  · exact h.freeL2 ..
theorem l2Touch (ctx node pa : Nat) (mig : Bool) (cp : Nat) (write : Bool) : p (s.l2Touch ctx node pa mig cp write) = p s := by
  unfold State.l2Touch
  split
  · exact h.useChannel ..
  · dsimp only
    split
    · exact (h.addBar64 ..).trans ((h.modDie ..).trans ((h.useChannel ..).trans (h.roomL2 ..)))
    · split
      · exact h.modLine ..
      · exact (h.addBar64 ..).trans (h.modLine ..)

/-! ## Writes at their home, and the L1 -/

theorem useMirror (pa : Nat) : p (s.useMirror pa) = p s := h.useCh ..
theorem putPhys (pa : Nat) (mir : Bool) (bs : List Byte) : p (s.putPhys pa mir bs) = p s := by
  have put (m : SMap Byte) : p (({ s with mem := m }.unlose (wholeSectors pa bs.length)).dropReaders (pa / 128)) = p s :=
    (h.dropReaders ..).trans ((h.unlose ..).trans (h.mem ..))
  unfold State.putPhys
  refine (h.useLine ..).trans ?_
  split
  · exact (h.useMirror ..).trans (put _)
  · exact put _
theorem land (l : Loc) (bs : List Byte) : p (s.land l bs) = p s := by
  cases l with
  | shm a => rfl
  | pad d sl o => exact h.pad ..
  | phys pa sh mir mig cp => exact (h.loseResv ..).trans (h.putPhys ..)
theorem setA (pte : Nat) : p (s.setA pte) = p s := h.mem ..
theorem setD (pte : Nat) : p (s.setD pte) = p s := by
  unfold State.setD
  dsimp only
  split
  · exact (h.useLine ..).trans (h.mem ..)
  · exact h.mem ..
theorem writeBack (k : Nat) (x : L1Sec) : p (State.writeBack k s x) = p s := by
  unfold State.writeBack
  split
  · rfl
  · have put := (foldl_keeps (fun s i => h.putPhys s (x.sec * 32 + i) x.mir ((x.bytes[i]?).toList)) (lanesOf x.dirty) _).trans
      (h.l2Touch s x.ctx (s.site k) (x.sec * 32) false 0 true)
    dsimp only
    split
    · exact (h.unlose ..).trans put
    · exact put
theorem dropL1 (hc : ∀ s x, p { s with cores := x } = p s) (k : Nat) (q : L1Sec → Bool) : p (s.dropL1 k q) = p s := by
  unfold State.dropL1
  exact (hc ..).trans (foldl_keeps (f := State.writeBack k) (fun s x => h.writeBack s k x) _ s)
theorem loseL1 (hc : ∀ s x, p { s with cores := x } = p s) (k : Nat) (q : L1Sec → Bool) : p (s.loseL1 k q) = p s := by
  unfold State.loseL1
  dsimp only
  split
  · rfl
  · exact (h.markBram ..).trans (h.dropL1 s hc ..)
theorem blankCore (hc : ∀ s x, p { s with cores := x } = p s) (k : Nat) : p (s.blankCore k) = p s := by
  unfold State.blankCore
  exact (hc ..).trans (h.loseL1 s hc ..)

/-! ## The device's accesses and notices (R235, R279) -/

theorem devWrite {s s' : State} {ctx va : Nat} {bs : List Byte} (done : s.devWrite ctx va bs = .ok s') : p s' = p s := by
  unfold State.devWrite at done
  generalize splitAt' 128 va bs.length = l at done
  induction l generalizing s with
  | nil => exact congrArg p (Except.ok.inj done).symm
  | cons q r ih =>
    rw [List.foldlM_cons] at done
    cases he : s.devEntry ctx q.1 true with
    | error st =>
      simp only [he] at done
      cases done
    | ok e =>
      simp only [he] at done
      exact (ih done).trans ((h.land ..).trans ((h.setD ..).trans ((h.setA ..).trans (h.walkUse ..))))
theorem devAsk (x q : Nat) : p (s.devAsk x q) = p s := h.modCtx ..
theorem devOver (x : Nat) : p (s.devOver x) = p s := by
  unfold State.devOver
  split
  · rfl
  · exact h.modCtx ..
theorem devFail (x va : Nat) : p (s.devFail x va) = p s := by
  unfold State.devFail
  refine (h.devOver ..).trans ?_
  split
  · exact h.modCtx ..
  · rfl
theorem tqErr (x : Nat) : p (s.tqErr x) = p s := by
  unfold State.tqErr
  split
  · rfl
  · exact (h.irq ..).trans (h.setBar ..)
theorem writeNotice (x : Nat) (n : Notice) : p (s.writeNotice x n).1 = p s := by
  unfold State.writeNotice
  split
  · rfl
  · dsimp only
    split
    case h_1 done => exact (h.irq ..).trans ((h.setBar ..).trans (h.devWrite done))
    case h_2 => exact h.wantAt ..
    case h_3 => exact h.devAsk ..
    case h_4 => exact h.tqErr ..
    case h_5 => exact (h.tqErr ..).trans (h.devFail ..)
theorem flushNotices (x n : Nat) (s : State) : p (State.flushNotices x n s) = p s := by
  induction n generalizing s with
  | zero => rfl
  | succ n ih =>
    unfold State.flushNotices
    split
    · rfl
    · split
      case h_1 m _ _ _ _ written =>
        exact (ih _).trans ((h.modCtx ..).trans ((congrArg (fun q => p q.1) written).symm.trans (h.writeNotice s x m)))
      case h_2 m _ _ _ _ written => exact (congrArg (fun q => p q.1) written).symm.trans (h.writeNotice s x m)
theorem post (x : Nat) (n : Notice) : p (s.post x n) = p s := by
  unfold State.post
  dsimp only
  split
  · exact h.modCtx ..
  · exact (h.flushNotices ..).trans (h.modCtx ..)
end
end Aside

end Sys2Proof.Machine
end

section
/-! PROOFS. What a stop, a trap and others' writes keep of the teams: their places, and that they are halted (R273, R281). -/
namespace Sys2Proof.Machine

/-! ## A team later on -/

/-- `u` is the team `t` later on: of the same identity, at the same place, halted and irrevocable where it was. -/
structure Team.Onward (t u : Team) : Prop where
  tid : u.tid = t.tid
  ctx : u.ctx = t.ctx
  pcore : u.pcore = t.pcore
  groups : u.groups.length = t.groups.length
  halt : t.halt ≠ none → u.halt ≠ none
  irrev : t.irrev = true → u.irrev = true
/-- The teams later on, in their order. -/
def State.Onward (s s' : State) : Prop := List.Forall₂ Team.Onward s.teams s'.teams

theorem Team.Onward.refl (t : Team) : t.Onward t := ⟨rfl, rfl, rfl, rfl, id, id⟩
theorem Team.Onward.trans {t u v : Team} (h : t.Onward u) (k : u.Onward v) : t.Onward v :=
  ⟨k.tid.trans h.tid, k.ctx.trans h.ctx, k.pcore.trans h.pcore, k.groups.trans h.groups, k.halt ∘ h.halt, k.irrev ∘ h.irrev⟩
theorem Team.onward_of_frame {t u : Team} (h : u.frame = t.frame) : t.Onward u := by
  have groups : u.groups.length = t.groups.length := by
    have := congrArg (fun k : Team => k.groups.length) h
    simpa [Team.frame] using this
  exact ⟨(congrArg Team.tid h :), (congrArg Team.ctx h :), (congrArg Team.pcore h :), groups, fun on => (congrArg Team.halt h).trans_ne on,
    (congrArg Team.irrev h).trans⟩

theorem State.Onward.refl (s : State) : s.Onward s := List.forall₂_same.2 fun t _ => .refl t
theorem State.Onward.trans {s s' s'' : State} (h : s.Onward s') (k : s'.Onward s'') : s.Onward s'' := by
  unfold State.Onward at h k ⊢
  generalize s.teams = l, s'.teams = l', s''.teams = l'' at h k
  induction h generalizing l'' with
  | nil =>
    cases k
    exact .nil
  | cons h _ ih =>
    cases k with
    | cons k r => exact .cons (h.trans k) (ih _ r)
theorem State.Onward.foldl {α : Type} {f : State → α → State} (h : ∀ s q, State.Onward s (f s q)) (l : List α) (s : State) : s.Onward (l.foldl f s) :=
  List.foldlRecOn (motive := s.Onward) l f (.refl s) fun s' same q _ => same.trans (h s' q)
theorem onward_of_frames {s s' : State} (h : s'.teams.map Team.frame = s.teams.map Team.frame) : s.Onward s' := by
  have frames : List.Forall₂ (· = ·) (s'.teams.map Team.frame) (s.teams.map Team.frame) := by rw [List.forall₂_eq_eq_eq, h]
  rw [List.forall₂_map_left_iff] at frames
  exact ((List.forall₂_map_right_iff.1 frames).imp fun _ _ => Team.onward_of_frame).flip
theorem onward_of_teams {s s' : State} (h : s'.teams = s.teams) : s.Onward s' := onward_of_frames (by rw [h])
theorem onward_modTeam {tid : Nat} {f : Team → Team} (hf : ∀ t : Team, t.Onward (f t)) (s : State) : s.Onward (s.modTeam tid f) := by
  refine List.forall₂_map_right_iff.2 (List.forall₂_same.2 fun t _ => ?_)
  split
  · exact hf t
  · exact .refl t

theorem State.Onward.mem {s s' : State} {u : Team} (h : s.Onward s') (hu : u ∈ s'.teams) : ∃ t ∈ s.teams, t.Onward u := by
  unfold State.Onward at h
  generalize s.teams = l, s'.teams = l' at h hu
  induction h with
  | nil => cases hu
  | cons one _ ih =>
    obtain rfl | hu := List.mem_cons.1 hu
    · exact ⟨_, List.mem_cons_self, one⟩
    · obtain ⟨t, ht, later⟩ := ih hu
      exact ⟨t, List.mem_cons_of_mem _ ht, later⟩
/-- What a property that lasts says of every team, it says of them later on. -/
theorem State.Onward.forall {P : Team → Prop} (hP : ∀ t u : Team, t.Onward u → P t → P u) {s s' : State} (h : s.Onward s') (all : ∀ t ∈ s.teams, P t) :
    ∀ u ∈ s'.teams, P u := fun u hu => by
  obtain ⟨t, ht, later⟩ := h.mem hu
  exact hP t u later (all t ht)
theorem team?_isSome_iff {s : State} {tid : Nat} : (s.team? tid).isSome = true ↔ ∃ t ∈ s.teams, t.tid = tid := by
  simp [State.team?, List.find?_isSome]
theorem State.Onward.team?_isSome {s s' : State} (h : s.Onward s') {tid : Nat} (some : (s.team? tid).isSome = true) : (s'.team? tid).isSome = true := by
  rw [team?_isSome_iff] at some ⊢
  obtain ⟨t, ht, rfl⟩ := some
  unfold State.Onward at h
  generalize s.teams = l, s'.teams = l' at h ht
  induction h with
  | nil => cases ht
  | cons one _ ih =>
    obtain rfl | ht := List.mem_cons.1 ht
    · exact ⟨_, List.mem_cons_self, one.tid⟩
    · obtain ⟨u, hu, same⟩ := ih ht
      exact ⟨u, List.mem_cons_of_mem _ hu, same⟩
theorem team?_of_mem {s : State} {t : Team} (ht : t ∈ s.teams) : ∃ u ∈ s.teams, s.team? t.tid = some u ∧ u.tid = t.tid := by
  obtain ⟨u, hu⟩ := Option.isSome_iff_exists.1 (team?_isSome_iff.2 ⟨t, ht, rfl⟩)
  exact ⟨u, List.mem_of_find?_eq_some hu, hu, by simpa using List.find?_some hu⟩

/-! ## Stops and traps -/

theorem Team.rollbackAll_onward (t : Team) : t.Onward t.rollbackAll := ⟨rfl, rfl, rfl, by simp [Team.rollbackAll], id, id⟩
theorem Team.stop_onward (kind : Nat) (t : Team) : t.Onward (t.stop kind) := by
  unfold Team.stop
  split
  · exact .refl t
  · next none => exact ⟨rfl, rfl, rfl, by simp [Team.rollbackAll], fun _ => Option.some_ne_none _, id⟩
theorem Team.stop_halt (kind : Nat) (t : Team) : (t.stop kind).halt ≠ none := by
  unfold Team.stop
  split
  · next h => rw [h]; exact Option.some_ne_none _
  · exact Option.some_ne_none _
theorem onward_preempt (s : State) (tid : Nat) : s.Onward (s.preempt tid) := by
  unfold State.preempt
  split
  · exact .refl s
  · exact .foldl (fun s (u : Team) => onward_modTeam (Team.stop_onward 1) s) _ s

/-- A change of every team of an identity gives them all what it establishes. -/
theorem modTeam_forall {P : Team → Prop} {tid : Nat} {f : Team → Team} (hP : ∀ t, P (f t)) (s : State) :
    ∀ u ∈ (s.modTeam tid f).teams, u.tid = tid → P u := by
  intro u hu same
  obtain ⟨t, _, rfl⟩ := List.mem_map.1 hu
  by_cases h : t.tid = tid
  · rw [if_pos h]
    exact hP t
  · rw [if_neg h] at same
    exact absurd same h
/-- A fold of steps of which one establishes a lasting property of the teams of an identity, establishes it. -/
theorem foldl_forall {α : Type} {P : Team → Prop} (hP : ∀ t u : Team, t.Onward u → P t → P u) {f : State → α → State} (on : ∀ s q, State.Onward s (f s q))
    {l : List α} {a : α} (ha : a ∈ l) {tid : Nat} {I : State → Prop} (keep : ∀ s q, I s → I (f s q))
    (est : ∀ s, I s → ∀ u ∈ (f s a).teams, u.tid = tid → P u) {s : State} (hI : I s) : ∀ u ∈ (l.foldl f s).teams, u.tid = tid → P u := by
  induction l generalizing s with
  | nil => cases ha
  | cons b r ih =>
    rw [List.foldl_cons]
    obtain rfl | ha := List.mem_cons.1 ha
    · exact (State.Onward.foldl on r _).forall (P := fun u => u.tid = tid → P u) (fun t u later h same => hP t u later (h (later.tid.symm.trans same))) (est s hI)
    · exact ih ha (keep s b hI)
theorem halted_onward (t u : Team) (later : t.Onward u) : t.halt ≠ none → u.halt ≠ none := later.halt
/-- A pre-empted team is halted. -/
theorem preempt_halts {s : State} {tid : Nat} (h : (s.team? tid).isSome = true) : ∀ u ∈ (s.preempt tid).teams, u.tid = tid → u.halt ≠ none := by
  obtain ⟨t, ht⟩ := Option.isSome_iff_exists.1 h
  have same : t.tid = tid := by simpa using List.find?_some ht
  have mate : t ∈ s.cluster t := List.mem_filter.2 ⟨List.mem_of_find?_eq_some ht, by simp⟩
  unfold State.preempt
  rw [ht]
  refine foldl_forall (I := fun _ => True) halted_onward (fun s (u : Team) => onward_modTeam (Team.stop_onward 1) s) mate (fun _ _ _ => trivial) (fun s _ => ?_) trivial
  rw [same]
  exact modTeam_forall (Team.stop_halt 1) s
/-- Every team of a list is halted once they are pre-empted in turn. -/
theorem preemptAll_halts {s : State} {ts : List Team} (sub : ∀ t ∈ ts, t ∈ s.teams) {f : State → Team → State}
    (pre : ∀ s t, ∃ s', State.Onward s s' ∧ f s t = s'.preempt t.tid) :
    ∀ t ∈ ts, ∀ u ∈ (ts.foldl f s).teams, u.tid = t.tid → u.halt ≠ none := by
  intro t ht
  have on (s : State) (q : Team) : s.Onward (f s q) := by
    obtain ⟨s', h, e⟩ := pre s q
    exact e ▸ h.trans (onward_preempt ..)
  refine foldl_forall (I := s.Onward) halted_onward on ht (fun s' q h => h.trans (on s' q)) (fun s' h => ?_) (.refl s)
  obtain ⟨s'', k, e⟩ := pre s' t
  rw [e]
  exact preempt_halts (State.Onward.team?_isSome (State.Onward.trans h k) (team?_isSome_iff.2 ⟨t, sub t ht, rfl⟩))

end Sys2Proof.Machine
end

section
/-! PROOFS. Software's answers and the repairs complete under their conditions (R17, R150, R280, R285, R289, R291-R295, R299, R301). -/
namespace Sys2Proof.Machine

/-! ## #MCHK in every team of a context (R291) -/

theorem onward_raise (s : State) (tid : Nat) (gs : List Nat) (pc low : Nat) (t : Trap) (ents : List Ent) (fpx : List (Nat × Mask)) :
    s.Onward (s.raise tid gs pc low t ents fpx) := by
  refine onward_modTeam (fun tm => ?_) s
  dsimp only
  split
  · exact ⟨rfl, rfl, rfl, by simp [Team.rollbackAll], fun _ => Option.some_ne_none _, id⟩
  · split
    · exact ⟨rfl, rfl, rfl, by simp [Team.rollbackAll], fun _ => Option.some_ne_none _, id⟩
    · exact ⟨rfl, rfl, rfl, by simp, fun on => by simpa using on, id⟩
/-- A trap leaves its team halted. -/
theorem raise_halts (s : State) (tid : Nat) (gs : List Nat) (pc low : Nat) (t : Trap) (ents : List Ent) (fpx : List (Nat × Mask)) :
    ∀ u ∈ (s.raise tid gs pc low t ents fpx).teams, u.tid = tid → u.halt ≠ none := by
  refine modTeam_forall (fun tm => ?_) s
  cases hh : tm.halt with
  | none => exact Option.some_ne_none _
  | some h =>
    dsimp only
    split
    · exact Option.some_ne_none _
    · simp
theorem onward_mchkTeam (s : State) (tid addr : Nat) : s.Onward (s.mchkTeam tid addr) := by
  unfold State.mchkTeam
  split
  · exact .refl s
  · exact onward_raise ..
theorem mchkTeam_live (s : State) (tid addr : Nat) : (s.mchkTeam tid addr).live = s.live := by
  unfold State.mchkTeam
  split <;> rfl
theorem mchkTeam_halts {s : State} {tid : Nat} (addr : Nat) (here : (s.team? tid).isSome = true) (groups : ∀ t ∈ s.teams, t.groups.length ≠ 0) :
    ∀ u ∈ (s.mchkTeam tid addr).teams, u.tid = tid → u.halt ≠ none := by
  obtain ⟨t, ht⟩ := Option.isSome_iff_exists.1 here
  obtain ⟨g, hg⟩ : ∃ g, s.group? tid 0 = some g := by
    rw [group?_of_team? ht]
    exact ⟨_, List.getElem?_eq_getElem (Nat.pos_of_ne_zero (groups t (List.mem_of_find?_eq_some ht)))⟩
  unfold State.mchkTeam
  rw [hg]
  exact raise_halts s tid [0] _ _ _ _ _
theorem irrevocable_onward (t : Team) : t.Onward { t with irrev := true } := ⟨rfl, rfl, rfl, rfl, id, fun _ => rfl⟩
/-- #MCHK in a team that may then not run again from launch. -/
def State.mchkAt (addr : Team → Nat) (s : State) (t : Team) : State := (s.mchkTeam t.tid (addr t)).irrevocable t.tid
theorem onward_mchkAt (addr : Team → Nat) (s : State) (t : Team) : s.Onward (s.mchkAt addr t) :=
  (onward_mchkTeam ..).trans (onward_modTeam irrevocable_onward _)
theorem mchkAt_stops {s : State} (addr : Team → Nat) {t : Team} (here : (s.team? t.tid).isSome = true) (groups : ∀ t ∈ s.teams, t.groups.length ≠ 0) :
    ∀ u ∈ (s.mchkAt addr t).teams, u.tid = t.tid → u.halt ≠ none ∧ u.irrev = true := by
  intro u hu same
  obtain ⟨v, hv, later⟩ := (onward_modTeam irrevocable_onward (s.mchkTeam t.tid (addr t))).mem hu
  exact ⟨later.halt (mchkTeam_halts (addr t) here groups v hv (later.tid.symm.trans same)),
    modTeam_forall (P := fun w => w.irrev = true) (fun _ => rfl) _ u hu same⟩
/-- Teams in turn: each is stopped. -/
theorem mchkAll_stops {s : State} (addr : State → Team → Nat) {ts : List Team} (sub : ∀ t ∈ ts, t ∈ s.teams) (groups : ∀ t ∈ s.teams, t.groups.length ≠ 0)
    {t : Team} (ht : t ∈ ts) :
    ∀ u ∈ (ts.foldl (fun s t => s.mchkAt (addr s) t) s).teams, u.tid = t.tid → u.halt ≠ none ∧ u.irrev = true :=
  foldl_forall (I := s.Onward) (fun _ _ later h => ⟨later.halt h.1, later.irrev h.2⟩) (fun s q => onward_mchkAt (addr s) s q) ht
    (fun _ _ h => h.trans (onward_mchkAt ..))
    (fun s' h => mchkAt_stops (addr s') (State.Onward.team?_isSome h (team?_isSome_iff.2 ⟨t, sub t ht, rfl⟩))
      (State.Onward.forall (P := fun t => t.groups.length ≠ 0) (fun _ _ later => later.groups.trans_ne) h groups)) (.refl s)

/-- The state in which a lost sector is reported: fresh values in its place, and a notice for software (R291). -/
def State.lostPosted (s : State) (x pa : Nat) : State :=
  let s := s.scramble (pa / 32)
  let w (i : Nat) : Nat := (Config.freeWord (s.free + i)).toNat
  ({ s with free := s.free + 3 }).post x ⟨w 0 + 2 ^ 32 * w 1, 2, 0, w 2⟩
theorem reportLost_eq (s : State) (d x pa : Nat) : (s.scramble (pa / 32)).reportLost d x pa =
    ((s.lostPosted x pa).teams.filter (fun t => t.ctx == x && dieOf t.pcore == d)).foldl (fun s t => s.mchkAt (fun t => s.vaOf t.pcore x pa) t) (s.lostPosted x pa) := rfl
theorem lostPosted_frames (s : State) (x pa : Nat) : (s.lostPosted x pa).teams.map Team.frame = s.teams.map Team.frame := by
  unfold State.lostPosted
  exact aside_frames.post ..
theorem lostPosted_live (s : State) (x pa : Nat) : (s.lostPosted x pa).live = s.live := by
  unfold State.lostPosted
  exact aside_live.post ..
theorem reportLost_stops {s : State} (d x pa : Nat) (groups : ∀ t ∈ s.teams, t.groups ≠ []) :
    ∀ u ∈ ((s.scramble (pa / 32)).reportLost d x pa).teams, u.ctx = x → dieOf u.pcore = d → u.halt ≠ none ∧ u.irrev = true := by
  intro u hu hx hd
  rw [reportLost_eq] at hu
  have on : (s.lostPosted x pa).Onward _ := State.Onward.foldl (f := fun (s : State) t => s.mchkAt (fun t => s.vaOf t.pcore x pa) t) (fun s t => onward_mchkAt _ s t)
    ((s.lostPosted x pa).teams.filter (fun t => t.ctx == x && dieOf t.pcore == d)) (s.lostPosted x pa)
  obtain ⟨t, ht, later⟩ := State.Onward.mem on hu
  have reached : t ∈ (s.lostPosted x pa).teams.filter (fun t => t.ctx == x && dieOf t.pcore == d) :=
    List.mem_filter.2 ⟨ht, by simp [← later.ctx, ← later.pcore, hx, hd]⟩
  refine mchkAll_stops (fun s t => s.vaOf t.pcore x pa) (fun t h => (List.mem_filter.1 h).1) ?_ reached u hu later.tid
  exact State.Onward.forall (P := fun t => t.groups.length ≠ 0) (fun _ _ later => later.groups.trans_ne) (onward_of_frames (lostPosted_frames s x pa))
    fun t ht => List.length_eq_zero_iff.not.2 (groups t ht)
theorem reportLost_live (s : State) (d x pa : Nat) : ((s.scramble (pa / 32)).reportLost d x pa).live = s.live := by
  rw [reportLost_eq]
  refine (foldl_keeps (p := State.live) (fun s t => ?_) _ _).trans (lostPosted_live ..)
  exact mchkTeam_live ..

/-! ## Counts (R294) -/

theorem countEvent_counts (s : State) (k : Nat) : SMap.get 0 (s.countEvent k).live.events k = min (SMap.get 0 s.live.events k + 1) (2 ^ 64 - 1) :=
  SMap.get_set_same ..
theorem countRetry_counts (s : State) (k : Nat) : SMap.get 0 (s.countRetry k).live.linkrt k = min (SMap.get 0 s.live.linkrt k + 1) (2 ^ 64 - 1) :=
  SMap.get_set_same ..
theorem preempt_keeps {α : Type} {p : State → α} (hp : ∀ s x, p { s with teams := x } = p s) (s : State) (tid : Nat) : p (s.preempt tid) = p s := by
  unfold State.preempt
  split
  · rfl
  · exact foldl_keeps (p := p) (fun s u => hp ..) _ s
theorem emptyCore_keeps {α : Type} {p : State → α} (hp : ∀ s x, p { s with teams := x } = p s) (hu : ∀ s x, p { s with unavail := x } = p s) (s : State)
    (core : Nat) : p (s.emptyCore core) = p s := by
  unfold State.emptyCore
  split
  · rfl
  · exact (foldl_keeps (p := p) (fun s t => (preempt_keeps hp ..).trans (hp ..)) _ _).trans (hu ..)
theorem siteError_live (s : State) (u : Nat) : (s.siteError u).live = s.live := by
  unfold State.siteError
  split
  · rfl
  · dsimp only
    split
    · exact emptyCore_keeps (p := State.live) (fun _ _ => rfl) (fun _ _ => rfl) _ _
    · rfl
theorem exec_correctedError_counts (s : State) (u : Nat) :
    ∃ s2, exec (.correctedError u) s = .next s2 ∧ SMap.get 0 s2.live.corr u = min (SMap.get 0 s.live.corr u + 1) (2 ^ 64 - 1) := by
  refine ⟨_, rfl, ?_⟩
  have counted : SMap.get 0 (SMap.set 0 s.live.corr u (upTo 64 (SMap.get 0 s.live.corr u + 1))) u = upTo 64 (SMap.get 0 s.live.corr u + 1) := SMap.get_set_same ..
  split
  · rw [siteError_live]
    exact counted
  · split
    · exact counted
    · exact counted

/-! ## A die that holds nothing is emptied (R293) -/

/-- What a change of one die keeps of a die, it keeps of every die. -/
theorem die_modDie_keeps {β : Type} {π : Die → β} {f : Die → Die} (hf : ∀ x, π (f x) = π x) (s : State) (d k : Nat) : π ((s.modDie d f).die k) = π (s.die k) := by
  unfold State.die State.modDie
  dsimp only
  rw [updAt_getElem?]
  split
  · cases s.dies[k]? with
    | none => rfl
    | some x => exact hf x
  · rfl
theorem stuckIn_modDie (s : State) (d k : Nat) (q : L1Sec → Bool) : (s.modDie d (fun x => { x with emptying := true })).stuckIn k q = s.stuckIn k q := by
  have keeps {β : Type} (π : Die → β) (hf : ∀ x : Die, π { x with emptying := true } = π x) (j : Nat) :
      π ((s.modDie d (fun x => { x with emptying := true })).die j) = π (s.die j) := die_modDie_keeps hf s d j
  have stuck (x : L1Sec) : (s.modDie d (fun x => { x with emptying := true })).secStuck x = s.secStuck x := by
    simp only [State.secStuck, State.writeHeld, State.memHeld, State.channelHeld, State.l2Find, keeps Die.reinit fun _ => rfl,
      keeps Die.remap fun _ => rfl, keeps Die.l2 fun _ => rfl, keeps Die.rowHold fun _ => rfl, keeps Die.power fun _ => rfl]
    rfl
  simp only [State.stuckIn, stuck]
  rfl
theorem padCtxs_disabled {s : State} (off : ∀ x < 1024, s.ctxEn x = false) (d : Nat) : s.padCtxs d = [] := by
  refine List.filter_eq_nil_iff.2 fun x hx => ?_
  rw [off x (List.mem_range.1 hx)]
  exact Bool.false_ne_true
theorem exec_dieReinit_empty {s : State} {d : Nat} (hd : d < 4) (on : (s.die d).reinit = false) (out : (s.die d).padOut = [])
    (noTeam : ∀ t ∈ s.teams, dieOf t.pcore ≠ d) (noCard : (s.die d).cards = []) (off : ∀ x < 1024, s.ctxEn x = false)
    (free : ∀ k < 120, s.stuckIn (120 * d + k) (fun _ => true) = none) :
    exec (.dieReinit d) s = .next ((s.modDie d (fun x => { x with emptying := true })).clearDie d []) := by
  have teams : s.teams.any (fun t => dieOf t.pcore == d) = false := List.any_eq_false.2 fun t ht => by simpa using noTeam t ht
  have cards : ((s.modDie d (fun x => { x with emptying := true })).die d).cards = [] :=
    (die_modDie_keeps (π := Die.cards) (f := fun x => { x with emptying := true }) (fun _ => rfl) s d d).trans noCard
  have stuck : (List.range 120).any (fun i => ((s.modDie d (fun x => { x with emptying := true })).stuckIn (120 * d + i) (fun _ => true)).isSome) = false :=
    List.any_eq_false.2 fun k hk => by rw [stuckIn_modDie, free k (List.mem_range.1 hk)]; exact Bool.false_ne_true
  have pads : (s.modDie d (fun x => { x with emptying := true })).padCtxs d = [] := padCtxs_disabled off d
  show execDieReinit d s = _
  simp only [execDieReinit, on, out, State.modDie_teams, teams, cards, List.any_nil, stuck, pads, copyEach]
  rw [if_neg (by simpa using hd)]
  rfl

/-- A core to be retired that is empty moves its index to a spare site. -/
theorem exec_coreRetire_empty {s : State} {core : Nat} (hc : core < 480) (good : s.site core ∉ s.badSites) (gone : core ∈ s.unavail)
    (noTeam : ∀ t ∈ s.teams, t.pcore ≠ core) (noFly : (s.core core).fly = []) (noKept : (s.core core).kept = [])
    (free : s.stuckIn core (fun _ => true) = none) : exec (.coreRetire core) s = .next ((s.rebind core).recordEvent evRetire) := by
  have here : s.teams.any (fun t => t.pcore == core) = false := List.any_eq_false.2 fun t ht => by simpa using noTeam t ht
  show execCoreRetire core s = _
  unfold execCoreRetire
  rw [if_neg (by simp [Nat.not_le.2 hc, good, gone]), if_neg (by simp [here, noFly, noKept]), if_neg (by simp [free])]

/-! ## A sector lost from a dirty line (R291) -/

section
variable {s : State} {pa x : Nat} (dirty : (s.l2Find (pa / 128)).bind (·.dctx) = some x) (new : (s.die (homeDie pa)).lost.any (fun e => e.1 == pa / 32) = false)
include dirty new
/-- A slice that holds fewer than 16 lost sectors holds this one too. -/
theorem exec_lostSector_held (room : ((s.die (homeDie pa)).lost.filter (fun e => s.homeNode (e.1 / 4) == s.homeNode (pa / 128))).length < 16) :
    exec (.lostSector pa) s = .next ((s.modDie (homeDie pa) (fun y => { y with lost := y.lost ++ [(pa / 32, x)] })).countEvent evLost) := by
  show execLostSector pa s = _
  simp only [execLostSector, dirty, new, if_pos room]
  rfl
theorem exec_lostSector_reported (full : 16 ≤ ((s.die (homeDie pa)).lost.filter (fun e => s.homeNode (e.1 / 4) == s.homeNode (pa / 128))).length) :
    exec (.lostSector pa) s = .next (((s.scramble (pa / 32)).reportLost (homeDie pa) x pa).countEvent evLost) := by
  show execLostSector pa s = _
  simp only [execLostSector, dirty, new, if_neg (Nat.not_lt.2 full)]
  rfl
end

/-- Settles O59: most answers and repairs by their conditions; a lost sector by what it does where its slice is full, an emptied die by what it holds. -/
theorem answersAndRepairsComplete : Obligations.AnswersAndRepairsComplete := by
  unfold Obligations.AnswersAndRepairsComplete
  refine ⟨fun s x lo hi open' hx => ?_, fun s x v open' hx => ?_, fun s pa u d sl ch l =>
    ⟨fun _ _ _ _ => ⟨rfl, rfl⟩, fun x n dirty new hn => ⟨fun room => exec_lostSector_held dirty new (hn ▸ room), fun full groups => ?lost⟩,
      exec_correctedError_counts s u, ?retire, ?bank, ?row, ?rowDone, ?link, ?empty, ?reinit, ?record, fun on => if_pos on⟩⟩
  · have ok : ctxOk x = true := decide_eq_true hx
    refine ⟨fun h => ?_, fun h => ?_, fun h => ?_, fun h => ?_, fun h => ?_, fun h => ?_, ?_, ?_⟩
    iterate 6 exact congrArg _ (if_pos (by simp only [open', ok, h]; rfl))
    iterate 2 exact congrArg _ (if_pos (by simp [open', ok]))
  · have ok : ctxOk x = true := decide_eq_true hx
    refine ⟨?_, ?_, fun h => ?_, fun h => ?_, fun off h => ?_⟩
    iterate 2 exact congrArg _ (if_pos (by simp [open', ok]))
    iterate 2 exact congrArg _ (if_pos (by simp [open', ok, h]))
    exact congrArg _ (if_neg (by simp [State.pathOpen, open', h]))
  case lost =>
    refine ⟨_, exec_lostSector_reported dirty new (hn ▸ full), fun t ht hx hd => reportLost_stops (homeDie pa) x pa groups t ht hx hd, ?_⟩
    rw [countEvent_counts, reportLost_live]
  case retire => exact fun hu good gone noTeam noFly noKept free => exec_coreRetire_empty hu good gone noTeam noFly noKept free
  case bank => exact fun hd hsl spare => congrArg _ (if_neg (by omega))
  case row => exact fun hch none => congrArg _ (if_neg (by simp [none, hch]))
  case rowDone => exact fun held => congrArg _ (if_pos (by simpa using held))
  case link => exact fun free => congrArg _ (if_neg (by simpa using free))
  case empty => exact fun hd on out noTeam noCard off free => exec_dieReinit_empty hd on out noTeam noCard off free
  case reinit => exact fun on => congrArg _ (if_pos on)
  case record => exact fun due => congrArg _ (if_pos due)

end Sys2Proof.Machine
end

section
/-! PROOFS. Uncorrectable errors and repair (R17, R136, R288-R295, R301). -/
namespace Sys2Proof.Machine

/-! ## A die that holds something is there -/

/-- A die that differs from an empty one is one of the part's. -/
theorem die_lt_of_ne_reset {s : State} {d : Nat} (h : s.die d ≠ Die.reset) : d < s.dies.length := by
  by_contra out
  exact h (by rw [State.die, List.getElem?_eq_none (Nat.not_lt.1 out)]; rfl)
theorem die_lt_of_card? {s : State} {d cid : Nat} {c : Card} (h : s.card? d cid = some c) : d < s.dies.length := by
  refine die_lt_of_ne_reset fun empty => ?_
  rw [State.card?, empty] at h
  cases h
theorem homeDie_line (pa : Nat) : homeDie (pa / 128 * 128) = homeDie pa := by
  unfold homeDie Config.dieHbm
  split <;> split <;> omega
theorem die_lt_of_l2Find {s : State} {pa : Nat} {r : L2Line} (h : s.l2Find (pa / 128) = some r) : homeDie pa < s.dies.length := by
  refine die_lt_of_ne_reset fun empty => ?_
  rw [State.l2Find, homeDie_line, empty] at h
  cases h
theorem find?_map_same {α : Type} {l : List α} {q : α → Bool} {f : α → α} {a : α} (keep : ∀ x, q (f x) = q x) (h : l.find? q = some a) :
    (l.map f).find? q = some (f a) := by
  rw [List.find?_map, show q ∘ f = q from funext keep, h]
  rfl
theorem card?_modCard {s : State} {d cid : Nat} {c : Card} {f : Card → Card} (hf : ∀ c, (f c).cid = c.cid) (h : s.card? d cid = some c) :
    (s.modCard d cid f).card? d cid = some (f c) := by
  have there := die_lt_of_card? h
  unfold State.card? at h ⊢
  have same : c.cid = cid := by simpa using List.find?_some h
  rw [State.modCard, die_modDie there]
  refine (find?_map_same (f := fun c => if c.cid = cid then f c else c) (fun x => ?_) h).trans (by rw [if_pos same])
  split
  · rw [hf]
  · rfl

/-! ## Errors of a lane and of a card (R289, R301) -/

theorem laneError_raises {s : State} {mirror : Bool} {tid gi lane pa : Nat} {t : Team} {g : Group} (ht : s.team? tid = some t) (hg : t.groups[gi]? = some g)
    (hl : lane < 32) (here : t.back = none) (live : (g.lane lane).st ≠ .exited) (runs : g.stopped = false)
    (no : (mirror && s.mirrored t.pcore t.ctx pa) = false) :
    s.laneError mirror tid gi lane pa = s.raise tid [gi] (g.lane lane).pc (32 * gi + lane) { code := tMCHK, addr := s.vaOf t.pcore t.ctx pa }
      [⟨tMCHK, gi, 1, laneBit lane, 0, (g.lane lane).pc, s.vaOf t.pcore t.ctx pa⟩] [] := by
  have hg' : s.group? tid gi = some g := by rw [group?_of_team? ht, hg]
  have at' : s.laneError mirror tid gi lane pa = s.mchkLane tid gi lane (s.vaOf t.pcore t.ctx pa) := by
    unfold State.laneError
    simp only [ht, here, no]
    rfl
  rw [at', State.mchkLane]
  simp only [hg']
  exact if_neg (by simp [live, runs, hl])
theorem laneError_copy {s : State} {tid gi lane pa : Nat} {t : Team} (ht : s.team? tid = some t) (here : t.back = none)
    (copy : s.mirrored t.pcore t.ctx pa = true) : s.laneError true tid gi lane pa = s.fromCopy pa := by
  unfold State.laneError
  simp only [ht, here, copy]
  rfl
section
variable {s : State} {die cid pa : Nat} {c : Card} (hc : s.card? die cid = some c) (runs : c.st = .running) (ok : c.fail = none)
include hc runs ok
theorem cardError_copy (copy : s.mirrored c.core c.ctx pa = true) : s.cardError true die cid pa = s.fromCopy pa := by
  unfold State.cardError
  simp only [hc, runs, ok, copy]
  rfl
theorem cardError_fails {mirror : Bool} (no : (mirror && s.mirrored c.core c.ctx pa) = false) :
    ∃ c2, (s.cardError mirror die cid pa).card? die cid = some c2 ∧ c2.fail = some (5, s.vaOf c.core c.ctx pa) := by
  unfold State.cardError
  simp only [hc, runs, ok, no]
  exact ⟨_, card?_modCard (f := fun c => { c with fail := some (5, s.vaOf c.core c.ctx pa) }) (fun _ => rfl) hc, rfl⟩
end

/-! ## Lost sectors (R291) -/

theorem exec_lostSector_known {s : State} {pa x : Nat} (dirty : (s.l2Find (pa / 128)).bind (·.dctx) = some x)
    (known : (s.die (homeDie pa)).lost.any (fun e => e.1 == pa / 32) = true) : exec (.lostSector pa) s = .next s := by
  show execLostSector pa s = _
  simp only [execLostSector, dirty, known]
  rfl
theorem exec_lostSector_absent {s : State} {pa : Nat} (absent : s.l2Find (pa / 128) = none) : exec (.lostSector pa) s = .next s := by
  show execLostSector pa s = _
  simp only [execLostSector, absent]
  rfl

/-! ## Cores (R292) -/

/-- A core that takes no placement. -/
def State.withdrawn (s : State) (core : Nat) : State := { s with unavail := if s.unavail.contains core then s.unavail else core :: s.unavail }
/-- A team of a core stops, and is to come back there. -/
def State.pinStop (core : Nat) (s : State) (t : Team) : State := (s.modTeam t.tid (fun u => { u with pin := [core] })).preempt t.tid
theorem emptyCore_eq {core : Nat} (hc : core < 480) (s : State) :
    s.emptyCore core = ((s.withdrawn core).teams.filter (fun t => t.pcore == core)).foldl (State.pinStop core) (s.withdrawn core) := by
  unfold State.emptyCore
  rw [if_neg (Nat.not_le.2 hc)]
  rfl
theorem mem_withdrawn (s : State) (core : Nat) : core ∈ (s.withdrawn core).unavail := by
  unfold State.withdrawn
  dsimp only
  split
  · next h => simpa using h
  · exact List.mem_cons_self
theorem pin_onward (core : Nat) (t : Team) : t.Onward { t with pin := [core] } := ⟨rfl, rfl, rfl, rfl, id, id⟩
theorem onward_pinStop (core : Nat) (s : State) (t : Team) : s.Onward (s.pinStop core t) :=
  (onward_modTeam (pin_onward core) s).trans (onward_preempt ..)
/-- A core to be emptied takes no placement, and its teams stop. -/
theorem emptyCore_stops (s : State) {core : Nat} (hc : core < 480) :
    core ∈ (s.emptyCore core).unavail ∧ ∀ t ∈ (s.emptyCore core).teams, t.pcore = core → t.halt ≠ none := by
  rw [emptyCore_eq hc]
  constructor
  · have keeps (s : State) (t : Team) : (s.pinStop core t).unavail = s.unavail := preempt_keeps (p := State.unavail) (fun _ _ => rfl) _ _
    rw [foldl_keeps (p := State.unavail) keeps]
    exact mem_withdrawn s core
  · intro u hu here
    obtain ⟨t, ht, later⟩ := State.Onward.mem (.foldl (onward_pinStop core) _ _) hu
    exact preemptAll_halts (fun t h => (List.mem_filter.1 h).1) (fun s t => ⟨_, onward_modTeam (pin_onward core) s, rfl⟩) t
      (List.mem_filter.2 ⟨ht, by simp [← later.pcore, here]⟩) u hu later.tid
theorem blankCore_blank {s : State} {core : Nat} (free : s.stuckIn core (fun _ => true) = none) :
    ((s.blankCore core).core core).l1 = [] ∧ ((s.blankCore core).core core).tlb = [] := by
  have unstuck : ∀ x ∈ (s.core core).l1, s.secStuck x = false := fun x hx => by simpa using List.find?_eq_none.1 free x hx
  have blank : ((s.loseL1 core (fun _ => true)).core core).l1 = [] := by
    unfold State.loseL1
    dsimp only
    split
    · next empty =>
      rw [List.filter_true] at empty
      cases hl : (s.core core).l1 with
      | nil => rfl
      | cons x r => simp [hl, l1Lines, List.eraseDups_cons] at empty
    · show ((s.dropL1 core fun _ => true).core core).l1 = []
      unfold State.dropL1
      dsimp only
      rw [core_modCore]
      have cores := foldl_keeps (f := State.writeBack core) (p := State.cores) (fun s x => aside_cores.writeBack s core x)
        ((s.core core).l1.filter (fun x => true && !s.secStuck x)) s
      refine List.filter_eq_nil_iff.2 fun x hx => ?_
      rw [State.core, cores] at hx
      simp [unstuck x hx]
  unfold State.blankCore
  dsimp only
  rw [core_modCore]
  exact ⟨blank, rfl⟩
/-- The spare site found for a core becomes its own. -/
theorem rebind_to {s : State} {core y : Nat} (spare : State.spareSite { s.blankCore core with badSites := s.site core :: (s.blankCore core).badSites } (dieOf core) = some y) :
    s.rebind core = { s.blankCore core with
      badSites := s.site core :: (s.blankCore core).badSites
      sites := updAt (s.blankCore core).sites core (fun _ => y)
      unavail := (s.blankCore core).unavail.filter (· != core) } := by
  have sites : (s.blankCore core).site core = s.site core := by
    have same := congrArg Prod.fst (aside_sites.blankCore s (fun _ _ => rfl) core)
    exact congrArg (fun l : List Nat => (l[core]?).getD 0) same
  unfold State.rebind
  dsimp only
  rw [sites, spare]
theorem writeLife_keeps {α : Type} {p : State → α} (ha : ∀ s x, p { s with lifeA := x } = p s) (hb : ∀ s x, p { s with lifeB := x } = p s) (s : State) :
    p s.writeLife = p s := by
  unfold State.writeLife
  split
  · exact ha ..
  · exact hb ..
theorem recordEvent_keeps {α : Type} {p : State → α} (ha : ∀ s x, p { s with lifeA := x } = p s) (hb : ∀ s x, p { s with lifeB := x } = p s)
    (hl : ∀ s x, p { s with live := x } = p s) (s : State) (k : Nat) : p (s.recordEvent k) = p s := (writeLife_keeps ha hb _).trans (hl ..)

/-! ## Corrected errors (R288, R292) -/

section
variable {s : State} {u core n : Nat} (at' : s.sites.findIdx? (· == u) = some core)
  (count : n = 1 + (s.coreErrs.filter (fun e => e.1 == core && decide ((s.die (dieOf core)).time < e.2 + 1000000000))).length)
include at' count
theorem siteError_few (few : n ≤ 64) : (s.siteError u).teams = s.teams ∧ (s.siteError u).unavail = s.unavail := by
  unfold State.siteError
  rw [at']
  dsimp only
  rw [if_neg]
  · exact ⟨rfl, rfl⟩
  · simp only [List.filter_cons, beq_self_eq_true, if_true, List.filter_filter, List.length_cons, not_and]
    omega
theorem siteError_many (many : 64 < n) (hc : core < 480) (serves : core ∉ s.unavail) :
    core ∈ (s.siteError u).unavail ∧ ∀ t ∈ (s.siteError u).teams, t.pcore = core → t.halt ≠ none := by
  unfold State.siteError
  rw [at']
  dsimp only
  rw [if_pos]
  · exact emptyCore_stops _ hc
  · refine ⟨?_, by simpa using serves⟩
    simp only [List.filter_cons, beq_self_eq_true, if_true, List.filter_filter, List.length_cons]
    omega
end

/-! ## A die (R293) -/

theorem get_filter_out {α : Type} {d : α} {m : SMap α} {q : Nat × α → Bool} {k : Nat} (out : ∀ v, q (k, v) = false) : SMap.get d (m.filter q) k = d := by
  induction m with
  | nil => rfl
  | cons e r ih =>
    rw [List.filter_cons]
    split
    · next kept =>
      obtain ⟨a, v⟩ := e
      unfold SMap.get
      rw [if_neg, ih]
      rintro rfl
      exact Bool.false_ne_true ((out v).symm.trans kept)
    · exact ih
theorem onward_preemptAll (l : List Team) (s : State) : s.Onward (l.foldl (fun s t => s.preempt t.tid) s) := .foldl (fun s t => onward_preempt s t.tid) l s
/-- A die that is to be emptied stops its teams. -/
theorem exec_dieReinit_stops {s : State} {d : Nat} (hd : d < 4) (there : d < s.dies.length) (on : (s.die d).reinit = false) (out : (s.die d).padOut = [])
    (team : ∃ t ∈ s.teams, dieOf t.pcore = d) :
    ∃ s2, exec (.dieReinit d) s = .next s2 ∧ (s2.die d).emptying = true ∧ ∀ t ∈ s2.teams, dieOf t.pcore = d → t.halt ≠ none := by
  obtain ⟨t, ht, here⟩ := team
  have teams : s.teams.any (fun t => dieOf t.pcore == d) = true := List.any_eq_true.2 ⟨t, ht, by simpa using here⟩
  refine ⟨(s.teams.filter (fun t => dieOf t.pcore == d)).foldl (fun s t => s.preempt t.tid) (s.modDie d (fun x => { x with emptying := true })), ?_, ?_, ?_⟩
  · show execDieReinit d s = _
    simp only [execDieReinit, on, out, State.modDie_teams, teams]
    rw [if_neg (by simpa using hd)]
    rfl
  · have keeps (s : State) (t : Team) : ((s.preempt t.tid).die d).emptying = (s.die d).emptying :=
      preempt_keeps (p := fun s => (s.die d).emptying) (fun _ _ => rfl) s t.tid
    exact (foldl_keeps (p := fun s : State => (s.die d).emptying) keeps _ _).trans (by rw [die_modDie there])
  · intro u hu same
    obtain ⟨t, ht, later⟩ := (onward_preemptAll _ _).mem hu
    exact preemptAll_halts (s := s.modDie d (fun x => { x with emptying := true })) (fun t h => (List.mem_filter.1 h).1)
      (fun s t => ⟨s, .refl s, rfl⟩) t (List.mem_filter.2 ⟨ht, by simp [← later.pcore, same]⟩) u hu later.tid
/-- A die without caches or pad, its HBM in self-refresh (R293). -/
def State.cleared (s : State) (die : Nat) (out : List Nat) : State :=
  ({ s with pad := s.pad.filter (fun p => p.1 / 2 ^ 31 != die) } : State).modDie die (fun x => { x with
    l2 := [], fwd := [], l2tlb := [], walks := [], cards := x.cards.map (fun c => { c with page := none }), reinit := true, padOut := out
    power := { x.power with hbm := setChannels die 2 x.power.hbm } })
theorem clearDie_eq (s : State) (d : Nat) (out : List Nat) :
    s.clearDie d out = ((List.range 120).foldl (fun s i => s.blankCore (120 * d + i)) s).cleared d out := rfl
theorem cleared_clears {s : State} {d : Nat} (there : d < s.dies.length) (out : List Nat) :
    ((s.cleared d out).die d).reinit = true ∧ ((s.cleared d out).die d).l2 = [] ∧ ((s.cleared d out).die d).l2tlb = [] ∧
      ∀ b, b / 2 ^ 31 = d → SMap.get 0 (s.cleared d out).pad b = 0 := by
  have pads : ∀ b, b / 2 ^ 31 = d → SMap.get 0 (s.cleared d out).pad b = 0 :=
    fun b same => get_filter_out (q := fun p : Nat × Byte => p.1 / 2 ^ 31 != d) fun v => by
      show (b / 2 ^ 31 != d) = false
      rw [same, bne_self_eq_false']
  refine ⟨?_, ?_, ?_, pads⟩
  all_goals
    unfold State.cleared
    rw [die_modDie (by exact there)]
theorem clearDie_clears {s : State} {d : Nat} (there : d < s.dies.length) (out : List Nat) :
    ((s.clearDie d out).die d).reinit = true ∧ ((s.clearDie d out).die d).l2 = [] ∧ ((s.clearDie d out).die d).l2tlb = [] ∧
      ∀ b, b / 2 ^ 31 = d → SMap.get 0 (s.clearDie d out).pad b = 0 := by
  have dies : ((List.range 120).foldl (fun s i => s.blankCore (120 * d + i)) s).dies.length = s.dies.length :=
    foldl_keeps (p := fun s => s.dies.length) (fun s i => aside_dieCount.blankCore s (fun _ _ => rfl) _) _ s
  rw [clearDie_eq]
  exact cleared_clears (there.trans_eq dies.symm) out
/-- A die whose memory is accessed again. -/
def State.awake (s : State) (d : Nat) : State :=
  s.modDie d (fun x => { x with reinit := false, power := { x.power with hbm := setChannels d 0 x.power.hbm } })
theorem awake_dies (s : State) (d : Nat) : (s.awake d).dies.length = s.dies.length := updAt_length ..
theorem awake_die {s : State} {d : Nat} (there : d < s.dies.length) : ((s.awake d).die d).reinit = false ∧ ((s.awake d).die d).padOut = (s.die d).padOut := by
  unfold State.awake
  rw [die_modDie there]
  exact ⟨rfl, rfl⟩
/-- A die that has no pad to fill takes placements again (R293). -/
theorem refill_empty {s : State} {d : Nat} (there : d < s.dies.length) (out : (s.die d).padOut = []) :
    ((s.refill d).die d).reinit = (s.die d).reinit ∧ ((s.refill d).die d).emptying = false ∧ (s.refill d).mem = s.mem := by
  have eq : s.refill d = (s.modDie d (fun x => { x with padOut := [], emptying := false })).writeLife := by
    unfold State.refill
    simp only [out, List.filter_nil, copyEach, List.foldl_nil]
  rw [eq, writeLife_keeps (p := fun s => (s.die d).reinit) (fun _ _ => rfl) (fun _ _ => rfl),
    writeLife_keeps (p := fun s => (s.die d).emptying) (fun _ _ => rfl) (fun _ _ => rfl), die_modDie there]
  exact ⟨rfl, rfl, writeLife_keeps (p := State.mem) (fun _ _ => rfl) (fun _ _ => rfl) _⟩

/-! ## The lifetime record (R294, R295) -/

theorem writeLife_alternates {s : State} {n : Nat} (hn : n = min (max s.lifeA.number s.lifeB.number + 1) (2 ^ 32 - 1)) :
    (s.lifeA.number ≤ s.lifeB.number → s.writeLife.lifeA.seqn = n ∧ s.writeLife.lifeA.good = true ∧ s.writeLife.lifeB = s.lifeB) ∧
    (s.lifeB.number < s.lifeA.number → s.writeLife.lifeB.seqn = n ∧ s.writeLife.lifeB.good = true ∧ s.writeLife.lifeA = s.lifeA) := by
  subst hn
  unfold State.writeLife
  refine ⟨fun older => ?_, fun newer => ?_⟩
  · rw [if_pos older]
    exact ⟨rfl, rfl, rfl⟩
  · rw [if_neg (Nat.not_le.2 newer)]
    exact ⟨rfl, rfl, rfl⟩

/-- Settles O58: errors by the lane or card that they meet, retirements and repairs by what they change, the record by its older copy. -/
theorem repairEventsComplete : Obligations.RepairEventsComplete := by
  unfold Obligations.RepairEventsComplete
  refine ⟨fun s who => rfl, ?lane, fun s tid gi lane pa t ht here copy => congrArg _ (laneError_copy ht here copy), ?card, ?peer, ?lost,
    fun s pa absent => exec_lostSector_absent absent, ?corrected, ?errors, ?retire, ?spared, ?bank, ?row, ?link, ?die, ?reinit, ?record⟩
  case lane =>
    intro s tid gi lane pa t g i ht hg hl here live runs which
    obtain ⟨copy, rfl, no⟩ | ⟨copy, rfl⟩ := which
    · refine congrArg _ (laneError_raises ht hg hl here live runs ?_)
      obtain no | rfl := no
      · rw [no, Bool.and_false]
      · rfl
    · exact congrArg _ (laneError_raises ht hg hl here live runs rfl)
  case card =>
    refine fun s die cid pa c hc runs ok => ⟨fun copy => congrArg _ (cardError_copy hc runs ok copy), fun copy no => ?_⟩
    obtain ⟨c2, failed⟩ := cardError_fails (pa := pa) (mirror := !copy) hc runs ok (by
      obtain no | rfl := no
      · rw [no, Bool.and_false]
      · rfl)
    exact ⟨_, c2, rfl, failed⟩
  case peer =>
    intro s die cid pa c hc runs ok copy
    obtain ⟨c2, failed⟩ := cardError_fails (pa := pa) (mirror := false) hc runs ok rfl
    exact ⟨_, c2, rfl, failed⟩
  case lost =>
    refine fun s pa x dirty => ⟨exec_lostSector_known dirty, fun none => ⟨_, exec_lostSector_held dirty (by rw [none]; rfl) (by rw [none]; exact Nat.succ_pos _), ?_, rfl⟩⟩
    obtain ⟨r, found, -⟩ := Option.bind_eq_some_iff.1 dirty
    show (pa / 32, x) ∈ ((s.modDie (homeDie pa) (fun y => { y with lost := y.lost ++ [(pa / 32, x)] })).die (homeDie pa)).lost
    rw [die_modDie (die_lt_of_l2Find found)]
    exact List.mem_append_right _ List.mem_cons_self
  case corrected =>
    intro s u
    obtain ⟨s2, done, counted⟩ := exec_correctedError_counts s u
    refine ⟨s2, done, counted, fun other => ?_⟩
    cases done
    rw [if_neg (Nat.not_lt.2 other)]
    split <;> rfl
  case errors =>
    intro s u core n hu at' hc serves count
    have done (s : State) : exec (.correctedError u) s =
        .next (State.siteError { s with live := { s.live with corr := SMap.set 0 s.live.corr u (upTo 64 (SMap.get 0 s.live.corr u + 1)) } } u) := congrArg _ (if_pos hu)
    exact ⟨fun few => ⟨_, done s, siteError_few at' count few⟩, fun many => ⟨_, done s, siteError_many at' count many hc serves⟩⟩
  case retire =>
    refine fun s core hc good gone => ⟨fun y noTeam noFly noKept free spare there => ⟨_, exec_coreRetire_empty hc good gone noTeam noFly noKept free, ?_⟩, ?_⟩
    · rw [rebind_to spare]
      have noted {α : Type} {p : State → α} (ha : ∀ s x, p { s with lifeA := x } = p s) (hb : ∀ s x, p { s with lifeB := x } = p s)
          (hl : ∀ s x, p { s with live := x } = p s) (s : State) : p (s.recordEvent evRetire) = p s := recordEvent_keeps ha hb hl s evRetire
      refine ⟨(noted (p := fun s => s.site core) (fun _ _ => rfl) (fun _ _ => rfl) (fun _ _ => rfl) _).trans ?_,
        ?_,
        fun still => ?_,
        (noted (p := fun s => (s.core core).l1) (fun _ _ => rfl) (fun _ _ => rfl) (fun _ _ => rfl) _).trans (blankCore_blank free).1,
        (noted (p := fun s => (s.core core).tlb) (fun _ _ => rfl) (fun _ _ => rfl) (fun _ _ => rfl) _).trans (blankCore_blank free).2⟩
      · have sites : (s.blankCore core).sites = s.sites := congrArg Prod.fst (aside_sites.blankCore s (fun _ _ => rfl) core)
        show ((updAt (s.blankCore core).sites core (fun _ => y))[core]?).getD 0 = y
        rw [sites, updAt_getElem?, if_pos rfl, List.getElem?_eq_getElem there]
        rfl
      · rw [noted (p := State.badSites) (fun _ _ => rfl) (fun _ _ => rfl) (fun _ _ => rfl)]
        exact List.mem_cons_self
      · rw [noted (p := State.unavail) (fun _ _ => rfl) (fun _ _ => rfl) (fun _ _ => rfl)] at still
        simp at still
    · rintro ⟨t, ht, here⟩
      refine ⟨_, ?_, emptyCore_stops s hc⟩
      have team : s.teams.any (fun t => t.pcore == core) = true := List.any_eq_true.2 ⟨t, ht, by simpa using here⟩
      show execCoreRetire core s = _
      unfold execCoreRetire
      rw [if_neg (by simp [Nat.not_le.2 hc, good, gone]), if_pos (by simp [team])]
  case spared =>
    intro s core no
    refine congrArg _ (if_pos (.inr ?_))
    simpa using no
  case bank =>
    refine fun s d sl hd there hsl => ⟨fun spare => ⟨_, congrArg Host.Outcome.next (if_neg (by omega)), ?_, ?_⟩, fun used => congrArg _ (if_pos (by omega))⟩
    · rw [recordEvent_keeps (p := fun s => SMap.get 0 (s.die d).spares sl) (fun _ _ => rfl) (fun _ _ => rfl) (fun _ _ => rfl), die_modDie there]
      exact SMap.get_set_same (α := Nat) 0 (s.die d).spares sl (SMap.get 0 (s.die d).spares sl + 1)
    · exact recordEvent_keeps (p := State.mem) (fun _ _ => rfl) (fun _ _ => rfl) (fun _ _ => rfl) _ _
  case row =>
    refine fun s ch hch there => ⟨fun free => ⟨_, congrArg Host.Outcome.next (if_neg (by simp [hch, free])), ?_, rfl⟩,
      fun held => ⟨_, congrArg Host.Outcome.next (if_pos (by simpa using held)), ?_, ?_, ?_⟩⟩
    · rw [die_modDie there]
      exact List.mem_cons_self
    · rw [recordEvent_keeps (p := fun s => (s.die (channelDie ch)).rowHold) (fun _ _ => rfl) (fun _ _ => rfl) (fun _ _ => rfl),
        die_modDie (s := { s with rowFuses := SMap.set 0 s.rowFuses ch (SMap.get 0 s.rowFuses ch + 1) }) there]
      simp
    · rw [recordEvent_keeps (p := State.rowFuses) (fun _ _ => rfl) (fun _ _ => rfl) (fun _ _ => rfl)]
      exact SMap.get_set_same (α := Nat) 0 s.rowFuses ch (SMap.get 0 s.rowFuses ch + 1)
    · exact recordEvent_keeps (p := State.mem) (fun _ _ => rfl) (fun _ _ => rfl) (fun _ _ => rfl) _ _
  case link =>
    refine fun s l free => ⟨_, congrArg Host.Outcome.next (if_neg (by simpa using free)), ?_, ?_⟩
    · exact recordEvent_keeps (p := State.laneSpares) (fun _ _ => rfl) (fun _ _ => rfl) (fun _ _ => rfl) _ _
    · exact recordEvent_keeps (p := State.mem) (fun _ _ => rfl) (fun _ _ => rfl) (fun _ _ => rfl) _ _
  case die =>
    refine fun s d hd there on out => ⟨exec_dieReinit_stops hd there on out, fun noTeam noCard off free => ⟨_, exec_dieReinit_empty hd on out noTeam noCard off free, ?_⟩⟩
    exact clearDie_clears (s := s.modDie d (fun x => { x with emptying := true })) (by simpa [State.modDie] using there) []
  case reinit =>
    intro s d _ there on out
    obtain ⟨ready, full, mem⟩ := refill_empty (s := (s.awake d).bindAgain d) (there.trans_eq (awake_dies s d).symm) ((awake_die there).2.trans out)
    exact ⟨_, congrArg Host.Outcome.next (if_pos on), ready.trans (awake_die there).1, full, mem⟩
  case record =>
    refine fun s n hn => ⟨fun fresh => congrArg _ (if_neg (by simp [fresh])), fun due => ⟨_, congrArg Host.Outcome.next (if_pos due), ?_, ?_⟩, fun on => ⟨_, if_pos on, rfl, ?_⟩⟩
    · rw [writeLife_keeps (p := State.recordDue) (fun _ _ => rfl) (fun _ _ => rfl)]
      exact decide_eq_false (by show ¬(s.die 0).time + 600000000000 ≤ (s.die 0).time; omega)
    · exact writeLife_alternates (s := { s with lifeAt := (s.die 0).time }) hn
    · exact writeLife_alternates hn

end Sys2Proof.Machine
end

section
/-! PROOFS. What software answers and writes: page replies, RESUME, contexts and the registers of BAR 0 (R136, R150, R277, R279, R280, R285, R299, R306, R459). -/
namespace Sys2Proof.Machine

/-! ## Page replies (R150, R280) -/

theorem card?_mapDies {s : State} {d cid : Nat} {c : Card} {f : Die → Card → Card} (hf : ∀ x k, (f x k).cid = k.cid) (h : s.card? d cid = some c) :
    State.card? { s with dies := s.dies.map (fun x => { x with cards := x.cards.map (f x) }) } d cid = some (f (s.die d) c) := by
  have there := die_lt_of_card? h
  have die : State.die { s with dies := s.dies.map (fun x => { x with cards := x.cards.map (f x) }) } d = { s.die d with cards := (s.die d).cards.map (f (s.die d)) } := by
    simp [State.die, List.getElem?_eq_getElem there]
  unfold State.card? at h ⊢
  rw [die]
  exact find?_map_same (fun k => by rw [hf]) h
section
variable {s : State} {x : Nat} {lo : Word} {hi : Option Word} {page : Nat} (hpage : page = pageOf (joined (s.ctx x).pgreplyHi lo hi))
include hpage
theorem pgreply_asked : page ∉ ((s.pgreply x lo hi).ctx x).asked := by
  unfold State.pgreply
  dsimp only
  rw [ctx_modCtx, ← hpage]
  simp [Ctx.replied]
theorem pgreply_group {tid gi : Nat} {t : Team} {g : Group} (ht : s.team? tid = some t) (hx : t.ctx = x) (hg : t.groups[gi]? = some g) :
    (s.pgreply x lo hi).group? tid gi = some { g with lanes := g.lanes.map (Lane.reply page (lo.getLsbD 0)) } := by
  have team : (s.pgreply x lo hi).team? tid = some (t.reply x page (lo.getLsbD 0)) := by
    subst hpage
    exact (team?_mapTeams fun u => by unfold Team.reply; split <;> rfl).trans (by rw [ht]; rfl)
  rw [group?_of_team? team, Team.reply, if_pos hx, List.getElem?_map, hg]
  rfl
theorem pgreply_card {d cid : Nat} {c : Card} (hc : s.card? d cid = some c) (hx : c.ctx = x) (waits : c.page = some page)
    (walked : ∀ w ∈ (s.die d).walks, ¬(w.ctx = x ∧ pageOf w.va = page)) :
    (s.pgreply x lo hi).card? d cid = some { c with page := none, fail := if lo.getLsbD 0 then some (1, page * 2 ^ 12) else c.fail } := by
  have none : (s.die d).walks.any (fun w => w.ctx == x && pageOf w.va == page) = false :=
    List.any_eq_false.2 fun w hw => by simpa using walked w hw
  have replied : c.reply (s.die d) x page (lo.getLsbD 0) = { c with page := Option.none, fail := if lo.getLsbD 0 then some (1, page * 2 ^ 12) else c.fail } :=
    if_pos ⟨hx, waits, by rw [none]; rfl⟩
  rw [← replied]
  subst hpage
  exact card?_mapDies (f := fun y => Card.reply y x _ (lo.getLsbD 0)) (fun y k => by unfold Card.reply; split <;> rfl) hc
end

/-! ## RESUME (R280) -/

/-- RESUME in the state whose latch it has used, for an address. -/
def State.resumeAt (s : State) (x a act : Nat) : State :=
  match s.halted? x a with
  | none => s
  | some k =>
    if act = 1 then s.release k (fun j => { j with trapped := false, sibling := true })
    else if act = 2 then s.release k (fun j => { j with team := s.skipTeam j.team, trapped := false, sibling := true })
    else if act = 3 then s.endSaved k
    else if act = 4 then s.killCtx x
    else s
theorem resume_eq (s : State) (x : Nat) (lo : Word) (hi : Option Word) :
    s.resume x lo hi = (s.modCtx x (fun c => { c with resumeHi := latchAfter c.resumeHi hi })).resumeAt x (joined (s.ctx x).resumeHi lo hi) (lo.toNat % 8) := rfl
theorem resumeAt_none {s : State} {x a : Nat} (no : s.halted? x a = none) (act : Nat) : s.resumeAt x a act = s := by
  rw [State.resumeAt, no]
theorem resumeAt_some {s : State} {x a act : Nat} {k : Saved} (found : s.halted? x a = some k) (h : act = 1 ∨ act = 2 ∨ act = 3 ∨ act = 4) :
    s.resumeAt x a act = if act = 1 then s.release k (fun j => { j with trapped := false, sibling := true })
      else if act = 2 then s.release k (fun j => { j with team := s.skipTeam j.team, trapped := false, sibling := true })
      else if act = 3 then s.endSaved k else s.killCtx x := by
  rw [State.resumeAt, found]
  dsimp only
  split
  · rfl
  split
  · rfl
  split
  · rfl
  · exact if_pos (by omega)

/-! ## The trap queue (R279, R285) -/

theorem retryNotices_none {s : State} {x : Nat} (none : (s.ctx x).heldNotices = []) : s.retryNotices x = s := by
  unfold State.retryNotices
  rw [none]
  split <;> rfl

section
variable {s : State} {x v : Nat}
theorem writeTqrd_beyond (beyond : (s.bar (ctxOff x 0x24) + 2 ^ 32 - s.bar (ctxOff x 0x28)) % 2 ^ 32 < (v % 2 ^ 32 + 2 ^ 32 - s.bar (ctxOff x 0x28)) % 2 ^ 32) :
    s.writeTqrd x v = s := by
  unfold State.writeTqrd State.tqUsed
  exact if_neg (Nat.not_le.2 beyond)
theorem writeTqrd_within (within : (v % 2 ^ 32 + 2 ^ 32 - s.bar (ctxOff x 0x28)) % 2 ^ 32 ≤ (s.bar (ctxOff x 0x24) + 2 ^ 32 - s.bar (ctxOff x 0x28)) % 2 ^ 32)
    (none : (s.ctx x).heldNotices = []) : s.writeTqrd x v = s.setBar (ctxOff x 0x28) (v % 2 ^ 32) := by
  unfold State.writeTqrd State.tqUsed
  exact (if_pos within).trans (retryNotices_none none)
end

/-! ## Contexts (R136, R285) -/

theorem get_filter_in {α : Type} {d : α} {m : SMap α} {q : Nat × α → Bool} {k : Nat} (kept : ∀ v, q (k, v) = true) : SMap.get d (m.filter q) k = SMap.get d m k := by
  induction m with
  | nil => rfl
  | cons e r ih =>
    obtain ⟨a, v⟩ := e
    rw [List.filter_cons]
    split
    · simp only [SMap.get, ih]
    · next out =>
      have other : k ≠ a := by
        rintro rfl
        exact out (kept v)
      rw [ih, SMap.get, if_neg other]
theorem pad_allotPad (s : State) (k b : Nat) : SMap.get 0 (s.allotPad k).pad b = if s.inPad k b = true then 0 else SMap.get 0 s.pad b := by
  split
  · next inside => exact get_filter_out fun v => by simp [inside]
  · next outside => exact get_filter_in fun v => by simp [outside]
/-- The descriptor's word of a mode, as it is written: bits 20 to 23 are reserved. -/
def modeWord (v : Nat) : Nat := v % 2 ^ 32 - bitsAt v 20 4 * 2 ^ 20
theorem modeWord_lt (v : Nat) : modeWord v < 2 ^ 32 := (Nat.sub_le ..).trans_lt (Nat.mod_lt _ (by decide))
theorem modeWord_eq (v : Nat) : modeWord v = setBits (v % 2 ^ 32) 20 4 0 := by
  rw [modeWord, setBits, bitsAt_mod v (by decide), Nat.zero_mod, Nat.zero_mul, Nat.add_zero]
theorem bitsAt_modeWord {v lo n : Nat} (h : lo + n ≤ 20 ∨ 24 ≤ lo) (top : lo + n ≤ 32) : bitsAt (modeWord v) lo n = bitsAt v lo n := by
  rw [modeWord_eq, bitsAt_setBits_other _ 20 4 _ lo n h, bitsAt_mod v top]
theorem bitsAt_one (v i : Nat) : (bitsAt v i 1 == 1) = v.testBit i := by
  rw [Nat.testBit_eq_decide_div_mod_eq]
  rfl
section
variable {s : State} {x v : Nat} (off : s.ctxEn x = false) (host : s.trust.recovery = false) (en : bitsAt v 26 1 = 1)
  (image : s.partPads (bitsAt v 28 4) = false ∨ s.bar64 (ctxOff x 0x48) ≠ 0)
include off host en image
theorem writeMode_enables : s.writeMode x v =
    (if s.partHeld (bitsAt v 28 4) then s else s.allotPad (bitsAt v 28 4)).setBar (ctxOff x 0x2C) (modeWord v) := by
  have free : (s.partPads (bitsAt v 28 4) && s.bar64 (ctxOff x 0x48) == 0) = false := by
    obtain h | h := image <;> simp [h]
  unfold State.writeMode modeWord
  simp only [off, host, en, free, beq_self_eq_true, Bool.not_true, Bool.or_self, Bool.false_eq_true, if_false]
end
theorem allotPad_bar (s : State) (k o : Nat) : (s.allotPad k).bar o = s.bar o := rfl
/-- The word that a mode leaves in the descriptor. -/
theorem ctxMode_of_bar {s : State} {x v : Nat} (h : s.bar (ctxOff x 0x2C) = modeWord v) :
    s.ctxEn x = v.testBit 26 ∧ s.ctxPart x = bitsAt v 28 4 ∧ s.ctxPriv x = v.testBit 27 ∧ s.ctxChk x = v.testBit 24 ∧ s.ctxPasid x = v % 2 ^ 20 := by
  have low : bitsAt v 0 20 = v % 2 ^ 20 := by rw [bitsAt, Nat.pow_zero, Nat.div_one]
  simp only [State.ctxEn, State.ctxPart, State.ctxPriv, State.ctxChk, State.ctxPasid, h]
  rw [bitsAt_modeWord (by decide) (by decide), bitsAt_modeWord (by decide) (by decide), bitsAt_modeWord (by decide) (by decide),
    bitsAt_modeWord (by decide) (by decide), bitsAt_modeWord (by decide) (by decide), bitsAt_one, bitsAt_one, bitsAt_one, low]
  exact ⟨rfl, rfl, rfl, rfl, rfl⟩
theorem bar_setBar_same {s : State} {o v : Nat} (h : v < 2 ^ 32) : (s.setBar o v).bar o = v := by
  rw [bar_setBar, if_pos rfl, Nat.mod_eq_of_lt h]
theorem writeMode_disables {s : State} {x v : Nat} (on : s.ctxEn x = true) (off : bitsAt v 26 1 = 0) (idle : s.ctxIdle x = true) :
    s.writeMode x v = s.setBar (ctxOff x 0x2C) (setBits (s.bar (ctxOff x 0x2C)) 26 1 0) := by
  have no : (bitsAt v 26 1 == 1) = false := by rw [off]; rfl
  unfold State.writeMode
  simp only [on, no, idle, Bool.not_true, Bool.or_self, Bool.false_eq_true, if_false, if_true]
theorem writeMode_on {s : State} {x v : Nat} (on : s.ctxEn x = true) (stays : bitsAt v 26 1 = 1 ∨ s.ctxIdle x = false) : s.writeMode x v = s := by
  unfold State.writeMode
  simp only [on, if_true]
  refine if_pos ?_
  obtain h | h := stays <;> simp [h]

/-! ## The registers of BAR 0 (R234, R299, R459) -/

theorem writePeerMap_bar {s : State} {off v : Nat} (low : 0x0090_0000 ≤ off) (high : off ≤ 0x0090_0080) (aligned : off % 4 = 0) :
    (s.writePeerMap (off - 0x0090_0000) (v % 2 ^ 32)).bar off = if off = 0x0090_0080 then v % 2 ^ 11 else v % 2 ^ 32 := by
  unfold State.writePeerMap
  rw [if_neg (by omega)]
  split
  · next last =>
    have here : off = 0x0090_0080 := by omega
    rw [if_pos here, here, bar_setBar, if_pos rfl]
    omega
  · next other =>
    rw [if_neg (by omega), bar_setBar, if_pos (by omega)]
    omega
/-- The package space has no register of the peer map that its writes reach (R459). -/
theorem writeBar_peerMap {s : State} {off : Nat} (low : 0x0090_0000 ≤ off) (high : off ≤ 0x0090_0080) (v : Nat) : s.writeBar off v = s := by
  unfold State.writeBar State.writePackage
  rw [if_pos (by omega), if_neg (by omega), if_neg (by omega), if_neg (by omega)]
theorem userSees_eq_false {x off : Nat} (out : off < 0x0100_0000 ∨ 0x0140_0000 ≤ off ∨ (off - 0x0100_0000) / 4096 ≠ x) : userSees x off = false := by
  have page : (off - 0x0100_0000) / 32 / 128 = (off - 0x0100_0000) / 4096 := Nat.div_div_eq_div_mul ..
  unfold userSees
  rw [page]
  obtain h | h | h := out
  · simp [Nat.not_le.2 h]
  · simp [Nat.not_lt.2 h]
  · simp [h]
theorem queueOff_fields (x : Nat) {q o : Nat} (hq : q < 128) (ho : o < 32) : (queueOff x q o - 0x0100_0000) / 32 / 128 = x ∧
    (queueOff x q o - 0x0100_0000) / 32 % 128 = q ∧ queueOff x q o % 32 = o := by
  unfold queueOff
  omega
theorem writeQueue_words (s : State) (x q v : Nat) :
    s.writeQueue x q 8 v = s.writeCtl x q v ∧ s.writeQueue x q 0xC v = s.doorbell x q v ∧ s.writeQueue x q 0x14 v = s := by
  unfold State.writeQueue
  exact ⟨by rw [if_neg (by decide), if_pos rfl], by rw [if_neg (by decide), if_neg (by decide), if_pos rfl],
    by rw [if_neg (by decide), if_neg (by decide), if_neg (by decide)]⟩
section
variable {x q : Nat} (hx : x < 1024) (hq : q < 128)
include hx hq
theorem userSees_queueOff {o : Nat} (ho : o < 32) : userSees x (queueOff x q o) = true := by
  have low : 0x0100_0000 ≤ queueOff x q o := by unfold queueOff; omega
  have high : queueOff x q o < 0x0140_0000 := by unfold queueOff; omega
  have page : (queueOff x q o - 0x0100_0000) / 32 / 128 = x := by unfold queueOff; omega
  simp [userSees, low, high, page]
theorem writeBar_queueOff (s : State) {o : Nat} (ho : o < 32) (v : Nat) : s.writeBar (queueOff x q o) v = s.writeQueue x q o v := by
  obtain ⟨ctx, queue, word⟩ := queueOff_fields x hq ho
  unfold State.writeBar
  rw [if_neg (by unfold queueOff; omega), if_pos (by unfold queueOff; omega)]
  simp only [ctx, queue, word]
theorem writeUser_queueOff (s : State) {o : Nat} (ho : o < 32) (v : Nat) : s.writeUser x (queueOff x q o) v =
    if o = 8 then s.writeCtl x q (setBits (s.qCtl x q) 9 2 (v / 2 ^ 9)) else if o = 0xC then s.doorbell x q v else s := by
  obtain ⟨-, queue, word⟩ := queueOff_fields x hq ho
  unfold State.writeUser
  simp only [userSees_queueOff hx hq ho, queue, word, Bool.not_true, Bool.false_eq_true, if_false]
end
theorem writeBar_ctxOff (s : State) {x o : Nat} (hx : x < 1024) (ho : o < 128) (v : Nat) : s.writeBar (ctxOff x o) v = s.writeCtx x o v := by
  have ctx : (ctxOff x o - 0x0070_0000) / 128 = x := by unfold ctxOff; omega
  have word : ctxOff x o % 128 = o := by unfold ctxOff; omega
  unfold State.writeBar State.writePackage
  rw [if_pos (by unfold ctxOff; omega), if_neg (by unfold ctxOff; omega), if_pos (by unfold ctxOff; omega), ctx, word]
/-- The first word of a descriptor is written while the context is disabled (R285). -/
theorem writeCtx_word (s : State) (x v : Nat) : s.writeCtx x 0 v = if s.ctxEn x then s else s.setBar (ctxOff x 0) v := by
  have word : ctxBits 0 v = v := by simp [ctxBits]
  have plain : ctxPlain 0 = true := by decide
  unfold State.writeCtx
  rw [if_neg (by decide), if_neg (by decide), if_neg (by decide), if_neg (by decide), if_neg (by decide), if_neg (by decide), if_neg (by decide), plain, word]
  cases s.ctxEn x
  · exact if_pos rfl
  · exact if_neg Bool.false_ne_true
theorem writeCtx_mode (s : State) (x v : Nat) : s.writeCtx x 0x2C v = s.writeMode x v := by
  unfold State.writeCtx
  rw [if_neg (by decide), if_pos rfl]
theorem writeBar_powOff (s : State) {d o : Nat} (hd : d < 4) (ho : o < 0x500) (v : Nat) : s.writeBar (powOff d o) v = s.writePower d o v := by
  have die : (powOff d o - 0x0200_0000) / 0x0100_0000 = d := by unfold powOff dieOff; omega
  have word : powOff d o % 0x0100_0000 = 0x0050_0000 + o := by unfold powOff dieOff; omega
  unfold State.writeBar
  rw [if_neg (by unfold powOff dieOff; omega), if_neg (by unfold powOff dieOff; omega), if_pos (by unfold powOff dieOff; omega), die, word]
  unfold State.writeDie
  rw [if_neg (by omega), if_neg (by omega), if_neg (by omega), if_neg (by omega), if_neg (by omega), if_pos (by omega), Nat.add_sub_cancel_left]
/-- An 8-byte write of no descriptor is two of 4 bytes. -/
theorem writeBar8_eq (s : State) {off : Nat} (out : off < 0x0070_0000 ∨ 0x0072_0000 ≤ off) (v : Nat) :
    s.writeBar8 off v = (s.writeBar off (v % 2 ^ 32)).writeBar (off + 4) (v / 2 ^ 32 % 2 ^ 32) := by
  have no : (decide (0x0070_0000 ≤ off) && decide (off < 0x0072_0000)) = false := by
    obtain h | h := out
    · simp [Nat.not_le.2 h]
    · simp [Nat.not_lt.2 h]
  unfold State.writeBar8
  simp only [no, Bool.false_and, Bool.false_eq_true, if_false, BitVec.toNat_ofNat]

/-! ## Who writes (R299) -/

theorem exec_registerWrite_host (s : State) (off v : Nat) : exec (.registerWrite .host off v false) s =
    .next (if !s.pathOpen .host || off % 4 != 0 then s else s.writeBar off (v % 2 ^ 32)) := by
  show execRegisterWrite .host off v false s = _
  simp only [execRegisterWrite, Bool.false_eq_true, if_false]
theorem exec_registerWrite_mgmt (s : State) (off v : Nat) : exec (.registerWrite .mgmt off v false) s =
    .next (if off % 4 != 0 then s else if 0x0090_0000 ≤ off ∧ off < 0x0090_0100 then s.writePeerMap (off - 0x0090_0000) (v % 2 ^ 32) else s.writeBar off (v % 2 ^ 32)) := by
  show execRegisterWrite .mgmt off v false s = _
  simp only [execRegisterWrite, State.pathOpen, Bool.not_true, Bool.false_or, Bool.false_eq_true, if_false]
theorem exec_registerWrite_user (s : State) (x off v : Nat) : exec (.registerWrite (.user x) off v false) s =
    .next (if !s.pathOpen (.user x) || off % 4 != 0 then s else s.writeUser x off (v % 2 ^ 32)) := by
  show execRegisterWrite (.user x) off v false s = _
  simp only [execRegisterWrite, Bool.false_eq_true, if_false]
theorem exec_registerWrite_host_wide (s : State) (off v : Nat) : exec (.registerWrite .host off v true) s =
    .next (if !s.pathOpen .host || off % 8 != 0 then s else s.writeBar8 off v) := by
  show execRegisterWrite .host off v true s = _
  simp only [execRegisterWrite, if_true]
theorem exec_registerWrite_mgmt_wide (s : State) {off : Nat} (out : off < 0x0090_0000 ∨ 0x0090_0100 ≤ off) (v : Nat) : exec (.registerWrite .mgmt off v true) s =
    .next (if off % 8 != 0 then s else s.writeBar8 off v) := by
  show execRegisterWrite .mgmt off v true s = _
  simp only [execRegisterWrite, State.pathOpen, Bool.not_true, Bool.false_or, if_true]
  rw [if_neg (show ¬(0x0090_0000 ≤ off ∧ off < 0x0090_0100) by omega)]
theorem writeUser_unseen {x off : Nat} (out : userSees x off = false) (s : State) (v : Nat) : s.writeUser x off v = s := by
  unfold State.writeUser
  simp only [out, Bool.not_false, if_true]

/-! ## HALT and SKIP from a user mapping (R234) -/

/-- What SKIP and a cleared HALT keep of a queue's control word: all but HALT. -/
theorem qCtl_skip (s : State) (x q : Nat) {lo n : Nat} (h : lo + n ≤ 9 ∨ 10 ≤ lo) : bitsAt ((s.skip x q).qCtl x q) lo n = bitsAt (s.qCtl x q) lo n := by
  have cleared : bitsAt ((s.setHalt x q false).qCtl x q) lo n = bitsAt (s.qCtl x q) lo n := by
    rw [qCtl_setHalt]
    exact bitsAt_setBits_other _ 9 1 _ lo n h
  by_cases halted : s.qHalt x q = true
  · by_cases code : s.qCode x q = 8
    · rw [State.skip, if_neg (by simp [halted]), if_pos code, cleared]
    · have word : (s.skip x q).qCtl x q = (s.setHalt x q false).qCtl x q := by
        rw [State.qCtl, bar_skip_rejected s x q halted code (by decide), State.advanceRd, bar_setBar, if_neg (by rw [queueOff_inj]; decide)]
        rfl
      rw [word, cleared]
  · rw [State.skip, if_pos (by simp [halted])]
/-- A register that is none of the queue's. -/
theorem bar_skip_ne (s : State) (x q : Nat) {o : Nat} (out : ∀ p < 32, o ≠ queueOff x q p) : (s.skip x q).bar o = s.bar o := by
  unfold State.skip State.advanceDone State.advanceRd State.setHalt
  split
  · rfl
  · split
    · rw [bar_setBar, if_neg (out 8 (by decide))]
    · simp only [bar_foldl_irq, bar_setStarted, bar_setBar, if_neg (out 8 (by decide)), if_neg (out 0x10 (by decide)), if_neg (out 0x14 (by decide))]
/-- The state in which a write of the control word finds it: SKIP done, HALT cleared. -/
def State.ctlReady (s : State) (x q v : Nat) : State :=
  let s := if bitsAt v 10 1 = 1 then s.skip x q else s
  if bitsAt v 9 1 = 1 then s.setHalt x q false else s
theorem writeCtl_eq (s : State) (x q v : Nat) :
    s.writeCtl x q v = (s.ctlReady x q v).setBar (queueOff x q 8) ((s.ctlReady x q v).ctlWord x q v) := rfl
theorem qCtl_ctlReady (s : State) (x q v : Nat) {lo n : Nat} (h : lo + n ≤ 9 ∨ 10 ≤ lo) :
    bitsAt ((s.ctlReady x q v).qCtl x q) lo n = bitsAt (s.qCtl x q) lo n := by
  have skipped : bitsAt (State.qCtl (if bitsAt v 10 1 = 1 then s.skip x q else s) x q) lo n = bitsAt (s.qCtl x q) lo n := by
    split
    · exact qCtl_skip s x q h
    · rfl
  unfold State.ctlReady
  dsimp only
  split
  · rw [qCtl_setHalt, bitsAt_setBits_other _ 9 1 _ lo n h, skipped]
  · exact skipped
theorem bar_ctlReady_ne (s : State) (x q v : Nat) {o : Nat} (out : ∀ p < 32, o ≠ queueOff x q p) : (s.ctlReady x q v).bar o = s.bar o := by
  have skipped : State.bar (if bitsAt v 10 1 = 1 then s.skip x q else s) o = s.bar o := by
    split
    · exact bar_skip_ne s x q out
    · rfl
  unfold State.ctlReady
  dsimp only
  split
  · rw [State.setHalt, bar_setBar, if_neg (out 8 (by decide)), skipped]
  · exact skipped
/-- A write of the control word that differs in HALT and SKIP alone leaves the other fields, and the other queues. -/
theorem writeCtl_haltSkip {s : State} {x q v : Nat} (same : ∀ lo n, lo + n ≤ 9 ∨ 11 ≤ lo → bitsAt v lo n = bitsAt (s.qCtl x q) lo n) :
    (∀ y, (s.writeCtl x q v).qEn x y = s.qEn x y) ∧ (s.writeCtl x q v).queueVec x q = s.queueVec x q ∧ (s.writeCtl x q v).qLog x q = s.qLog x q := by
  have ctl : (s.writeCtl x q v).qCtl x q = (s.ctlReady x q v).ctlWord x q v := by
    rw [writeCtl_eq, State.qCtl, bar_setBar_same ctlWord_lt]
  refine ⟨fun y => ?_, ?_, ?_⟩
  · by_cases hy : y = q
    · subst hy
      rw [State.qEn, ctl, bitsAt_ctlWord_en, same 8 1 (by decide), qCtl_ctlReady s x y v (by decide), ite_self, State.qEn]
    · have out : ∀ p < 32, queueOff x y 8 ≠ queueOff x q p := fun p hp => by unfold queueOff; omega
      rw [State.qEn, State.qCtl, writeCtl_eq, bar_setBar, if_neg (out 8 (by decide)), bar_ctlReady_ne s x q v out]
      rfl
  · show bitsAt ((s.writeCtl x q v).qCtl x q) 16 11 = bitsAt (s.qCtl x q) 16 11
    rw [ctl, bitsAt_ctlWord_vec, same 16 11 (by decide)]
  · rw [State.qLog, ctl, bitsAt_ctlWord_log, State.qLog, qCtl_ctlReady s x q v (by decide), same 0 5 (by decide), ite_self, State.qLog]

/-- Settles O57: replies by what they leave in teams and cards, RESUME by the team it finds, the registers by their places in BAR 0. -/
theorem softwareEventsComplete : Obligations.SoftwareEventsComplete := by
  unfold Obligations.SoftwareEventsComplete
  refine ⟨?replies, ?resume, ?latch, ?trapQueue, ?contexts, ?registers, ?user, ?words⟩
  case replies =>
    intro s x lo hi page opened hx hpage
    have ok : ctxOk x = true := decide_eq_true hx
    refine ⟨fun retry => ⟨s.pgreply x lo hi, congrArg _ (if_pos (by simp only [opened, ok, retry]; rfl)), pgreply_asked hpage, rfl, fun tid gi t g ht hc hg => ⟨_, pgreply_group hpage ht hc hg, ?_⟩,
        fun d cid c hc own waits walked => ?_⟩,
      fun decline => ⟨s.pgreply x lo hi, congrArg _ (if_pos (by simp only [opened, ok, decline]; rfl)), pgreply_asked hpage, rfl, fun tid gi t g ht hc hg => ⟨_, pgreply_group hpage ht hc hg, ?_⟩,
        fun d cid c hc own waits walked => ?_⟩⟩
    · rw [retry]; rfl
    · rw [pgreply_card hpage hc own waits walked, retry]; rfl
    · rw [decline]; rfl
    · rw [pgreply_card hpage hc own waits walked, decline]; rfl
  case resume =>
    intro s s1 x lo hi opened hx h1 i hi'
    have ok : ctxOk x = true := decide_eq_true hx
    have done : exec i s = .next (s1.resumeAt x (joined (s.ctx x).resumeHi lo hi) (lo.toNat % 8)) := by
      rw [h1, ← resume_eq]
      obtain ⟨act, rfl⟩ | ⟨act, rfl⟩ | ⟨act, rfl⟩ | ⟨act, rfl⟩ := hi'
      all_goals exact congrArg _ (if_pos (by simp only [opened, ok, act]; rfl))
    have act : lo.toNat % 8 = 1 ∨ lo.toNat % 8 = 2 ∨ lo.toNat % 8 = 3 ∨ lo.toNat % 8 = 4 :=
      hi'.imp And.left (Or.imp And.left (Or.imp And.left And.left))
    exact ⟨fun no => done.trans (congrArg _ (resumeAt_none no _)), fun k found => done.trans (congrArg _ (resumeAt_some found act))⟩
  case latch =>
    intro s x v opened hx
    have ok : (s.hostOpen && ctxOk x) = true := by simp [opened, ctxOk, hx]
    refine ⟨⟨s.modCtx x (fun c => { c with pgreplyHi := v }), congrArg _ (if_pos ok), ?_⟩, s.modCtx x (fun c => { c with resumeHi := v }), congrArg _ (if_pos ok), ?_⟩
    all_goals
      rw [ctx_modCtx]
      exact ⟨rfl, rfl⟩
  case trapQueue =>
    intro s x v opened hx
    have ok : (s.hostOpen && ctxOk x) = true := by simp [opened, ctxOk, hx]
    have write : exec (.tqrdWrite x v) s = .next (s.writeTqrd x v) := congrArg _ (if_pos ok)
    refine ⟨fun beyond => write.trans (congrArg _ (writeTqrd_beyond beyond)), fun within none => write.trans (congrArg _ (writeTqrd_within within none)),
      fun none => (congrArg _ (if_pos ok)).trans (congrArg _ (retryNotices_none none))⟩
  case contexts =>
    intro s x v k hx hk
    subst hk
    have shut {i : Bool} (closed : s.trust.recovery = true) : (s.hostOpen && ctxOk x && i) = false := by simp [State.hostOpen, closed]
    have ok (opened : s.trust.recovery = false) : (s.hostOpen && ctxOk x) = true := by simp [State.hostOpen, opened, ctxOk, hx]
    refine ⟨fun en on => ?_, fun closed => ⟨congrArg _ (if_neg (by rw [shut closed]; exact Bool.false_ne_true)), congrArg _ (if_neg (by rw [shut closed]; exact Bool.false_ne_true))⟩,
      fun en off host image => ?_, fun en off pads noImage => ?_, fun off on busy => ?_, fun host off on idle => ?_⟩
    · show Host.Outcome.next (if _ then s.writeMode x v else s) = _
      rw [writeMode_on on (.inl en), ite_self]
    · refine ⟨_, congrArg Host.Outcome.next ((if_pos (by rw [ok host, en]; rfl)).trans (writeMode_enables off host en image)), ?_⟩
      obtain ⟨hen, hpart, hpriv, hchk, hpasid⟩ := ctxMode_of_bar (x := x) (v := v)
        (s := (if s.partHeld (bitsAt v 28 4) then s else s.allotPad (bitsAt v 28 4)).setBar (ctxOff x 0x2C) (modeWord v)) (bar_setBar_same (modeWord_lt v))
      refine ⟨hen.trans ((bitsAt_one v 26).symm.trans (by rw [en]; rfl)), hpart, hpriv, hchk, hpasid, ?_, fun b => ?_⟩
      · rw [State.setBar_mem]
        split <;> rfl
      · rw [State.setBar_pad]
        by_cases held : s.partHeld (bitsAt v 28 4) = true
        · rw [if_pos held, if_neg (by simp [held])]
        · rw [if_neg held, pad_allotPad]
          simp only [Bool.not_eq_true] at held
          simp only [held, true_and]
    · show Host.Outcome.next (if _ then s.writeMode x v else s) = _
      have refused : s.writeMode x v = s := by
        unfold State.writeMode
        simp only [off, en, pads, noImage, beq_self_eq_true, Bool.not_true, Bool.false_eq_true, if_false, Bool.and_self, Bool.or_true, if_true]
      rw [refused, ite_self]
    · show Host.Outcome.next (if _ then s.writeMode x v else s) = _
      rw [writeMode_on on (.inr busy), ite_self]
    · refine ⟨_, congrArg Host.Outcome.next ((if_pos (by rw [ok host, off]; rfl)).trans (writeMode_disables on off idle)), ?_⟩
      have word := bar_setBar_same (s := s) (o := ctxOff x 0x2C) (setBits_lt (s.bar (ctxOff x 0x2C)) 26 1 0 (bar_lt s _) (by decide))
      rw [State.ctxEn, State.ctxPart, word, bitsAt_setBits_same, bitsAt_setBits_other _ 26 1 _ 28 4 (by decide)]
      exact ⟨rfl, rfl⟩
  case registers =>
    intro s y x off v wide
    refine ⟨rfl, rfl, rfl, fun no => ?_, fun path who aligned => ?_, fun low high aligned => ⟨?_, ?_, writePeerMap_bar low high aligned⟩, fun path who aligned out => ?_,
      fun out => ?_, fun out => ?_, fun path who aligned => ?_, fun no => ?_⟩
    · refine congrArg _ (if_pos ?_)
      obtain h | h := no <;> simp [h]
    · have here : (off % 4 != 0) = false := by simp [aligned]
      obtain rfl | ⟨rfl, out⟩ := who
      · rw [exec_registerWrite_host, path, here]
        rfl
      · rw [exec_registerWrite_mgmt, here, if_neg Bool.false_ne_true, if_neg (by omega)]
    · rw [exec_registerWrite_mgmt, if_neg (by simp [aligned]), if_pos ⟨low, by omega⟩]
    · rw [exec_registerWrite_host, writeBar_peerMap low high, ite_self]
    · have here : (off % 8 != 0) = false := by simp [aligned]
      obtain rfl | ⟨rfl, outer⟩ := who
      · rw [exec_registerWrite_host_wide, path, here, writeBar8_eq s out]
        rfl
      · rw [exec_registerWrite_mgmt_wide s outer, here, writeBar8_eq s out]
        rfl
    · rw [exec_registerWrite_user, writeUser_unseen (userSees_eq_false out), ite_self]
    · unfold State.readBar State.readWord
      simp [userSees_eq_false out]
    · unfold State.readBar State.readWord
      obtain rfl | rfl := who <;> simp [path, aligned]
    · refine if_pos ?_
      obtain h | h := no <;> simp [h]
  case user =>
    intro s x q v host hx hq hv
    have path : s.pathOpen (.user x) = true := by simp [State.pathOpen, State.hostOpen, host]
    have write {o : Nat} (ho : o < 32) (aligned : o % 4 = 0) : exec (.registerWrite (.user x) (queueOff x q o) v false) s = .next (s.writeUser x (queueOff x q o) v) := by
      have off : queueOff x q o % 4 = 0 := by unfold queueOff; omega
      rw [exec_registerWrite_user, if_neg (by simp [path, off]), Nat.mod_eq_of_lt hv]
    refine ⟨?_, ?_, ?_, ?_, ?_⟩
    · rw [write (by decide) (by decide), writeUser_queueOff hx hq s (by decide), if_neg (by decide), if_pos rfl]
    · rw [write (by decide) (by decide), writeUser_queueOff hx hq s (by decide), if_neg (by decide), if_neg (by decide)]
    · have aligned : queueOff x q 0 % 8 = 0 := by unfold queueOff; omega
      have low := (queueOff_fields x hq (o := 0) (by decide)).2.2
      have high := (queueOff_fields x hq (o := 4) (by decide)).2.2
      have next : queueOff x q 0 + 4 = queueOff x q 4 := by unfold queueOff; omega
      simp [State.readBar, State.readWord, path, aligned, next, low, high]
    · have aligned : queueOff x q 8 % 4 = 0 := by unfold queueOff; omega
      have word := (queueOff_fields x hq (o := 8) (by decide)).2.2
      have bit : bitsAt (s.bar (queueOff x q 8)) 9 1 < 2 := Nat.mod_lt _ (by decide)
      simp only [State.readBar, State.readWord, path, aligned, word, userSees_queueOff hx hq (o := 8) (by decide), State.qHalt, State.qCtl]
      by_cases h : bitsAt (s.bar (queueOff x q 8)) 9 1 = 1
      · simp [h]
      · simp [show bitsAt (s.bar (queueOff x q 8)) 9 1 = 0 by omega]
    · rw [write (by decide) (by decide), writeUser_queueOff hx hq s (by decide), if_pos rfl]
      exact ⟨_, rfl, writeCtl_haltSkip fun lo n h => bitsAt_setBits_other _ 9 2 _ lo n h⟩
  case words =>
    intro s x q d o v hx hq hd hv
    obtain ⟨ctl, bell, done⟩ := writeQueue_words s x q v
    refine ⟨fun off => ⟨?_, ?_⟩, (writeBar_queueOff hx hq s (by decide) v).trans ctl, (writeBar_queueOff hx hq s (by decide) v).trans bell,
      (writeBar_queueOff hx hq s (by decide) v).trans done, (writeBar_ctxOff s hx (by decide) v).trans (writeCtx_mode s x v), fun on => ?_, fun off => ?_, fun ho noStatus noThreshold kept => ?_, ?_⟩
    iterate 2
      · rw [writeBar_queueOff hx hq s (by decide), State.writeQueue, if_pos (by decide), off]
        exact bar_setBar_same hv
    · rw [writeBar_ctxOff s hx (by decide), writeCtx_word s x v, on, if_pos rfl]
    · rw [writeBar_ctxOff s hx (by decide), writeCtx_word s x v, off, if_neg Bool.false_ne_true]
      exact bar_setBar_same hv
    · rw [writeBar_powOff s hd ho, State.writePower, if_neg noStatus, if_neg noThreshold, kept, if_neg Bool.false_ne_true]
    · rw [writeBar_powOff s hd (by decide), State.writePower, if_neg (by decide), if_pos rfl]

end Sys2Proof.Machine
end

section
/-! PROOFS. Power, heat and time (R10, R17, R258-R270, R305, R306). -/
namespace Sys2Proof.Machine

/-! ## The power registers of a die -/

theorem powOff_inj {d o p : Nat} : powOff d o = powOff d p ↔ o = p := by
  unfold powOff dieOff
  omega
theorem bar_setBar_pow {s : State} {d o p v : Nat} : (s.setBar (powOff d o) v).bar (powOff d p) = if p = o then v % 2 ^ 32 else s.bar (powOff d p) := by
  rw [bar_setBar]
  simp only [powOff_inj]
theorem bar_modPower (s : State) (d : Nat) (f : Power → Power) (o : Nat) : (s.modPower d f).bar o = s.bar o := rfl
theorem power_modPower {s : State} {d : Nat} (there : d < s.dies.length) (f : Power → Power) : ((s.modPower d f).die d).power = f (s.die d).power :=
  congrArg Die.power (die_modDie there)
theorem die_setBar (s : State) (o v d : Nat) : (s.setBar o v).die d = s.die d := rfl
theorem bitsAt_lt (v lo n : Nat) : bitsAt v lo n < 2 ^ n := Nat.mod_lt _ (Nat.two_pow_pos n)

/-! ## The network's step (R261) -/

/-- The network's word after a step is set. -/
theorem nocWord_setStep (s : State) (d n : Nat) : (s.setStep d n).nocWord d = setBits (s.nocWord d) 0 3 (min n (s.stepCap d)) := by
  exact bar_setBar_same (setBits_lt _ 0 3 _ (bar_lt s _) (by decide))
theorem stepCap_le (s : State) (d : Nat) : s.stepCap d ≤ bitsAt (s.nocWord d) 8 3 := by
  unfold State.stepCap
  split
  · exact Nat.zero_le _
  · dsimp only
    split
    · exact Nat.min_le_left ..
    · exact Nat.le_refl _
theorem step_setStep (s : State) (d n : Nat) : bitsAt ((s.setStep d n).nocWord d) 0 3 = min n (s.stepCap d) := by
  rw [nocWord_setStep, bitsAt_setBits_same, Nat.mod_eq_of_lt]
  exact (Nat.min_le_right ..).trans_lt ((stepCap_le s d).trans_lt (bitsAt_lt _ 8 3))
theorem stepCap_lowRun {s : State} {d : Nat} (there : d < s.dies.length) (run : (s.die d).power.halted = false) (full : (s.die d).power.throttled = false) (n : Power → Nat) :
    (s.modPower d (fun p => { p with lowRun := n p })).stepCap d = bitsAt (s.nocWord d) 8 3 := by
  unfold State.stepCap
  rw [power_modPower there]
  simp only [run, full]
  rfl
/-- A sample's step, and its count of low samples. -/
theorem sample_step {s : State} {d : Nat} (there : d < s.dies.length) (run : (s.die d).power.halted = false) (full : (s.die d).power.throttled = false) (n : Power → Nat) (k : Nat) :
    bitsAt (((s.modPower d (fun p => { p with lowRun := n p })).setStep d k).nocWord d) 0 3 = min k (bitsAt (s.nocWord d) 8 3) ∧
    (((s.modPower d (fun p => { p with lowRun := n p })).setStep d k).die d).power.lowRun = n (s.die d).power :=
  ⟨by rw [step_setStep, stepCap_lowRun there run full], congrArg Power.lowRun (power_modPower there (fun p => { p with lowRun := n p }))⟩

/-! ## Channels and pools (R259, R260, R262) -/

theorem channel_setChannel {s : State} {ch : Nat} (there : channelDie ch < s.dies.length) (v : Nat) : (s.setChannel ch v).channel ch = v := by
  rw [State.channel, State.setChannel, power_modPower there]
  exact SMap.get_set_same ..

/-! ## Control intervals (R263, R270) -/

/-- What a fold of writes by key leaves at a key. -/
theorem get_foldl_set {α : Type} [DecidableEq α] (d : α) (f : Nat → α) (m : SMap α) (n b : Nat) :
    SMap.get d ((List.range n).foldl (fun m b => SMap.set d m b (f b)) m) b = if b < n then f b else SMap.get d m b := by
  induction n with
  | zero => rfl
  | succ n ih =>
    rw [List.range_succ, List.foldl_append, List.foldl_cons, List.foldl_nil, SMap.get_set, ih]
    grind
theorem dies_measures (s : State) (d : Nat) (e : Nat → Nat) (i : Nat → Nat) (n : Nat) :
    ((List.range n).foldl (fun s b => s.measure d b (e b) (i b)) s).dies = s.dies :=
  foldl_keeps (p := State.dies) (f := fun s b => s.measure d b (e b) (i b)) (fun _ _ => rfl) _ s

/-! ## Trips (R265) -/

theorem testBit_bitsAt (x lo n i : Nat) : (bitsAt x lo n).testBit i = (decide (i < n) && x.testBit (lo + i)) := by
  rw [bitsAt, Nat.testBit_mod_two_pow, Nat.testBit_div_two_pow, Nat.add_comm]
/-- A trip set or reset changes its own bit of TRIPS. -/
theorem trips_setTrip (s : State) (d : Nat) {k : Nat} (low : 1 ≤ k) (high : k ≤ 4) (b : Bool) :
    (s.setTrip d k b).trips d = setBits (s.trips d) (k - 1) 1 (if b then 1 else 0) := by
  have word : setBits (s.bar (powOff d 8)) (k - 1) 1 (if b then 1 else 0) < 2 ^ 32 := setBits_lt _ _ 1 _ (bar_lt s _) (by omega)
  have low4 (w : Nat) (h : w < 2 ^ 32) : (s.setBar (powOff d 8) (if k = 2 then setBits w 6 1 (if b then 1 else 0) else w)).trips d = bitsAt w 0 4 := by
    rw [State.trips, bar_setBar_same (by split; exacts [setBits_lt _ 6 1 _ h (by decide), h])]
    split
    · exact bitsAt_setBits_other _ 6 1 _ 0 4 (by decide)
    · rfl
  rw [State.setTrip, low4 _ word]
  refine Nat.eq_of_testBit_eq fun i => ?_
  rw [testBit_setBits, State.trips, testBit_bitsAt, testBit_setBits, testBit_bitsAt, Nat.zero_add]
  by_cases hi : i < 4
  · simp [hi]
  · have other : ¬(k - 1 ≤ i ∧ i < k - 1 + 1) := by omega
    simp only [hi, other, if_false, decide_false, Bool.false_and]
theorem tripped_of_trips {s : State} {d n : Nat} (h : s.trips d = n) (k : Nat) : s.tripped d k = n.testBit (k - 1) := by
  rw [State.tripped, h]
theorem trips_trip (s : State) (d : Nat) {k : Nat} (low : 1 ≤ k) (high : k ≤ 4) : (s.trip d k).trips d = setBits (s.trips d) (k - 1) 1 1 :=
  trips_setTrip s d low high true

/-! ## Sensors (R265) -/

/-- The registers of the sensors, as a sample sets them. -/
def State.sensed (s : State) (d : Nat) (l : List (Nat × Int)) : State :=
  l.foldl (fun s p => s.setBar (powOff d (0x400 + 4 * p.1)) (BitVec.ofInt 16 p.2).toNat) s
theorem bar_sensed (s : State) (d : Nat) (l : List (Nat × Int)) {o : Nat} (ho : o < 0x400) : (s.sensed d l).bar (powOff d o) = s.bar (powOff d o) :=
  foldl_keeps (p := fun s : State => s.bar (powOff d o)) (fun s q => by rw [bar_setBar_pow, if_neg (by omega)]) l s
theorem sensed_keeps {α : Type} {p : State → α} (hp : ∀ s x, p { s with bar0 := x } = p s) (s : State) (d : Nat) (l : List (Nat × Int)) : p (s.sensed d l) = p s :=
  foldl_keeps (p := p) (fun _ _ => hp ..) l s
/-- A sensor's register after a sample, from the place `i` of its list on. -/
theorem bar_sensed_at (s : State) (d : Nat) (l : List Int) (i k : Nat) : (s.sensed d (enum.go i l)).bar (powOff d (0x400 + 4 * (i + k))) =
    match l[k]? with
    | some t => (BitVec.ofInt 16 t).toNat
    | none => s.bar (powOff d (0x400 + 4 * (i + k))) := by
  induction l generalizing i k s with
  | nil => rfl
  | cons t r ih =>
    show (State.sensed (s.setBar (powOff d (0x400 + 4 * i)) (BitVec.ofInt 16 t).toNat) d (enum.go (i + 1) r)).bar _ = _
    cases k with
    | zero =>
      have later : ∀ (l : List Int) (j : Nat) (u : State), i < j → (u.sensed d (enum.go j l)).bar (powOff d (0x400 + 4 * (i + 0))) = u.bar (powOff d (0x400 + 4 * (i + 0))) := by
        intro l
        induction l with
        | nil => exact fun _ _ _ => rfl
        | cons t r ih =>
          intro j u hj
          refine (ih (j + 1) _ (by omega)).trans ?_
          rw [bar_setBar_pow, if_neg (by omega)]
      rw [later r (i + 1) _ (by omega), bar_setBar_pow, if_pos (by omega)]
      exact Nat.mod_eq_of_lt ((BitVec.isLt _).trans (by decide))
    | succ k =>
      have := ih (s.setBar (powOff d (0x400 + 4 * i)) (BitVec.ofInt 16 t).toNat) (i + 1) k
      rw [show i + 1 + k = i + (k + 1) by omega] at this
      rw [this, List.getElem?_cons_succ]
      split
      · rfl
      · rw [bar_setBar_pow, if_neg (by omega)]
theorem temp_sensed (s : State) (d : Nat) {l : List Int} {k : Nat} {t : Int} (h : l[k]? = some t) (low : -32768 ≤ t) (high : t < 32768) :
    (s.sensed d (enum l)).temp d k = t := by
  have word := bar_sensed_at s d l 0 k
  rw [h, Nat.zero_add] at word
  rw [State.temp]
  rw [show (s.sensed d (enum l)).bar (powOff d (0x400 + 4 * k)) = (BitVec.ofInt 16 t).toNat from word, BitVec.ofNat_toNat, BitVec.setWidth_eq, BitVec.toInt_ofInt]
  exact Int.bmod_eq_of_le (by omega) (by omega)

/-! ## What a sample brings about (R265) -/

section
variable {s : State} {d : Nat}
theorem trip1_cold (trips : s.trips d = 0) : s.trip1 d false = s := by
  have none : s.tripped d 1 = false := tripped_of_trips trips 1
  unfold State.trip1
  simp only [none, Bool.false_and, Bool.false_eq_true, if_false]
theorem trip1_hot (trips : s.trips d = 0) : s.trip1 d true = { (s.trip d 1).irq 0 with mgmt := s.mgmt ++ [d] } := by
  have none : s.tripped d 1 = false := tripped_of_trips trips 1
  unfold State.trip1
  simp only [none, Bool.true_and, Bool.not_false, if_true]
/-- Since when every sensor is below 98 °C. -/
def State.coolSince (s : State) (d : Nat) (p : Power) : Option Nat :=
  if s.cooler d 98 then (match p.below with
    | some t => some t
    | none => some (s.die d).time) else none
/-- The throttle's own part of T2: that time is noted, and the step stays under its cap. -/
def State.throttling (s : State) (d : Nat) : State :=
  (s.modPower d (fun p => { p with below := s.coolSince d p })).setStep d (bitsAt (s.nocWord d) 0 3)
theorem trip2_cold : s.trip2 d false = s.throttling d := rfl
theorem trip2_hot (first : s.tripped d 2 = false) : s.trip2 d true = ((s.trip d 2).modPower d (fun p => { p with throttled := true })).throttling d := by
  unfold State.trip2
  simp only [first, Bool.true_and, Bool.not_false, if_true]
  rfl
theorem trip3_cold : s.trip3 d false = s := rfl
theorem trip3_hot (first : s.tripped d 3 = false) : s.trip3 d true =
    (((((s.recordTrip d).modPower d (fun p => { p with halted := true })).teams.filter (fun t => dieOf t.pcore == d)).foldl (fun s t => s.preempt t.tid)
      ((s.recordTrip d).modPower d (fun p => { p with halted := true }))).setStep d 0) := by
  unfold State.trip3
  simp only [first, Bool.true_and, Bool.not_false, if_true]
theorem bar_setStep (n : Nat) {o : Nat} (ho : o ≠ 0xC) : (s.setStep d n).bar (powOff d o) = s.bar (powOff d o) := by
  rw [State.setStep, bar_setBar_pow, if_neg ho]
theorem bar_throttling {o : Nat} (ho : o ≠ 0xC) : (s.throttling d).bar (powOff d o) = s.bar (powOff d o) := bar_setStep _ ho
theorem trips_throttling : (s.throttling d).trips d = s.trips d := congrArg (fun w => bitsAt w 0 4) (bar_throttling (by decide))
/-- What neither registers nor dies hold, the throttle leaves. -/
theorem throttling_keeps {α : Type} {p : State → α} (hb : ∀ s x, p { s with bar0 := x } = p s) (hd : ∀ s x, p { s with dies := x } = p s) : p (s.throttling d) = p s :=
  (hb ..).trans (hd ..)
theorem power_throttling (there : d < s.dies.length) : ((s.throttling d).die d).power = { (s.die d).power with below := s.coolSince d (s.die d).power } :=
  power_modPower there (fun p => { p with below := s.coolSince d p })
/-- The state in which a sample judges the limits: the registers set, and the reading counted in the lifetime record (R294). -/
def State.sampled (s : State) (d : Nat) (temps : List Int) : State :=
  (s.sensed d (enum temps)).noteTemp d (((List.range 64).map ((s.sensed d (enum temps)).temp d)).foldl max ((s.sensed d (enum temps)).temp d 0))
theorem sampled_keeps {α : Type} {p : State → α} (hb : ∀ s x, p { s with bar0 := x } = p s) (hl : ∀ s x, p { s with live := x } = p s) (s : State) (d : Nat)
    (temps : List Int) : p (s.sampled d temps) = p s :=
  (hl ..).trans (sensed_keeps hb ..)
theorem temp_sampled (s : State) (d : Nat) {temps : List Int} {k : Nat} {t : Int} (h : temps[k]? = some t) (low : -32768 ≤ t) (high : t < 32768) :
    (s.sampled d temps).temp d k = t := temp_sensed s d h low high
theorem trips_sampled (s : State) (d : Nat) (temps : List Int) : (s.sampled d temps).trips d = s.trips d :=
  congrArg (fun w => bitsAt w 0 4) (bar_sensed s d (enum temps) (by decide : 8 < 0x400))
/-- Whether a sensor has reached a limit is read off the readings. -/
theorem hot_sampled (s : State) (d : Nat) {temps : List Int} (all : temps.length = 64) (word : ∀ t ∈ temps, -32768 ≤ t ∧ t < 32768) (c : Int) :
    (List.range 64).any (fun k => decide (8 * c ≤ (s.sampled d temps).temp d k)) = temps.any (fun t => decide (8 * c ≤ t)) := by
  refine Bool.eq_iff_iff.2 ?_
  simp only [List.any_eq_true, List.mem_range, decide_eq_true_eq]
  constructor
  · rintro ⟨k, hk, hot⟩
    have here := List.getElem?_eq_getElem (all ▸ hk : k < temps.length)
    have mem := List.mem_of_getElem? here
    exact ⟨_, mem, (temp_sampled s d here (word _ mem).1 (word _ mem).2) ▸ hot⟩
  · rintro ⟨t, mem, hot⟩
    obtain ⟨k, hk, rfl⟩ := List.getElem_of_mem mem
    have here := List.getElem?_eq_getElem hk
    exact ⟨k, all ▸ hk, (temp_sampled s d here (word _ mem).1 (word _ mem).2).symm ▸ hot⟩
/-- A sample, by which of the three limits a sensor has reached. -/
theorem sensorSample_eq (s : State) (d : Nat) {temps : List Int} (all : temps.length = 64) (word : ∀ t ∈ temps, -32768 ≤ t ∧ t < 32768) :
    exec (.sensorSample d temps) s = .next ((((s.sampled d temps).trip1 d (temps.any (fun t => decide (760 ≤ t)))).trip2 d
      (temps.any (fun t => decide (824 ≤ t)))).trip3 d (temps.any (fun t => decide (880 ≤ t)))) := by
  rw [show temps.any (fun t => decide (760 ≤ t)) = _ from (hot_sampled s d all word 95).symm,
    show temps.any (fun t => decide (824 ≤ t)) = _ from (hot_sampled s d all word 103).symm,
    show temps.any (fun t => decide (880 ≤ t)) = _ from (hot_sampled s d all word 110).symm]
  show execSensorSample d temps s = _
  rw [execSensorSample, List.take_of_length_le (by omega)]
  rfl
/-- The state after T1 comes into force. -/
def State.warned (s : State) (d : Nat) : State := { (s.trip d 1).irq 0 with mgmt := s.mgmt ++ [d] }
theorem trips_warned (trips : s.trips d = 0) : (s.warned d).trips d = 1 := by
  refine (trips_trip s d (le_refl 1) (by decide)).trans ?_
  rw [trips]
  decide
/-- The state after T2 comes into force besides. -/
def State.slowed (s : State) (d : Nat) : State := (((s.warned d).trip d 2).modPower d (fun p => { p with throttled := true })).throttling d
theorem trips_slowed (trips : s.trips d = 0) : (s.slowed d).trips d = 3 := by
  refine trips_throttling.trans ((trips_trip (s.warned d) d (by decide) (by decide)).trans ?_)
  rw [trips_warned trips]
  decide
theorem length_slowed (s : State) (d : Nat) : (s.slowed d).dies.length = s.dies.length := (updAt_length ..).trans (updAt_length ..)
theorem power_slowed (there : d < s.dies.length) : ((s.slowed d).die d).power.throttled = true ∧ ((s.slowed d).die d).power.halted = (s.die d).power.halted := by
  have same : (((s.warned d).trip d 2).modPower d (fun p => { p with throttled := true })).dies.length = s.dies.length := updAt_length ..
  have power := power_modPower (s := (s.warned d).trip d 2) there (fun p => { p with throttled := true })
  rw [State.slowed, power_throttling (there.trans_eq same.symm)]
  exact ⟨(congrArg Power.throttled power :), (congrArg Power.halted power :)⟩
/-- Of a die with a sensor at or above 98 °C no time is noted. -/
theorem below_slowed (there : d < s.dies.length) {k : Nat} (hk : k < 64) (hot : 8 * 98 ≤ s.temp d k) : ((s.slowed d).die d).power.below = none := by
  have same : (((s.warned d).trip d 2).modPower d (fun p => { p with throttled := true })).dies.length = s.dies.length := updAt_length ..
  have reading : (((s.warned d).trip d 2).modPower d (fun p => { p with throttled := true })).temp d k = s.temp d k := by
    have trip (s : State) (j : Nat) : (s.trip d j).bar (powOff d (0x400 + 4 * k)) = s.bar (powOff d (0x400 + 4 * k)) :=
      bar_setBar_pow.trans (if_neg (by omega))
    exact congrArg (fun w => BitVec.toInt (BitVec.ofNat 16 w)) ((trip (s.warned d) 2).trans (trip s 1))
  rw [State.slowed, power_throttling (there.trans_eq same.symm)]
  refine if_neg fun cool => ?_
  have := List.all_eq_true.1 cool k (List.mem_range.2 hk)
  rw [reading] at this
  exact absurd (of_decide_eq_true this) (by omega)
/-- What T2 leaves but for registers, dies, the record and its own notices. -/
theorem slowed_keeps {α : Type} {p : State → α} (hb : ∀ s x, p { s with bar0 := x } = p s) (hl : ∀ s x, p { s with live := x } = p s)
    (hd : ∀ s x, p { s with dies := x } = p s) : p (s.slowed d) = p (s.warned d) :=
  (throttling_keeps (p := p) hb hd).trans ((hd ..).trans ((hl ..).trans (hb ..)))
/-- The teams of a die that halts. -/
def State.dieTeams (s : State) (d : Nat) : List Team := s.teams.filter (fun t => dieOf t.pcore == d)
/-- The state in which a die's halt begins. -/
def State.halting (s : State) (d : Nat) : State := (s.recordTrip d).modPower d (fun p => { p with halted := true })
theorem trip3_halting (first : s.tripped d 3 = false) : s.trip3 d true = (((s.halting d).dieTeams d).foldl (fun s t => s.preempt t.tid) (s.halting d)).setStep d 0 :=
  trip3_hot first
/-- T3 halts its die, and stops its teams. -/
theorem trip3_halts (there : d < s.dies.length) (trips : s.trips d = 3) : (s.trip3 d true).trips d = 7 ∧ ((s.trip3 d true).die d).power.halted = true ∧
    ((s.trip3 d true).die d).power.throttled = (s.die d).power.throttled ∧ ∀ t ∈ (s.trip3 d true).teams, dieOf t.pcore = d → t.halt ≠ none := by
  rw [trip3_halting (tripped_of_trips trips 3)]
  have stops {α : Type} {p : State → α} (hp : ∀ s x, p { s with teams := x } = p s) :
      p (((s.halting d).dieTeams d).foldl (fun s t => s.preempt t.tid) (s.halting d)) = p (s.halting d) :=
    foldl_keeps (p := p) (fun s (t : Team) => preempt_keeps hp s t.tid) _ _
  have record {α : Type} {p : State → α} (ha : ∀ s x, p { s with lifeA := x } = p s) (hb : ∀ s x, p { s with lifeB := x } = p s) :
      p (s.recordTrip d) = p (s.trip d 3) := writeLife_keeps ha hb _
  have dies : (s.recordTrip d).dies = s.dies := record (p := State.dies) (fun _ _ => rfl) (fun _ _ => rfl)
  have power : ((((s.halting d).dieTeams d).foldl (fun s t => s.preempt t.tid) (s.halting d)).die d).power = { (s.die d).power with halted := true } := by
    rw [stops (p := fun s => (s.die d).power) (fun _ _ => rfl)]
    exact (power_modPower (s := s.recordTrip d) (there.trans_eq (congrArg List.length dies).symm) _).trans
      (by rw [record (p := fun s => (s.die d).power) (fun _ _ => rfl) (fun _ _ => rfl)]; rfl)
  refine ⟨?_, (congrArg Power.halted power :), (congrArg Power.throttled power :), ?_⟩
  · refine (congrArg (fun w => bitsAt w 0 4) (bar_setStep 0 (by decide : 8 ≠ 0xC))).trans ?_
    rw [stops (p := fun s : State => bitsAt (s.bar (powOff d 8)) 0 4) (fun _ _ => rfl)]
    refine (record (p := fun s : State => s.trips d) (fun _ _ => rfl) (fun _ _ => rfl)).trans ((trips_trip s d (by decide) (by decide)).trans ?_)
    rw [trips]
    decide
  · intro u hu here
    have on : (s.halting d).Onward (((s.halting d).dieTeams d).foldl (fun s t => s.preempt t.tid) (s.halting d)) := onward_preemptAll _ _
    obtain ⟨t, ht, same⟩ := on.mem hu
    have mem : t ∈ (s.halting d).dieTeams d := List.mem_filter.2 ⟨ht, beq_iff_eq.2 (same.pcore ▸ here)⟩
    exact preemptAll_halts (fun t ht => (List.mem_filter.1 ht).1) (fun s t => ⟨s, .refl s, rfl⟩) t mem u hu same.tid
end
section
variable {s : State} {d : Nat} {temps : List Int}
theorem any_hot {c : Int} (hot : ∃ t ∈ temps, c ≤ t) : temps.any (fun t => decide (c ≤ t)) = true := by simpa using hot
theorem any_cold {c : Int} (cold : ∀ t ∈ temps, t < c) : temps.any (fun t => decide (c ≤ t)) = false := by simpa using cold
/-- Readings below every limit. -/
theorem sensorSample_cool (all : temps.length = 64) (word : ∀ t ∈ temps, -32768 ≤ t ∧ t < 736) (trips : s.trips d = 0) :
    ∃ s2, exec (.sensorSample d temps) s = .next s2 ∧ (∀ k, k < 64 → s2.temp d k = (temps[k]?).getD 0) ∧ s2.trips d = 0 ∧ s2.irqs = s.irqs := by
  have quiet : (s.sampled d temps).trips d = 0 := (trips_sampled ..).trans trips
  refine ⟨(s.sampled d temps).throttling d, ?_, fun k hk => ?_, trips_throttling.trans quiet, (throttling_keeps (p := State.irqs) (fun _ _ => rfl) (fun _ _ => rfl)).trans (sampled_keeps (p := State.irqs) (fun _ _ => rfl) (fun _ _ => rfl) ..)⟩
  · rw [sensorSample_eq s d all (fun t ht => ⟨(word t ht).1, (word t ht).2.trans (by decide)⟩), any_cold (fun t ht => (word t ht).2.trans (by decide)),
      any_cold (fun t ht => (word t ht).2.trans (by decide)), any_cold (fun t ht => (word t ht).2.trans (by decide)), trip1_cold quiet, trip2_cold, trip3_cold]
  · have here := List.getElem?_eq_getElem (all ▸ hk : k < temps.length)
    obtain ⟨low, high⟩ := word _ (List.mem_of_getElem? here)
    rw [here, Option.getD_some]
    exact (congrArg (fun w => BitVec.toInt (BitVec.ofNat 16 w)) (bar_throttling (by omega))).trans (temp_sampled s d here low (high.trans (by decide)))
/-- A reading at or above T1, and none at T2. -/
theorem sensorSample_t1 (all : temps.length = 64) (word : ∀ t ∈ temps, -32768 ≤ t ∧ t < 824) (hot : ∃ t ∈ temps, 760 ≤ t) (trips : s.trips d = 0) :
    ∃ s2, exec (.sensorSample d temps) s = .next s2 ∧ s2.trips d = 1 ∧ s2.irqs = s.irqs ++ [0] ∧ s2.mgmt = s.mgmt ++ [d] := by
  have quiet : (s.sampled d temps).trips d = 0 := (trips_sampled ..).trans trips
  refine ⟨((s.sampled d temps).warned d).throttling d, ?_, trips_throttling.trans (trips_warned quiet), ?_, ?_⟩
  · rw [sensorSample_eq s d all (fun t ht => ⟨(word t ht).1, (word t ht).2.trans (by decide)⟩), any_hot hot,
      any_cold (fun t ht => (word t ht).2.trans_le (by decide)), any_cold (fun t ht => (word t ht).2.trans (by decide)), trip1_hot quiet, trip2_cold, trip3_cold]
    rfl
  · rw [throttling_keeps (p := State.irqs) (fun _ _ => rfl) (fun _ _ => rfl)]
    exact congrArg (· ++ [0]) (sampled_keeps (p := State.irqs) (fun _ _ => rfl) (fun _ _ => rfl) ..)
  · rw [throttling_keeps (p := State.mgmt) (fun _ _ => rfl) (fun _ _ => rfl)]
    exact congrArg (· ++ [d]) (sampled_keeps (p := State.mgmt) (fun _ _ => rfl) (fun _ _ => rfl) ..)
/-- A sample with a reading at or above T2, up to T3. -/
theorem sensorSample_slowed (all : temps.length = 64) (word : ∀ t ∈ temps, -32768 ≤ t ∧ t < 32768) (hot : ∃ t ∈ temps, 824 ≤ t) (trips : s.trips d = 0) :
    exec (.sensorSample d temps) s = .next (((s.sampled d temps).slowed d).trip3 d (temps.any (fun t => decide (880 ≤ t)))) := by
  have quiet : (s.sampled d temps).trips d = 0 := (trips_sampled ..).trans trips
  have warm : ∃ t ∈ temps, 760 ≤ t := hot.imp fun t h => ⟨h.1, le_trans (by decide) h.2⟩
  rw [sensorSample_eq s d all word, any_hot warm, any_hot hot, trip1_hot quiet]
  exact congrArg (fun s => Host.Outcome.next (State.trip3 s d _)) (trip2_hot (tripped_of_trips (trips_warned quiet) 2))
theorem sensorSample_t2 (there : d < s.dies.length) (all : temps.length = 64) (word : ∀ t ∈ temps, -32768 ≤ t ∧ t < 880) (hot : ∃ t ∈ temps, 824 ≤ t)
    (trips : s.trips d = 0) : ∃ s2, exec (.sensorSample d temps) s = .next s2 ∧ s2.trips d = 3 ∧ (s2.die d).power.throttled = true ∧
      (s2.die d).power.below = none ∧ (s2.die d).power.halted = (s.die d).power.halted ∧ s2.irqs = s.irqs ++ [0] ∧ s2.mgmt = s.mgmt ++ [d] ∧ s2.teams = s.teams := by
  have quiet : (s.sampled d temps).trips d = 0 := (trips_sampled ..).trans trips
  have short : ∀ t ∈ temps, -32768 ≤ t ∧ t < 32768 := fun t ht => ⟨(word t ht).1, (word t ht).2.trans (by decide)⟩
  have dies : (s.sampled d temps).dies = s.dies := sampled_keeps (p := State.dies) (fun _ _ => rfl) (fun _ _ => rfl) ..
  have here : d < (s.sampled d temps).dies.length := dies ▸ there
  obtain ⟨throttled, halted⟩ := power_slowed here
  have reading : ∃ k < 64, 8 * 98 ≤ (s.sampled d temps).temp d k := by
    obtain ⟨t, mem, high⟩ := hot
    obtain ⟨k, hk, rfl⟩ := List.getElem_of_mem mem
    refine ⟨k, all ▸ hk, ?_⟩
    rw [temp_sampled s d (List.getElem?_eq_getElem hk) (short _ mem).1 (short _ mem).2]
    exact le_trans (by decide) high
  obtain ⟨k, hk, high⟩ := reading
  refine ⟨(s.sampled d temps).slowed d, ?_, trips_slowed quiet, throttled, below_slowed here hk high, ?_, ?_, ?_, ?_⟩
  · rw [sensorSample_slowed all short hot trips, any_cold (fun t ht => (word t ht).2), trip3_cold]
  · rw [halted]
    exact sampled_keeps (p := fun s => (s.die d).power.halted) (fun _ _ => rfl) (fun _ _ => rfl) ..
  · rw [slowed_keeps (p := State.irqs) (fun _ _ => rfl) (fun _ _ => rfl) (fun _ _ => rfl)]
    exact congrArg (· ++ [0]) (sampled_keeps (p := State.irqs) (fun _ _ => rfl) (fun _ _ => rfl) ..)
  · rw [slowed_keeps (p := State.mgmt) (fun _ _ => rfl) (fun _ _ => rfl) (fun _ _ => rfl)]
    exact congrArg (· ++ [d]) (sampled_keeps (p := State.mgmt) (fun _ _ => rfl) (fun _ _ => rfl) ..)
  · rw [slowed_keeps (p := State.teams) (fun _ _ => rfl) (fun _ _ => rfl) (fun _ _ => rfl)]
    exact sampled_keeps (p := State.teams) (fun _ _ => rfl) (fun _ _ => rfl) ..
theorem sensorSample_t3 (there : d < s.dies.length) (all : temps.length = 64) (word : ∀ t ∈ temps, -32768 ≤ t ∧ t < 32768) (hot : ∃ t ∈ temps, 880 ≤ t)
    (trips : s.trips d = 0) : ∃ s2, exec (.sensorSample d temps) s = .next s2 ∧ s2.trips d = 7 ∧ (s2.die d).power.halted = true ∧
      (s2.die d).power.throttled = true ∧ ∀ t ∈ s2.teams, dieOf t.pcore = d → t.halt ≠ none := by
  have quiet : (s.sampled d temps).trips d = 0 := (trips_sampled ..).trans trips
  have here : d < (s.sampled d temps).dies.length := there.trans_eq (sampled_keeps (p := fun s => s.dies.length) (fun _ _ => rfl) (fun _ _ => rfl) ..).symm
  obtain ⟨all3, halted, throttled, stopped⟩ := trip3_halts (here.trans_eq (length_slowed _ d).symm) (trips_slowed quiet)
  refine ⟨_, sensorSample_slowed all word (hot.imp fun t h => ⟨h.1, le_trans (by decide) h.2⟩) trips, ?_⟩
  rw [any_hot hot]
  exact ⟨all3, halted, throttled.trans (power_slowed here).1, stopped⟩
end

end Sys2Proof.Machine
end

section
/-! PROOFS. Power, heat and time, event by event (R10, R17, R258-R270, R305, R306). -/
namespace Sys2Proof.Machine

/-! ## The network's step and the channels -/

section
variable {s : State} {d occ : Nat}
theorem nocGovernorSample_high (h : bitsAt (s.nocWord d) 16 8 ≤ occ) : exec (.nocGovernorSample d occ) s =
    .next ((s.modPower d (fun p => { p with lowRun := 0 })).setStep d (bitsAt (s.nocWord d) 0 3 + 1)) :=
  congrArg Host.Outcome.next (if_pos h)
theorem nocGovernorSample_low (order : bitsAt (s.nocWord d) 24 8 < bitsAt (s.nocWord d) 16 8) (h : occ ≤ bitsAt (s.nocWord d) 24 8) :
    exec (.nocGovernorSample d occ) s = .next (if 7 ≤ (s.die d).power.lowRun
      then (s.modPower d (fun p => { p with lowRun := 0 })).setStep d (bitsAt (s.nocWord d) 0 3 - 1)
      else (s.modPower d (fun p => { p with lowRun := p.lowRun + 1 })).setStep d (bitsAt (s.nocWord d) 0 3)) :=
  congrArg Host.Outcome.next ((if_neg (by omega)).trans (if_pos h))
theorem nocGovernorSample_mid (low : bitsAt (s.nocWord d) 24 8 < occ) (high : occ < bitsAt (s.nocWord d) 16 8) : exec (.nocGovernorSample d occ) s =
    .next ((s.modPower d (fun p => { p with lowRun := 0 })).setStep d (bitsAt (s.nocWord d) 0 3)) :=
  congrArg Host.Outcome.next ((if_neg (by omega)).trans (if_neg (by omega)))
end

section
variable {s : State} {ch : Nat}
theorem hbmPowerDown_eq : exec (.hbmPowerDown ch) s = .next (if s.channel ch = 0 ∧ s.idleFor ch 256 then s.setChannel ch 1 else s) := rfl
theorem hbmSelfRefresh_eq : exec (.hbmSelfRefresh ch) s = .next (if s.channel ch = 1 ∧ s.idleFor ch 100000 then s.setChannel ch 2 else s) := rfl
/-- The state after a channel has been woken. -/
def State.woken (s : State) (ch : Nat) : State :=
  s.modPower (channelDie ch) (fun p => { p with
    hbm := SMap.set 0 p.hbm ch 0, wanted := p.wanted.filter (· != ch), used := SMap.set 0 p.used ch (s.die (channelDie ch)).time })
theorem hbmExit_eq : exec (.hbmExit ch) s =
    .next (if 384 ≤ ch ∨ (s.die (channelDie ch)).reinit ∨ s.channel ch = 0 ∨ !s.channelWanted ch then s else s.woken ch) := rfl
theorem channel_woken (there : channelDie ch < s.dies.length) : (s.woken ch).channel ch = 0 := by
  rw [State.channel, State.woken, power_modPower there]
  dsimp only
  exact SMap.get_set_same ..
end

/-! ## Pools -/

section
variable {s : State} {d b : Nat}
theorem poolMoveComplete_moves {m : PoolMove} (found : (s.die d).power.moves.find? (fun m => m.block == b) = some m) (small : m.pool < 4) :
    ∃ s2, exec (.poolMoveComplete d b) s = .next s2 ∧ s2.pool d b = m.pool ∧ (∀ k ∈ (s2.die d).power.moves, k.block ≠ b) ∧
      SMap.get 0 (s2.die d).power.lastMove b = (s.die d).time + 1 := by
  have there : d < s.dies.length := die_lt_of_ne_reset fun empty => by rw [empty] at found; cases found
  have pool : (bitsAt m.pool 0 2) = m.pool := by rw [bitsAt, pow_zero, Nat.div_one]; exact Nat.mod_eq_of_lt small
  refine ⟨(s.modDie d (fun x => { x with power := { x.power with
      moves := x.power.moves.filter (fun k => k.block != b), lastMove := SMap.set 0 x.power.lastMove b (x.time + 1) } })).setBar (powOff d (0x10C + 16 * b)) m.pool,
    ?_, ?_, ?_, ?_⟩
  rotate_left
  · exact (congrArg (fun w => bitsAt w 0 2) (bar_setBar_same (small.trans (by decide)))).trans pool
  · intro k hk
    rw [die_setBar, die_modDie there] at hk
    simpa using (List.mem_filter.1 hk).2
  · rw [die_setBar, die_modDie there]
    dsimp only
    exact SMap.get_set_same ..
  · show execPoolMoveComplete d b s = _
    rw [execPoolMoveComplete, found]
theorem poolMove_moves {gid : Nat} {w : Want} (wanted : s.wantOf gid = some w) (full : s.poolTakes w = false)
    (still : ∀ x ∈ s.dies, ∀ m ∈ x.power.moves, m.gid ≠ gid) (free : w.la.bridle = false)
    (place : ((List.range 4).map (fun i => (s.lastDie + 1 + i) % 4)).findSome? (fun d => (s.moveFrom w d).map (fun b => (d, b))) = some (d, b))
    (there : d < s.dies.length) :
    ∃ s2, exec (.poolMove gid) s = .next s2 ∧ (s2.die d).power.moves = (s.die d).power.moves ++ [⟨b, s.classOf w.la, gid⟩] := by
  have none : s.dies.any (fun d => d.power.moves.any (fun m => m.gid == gid)) = false := by simpa using still
  refine ⟨(s.modDie d (fun x => { x with power := { x.power with moves := x.power.moves ++ [⟨b, s.classOf w.la, gid⟩] } })).setBar (powOff d (0x10C + 16 * b))
    (setBits (s.bar (powOff d (0x10C + 16 * b))) 3 1 1), ?_, ?_⟩
  rotate_left
  · rw [die_setBar, die_modDie there]
  · show execPoolMove gid s = _
    rw [execPoolMove, wanted]
    dsimp only
    rw [full, none, free, place]
    simp only [Bool.false_or, Bool.false_and, Bool.false_eq_true, if_false]
end

/-! ## Control intervals and ageing -/

section
variable {s : State} {d : Nat}
theorem dies_addBar (s : State) (o n : Nat) : (s.addBar o n).dies = s.dies := rfl
theorem dies_noteDroop (s : State) (d : Nat) (l : List Nat) : (s.noteDroop d l).dies = s.dies := rfl
/-- The blocks' measures, as a control interval sets them. -/
def State.metered (s : State) (d : Nat) (e : List Nat) (p : List (Nat × Nat)) : State :=
  (List.range 32).foldl (fun s b => s.measure d b ((e[b]?).getD 0) ((p[b]?).getD (0, 0)).1) (s.noteDroop d (p.map (·.2)))
theorem dies_metered (s : State) (d : Nat) (e : List Nat) (p : List (Nat × Nat)) : (s.metered d e p).dies = s.dies := by
  rw [State.metered, dies_measures]
  exact dies_noteDroop ..
theorem committed_noteDroop (s : State) (d k : Nat) (l : List Nat) (b : Option Nat) : (s.noteDroop k l).committed d b = s.committed d b := rfl
/-- A control interval that is due: its overdraw, on what stood before it but for the registers and the record. -/
theorem controlInterval_due (e : List Nat) (p : List (Nat × Nat)) (hd : d < 4) (due : (s.die d).intervalDue = true) : ∃ s2 : State, s2.dies = s.dies ∧
    exec (.controlInterval d e p) s = .next ((s2.modDie d (fun x => { x with ctlAt := x.time / 8000 })).modPower d (fun q => { q with
      overdraw := SMap.set 0 ((List.range 32).foldl (fun m b => SMap.set 0 m b ((e[b]?).getD 0 - (s.committed d (some b)).1)) []) 32
        ((e[32]?).getD (e.take 32).sum - (s.committed d none).1)
      waited := false, eff := s2.effNow d })) := by
  have go : ¬(4 ≤ d ∨ (!(s.die d).intervalDue) = true) := by
    rw [due]
    exact fun h => h.elim (by omega) (by decide)
  refine ⟨if ((s.noteDroop d (p.map (·.2))).die d).power.waited then (s.metered d e p).addBar (powOff d 0x1C) 1 else s.metered d e p, ?_, ?_⟩
  · split
    · exact (dies_addBar ..).trans (dies_metered s d e p)
    · exact dies_metered s d e p
  · show execControlInterval d e p s = _
    rw [execControlInterval, if_neg go]
    simp only [committed_noteDroop, State.metered]
theorem controlInterval_completes (e : List Nat) (p : List (Nat × Nat)) (hd : d < 4) (there : d < s.dies.length) (due : (s.die d).intervalDue = true) :
    ∃ s2, exec (.controlInterval d e p) s = .next s2 ∧ (s2.die d).power.waited = false ∧ (s2.die d).intervalDue = false ∧
      (∀ b, b < 32 → SMap.get 0 (s2.die d).power.overdraw b = (e[b]?).getD 0 - (s.committed d (some b)).1) := by
  obtain ⟨s2, dies, run⟩ := controlInterval_due e p hd due
  have here : d < s2.dies.length := dies ▸ there
  refine ⟨_, run, ?_, ?_, fun b hb => ?_⟩
  · rw [power_modPower ((updAt_length ..).symm ▸ here)]
  · rw [State.modPower, die_modDie ((updAt_length ..).symm ▸ here), die_modDie here]
    exact bne_self_eq_false _
  · rw [power_modPower ((updAt_length ..).symm ▸ here)]
    dsimp only
    rw [SMap.get_set, if_neg (by omega), get_foldl_set, if_pos hb]
theorem controlInterval_early (e : List Nat) (p : List (Nat × Nat)) (early : (s.die d).intervalDue = false) : exec (.controlInterval d e p) s = .next s :=
  congrArg Host.Outcome.next (if_pos (.inr (by rw [early]; rfl)))
theorem admissionAgeing_ages {kind id since : Nat} (there : d < s.dies.length)
    (found : (s.waiting d).find? (fun w => w.1 == kind && w.2.1 == id) = some (kind, id, since)) (none : (s.die d).power.aged = none)
    (long : since + 128000 ≤ (s.die d).time) (oldest : ∀ v ∈ s.waiting d, since ≤ v.2.2) :
    ∃ s2, exec (.admissionAgeing d kind id) s = .next s2 ∧ (s2.die d).power.aged = some (kind, id) := by
  have elder : (s.waiting d).any (fun v => decide (v.2.2 < since)) = false := by simpa using fun a b c h => oldest (a, b, c) h
  refine ⟨s.modPower d (fun p => { p with aged := some (kind, id) }), ?_, congrArg Power.aged (power_modPower there _)⟩
  show execAdmissionAgeing d kind id s = _
  rw [execAdmissionAgeing]
  simp only [found, none, elder, Bool.false_or, Bool.or_false, decide_eq_true_eq, if_neg (Nat.not_lt.2 long)]
end

/-! ## The end of a throttle and of a halt (R265, R266) -/

section
variable {s : State} {d t : Nat}
theorem tripped_setTrip (s : State) (d : Nat) {k : Nat} (low : 1 ≤ k) (high : k ≤ 4) : (s.setTrip d k false).tripped d k = false := by
  rw [tripped_of_trips (trips_setTrip s d low high false), testBit_setBits, if_pos (by omega), Nat.sub_self]
  rfl
theorem throttleRelease_releases (there : d < s.dies.length) (since : (s.die d).power.below = some t) (on : (s.die d).power.throttled = true)
    (long : t + 1000000 ≤ (s.die d).time) :
    ∃ s2, exec (.throttleRelease d) s = .next s2 ∧ (s2.die d).power.throttled = false ∧ s2.tripped d 2 = false := by
  refine ⟨(s.setTrip d 2 false).modPower d (fun p => { p with throttled := false }), ?_, (congrArg Power.throttled (power_modPower (s := s.setTrip d 2 false) there _) :),
    tripped_setTrip s d (by decide) (by decide)⟩
  show execThrottleRelease d s = _
  rw [execThrottleRelease, since]
  simp only [on, Bool.true_and, decide_eq_true_eq, if_pos long]
theorem dieReenable_eq : exec (.dieReenable d) s = .next (if (s.die d).power.halted && s.cooler d 95
    then (s.setTrip d 3 false).modPower d (fun p => { p with halted := false }) else s) := rfl
theorem dieReenable_opens (there : d < s.dies.length) (off : (s.die d).power.halted = true) (cool : s.cooler d 95 = true) :
    ∃ s2, exec (.dieReenable d) s = .next s2 ∧ (s2.die d).power.halted = false ∧ s2.tripped d 3 = false :=
  ⟨(s.setTrip d 3 false).modPower d (fun p => { p with halted := false }), dieReenable_eq.trans (congrArg Host.Outcome.next (if_pos (by rw [off, cool]; rfl))),
    (congrArg Power.halted (power_modPower (s := s.setTrip d 3 false) there _) :), tripped_setTrip s d (by decide) (by decide)⟩
end

/-! ## Migration (R267) -/

section
variable {s : State} {tid core : Nat}
/-- What a migration notes in a team. -/
def Team.pinned (cs : List Nat) (m : Nat) (u : Team) : Team := { u with pin := cs, moved := m }
/-- A team that is to move to the cores `cs` of die `d`, noted at the die's time. -/
def State.pinTeam (cs : List Nat) (d : Nat) (s : State) (u : Team) : State := s.modTeam u.tid (Team.pinned cs ((s.die d).time + 1))
/-- A cluster's members hold their new place, and others keep what they have. -/
theorem team?_pinTeams (cs : List Nat) (d tid : Nat) (l : List Team) (s : State) : (l.foldl (State.pinTeam cs d) s).team? tid =
    if ∃ u ∈ l, u.tid = tid then (s.team? tid).map (Team.pinned cs ((s.die d).time + 1)) else s.team? tid := by
  induction l generalizing s with
  | nil => simp
  | cons u r ih =>
    have time : ((s.pinTeam cs d u).die d).time = (s.die d).time := rfl
    rw [List.foldl_cons, ih, time, State.pinTeam]
    generalize (s.die d).time + 1 = m
    by_cases here : u.tid = tid
    · have twice : ((s.team? tid).map (Team.pinned cs m)).map (Team.pinned cs m) = (s.team? tid).map (Team.pinned cs m) := by
        cases s.team? tid <;> rfl
      rw [here, team?_modTeam (f := Team.pinned cs m) (fun _ => rfl), twice, ite_self, if_pos ⟨u, List.mem_cons_self, here⟩]
    · rw [team?_modTeam_ne (f := Team.pinned cs m) (fun _ => rfl) (Ne.symm here)]
      simp [here]
theorem hotspotMigration_eq {t : Team} {cs : List Nat} (team : s.team? tid = some t)
    (place : (s.rects (dieOf t.pcore) t.cw t.ch).find? (fun cs => cs.head? == some core) = some cs) (busy : t.idle = false) (hot : s.hotBlock t.pcore = true)
    (rest : t.moved = 0 ∨ t.moved + 1000000 ≤ (s.die (dieOf t.pcore)).time + 1) (empty : ∀ u ∈ s.teams, u.pcore ∉ cs)
    (fits : ∀ k ∈ cs, s.poolFits k (s.classOf t.la) = true) (free : ∀ k ∈ cs, s.claimed (2 ^ 64) (fun _ => false) k = false) :
    exec (.hotspotMigration tid core) s = .next (((s.cluster t).foldl (State.pinTeam cs (dieOf t.pcore)) (s.preempt tid)).countEvent evMigration) := by
  have rested : (t.moved != 0 && decide ((s.die (dieOf t.pcore)).time + 1 < t.moved + 1000000)) = false := by
    rcases rest with rest | rest
    · rw [rest]
      rfl
    · rw [decide_eq_false (by omega), Bool.and_false]
  have cleared : s.teams.any (fun u => cs.contains u.pcore) = false := by simpa using empty
  have fit : cs.all (fun k => s.poolFits k (s.classOf t.la) && !s.claimed (2 ^ 64) (fun _ => false) k) = true := by
    rw [List.all_eq_true]
    intro k hk
    rw [fits k hk, free k hk]
    rfl
  show execHotspotMigration tid core s = _
  rw [execHotspotMigration, team]
  dsimp only
  rw [place]
  dsimp only
  rw [busy, hot, rested, cleared, fit]
  rfl
theorem team?_countEvent (s : State) (k tid : Nat) : (s.countEvent k).team? tid = s.team? tid := rfl
theorem hotspotMigration_moves {t : Team} {cs : List Nat} (team : s.team? tid = some t)
    (place : (s.rects (dieOf t.pcore) t.cw t.ch).find? (fun cs => cs.head? == some core) = some cs) (busy : t.idle = false) (hot : s.hotBlock t.pcore = true)
    (rest : t.moved = 0 ∨ t.moved + 1000000 ≤ (s.die (dieOf t.pcore)).time + 1) (empty : ∀ u ∈ s.teams, u.pcore ∉ cs)
    (fits : ∀ k ∈ cs, s.poolFits k (s.classOf t.la) = true) (free : ∀ k ∈ cs, s.claimed (2 ^ 64) (fun _ => false) k = false) :
    ∃ s2 u, exec (.hotspotMigration tid core) s = .next s2 ∧ s2.team? tid = some u ∧ u.pin = cs ∧ u.halt ≠ none ∧ u.moved = (s.die (dieOf t.pcore)).time + 1 := by
  have mate : ∃ u ∈ s.cluster t, u.tid = tid := ⟨t, List.mem_filter.2 ⟨List.mem_of_find?_eq_some team, by simp⟩, by simpa using List.find?_some team⟩
  obtain ⟨u, hu⟩ := Option.isSome_iff_exists.1 ((onward_preempt s tid).team?_isSome (by rw [team]; rfl : (s.team? tid).isSome = true))
  have halt : u.halt ≠ none :=
    preempt_halts (by rw [team]; rfl) u (List.mem_of_find?_eq_some hu) (by simpa using List.find?_some hu)
  have pinned := team?_pinTeams cs (dieOf t.pcore) tid (s.cluster t) (s.preempt tid)
  rw [hu, if_pos mate, preempt_keeps (p := fun s => (s.die (dieOf t.pcore)).time) (fun _ _ => rfl)] at pinned
  exact ⟨_, Team.pinned cs ((s.die (dieOf t.pcore)).time + 1) u, hotspotMigration_eq team place busy hot rest empty fits free, (team?_countEvent ..).trans pinned, rfl, halt, rfl⟩
end

/-! ## The power registers' writes (R268-R270) -/

section
variable {s : State} {d off v : Nat}
theorem powerBudgetWrite_eq (path : s.hostOpen = true) (hd : d < 4) (aligned : off % 4 = 0) (there : powerWritable off = true) :
    exec (.powerBudgetWrite d off v) s = .next (if isBudget off ∧ powerReset s.part off < v % 2 ^ 32
      then (s.setBar (powOff d off) (powerReset s.part off)).setBar (powOff d 8) (setBits (s.bar (powOff d 8)) 7 1 1) else s.setBar (powOff d off) (v % 2 ^ 32)) := by
  have go : ¬(4 ≤ d ∨ off % 4 ≠ 0 ∨ (!powerWritable off) = true) := by
    rw [there, aligned]
    exact fun h => h.elim (by omega) (fun h => h.elim (· rfl) (by decide))
  exact congrArg Host.Outcome.next ((if_pos path).trans (if_neg go))
theorem not_powerWritable_trips : powerWritable 8 = false := by decide
theorem powerBudgetWrite_clamps (path : s.hostOpen = true) (hd : d < 4) (aligned : off % 4 = 0) (there : powerWritable off = true) (budget : isBudget off = true)
    (above : powerReset s.part off < v % 2 ^ 32) :
    ∃ s2, exec (.powerBudgetWrite d off v) s = .next s2 ∧ s2.bar (powOff d off) = powerReset s.part off ∧ bitsAt (s2.bar (powOff d 8)) 7 1 = 1 := by
  have other : off ≠ 8 := fun h => by rw [h, not_powerWritable_trips] at there; cases there
  refine ⟨(s.setBar (powOff d off) (powerReset s.part off)).setBar (powOff d 8) (setBits (s.bar (powOff d 8)) 7 1 1),
    (powerBudgetWrite_eq path hd aligned there).trans (congrArg Host.Outcome.next (if_pos ⟨budget, above⟩)), ?_, ?_⟩
  · rw [bar_setBar_pow, if_neg other]
    exact bar_setBar_same (above.trans (Nat.mod_lt _ (by decide)))
  · rw [bar_setBar_same (setBits_lt _ 7 1 _ (bar_lt s _) (by decide)), bitsAt_setBits_same]
    rfl
theorem powerBudgetWrite_writes (path : s.hostOpen = true) (hd : d < 4) (aligned : off % 4 = 0) (there : powerWritable off = true)
    (within : isBudget off = false ∨ v % 2 ^ 32 ≤ powerReset s.part off) :
    ∃ s2, exec (.powerBudgetWrite d off v) s = .next s2 ∧ s2.bar (powOff d off) = v % 2 ^ 32 := by
  have keep : ¬(isBudget off = true ∧ powerReset s.part off < v % 2 ^ 32) := fun h =>
    within.elim (fun b => Bool.false_ne_true (b.symm.trans h.1)) (fun le => Nat.not_lt.2 le h.2)
  exact ⟨_, (powerBudgetWrite_eq path hd aligned there).trans (congrArg Host.Outcome.next (if_neg keep)), bar_setBar_same (Nat.mod_lt _ (by decide))⟩
theorem thresholds_clamped (path : s.hostOpen = true) (hd : d < 4) (crossed : bitsAt v 16 8 ≤ bitsAt v 24 8) :
    ∃ s2, exec (.occupancyThresholdWrite d v) s = .next s2 ∧ s2.nocWord d = s.nocWord d ∧ bitsAt (s2.bar (powOff d 8)) 7 1 = 1 := by
  refine ⟨s.setBar (powOff d 8) (setBits (s.bar (powOff d 8)) 7 1 1),
    congrArg Host.Outcome.next ((if_pos path).trans ((if_neg (Nat.not_le.2 hd)).trans (if_pos crossed))), bar_setBar_pow.trans (if_neg (by decide)), ?_⟩
  rw [bar_setBar_same (setBits_lt _ 7 1 _ (bar_lt s _) (by decide)), bitsAt_setBits_same]
  rfl
theorem thresholds_written (path : s.hostOpen = true) (hd : d < 4) (order : bitsAt v 24 8 < bitsAt v 16 8) :
    ∃ s2, exec (.occupancyThresholdWrite d v) s = .next s2 ∧ bitsAt (s2.nocWord d) 24 8 = bitsAt v 24 8 ∧
      bitsAt (s2.nocWord d) 16 8 = bitsAt v 16 8 ∧ bitsAt (s2.nocWord d) 8 3 = bitsAt v 8 3 ∧ bitsAt (s2.nocWord d) 0 3 ≤ bitsAt v 8 3 := by
  have b0 := bitsAt_lt (s.nocWord d) 0 3
  have b8 := bitsAt_lt v 8 3
  have b16 := bitsAt_lt v 16 8
  have b24 := bitsAt_lt v 24 8
  refine ⟨(s.setBar (powOff d 0xC) (bitsAt v 24 8 * 2 ^ 24 + bitsAt v 16 8 * 2 ^ 16 + bitsAt v 8 3 * 2 ^ 8 + bitsAt (s.nocWord d) 0 3)).setStep d (bitsAt (s.nocWord d) 0 3),
    congrArg Host.Outcome.next ((if_pos path).trans ((if_neg (Nat.not_le.2 hd)).trans (if_neg (Nat.not_le.2 order)))), ?_⟩
  have word : (s.setBar (powOff d 0xC) (bitsAt v 24 8 * 2 ^ 24 + bitsAt v 16 8 * 2 ^ 16 + bitsAt v 8 3 * 2 ^ 8 + bitsAt (s.nocWord d) 0 3)).nocWord d =
      bitsAt v 24 8 * 2 ^ 24 + bitsAt v 16 8 * 2 ^ 16 + bitsAt v 8 3 * 2 ^ 8 + bitsAt (s.nocWord d) 0 3 := bar_setBar_same (by omega)
  have cap := stepCap_le (s.setBar (powOff d 0xC) (bitsAt v 24 8 * 2 ^ 24 + bitsAt v 16 8 * 2 ^ 16 + bitsAt v 8 3 * 2 ^ 8 + bitsAt (s.nocWord d) 0 3)) d
  refine ⟨?_, ?_, ?_, ?_⟩
  · rw [nocWord_setStep, bitsAt_setBits_other _ _ _ _ _ _ (by decide), word]
    generalize bitsAt v 24 8 = a, bitsAt v 16 8 = b, bitsAt v 8 3 = c, bitsAt (s.nocWord d) 0 3 = e at *
    unfold bitsAt
    omega
  · rw [nocWord_setStep, bitsAt_setBits_other _ _ _ _ _ _ (by decide), word]
    generalize bitsAt v 24 8 = a, bitsAt v 16 8 = b, bitsAt v 8 3 = c, bitsAt (s.nocWord d) 0 3 = e at *
    unfold bitsAt
    omega
  · rw [nocWord_setStep, bitsAt_setBits_other _ _ _ _ _ _ (by decide), word]
    generalize bitsAt v 24 8 = a, bitsAt v 16 8 = b, bitsAt v 8 3 = c, bitsAt (s.nocWord d) 0 3 = e at *
    unfold bitsAt
    omega
  · rw [step_setStep]
    refine (Nat.min_le_right ..).trans (cap.trans ?_)
    rw [word]
    generalize bitsAt v 24 8 = a, bitsAt v 16 8 = b, bitsAt v 8 3 = c, bitsAt (s.nocWord d) 0 3 = e at *
    unfold bitsAt
    omega
end

/-! ## The loss of power, and the boot (R10, R17, R306) -/

theorem recovery_boot (t : Trust) : t.boot.recovery = false ↔
    (t.slotA.valid = true ∧ t.slotA.key = t.fused ∧ t.rollback ≤ t.slotA.version) ∨ (t.slotB.valid = true ∧ t.slotB.key = t.fused ∧ t.rollback ≤ t.slotB.version) := by
  have boots (i : Image) : i.boots t.fused t.rollback = true ↔ i.valid = true ∧ i.key = t.fused ∧ t.rollback ≤ i.version := by
    simp [Image.boots, and_assoc]
  rw [← boots, ← boots, Trust.boot, Trust.bootSlot]
  generalize t.slotA.boots t.fused t.rollback = a, t.slotB.boots t.fused t.rollback = b, decide (t.slotB.version ≤ t.slotA.version) = c
  cases a <;> cases b <;> cases c <;> simp
/-- What is left without power. -/
theorem without_power {i : Instr} (h : i = .t4Cutoff ∨ i = .powerLoss) (s : State) : ∃ s2, exec i s = .next s2 ∧ s2.powered = false ∧
    s2.mem = s.mem.filter (fun p => decide (2 ^ 50 ≤ p.1)) ∧ s2.pad = [] ∧ s2.teams = [] ∧ s2.saved = [] ∧
    s2.bar0 = [] ∧ s2.badSites = s.badSites ∧ s2.rowFuses = s.rowFuses ∧ s2.trust.slotA = s.trust.slotA ∧ s2.trust.slotB = s.trust.slotB ∧
    s2.trust.rollback = s.trust.rollback ∧ s2.trust.fused = s.trust.fused ∧ s2.lifeA = s.lifeA ∧ s2.lifeB = s.lifeB := by
  rcases h with rfl | rfl
  · exact ⟨s.powerOff.countEvent (evT1 + 3), rfl, rfl, rfl, rfl, rfl, rfl, rfl, rfl, rfl, rfl, rfl, rfl, rfl, rfl, rfl⟩
  · exact ⟨s.powerOff, rfl, rfl, rfl, rfl, rfl, rfl, rfl, rfl, rfl, rfl, rfl, rfl, rfl, rfl, rfl⟩
theorem powerUp_boots {s : State} (off : s.powered = false) : ∃ s2, exec .powerUp s = .next s2 ∧ s2.powered = true ∧ (s2.trust.recovery = false ↔
    (s.trust.slotA.valid = true ∧ s.trust.slotA.key = s.trust.fused ∧ s.trust.rollback ≤ s.trust.slotA.version) ∨
    (s.trust.slotB.valid = true ∧ s.trust.slotB.key = s.trust.fused ∧ s.trust.rollback ≤ s.trust.slotB.version)) ∧ s2.mem = s.mem := by
  refine ⟨({ s with
      powered := true
      trust := s.trust.boot
      sites := (List.range 4).flatMap (fun d => (bindDie s.badSites d).1)
      unavail := (List.range 4).flatMap (fun d => (bindDie s.badSites d).2) } : State), ?_, rfl, recovery_boot s.trust, rfl⟩
  show execPowerUp s = _
  rw [execPowerUp, off]
  simp only [Bool.false_eq_true, if_false]
theorem ptpSync_slews (s : State) (d ns : Nat) : ∃ s2, exec (.ptpSync d ns) s = .next s2 ∧
    ∀ k, k < s.dies.length → (s2.die k).slew = (ns : Int) - (s.die d).time ∧ (s2.die k).time = (s.die k).time := by
  refine ⟨_, rfl, fun k hk => ?_⟩
  simp only [State.die, List.getElem?_map, List.getElem?_eq_getElem hk, Option.map_some, Option.getD_some]
  exact ⟨rfl, trivial⟩

/-- Settles O56: each event's lemma above; the step of the network stays under its cap, a trip sets its own bit, and readings of 16 bits are read back. -/
theorem powerEventsComplete : Obligations.PowerEventsComplete := by
  unfold Obligations.PowerEventsComplete
  refine ⟨?noc, ?channels, fun s d b m _ _ => poolMoveComplete_moves, fun s gid d b w => poolMove_moves, ?interval,
    fun s d kind id since => admissionAgeing_ages, fun s d temps _ _ => sensorSample_cool, fun s d temps _ _ => sensorSample_t1,
    fun s d temps there _ => sensorSample_t2 there, fun s d temps there _ => sensorSample_t3 there, ?ends, fun s tid core t cs => hotspotMigration_moves,
    fun s d off v path hd al there => ⟨powerBudgetWrite_clamps path hd al there, powerBudgetWrite_writes path hd al there⟩,
    fun s d v path hd => ⟨thresholds_clamped path hd, thresholds_written path hd⟩, fun s i h => without_power h s, fun s => powerUp_boots, ptpSync_slews⟩
  case noc =>
    rintro s d occ there run full st mx rfl rfl order
    refine ⟨fun h => ⟨_, nocGovernorSample_high h, sample_step there run full (fun _ => 0) _⟩,
      fun h few => ⟨_, nocGovernorSample_low order h, ?_⟩, fun h last => ⟨_, nocGovernorSample_low order h, ?_⟩,
      fun low high => ⟨_, nocGovernorSample_mid low high, sample_step there run full (fun _ => 0) _⟩⟩
    · rw [if_neg (by omega)]
      exact sample_step there run full (fun p => p.lowRun + 1) _
    · rw [if_pos (by omega)]
      exact sample_step there run full (fun _ => 0) _
  case channels =>
    intro s ch there
    refine ⟨fun on idle => ⟨_, hbmPowerDown_eq.trans (congrArg Host.Outcome.next (if_pos ⟨on, idle⟩)), channel_setChannel there 1, rfl⟩,
      fun no => hbmPowerDown_eq.trans (congrArg Host.Outcome.next (if_neg (by grind))),
      fun on idle => ⟨_, hbmSelfRefresh_eq.trans (congrArg Host.Outcome.next (if_pos ⟨on, idle⟩)), channel_setChannel there 2, rfl⟩,
      fun no => hbmSelfRefresh_eq.trans (congrArg Host.Outcome.next (if_neg (by grind))),
      fun small on asleep wanted => ⟨_, hbmExit_eq.trans (congrArg Host.Outcome.next (if_neg ?_)), channel_woken there, rfl⟩,
      fun no => hbmExit_eq.trans (congrArg Host.Outcome.next (if_pos (.inr (.inr (.inr (by rw [no]; rfl))))))⟩
    rw [on, wanted]
    rintro (h | h | h | h)
    · omega
    · cases h
    · exact asleep h
    · cases h
  case interval => exact fun s d e p hd there => ⟨controlInterval_completes e p hd there, controlInterval_early e p⟩
  case ends =>
    intro s d t there _
    exact ⟨throttleRelease_releases there, dieReenable_opens there, fun hot => dieReenable_eq.trans (congrArg Host.Outcome.next (if_neg (by rw [hot, Bool.and_false]; decide)))⟩

end Sys2Proof.Machine
end

section
/-! PROOFS. What the L2, walks and writes from outside leave (R136-R153, R177, R301). -/
namespace Sys2Proof.Machine

/-! ## What reads nothing of the dies stays as lines leave the L2 with no fill (R136, R147, R153) -/

section
variable {α : Type} {p : State → α} (hd : ∀ s x, p { s with dies := x } = p s)
include hd
theorem useChannel_keeps (s : State) (pa : Nat) : p (s.useChannel pa) = p s := by
  unfold State.useChannel
  split
  · rfl
  · exact hd ..
theorem useLine_keeps (s : State) (pa : Nat) : p (s.useLine pa) = p s := by
  unfold State.useLine
  split
  · rfl
  · exact useChannel_keeps hd ..
theorem walkUse_keeps (s : State) (ctx va : Nat) : p (s.walkUse ctx va) = p s := foldl_keeps (p := p) (useLine_keeps hd) _ s
theorem homeL2_keeps (s : State) (line : Nat) : p (s.homeL2 line) = p s := (hd ..).trans (hd ..)
theorem loseL2_keeps (s : State) (y : L2Line) : p (s.loseL2 none y) = p s := by
  unfold State.loseL2
  cases y.dctx with
  | none => exact hd ..
  | some c => exact (useChannel_keeps hd ..).trans (hd ..)
theorem freeL2_keeps (n node room : Nat) (s : State) : p (State.freeL2 n node room none s).1 = p s := by
  induction n generalizing node room s with
  | zero => rfl
  | succ n ih =>
    unfold State.freeL2
    dsimp only
    split
    · rfl
    · split
      · rfl
      · split
        · exact (ih ..).trans ((homeL2_keeps hd ..).trans (ih ..))
        · exact (ih ..).trans (loseL2_keeps hd ..)
theorem roomL2_keeps (s : State) (node : Nat) : p (s.roomL2 node none).1 = p s := by
  unfold State.roomL2
  split
  · rfl
  · exact freeL2_keeps hd ..
theorem dropL2_keeps (s : State) (y : L2Line) : p (s.dropL2 none y) = p s := by
  unfold State.dropL2
  split
  · exact (homeL2_keeps hd ..).trans (roomL2_keeps hd ..)
  · exact loseL2_keeps hd ..
theorem recall_keeps (s : State) (d node : Nat) : p (s.recall d node) = p s := by
  unfold State.recall
  dsimp only
  split
  · rfl
  · split
    · rfl
    · split
      · exact dropL2_keeps hd ..
      · exact hd ..
theorem fitL2_keeps (s : State) (d : Nat) : p (s.fitL2 d) = p s := by
  unfold State.fitL2
  split
  · rfl
  · exact foldl_keeps (p := p) (f := fun s sl => (State.freeL2 (2 * s.l2Count) (128 * d + sl) (s.l2Room (128 * d + sl) + 1) none s).1)
      (fun _ _ => freeL2_keeps hd ..) _ s
theorem unlose_keeps (s : State) (l : List Nat) : p (s.unlose l) = p s := by
  unfold State.unlose
  split
  · exact hd ..
  · rfl
theorem want_keeps (s : State) (pa : Nat) (mir write : Bool) : p (s.want pa mir write) = p s := by
  refine foldl_keeps (p := p) (fun s ch => ?_) _ s
  split
  · exact hd ..
  · rfl
end

/-! ## Lines of the L2 -/

/-- A line's record after a change of it. -/
theorem l2Find_modLine {s : State} {line : Nat} {f : L2Line → L2Line} (keep : ∀ r, (f r).line = r.line) {r : L2Line} (found : s.l2Find line = some r) :
    (s.modLine line f).l2Find line = some (f r) := by
  have there : homeDie (line * 128) < s.dies.length := die_lt_of_ne_reset fun empty => by
    rw [State.l2Find, empty] at found
    cases found
  have same (x : L2Line) : ((if x.line = line then f x else x).line == line) = (x.line == line) := by
    split
    · rw [keep]
    · rfl
  rw [State.l2Find, State.modLine, die_modDie there]
  refine (find?_map_same same found).trans ?_
  rw [if_pos (by simpa using List.find?_some found)]
theorem l2Find_fwd (s : State) (d line : Nat) (f : List Nat → List Nat) :
    (s.modDie d (fun x => { x with fwd := f x.fwd })).l2Find line = s.l2Find line :=
  congrArg (List.find? (fun r : L2Line => r.line == line)) (die_modDie_keeps (π := Die.l2) (f := fun x => { x with fwd := f x.fwd }) (fun _ => rfl) s d _)
theorem lines_purge (s : State) (pa : Nat) : ∀ r ∈ ((s.purge pa).die (homeDie pa)).l2, r.line ≠ pa / 128 := by
  intro r hr
  rw [State.purge, State.die, State.modDie, updAt_getElem?, if_pos rfl] at hr
  cases h : s.dies[homeDie pa]? with
  | none => rw [h] at hr; cases hr
  | some x =>
    rw [h] at hr
    simpa using (List.mem_filter.1 hr).2
/-- A purge finds no line that was not there. -/
theorem l2Find_purge_none {s : State} {line : Nat} (pa : Nat) (gone : s.l2Find line = none) : (s.purge pa).l2Find line = none := by
  rw [State.l2Find, State.purge]
  by_cases here : homeDie (line * 128) = homeDie pa
  · by_cases there : homeDie pa < s.dies.length
    · rw [here, die_modDie there]
      rw [State.l2Find, here, List.find?_eq_none] at gone
      exact List.find?_eq_none.2 fun r hr => gone r (List.mem_filter.1 hr).1
    · rw [State.die, State.modDie, updAt_getElem?, if_pos here.symm, here, List.getElem?_eq_none (Nat.not_lt.1 there)]
      rfl
  · rw [die_modDie_ne here]
    exact gone
theorem l2Find_purge (s : State) (pa : Nat) : (s.purge pa).l2Find (pa / 128) = none := by
  rw [State.l2Find, homeDie_line]
  exact List.find?_eq_none.2 fun r hr => by simpa using lines_purge s pa r hr
theorem l2Find_purges (l : List (Nat × Nat)) (s : State) : ∀ q ∈ l, (l.foldl (fun s p => s.purge p.1) s).l2Find (q.1 / 128) = none := by
  intro q hq
  induction l generalizing s with
  | nil => cases hq
  | cons r l ih =>
    rw [List.foldl_cons]
    rcases List.mem_cons.1 hq with rfl | hq
    · exact List.foldlRecOn (motive := fun s' : State => s'.l2Find (q.1 / 128) = none) l _ (l2Find_purge s q.1) fun s' gone p _ => l2Find_purge_none p.1 gone
    · exact ih _ hq

/-! ## Bytes put at their home -/

section
variable {α : Type} {p : State → α} (hd : ∀ s x, p { s with dies := x } = p s) (hr : ∀ s x, p { s with readers := x } = p s) (ht : ∀ s x, p { s with teams := x } = p s)
include hd hr ht
/-- A landing leaves, but for memory, what reads nothing of dies, readers and teams. -/
theorem landPhys_keeps (s : State) (pa : Nat) (mir : Bool) (bs : List Byte) :
    p (s.landPhys pa mir bs) = p { s with mem := if mir then setBytes (setBytes s.mem pa bs) (s.mirrorOf pa) bs else setBytes s.mem pa bs } := by
  have drop (s : State) (line : Nat) : p (s.dropReaders line) = p s := by
    unfold State.dropReaders
    split
    · rfl
    · exact hr ..
  have put (m : SMap Byte) : p (({ s with mem := m }.unlose (wholeSectors pa bs.length)).dropReaders (pa / 128)) = p { s with mem := m } :=
    (drop ..).trans (unlose_keeps hd ..)
  refine (ht ..).trans ((useLine_keeps hd ..).trans ?_)
  split
  · exact (hd ..).trans (put _)
  · exact put _
end
theorem mem_landPhys (s : State) (pa : Nat) (mir : Bool) (bs : List Byte) :
    (s.landPhys pa mir bs).mem = if mir then setBytes (setBytes s.mem pa bs) (s.mirrorOf pa) bs else setBytes s.mem pa bs :=
  landPhys_keeps (p := State.mem) (fun _ _ => rfl) (fun _ _ => rfl) (fun _ _ => rfl) s pa mir bs
theorem bar_landPhys (s : State) (pa : Nat) (mir : Bool) (bs : List Byte) : (s.landPhys pa mir bs).bar = s.bar :=
  landPhys_keeps (p := State.bar) (fun _ _ => rfl) (fun _ _ => rfl) (fun _ _ => rfl) s pa mir bs
theorem mirrorable_congr {s u : State} (bars : u.bar = s.bar) : u.mirrorable = s.mirrorable := by
  funext a
  rw [State.mirrorable, State.mirrorable, State.mirSize, State.mirSize, bars]
theorem mirrorOf_congr {s u : State} (bars : u.bar = s.bar) : u.mirrorOf = s.mirrorOf := by
  funext a
  rw [State.mirrorOf, State.mirrorOf, State.mirSize, State.mirSize, bars]
/-- Where memory and registers agree, so do they after a write from outside. -/
theorem outsideWrite_congr {s u : State} (mem : u.mem = s.mem) (bars : u.bar = s.bar) (pa : Nat) (bs : List Byte) :
    (u.outsideWrite pa bs).mem = (s.outsideWrite pa bs).mem := by
  unfold State.outsideWrite
  generalize splitAt' 32 pa bs.length = l
  induction l generalizing s u with
  | nil => exact mem
  | cons q r ih =>
    refine ih ?_ ?_
    · rw [mem_landPhys, mem_landPhys, mem, mirrorOf_congr bars, mirrorable_congr bars]
    · rw [bar_landPhys, bar_landPhys, bars]

/-! ## The pieces of a range -/

theorem splitAt'_within {k a n : Nat} {q : Nat × Nat} (hk : 0 < k) (hq : q ∈ splitAt' k a n) : a ≤ q.1 ∧ q.1 + q.2 ≤ a + n := by
  unfold splitAt' at hq
  split at hq
  · cases hq
  · next some =>
    obtain ⟨i, hi, rfl⟩ := List.mem_map.1 hq
    rw [List.mem_range] at hi
    have order : a / k ≤ (a + n - 1) / k := Nat.div_le_div_right (by omega)
    have top : (a / k + i) * k ≤ a + n - 1 := (Nat.mul_le_mul_right k (by omega)).trans (Nat.div_mul_le_self _ k)
    have step : (a / k + i + 1) * k = (a / k + i) * k + k := Nat.succ_mul ..
    have first := Nat.lt_div_mul_add hk (a := a)
    have grow : a / k * k ≤ (a / k + i) * k := Nat.mul_le_mul_right k (Nat.le_add_right ..)
    dsimp only
    omega
theorem splitAt'_covers {k a n b : Nat} (hk : 0 < k) (low : a ≤ b) (high : b < a + n) : ∃ q ∈ splitAt' k a n, q.1 ≤ b ∧ b < q.1 + q.2 := by
  unfold splitAt'
  rw [if_neg (by omega)]
  have lower : a / k ≤ b / k := Nat.div_le_div_right low
  have upper : b / k ≤ (a + n - 1) / k := Nat.div_le_div_right (by omega)
  refine ⟨_, List.mem_map.2 ⟨b / k - a / k, List.mem_range.2 (by omega), rfl⟩, ?_⟩
  have here : a / k + (b / k - a / k) = b / k := by omega
  have step : (b / k + 1) * k = b / k * k + k := Nat.succ_mul ..
  have first := Nat.lt_div_mul_add hk (a := b)
  have floor := Nat.div_mul_le_self b k
  dsimp only
  rw [here]
  omega
/-- What writes of pieces of a range leave at a byte. -/
theorem get_pieces {pa b : Nat} {bs : List Byte} (l : List (Nat × Nat)) (within : ∀ q ∈ l, pa ≤ q.1 ∧ q.1 + q.2 ≤ pa + bs.length) (m : SMap Byte) :
    SMap.get 0 (l.foldl (fun m q => setBytes m q.1 ((bs.drop (q.1 - pa)).take q.2)) m) b =
      if ∃ q ∈ l, q.1 ≤ b ∧ b < q.1 + q.2 then (bs[b - pa]?).getD 0 else SMap.get 0 m b := by
  induction l generalizing m with
  | nil => simp
  | cons q r ih =>
    obtain ⟨low, high⟩ := within q List.mem_cons_self
    have size : ((bs.drop (q.1 - pa)).take q.2).length = q.2 := by
      rw [List.length_take, List.length_drop]
      omega
    rw [List.foldl_cons, ih fun q hq => within q (List.mem_cons_of_mem _ hq), get_setBytes, size]
    by_cases later : ∃ q ∈ r, q.1 ≤ b ∧ b < q.1 + q.2
    · rw [if_pos later, if_pos (later.imp fun _ h => ⟨List.mem_cons_of_mem _ h.1, h.2⟩)]
    · rw [if_neg later]
      by_cases here : q.1 ≤ b ∧ b < q.1 + q.2
      · rw [if_pos here, if_pos ⟨q, List.mem_cons_self, here⟩, List.getElem?_take, if_pos (by omega), List.getElem?_drop]
        congr 2
        omega
      · rw [if_neg here, if_neg]
        rintro ⟨p, hp, at'⟩
        rcases List.mem_cons.1 hp with rfl | hp
        · exact here at'
        · exact later ⟨p, hp, at'⟩
/-- Where no mirror copy is kept, a write from outside changes its own bytes. -/
theorem mem_outsideWrite {s : State} (plain : ∀ b, s.mirrorable b = false) (pa : Nat) (bs : List Byte) (b : Nat) :
    SMap.get 0 (s.outsideWrite pa bs).mem b = if pa ≤ b ∧ b < pa + bs.length then (bs[b - pa]?).getD 0 else SMap.get 0 s.mem b := by
  have lands (l : List (Nat × Nat)) (s : State) (plain : ∀ b, s.mirrorable b = false) :
      (l.foldl (fun s p => s.landPhys p.1 (s.mirrorable p.1) ((bs.drop (p.1 - pa)).take p.2)) s).mem =
        l.foldl (fun m q => setBytes m q.1 ((bs.drop (q.1 - pa)).take q.2)) s.mem := by
    induction l generalizing s with
    | nil => rfl
    | cons q r ih =>
      rw [List.foldl_cons, List.foldl_cons, ih, mem_landPhys, plain]
      · rfl
      · exact fun b => (congrFun (mirrorable_congr (bar_landPhys ..)) b).trans (plain b)
  rw [State.outsideWrite, lands _ s plain, get_pieces _ fun q hq => splitAt'_within (by decide) hq]
  refine if_congr ⟨?_, fun h => splitAt'_covers (by decide) h.1 h.2⟩ rfl rfl
  rintro ⟨q, hq, low, high⟩
  have := splitAt'_within (by decide) hq
  omega

end Sys2Proof.Machine
end

section
/-! PROOFS. Walks, translations, the memory's configuration and writes from outside, event by event (R144-R152, R177, R178, R297-R304, R459). -/
namespace Sys2Proof.Machine

/-! ## Walks (R148-R152) -/

/-- The state once a walk has ended, before its result is told. -/
def State.walkDone (s : State) (die ctx page va : Nat) : State :=
  (s.walkUse ctx va).modDie die (fun x => { x with walks := x.walks.filter (fun k => !(k.ctx == ctx && pageOf k.va == page)) })
/-- The lanes of a context's teams on a die. -/
def onDie (die ctx : Nat) (t : Team) : Bool := dieOf t.pcore == die && t.ctx == ctx
/-- A walk that fails tells the lanes and cards that wait for it. -/
def State.walkFailed (s : State) (die ctx page cause : Nat) : State :=
  (s.modLanes (onDie die ctx) (fun l => if l.walks page = true then { l with st := .ready, declined := some page } else l)).pageCards
    die ctx page (fun c => { c with page := none, fail := some (cause, page * 2 ^ 12) })
/-- A walk that finds no page asks for it. -/
def State.walkAsked (s : State) (die ctx page : Nat) : State :=
  s.modLanes (onDie die ctx) (fun l => if l.walks page = true then { l with st := if l.declined = some page then .ready else .parked (.page page) } else l)
/-- A walk that finds its page fills the TLBs and sets A. -/
def State.walkFound (s : State) (die ctx page va : Nat) (e : TlbEnt) : State :=
  ((State.fillTlb { s with free := s.free + 1 } die e (s.walkCores die ctx page)).setA (e.pteAt va)).pageCards die ctx page (fun c => { c with page := none })

section
variable {s : State} {die ctx page : Nat} {w : Walk}
variable (found : ((s.die die).walks.take 4096).find? (fun w => w.ctx == ctx && pageOf w.va == page) = some w)
include found
theorem pageWalkComplete_held (held : s.walkHeld ctx w.va = true) : exec (.pageWalkComplete die ctx page) s = .next s := by
  show execPageWalkComplete die ctx page s = _
  rw [execPageWalkComplete, found]
  simp only [held, if_true]
theorem pageWalkComplete_lost (free : s.walkHeld ctx w.va = false) (lost : (s.walkDone die ctx page w.va).walkLost ctx w.va = true) :
    exec (.pageWalkComplete die ctx page) s = .next ((s.walkDone die ctx page w.va).walkFailed die ctx page 5) := by
  have on : onDie die ctx = fun t => dieOf t.pcore == die && t.ctx == ctx := rfl
  unfold State.walkDone at lost ⊢
  show execPageWalkComplete die ctx page s = _
  rw [execPageWalkComplete, found]
  simp only [free, lost, State.walkFailed, on, Bool.false_eq_true, if_false, if_true]
section
variable (free : s.walkHeld ctx w.va = false) (whole : (s.walkDone die ctx page w.va).walkLost ctx w.va = false)
include free whole
theorem pageWalkComplete_ok {e : TlbEnt} (ok : (s.walkDone die ctx page w.va).walk ctx w.va = .ok e) :
    exec (.pageWalkComplete die ctx page) s = .next ((s.walkDone die ctx page w.va).walkFound die ctx page w.va e) := by
  unfold State.walkDone at whole ok ⊢
  show execPageWalkComplete die ctx page s = _
  rw [execPageWalkComplete, found]
  simp only [free, whole, ok, State.walkFound, Bool.false_eq_true, if_false]
theorem pageWalkComplete_absent (absent : (s.walkDone die ctx page w.va).walk ctx w.va = .absent)
    (wanted : (s.walkDone die ctx page w.va).walkWanted (onDie die ctx) die ctx page = true) : exec (.pageWalkComplete die ctx page) s =
      .next (((s.walkDone die ctx page w.va).walkAsked die ctx page).pageRequest ctx w.va w.write w.fetch w.engine) := by
  have on : onDie die ctx = fun t => dieOf t.pcore == die && t.ctx == ctx := rfl
  unfold State.walkDone at whole absent wanted ⊢
  rw [on] at wanted
  show execPageWalkComplete die ctx page s = _
  rw [execPageWalkComplete, found]
  simp only [free, whole, absent, wanted, State.walkAsked, on, Bool.false_eq_true, if_false, if_true]
theorem pageWalkComplete_fail (fail : (s.walkDone die ctx page w.va).walk ctx w.va = .fail) :
    exec (.pageWalkComplete die ctx page) s = .next ((s.walkDone die ctx page w.va).walkFailed die ctx page 1) := by
  have on : onDie die ctx = fun t => dieOf t.pcore == die && t.ctx == ctx := rfl
  unfold State.walkDone at whole fail ⊢
  show execPageWalkComplete die ctx page s = _
  rw [execPageWalkComplete, found]
  simp only [free, whole, fail, State.walkFailed, on, Bool.false_eq_true, if_false]
end
theorem die_lt_of_walk : die < s.dies.length := die_lt_of_ne_reset fun empty => by
  rw [empty] at found
  cases found
end

section
variable {s : State} {die ctx page va : Nat}
theorem length_walkDone : (s.walkDone die ctx page va).dies.length = s.dies.length :=
  (updAt_length ..).trans (aside_dieCount.walkUse s ctx va)
theorem walks_walkDone (there : die < s.dies.length) : ∀ k ∈ ((s.walkDone die ctx page va).die die).walks, ¬(k.ctx = ctx ∧ pageOf k.va = page) := by
  intro k hk
  rw [State.walkDone, die_modDie (there.trans_eq (aside_dieCount.walkUse s ctx va).symm)] at hk
  have gone := (List.mem_filter.1 hk).2
  rintro ⟨rfl, rfl⟩
  simp at gone
theorem mem_walkDone : (s.walkDone die ctx page va).mem = s.mem := walkUse_keeps (p := State.mem) (fun _ _ => rfl) s ctx va
end

theorem pageCards_keeps {α : Type} {π : Die → α} (hπ : ∀ x l, π { x with cards := l } = π x) (s : State) (d x page : Nat) (f : Card → Card) (k : Nat) :
    π ((s.pageCards d x page f).die k) = π (s.die k) := die_modDie_keeps (π := π) (fun _ => hπ ..) s d k
/-- Filling the TLBs of cores leaves the dies. -/
theorem dies_fillTlb (s : State) (d : Nat) (e : TlbEnt) (cores : List Nat) :
    (s.fillTlb d e cores).dies = (s.modDie d (fun x => { x with
      l2tlb := addTlb2 e (x.l2tlb.filter (fun f => !(f.ctx == e.ctx && f.vbase == e.vbase && f.size == e.size))) })).dies :=
  foldl_keeps (p := State.dies) (f := fun s k => s.modCore k (fun c => { c with tlb := (e :: c.tlb.filter (fun f => !(f.ctx == e.ctx && f.vbase == e.vbase && f.size == e.size))).take 256 }))
    (fun _ _ => rfl) cores _
theorem mem_fillTlb (s : State) (d : Nat) (e : TlbEnt) (cores : List Nat) : (s.fillTlb d e cores).mem = s.mem :=
  foldl_keeps (p := State.mem) (f := fun s k => s.modCore k (fun c => { c with tlb := (e :: c.tlb.filter (fun f => !(f.ctx == e.ctx && f.vbase == e.vbase && f.size == e.size))).take 256 }))
    (fun _ _ => rfl) cores _
theorem head?_addTlb2 (e : TlbEnt) (l : List TlbEnt) : (addTlb2 e l).head? = some e := by
  unfold addTlb2
  split
  · rfl
  · split <;> rfl
/-- What a translation found leaves of a die. -/
theorem l2tlb_walkFound {s : State} {die : Nat} (there : die < s.dies.length) (ctx page va : Nat) (e : TlbEnt) :
    ((s.walkFound die ctx page va e).die die).l2tlb.head? = some e := by
  rw [State.walkFound, pageCards_keeps (π := Die.l2tlb) (fun _ _ => rfl), State.setA, State.die]
  dsimp only
  rw [dies_fillTlb]
  exact (congrArg (fun x : Die => x.l2tlb.head?) (die_modDie there)).trans (head?_addTlb2 ..)
theorem walks_walkFound (s : State) (die ctx page va : Nat) (e : TlbEnt) : ((s.walkFound die ctx page va e).die die).walks = (s.die die).walks := by
  rw [State.walkFound, pageCards_keeps (π := Die.walks) (fun _ _ => rfl), State.setA, State.die]
  dsimp only
  rw [dies_fillTlb]
  exact die_modDie_keeps (π := Die.walks) (f := fun x => { x with
    l2tlb := addTlb2 e (x.l2tlb.filter (fun f => !(f.ctx == e.ctx && f.vbase == e.vbase && f.size == e.size))) }) (fun _ => rfl) _ die die
theorem mem_walkFound (s : State) (die ctx page va : Nat) (e : TlbEnt) (b : Nat) :
    SMap.get 0 (s.walkFound die ctx page va e).mem b = if b = e.pteAt va then SMap.get 0 s.mem b ||| 4 else SMap.get 0 s.mem b := by
  have mem : (s.walkFound die ctx page va e).mem = SMap.set 0 s.mem (e.pteAt va) (SMap.get 0 s.mem (e.pteAt va) ||| 4) := by
    show (State.setA _ _).mem = _
    rw [State.setA, mem_fillTlb]
  rw [mem, SMap.get_set]
  split
  · next h => rw [h]
  · rfl

/-! ## Translations of the host's pages (R152, R297) -/

section
variable (s : State) (ctx page : Nat)
theorem pageCards_all_keeps {α : Type} {p : State → α} (hd : ∀ s x, p { s with dies := x } = p s) (x q n : Nat) (f : Card → Card) (s : State) :
    p ((List.range n).foldl (fun s d => s.pageCards d x q f) s) = p s :=
  foldl_keeps (p := p) (f := fun s d => State.pageCards s d x q f) (fun _ _ => hd ..) _ s
/-- The state in which the host's answer is taken. -/
def State.atsTold (s : State) (ctx page : Nat) (ok : Bool) : State :=
  if (s.ctx ctx).devAsked = [] ∧ (s.ctx ctx).refused = [] then s else s.modCtx ctx (Ctx.atsAnswered (atsMark (page * 2 ^ 12)) ok)
theorem atsTold_keeps {α : Type} {p : State → α} (hc : ∀ s x, p { s with ctxs := x } = p s) (ok : Bool) : p (s.atsTold ctx page ok) = p s := by
  unfold State.atsTold
  split
  · rfl
  · exact hc ..
/-- The translation that the host grants (R152). -/
def atsEntry (ctx page host : Nat) (rd wr : Bool) : TlbEnt where
  ctx := ctx
  vbase := page * 2 ^ 12
  size := 4096
  pbase := host % 2 ^ 38 * 2 ^ 12
  shr := .sys
  mig := false
  mir := false
  ro := !wr
  u := rd
  nx := false
  cp := 0
  pte := 0
theorem atsTranslation_granted (host : Nat) (rd wr : Bool) :
    ∃ s2 e, exec (.atsTranslation ctx page host (.granted rd wr)) s = .next s2 ∧ s2.atsFind ctx (page * 4096) = some e ∧ e.pbase = host % 2 ^ 38 * 4096 ∧
      e.size = 4096 ∧ e.ro = !wr ∧ e.u = rd ∧ s2.mem = s.mem := by
  refine ⟨_, atsEntry ctx page host rd wr, rfl, ?_, rfl, rfl, rfl, rfl, ?_⟩
  · rw [State.atsFind, pageCards_all_keeps (p := State.ats) (fun _ _ => rfl)]
    refine List.find?_cons_of_pos ?_
    simp [TlbEnt.covers]
  · rw [pageCards_all_keeps (p := State.mem) (fun _ _ => rfl)]
    exact atsTold_keeps s ctx page (p := State.mem) (fun _ _ => rfl) true
/-- A lane after the host has refused a page. -/
def Lane.refused (page : Nat) (l : Lane) : Lane := if l.st = .parked (.ats page) then { l with st := .ready, declined := some (atsMark (page * 2 ^ 12)) } else l
theorem Lane.refused_st (page : Nat) (l : Lane) : (l.refused page).st ≠ .parked (.ats page) := by
  unfold Lane.refused
  split
  · exact fun h => nomatch h
  · assumption
theorem modLanes_forall {s : State} {q : Team → Bool} {f : Lane → Lane} {P : Lane → Prop} (hf : ∀ l, P (f l)) :
    ∀ t ∈ (s.modLanes q f).teams, q t = true → ∀ g ∈ t.groups, ∀ l ∈ g.lanes, P l := by
  intro t ht on g hg l hl
  obtain ⟨u, _, rfl⟩ := List.mem_map.1 ht
  by_cases h : q u = true
  · rw [if_pos h] at hg
    obtain ⟨g, _, rfl⟩ := List.mem_map.1 hg
    obtain ⟨l, _, rfl⟩ := List.mem_map.1 hl
    exact hf l
  · rw [if_neg h] at on
    exact absurd on h
theorem atsTranslation_refused (host : Nat) :
    ∃ s2, exec (.atsTranslation ctx page host .refused) s = .next s2 ∧ s2.ats = s.ats ∧
      ∀ t ∈ s2.teams, t.ctx = ctx → ∀ g ∈ t.groups, ∀ l ∈ g.lanes, l.st ≠ .parked (.ats page) := by
  refine ⟨_, rfl, ?_, ?_⟩
  · rw [pageCards_all_keeps (p := State.ats) (fun _ _ => rfl)]
    exact atsTold_keeps s ctx page (p := State.ats) (fun _ _ => rfl) false
  · rw [pageCards_all_keeps (p := State.teams) (fun _ _ => rfl)]
    exact fun t ht same => modLanes_forall (f := Lane.refused page) (Lane.refused_st page) t ht (by simpa using same)
theorem atsInvalidation_drops (s : State) (pasid page : Nat) : ∃ s2, exec (.atsInvalidation pasid page) s = .next s2 ∧ { s2 with ats := s.ats, atsInv := s.atsInv } = s ∧
    (∀ e, e ∈ s2.ats ↔ e ∈ s.ats ∧ ¬(s.ctxPasid e.ctx = pasid ∧ e.vbase ≤ page * 4096 ∧ page * 4096 < e.vbase + e.size)) ∧
    ∀ e ∈ s.ats, e ∉ s2.ats → (pasid, e.pbase / 4096) ∈ s2.atsInv := by
  have hit (e : TlbEnt) : (s.ctxPasid e.ctx == pasid && decide (e.vbase ≤ page * 2 ^ 12) && decide (page * 2 ^ 12 < e.vbase + e.size)) = true ↔
      s.ctxPasid e.ctx = pasid ∧ e.vbase ≤ page * 4096 ∧ page * 4096 < e.vbase + e.size := by
    simp [and_assoc]
  refine ⟨_, rfl, rfl, fun e => ?_, fun e he gone => ?_⟩
  · rw [List.mem_filter, Bool.not_eq_true', ← Bool.not_eq_true, hit]
  · refine List.mem_append_right _ (List.mem_map.2 ⟨e, List.mem_filter.2 ⟨he, ?_⟩, rfl⟩)
    by_contra out
    exact gone (List.mem_filter.2 ⟨he, by rw [Bool.not_eq_true', ← Bool.not_eq_true]; exact out⟩)
theorem mem_atsDone (s : State) (i : Nat × Nat) : i ∈ s.atsDone.atsInv ↔ i ∈ s.atsInv ∧ s.ioBusy i.2 = true := by
  unfold State.atsDone
  split
  · next none => simp [none]
  · exact List.mem_filter
end
/-! ## Migration (R147) -/

/-- Room for a line that moves to the slice of a node, with the oldest of its home's migrated lines recalled where its entries are in use. -/
def State.roomFor (s : State) (line : Nat) (r : L2Line) : State :=
  ((if r.req = s.homeNode line ∨ line ∈ (s.die (homeDie (line * 128))).fwd then s else s.recall (homeDie (line * 128)) (s.homeNode line)).roomL2 r.req none).1
theorem mem_roomFor (s : State) (line : Nat) (r : L2Line) : (s.roomFor line r).mem = s.mem := by
  refine (roomL2_keeps (p := State.mem) (fun _ _ => rfl) ..).trans ?_
  split
  · rfl
  · exact recall_keeps (p := State.mem) (fun _ _ => rfl) ..
section
variable {s : State} {line : Nat} {r : L2Line} (found : s.l2Find line = some r)
include found
theorem lineMigration_eq (count : 8 ≤ r.count) (mig : r.mig = true) (far : farNode r.req (r.holder.getD (s.homeNode line)) = true) (free : s.lineHeld line = false)
    (there : (s.roomFor line r).l2Find line ≠ none) : exec (.lineMigration (homeDie (line * 128)) line) s = .next (if r.req = s.homeNode line then (s.roomFor line r).homeL2 line
      else ((s.roomFor line r).modDie (homeDie (line * 128)) (fun x => { x with fwd := x.fwd.filter (fun k => k != line) ++ [line] })).modLine line
        (fun x => { x with holder := some r.req })) := by
  have go : ¬(homeDie (line * 128) ≠ homeDie (line * 128) ∨ r.count < 8 ∨ (!r.mig) = true ∨ (!farNode r.req (r.holder.getD (s.homeNode line))) = true ∨ s.lineHeld line = true) := by
    rw [mig, far, free]
    simp [count]
  have some : ((s.roomFor line r).l2Find line).isNone = false := by rwa [Option.isNone_eq_false_iff, Option.isSome_iff_ne_none]
  unfold State.roomFor at some ⊢
  show execLineMigration (homeDie (line * 128)) line s = _
  rw [execLineMigration, found]
  dsimp only
  simp only [Bool.or_eq_true, decide_eq_true_eq, List.contains_iff_mem]
  rw [if_neg go, some]
  simp only [Bool.false_eq_true, if_false]
theorem lineMigration_moves (count : 8 ≤ r.count) (mig : r.mig = true) (far : farNode r.req (r.holder.getD (s.homeNode line)) = true) (free : s.lineHeld line = false)
    (there : (s.roomFor line r).l2Find line ≠ none) : ∃ s2 r2, exec (.lineMigration (homeDie (line * 128)) line) s = .next s2 ∧ s2.l2Find line = some r2 ∧
      r2.holder = (if r.req = s.homeNode line then none else some r.req) ∧ s2.mem = s.mem := by
  obtain ⟨y, hy⟩ := Option.ne_none_iff_exists'.1 there
  rw [lineMigration_eq found count mig far free there]
  by_cases home : r.req = s.homeNode line
  · rw [if_pos home, if_pos home]
    refine ⟨_, { y with holder := none }, rfl, l2Find_modLine (f := fun r => { r with holder := none }) (fun _ => rfl) ?_, rfl,
      (homeL2_keeps (p := State.mem) (fun _ _ => rfl) ..).trans (mem_roomFor s line r)⟩
    rw [l2Find_fwd (f := fun l => l.filter (fun k => k != line)), hy]
  · rw [if_neg home, if_neg home]
    refine ⟨_, { y with holder := some r.req }, rfl, l2Find_modLine (f := fun x => { x with holder := some r.req }) (fun _ => rfl) ?_, rfl, mem_roomFor s line r⟩
    rw [l2Find_fwd (f := fun l => l.filter (fun k => k != line) ++ [line]), hy]
theorem lineMigration_not (stay : r.count < 8 ∨ r.mig = false) : exec (.lineMigration (homeDie (line * 128)) line) s = .next s := by
  show execLineMigration (homeDie (line * 128)) line s = _
  rw [execLineMigration, found]
  refine congrArg Host.Outcome.next (if_pos ?_)
  rcases stay with few | no
  · exact .inr (.inl few)
  · rw [no]
    exact .inr (.inr (.inl rfl))
end

end Sys2Proof.Machine
end

section
/-! PROOFS. The memory's configuration and writes from outside, event by event (R144-R146, R177, R178, R298, R300-R304, R459). -/
namespace Sys2Proof.Machine

/-! ## The partitions' registers (R144) -/

theorem bar_fitL2 (s : State) (d : Nat) : (s.fitL2 d).bar = s.bar := fitL2_keeps (p := State.bar) (fun _ _ => rfl) s d
theorem bar64_setBar64 {s : State} {o v : Nat} (small : v < 2 ^ 64) : (s.setBar64 o v).bar64 o = v := by
  have low : ((s.setBar o (v % 2 ^ 32)).setBar (o + 4) (v / 2 ^ 32)).bar o = v % 2 ^ 32 := by
    rw [bar_setBar, if_neg (by omega)]
    exact bar_setBar_same (Nat.mod_lt _ (by decide))
  rw [State.bar64, State.setBar64, low, bar_setBar_same (by omega)]
  omega

section
variable {s : State} {die k off v : Nat} (path : s.hostOpen = true) (hd : die < 4) (hk : k < 16)
include path hd hk
theorem partitionWrite_busy {wide : Bool} (reg : off < 0x3C) (aligned : off % (if wide then 8 else 4) = 0) (held : s.partHeld k = true) :
    exec (.partitionWrite die k off v wide) s = .next (s.setBar (partOff die k 0x38) (s.bar (partOff die k 0x38) ||| 2 ^ 15)) :=
  congrArg Host.Outcome.next ((if_pos path).trans ((if_neg (by omega)).trans (if_pos held)))
theorem partitionWrite_mask (reg : off < 0x38) (aligned : off % 8 = 0) (free : s.partHeld k = false) :
    ∃ s2, exec (.partitionWrite die k off v true) s = .next s2 ∧ s2.bar64 (partOff die k off) = v % 2 ^ 52 / 2 ^ 7 * 2 ^ 7 := by
  have busy : ¬s.partHeld k = true := by rw [free]; decide
  have go : ¬(4 ≤ die ∨ 16 ≤ k ∨ 0x3C ≤ off ∨ off % 8 ≠ 0) := by omega
  have same : off / 8 * 8 = off := by omega
  refine ⟨(s.setBar64 (partOff die k (off / 8 * 8)) (over64 (s.bar64 (partOff die k (off / 8 * 8))) off v true % 2 ^ 52 / 2 ^ 7 * 2 ^ 7)).fitL2 die,
    congrArg Host.Outcome.next ((if_pos path).trans ((if_neg go).trans ((if_neg busy).trans (if_pos reg)))), ?_⟩
  rw [State.bar64, bar_fitL2, ← State.bar64, same, bar64_setBar64]
  · show v % 2 ^ 64 % 2 ^ 52 / 2 ^ 7 * 2 ^ 7 = _
    rw [Nat.mod_mod_of_dvd _ (by decide)]
  · exact (Nat.div_mul_le_self _ _).trans_lt ((Nat.mod_lt _ (by decide)).trans (by decide))
theorem partitionWrite_pctl (free : s.partHeld k = false) : exec (.partitionWrite die k 0x38 v false) s = .next (s.writePctl die k (v % 2 ^ 32)) := by
  have busy : ¬s.partHeld k = true := by rw [free]; decide
  have go : ¬(4 ≤ die ∨ 16 ≤ k ∨ 0x3C ≤ 0x38 ∨ 0x38 % 4 ≠ 0) := by omega
  exact congrArg Host.Outcome.next ((if_pos path).trans ((if_neg go).trans ((if_neg busy).trans (if_neg (by decide)))))
end
theorem enable_bit {v : Nat} (on : v.testBit 14 = true) : bitsAt (v % 2 ^ 32) 14 1 = 1 := by
  rw [Nat.testBit_eq_decide_div_mod_eq, decide_eq_true_eq] at on
  unfold bitsAt
  omega
section
variable {s : State} {die k v : Nat} (on : v.testBit 14 = true)
include on
theorem writePctl_refused (dep : independent ((List.range 7).map (s.shMask die k)) = false) :
    s.writePctl die k (v % 2 ^ 32) = s.setBar (partOff die k 0x38) (s.bar (partOff die k 0x38) ||| 2 ^ 16) :=
  if_pos ⟨enable_bit on, by rw [dep]; rfl⟩
theorem writePctl_enables (size : bitsAt v 8 3 ≠ 7) (ind : independent ((List.range 7).map (s.shMask die k)) = true) :
    (s.writePctl die k (v % 2 ^ 32)).partEn die k = true ∧ (s.writePctl die k (v % 2 ^ 32)).padStep die k = bitsAt v 8 3 ∧
    (s.writePctl die k (v % 2 ^ 32)).shc die k = bitsAt v 0 7 := by
  have fields : bitsAt (v % 2 ^ 32) 0 7 = bitsAt v 0 7 ∧ bitsAt (v % 2 ^ 32) 8 3 = bitsAt v 8 3 := by
    unfold bitsAt
    omega
  have go : ¬(bitsAt (v % 2 ^ 32) 14 1 = 1 ∧ (!independent ((List.range 7).map (s.shMask die k))) = true) := by
    rw [ind]
    exact fun h => absurd h.2 (by decide)
  obtain ⟨keep, few, word⟩ : ∃ keep < 4, (s.writePctl die k (v % 2 ^ 32)).bar (partOff die k 0x38) = bitsAt v 0 7 + bitsAt v 8 3 * 2 ^ 8 + 1 * 2 ^ 14 + keep * 2 ^ 15 := by
    have b0 := bitsAt_lt v 0 7
    have b8 := bitsAt_lt v 8 3
    have old := bitsAt_lt (s.bar (partOff die k 0x38)) 15 2
    refine ⟨bitsAt (s.bar (partOff die k 0x38)) 15 2 - Nat.land (bitsAt (s.bar (partOff die k 0x38)) 15 2) (bitsAt (v % 2 ^ 32) 15 2), by omega, ?_⟩
    rw [State.writePctl, if_neg go]
    dsimp only
    simp only [bar_fitL2, fields.1, fields.2, enable_bit on, if_neg size]
    exact bar_setBar_same (by omega)
  have b0 := bitsAt_lt v 0 7
  have b8 := bitsAt_lt v 8 3
  refine ⟨?_, ?_, ?_⟩
  · rw [State.partEn, word, beq_iff_eq]
    generalize bitsAt v 0 7 = x, bitsAt v 8 3 = y at *
    unfold bitsAt
    omega
  · rw [State.padStep, word]
    generalize bitsAt v 0 7 = x, bitsAt v 8 3 = y at *
    unfold bitsAt
    omega
  · rw [State.shc, word]
    generalize bitsAt v 0 7 = x, bitsAt v 8 3 = y at *
    unfold bitsAt
    omega
end

/-! ## The granule map, the mirror, and the peer map (R145, R146, R459) -/

theorem granuleMapWrite_moves {s : State} {die off v : Nat} (path : s.hostOpen = true) (hd : die < 4) (there : die < s.dies.length) (reg : off < 0x48)
    (aligned : off % 4 = 0) : ∃ s2, exec (.granuleMapWrite die off v) s = .next s2 ∧ (0x0011_0000 + off, v % 2 ^ 32) ∈ (s2.die die).remap ∧ s2.bar0 = s.bar0 ∧
      s2.mem = s.mem ∧ ∀ r ∈ (s2.die die).l2, s.homeMoves die off (v % 2 ^ 32) r.line = false := by
  have word : (if off = 0x48 then v % 16 else v % 2 ^ 32) = v % 2 ^ 32 := if_neg (by omega)
  refine ⟨s.modDie die (fun x => { x with
      l2 := x.l2.filter (fun r => !s.homeMoves die off (v % 2 ^ 32) r.line)
      fwd := x.fwd.filter (fun k => !s.homeMoves die off (v % 2 ^ 32) k)
      remap := x.remap.filter (fun r => r.1 != 0x0011_0000 + off) ++ [(0x0011_0000 + off, v % 2 ^ 32)] }), ?_, ?_, rfl, rfl, ?_⟩
  · refine congrArg Host.Outcome.next ((if_pos path).trans ((if_neg (by omega)).trans ?_))
    dsimp only
    rw [word]
  · rw [die_modDie there]
    exact List.mem_append_right _ (List.mem_singleton_self _)
  · intro r hr
    rw [die_modDie there] at hr
    simpa using (List.mem_filter.1 hr).2
theorem granuleRemap_applies {s : State} {die off w : Nat} (one : (s.die die).remap = [(off, w)]) :
    ∃ s2, exec (.granuleRemapComplete die) s = .next s2 ∧ s2.bar (dieOff die off) = w % 2 ^ 32 ∧ (s2.die die).remap = [] := by
  have there : die < s.dies.length := die_lt_of_ne_reset fun empty => by
    rw [empty] at one
    cases one
  refine ⟨(s.setBar (dieOff die off) w).modDie die (fun x => { x with remap := [] }), ?_, ?_, ?_⟩
  · show execGranuleRemapComplete die s = _
    rw [execGranuleRemapComplete, one]
    rfl
  · exact (bar_setBar ..).trans (if_pos rfl)
  · rw [die_modDie (s := s.setBar (dieOff die off) w) there]
theorem mirrorSizeWrite_eq {s : State} {die v : Nat} (path : s.hostOpen = true) : exec (.mirrorSizeWrite die v) s = .next (s.writeMirror die v) :=
  congrArg Host.Outcome.next (if_pos path)
theorem any_ctxEn {s : State} : (List.range 1024).any s.ctxEn = true ↔ ∃ x < 1024, s.ctxEn x = true := by simp
theorem mirrorSizeWrite_writes {s : State} {die v : Nat} (path : s.hostOpen = true) (hd : die < 4) (idle : ∀ x < 1024, s.ctxEn x = false) (size : v % 128 ≤ 72) :
    ∃ s2, exec (.mirrorSizeWrite die v) s = .next s2 ∧ s2.bar (dieOff die 0x0011_004C) = v % 128 := by
  refine ⟨s.setBar (dieOff die 0x0011_004C) (v % 2 ^ 7), (mirrorSizeWrite_eq path).trans (congrArg Host.Outcome.next (if_neg ?_)), bar_setBar_same (by omega)⟩
  rintro (h | h | h)
  · omega
  · omega
  · obtain ⟨x, hx, on⟩ := any_ctxEn.1 h
    rw [idle x hx] at on
    cases on
theorem mirrorSizeWrite_not {s : State} {die v : Nat} (path : s.hostOpen = true) (no : (∃ x < 1024, s.ctxEn x = true) ∨ 72 < v % 128) :
    exec (.mirrorSizeWrite die v) s = .next s :=
  (mirrorSizeWrite_eq path).trans (congrArg Host.Outcome.next (if_pos (.inr (no.symm.imp_right any_ctxEn.2))))
theorem peerMapWrite_entry {s : State} {off v : Nat} (aligned : off % 4 = 0) (reg : off < 0x80) :
    ∃ s2, exec (.peerMapWrite off v) s = .next s2 ∧ s2.bar (0x0090_0000 + off) = v % 2 ^ 32 :=
  ⟨s.setBar (0x0090_0000 + off) (v % 2 ^ 32), congrArg Host.Outcome.next ((if_neg (by omega)).trans (if_neg (by omega))), bar_setBar_same (Nat.mod_lt _ (by decide))⟩
theorem peerMapWrite_count {s : State} {v : Nat} : ∃ s2, exec (.peerMapWrite 0x80 v) s = .next s2 ∧ s2.bar 0x0090_0080 = v % 2 ^ 11 :=
  ⟨s.setBar 0x0090_0080 (v % 2 ^ 11), congrArg Host.Outcome.next ((if_neg (by decide)).trans (if_pos rfl)), bar_setBar_same ((Nat.mod_lt _ (by decide)).trans (by decide))⟩

/-! ## Writes from outside (R177, R178, R301, R304) -/

section
variable {s : State} {pa pkg qp : Nat} {bs : List Byte}
theorem snoop_own {s : State} {pa : Nat} (own : pa / 2 ^ 50 < 2) : s.snoop pa = s := if_pos own
theorem hostPostedWrite_lands (path : s.hostOpen = true) (fits : pa + bs.length ≤ 2 ^ 50) (ok : s.outsideOk pa bs.length true = true) :
    exec (.hostPostedWrite pa bs) s = .next (s.outsideWrite pa bs) := by
  have go : ¬(!s.hostOpen) = true := by rw [path]; decide
  have snoops (l : List (Nat × Nat)) (inside : ∀ q ∈ l, q.1 ≤ 2 ^ 50) (s : State) : l.foldl (fun s p => s.snoop p.1) s = s := by
    induction l generalizing s with
    | nil => rfl
    | cons q r ih =>
      rw [List.foldl_cons, snoop_own (by have := inside q List.mem_cons_self; omega), ih fun q hq => inside q (List.mem_cons_of_mem _ hq)]
  refine congrArg Host.Outcome.next ((if_neg go).trans ((if_pos ok).trans (snoops _ (fun q hq => ?_) _)))
  have := splitAt'_within (by decide) hq
  omega
theorem rdmaWrite_lands (inside : pa < 2 ^ 50) (hq : qp < 65536) (bound : SMap.get 0 s.qps qp ≠ 0) (ok : s.outsideOk pa bs.length true = true) :
    exec (.rdmaWrite qp (.write pa) bs) s = .next (s.outsideWrite pa bs) :=
  congrArg Host.Outcome.next ((if_neg (by omega)).trans ((if_neg (by omega)).trans (if_pos ok)))
theorem rdmaWrite_unbound (hq : qp < 65536) (free : SMap.get 0 s.qps qp = 0) : exec (.rdmaWrite qp (.write pa) bs) s = .next s :=
  congrArg Host.Outcome.next ((if_neg (by omega)).trans (if_pos (.inl free)))
theorem rdmaWrite_binds {x : Nat} (hq : qp < 65536) (path : s.hostOpen = true) (hx : x < 1024) :
    exec (.rdmaWrite qp (.bind x) bs) s = .next { s with qps := SMap.set 0 s.qps qp (x + 1) } :=
  congrArg Host.Outcome.next ((if_neg (by omega)).trans (if_pos (by rw [path, decide_eq_true hx]; rfl)))
theorem peer_silent {req : Remote} (down : s.ports.any (fun p => p.up && p.key.isSome) = false) : exec (.enmerRemoteRequest pkg req) s = .next s :=
  congrArg Host.Outcome.next (if_pos (by rw [down]; rfl))
section
variable (up : s.ports.any (fun p => p.up && p.key.isSome) = true)
include up
theorem peer_store (inside : pa < 2 ^ 50) (ok : s.outsideOk pa bs.length true = true) :
    exec (.enmerRemoteRequest pkg (.store pa bs)) s = .next (s.outsideWrite pa bs) :=
  congrArg Host.Outcome.next ((if_neg (by rw [up]; decide)).trans ((if_neg (by omega)).trans (if_pos ok)))
theorem peer_home (peer : pa / 2 ^ 50 = 1) (last : (pa + bs.length) / 2 ^ 50 = 1) (home : pa / 2 ^ 40 % 1024 = pkg)
    (links : ∀ p ∈ splitAt' 128 pa bs.length, s.linkOpen (p.1 / 128) = true) : exec (.enmerRemoteRequest pkg (.home pa bs)) s =
      .next ((splitAt' 128 pa bs.length).foldl (fun s p => s.purge p.1) (s.outsideWrite pa bs)) :=
  congrArg Host.Outcome.next ((if_neg (by rw [up]; decide)).trans (if_pos ⟨peer, last, home, List.all_eq_true.2 links⟩))
end

/-! ## Reads from outside -/

section
variable {s : State} {pa n : Nat} (sound : ∀ d ∈ s.dies, d.lost = [])
include sound
theorem lost_nil (d : Nat) : (s.die d).lost = [] := by
  unfold State.die
  cases h : s.dies[d]? with
  | none => rfl
  | some x => exact sound x (List.mem_of_getElem? h)
theorem lostIn_sound (ps : List (Loc × Nat)) : s.lostIn ps = false := by
  unfold State.lostIn
  rw [List.any_eq_false]
  intro p _
  split
  · rw [lost_nil sound]
    simp
  · simp
  · simp
theorem fromMirror_sound (ps : List (Loc × Nat)) : s.fromMirror ps = s := by
  unfold State.fromMirror
  induction ps with
  | nil => rfl
  | cons p r ih =>
    rw [List.foldl_cons]
    split
    · rw [lost_nil sound, if_neg (by simp)]
      exact ih
    · exact ih
theorem outsideRead_sound : s.outsideRead pa n = s.memBytes pa n := by
  unfold State.outsideRead
  dsimp only
  rw [lostIn_sound sound, if_neg (by decide), fromMirror_sound sound]
/-- A read from outside uses its channels, and leaves what reads nothing of the dies. -/
theorem outsideTouch_keeps {α : Type} {p : State → α} (hd : ∀ s x, p { s with dies := x } = p s) : p (s.outsideTouch pa n) = p s := by
  unfold State.outsideTouch
  dsimp only
  rw [lostIn_sound sound, if_neg (by decide), fromMirror_sound sound]
  exact foldl_keeps (p := p) (f := fun s (q : Loc × Nat) => s.useLine q.1.at) (fun _ _ => useLine_keeps hd ..) _ s
theorem hostRead_reads (path : s.hostOpen = true) (ok : s.outsideOk pa n false = true) :
    ∃ s2, exec (.hostRead pa n) s = .next s2 ∧ s2.reply = s.memBytes pa n ∧ s2.mem = s.mem ∧ s2.teams = s.teams :=
  ⟨{ s.outsideTouch pa n with reply := s.outsideRead pa n }, congrArg Host.Outcome.next ((if_neg (by rw [path]; decide)).trans (if_pos ok)), outsideRead_sound sound,
    outsideTouch_keeps sound (p := State.mem) (fun _ _ => rfl), outsideTouch_keeps sound (p := State.teams) (fun _ _ => rfl)⟩
/-- The lines that a peer's read enters in the directory. -/
def State.peerLines (s : State) (pkg pa n : Nat) : List (Nat × Nat) :=
  ((splitAt' 128 pa n).map (fun p => (p.1 / 128, pkg))).filter (fun r => !s.readers.contains r)
section
variable (up : s.ports.any (fun p => p.up && p.key.isSome) = true)
include up
theorem peer_load (inside : pa < 2 ^ 50) (ok : s.outsideOk pa n false = true) :
    ∃ s2, exec (.enmerRemoteRequest pkg (.load pa n)) s = .next s2 ∧ s2.reply = s.memBytes pa n ∧ s2.mem = s.mem ∧
      ∀ p ∈ splitAt' 128 pa n, (p.1 / 128, pkg) ∈ s2.readers := by
  refine ⟨{ s.outsideTouch pa n with reply := s.outsideRead pa n, readers := s.readers ++ s.peerLines pkg pa n },
    congrArg Host.Outcome.next ((if_neg (by rw [up]; decide)).trans ((if_neg (by omega)).trans (if_pos ok))), outsideRead_sound sound,
    outsideTouch_keeps sound (p := State.mem) (fun _ _ => rfl), fun p hp => ?_⟩
  by_cases known : (p.1 / 128, pkg) ∈ s.readers
  · exact List.mem_append_left _ known
  · exact List.mem_append_right _ (List.mem_filter.2 ⟨List.mem_map.2 ⟨p, hp, rfl⟩, by simpa using known⟩)
theorem peer_atomic {op b c : Nat} {ty : Ty} (inside : pa < 2 ^ 50) (aligned : pa % atomWidth op ty = 0) (ok : s.outsideOk pa (atomWidth op ty) true = true) :
    ∃ s2, exec (.enmerRemoteRequest pkg (.atomic pa op ty b c)) s = .next s2 ∧ s2.reply = leBytes (atomWidth op ty) (s.memNat pa (atomWidth op ty)) ∧
      s2.mem = (s.outsideWrite pa (leBytes (atomWidth op ty) (atomNew op ty none (s.memNat pa (atomWidth op ty)) b c))).mem := by
  have mem : (s.outsideTouch pa (atomWidth op ty)).mem = s.mem := outsideTouch_keeps sound (p := State.mem) (fun _ _ => rfl)
  have old : (s.outsideTouch pa (atomWidth op ty)).memNat pa (atomWidth op ty) = s.memNat pa (atomWidth op ty) :=
    outsideTouch_keeps sound (p := fun s => s.memNat pa (atomWidth op ty)) (fun _ _ => rfl)
  have bars : (s.outsideTouch pa (atomWidth op ty)).bar = s.bar := outsideTouch_keeps sound (p := State.bar) (fun _ _ => rfl)
  refine ⟨_, congrArg Host.Outcome.next ((if_neg (by rw [up]; decide)).trans ((if_neg (by omega)).trans ((if_pos ok).trans
    (if_neg (by rw [lostIn_sound sound]; decide))))), congrArg (leBytes _) old, ?_⟩
  rw [← old]
  exact outsideWrite_congr mem bars ..
end
end
end

/-! ## Links (R300, R302) -/

section
variable {s : State} {port : Nat} {p : Port}
theorem flit_carried (up : p.up = true) (key : p.key ≠ none) (auth : Bool) : p.flit true auth =
    if auth then { p with fails := 0 } else { p with fails := if 2 ≤ p.fails then 0 else p.fails + 1, up := decide (p.fails < 2) } := by
  have keyed : p.key.isNone = false := by simpa [Option.isSome_iff_ne_none] using key
  unfold Port.flit
  rw [up, keyed]
  rfl
theorem port_flit (here : s.ports[port]? = some p) (crc auth : Bool) : (updAt s.ports port (Port.flit crc auth))[port]? = some (p.flit crc auth) := by
  rw [updAt_getElem?, if_pos rfl, here]
  rfl
variable (here : s.ports[port]? = some p) (up : p.up = true) (key : p.key ≠ none)
include here up key
/-- A flit at a port that carries traffic. -/
theorem flit_eq (crc auth : Bool) : exec (.enmerFlitReceive port crc auth) s = .next (
    if !(crc && auth) then ({ s with ports := updAt s.ports port (Port.flit crc auth) } : State).countRetry port
    else { s with ports := updAt s.ports port (Port.flit crc auth) }) := by
  have keyed : p.key.isSome = true := Option.isSome_iff_ne_none.2 key
  show execEnmerFlitReceive port crc auth s = _
  rw [execEnmerFlitReceive, here]
  simp only [up, keyed, Bool.true_and]
theorem flit_good : ∃ s2, exec (.enmerFlitReceive port true true) s = .next s2 ∧ s2.ports[port]? = some { p with fails := 0 } ∧ s2.live = s.live :=
  ⟨_, flit_eq here up key true true, (port_flit here true true).trans (congrArg some (flit_carried up key true)), rfl⟩
theorem flit_forged {q : Port} (next : p.flit true false = q) : ∃ s2, exec (.enmerFlitReceive port true false) s = .next s2 ∧ s2.ports[port]? = some q :=
  ⟨_, flit_eq here up key true false, (port_flit here true false).trans (congrArg some next)⟩
theorem flit_broken (auth : Bool) : ∃ s2, exec (.enmerFlitReceive port false auth) s = .next s2 ∧ s2.ports[port]? = some p ∧
    SMap.get 0 s2.live.linkrt port = min (SMap.get 0 s.live.linkrt port + 1) (2 ^ 64 - 1) := by
  refine ⟨_, flit_eq here up key false auth, (port_flit here false auth).trans (congrArg some ?_), countRetry_counts ..⟩
  unfold Port.flit
  simp
end

/-- Settles O55: each event's lemma above. Lines that leave the L2 change no memory, and the pieces of a write from outside cover its range and nothing else. -/
theorem memoryEventsComplete : Obligations.MemoryEventsComplete := by
  unfold Obligations.MemoryEventsComplete
  refine ⟨?walks, fun s ctx page host rd wr => ⟨atsTranslation_granted s ctx page host rd wr, atsTranslation_refused s ctx page host⟩, atsInvalidation_drops, mem_atsDone,
    ?lines, ?partitions, fun s die off v => granuleMapWrite_moves, fun s die off w => granuleRemap_applies,
    fun s die v path hd => ⟨mirrorSizeWrite_writes path hd, mirrorSizeWrite_not path⟩, ?peers, ?writes,
    fun s qp x pa bs hq => ⟨rdmaWrite_unbound hq, rdmaWrite_binds hq⟩, ?homes, ?reads, ?snoop, ?links⟩
  case walks =>
    rintro s s1 die ctx page w found rfl
    have there := die_lt_of_walk found
    refine ⟨pageWalkComplete_held found, fun e free whole ok => ⟨_, pageWalkComplete_ok found free whole ok, l2tlb_walkFound (there.trans_eq length_walkDone.symm) .., ?_, fun b => ?_⟩,
      pageWalkComplete_absent found, ?_⟩
    · rw [walks_walkFound]
      exact walks_walkDone there
    · rw [mem_walkFound, mem_walkDone]
    · rintro cause free (⟨lost, rfl⟩ | ⟨whole, fail, rfl⟩)
      · exact pageWalkComplete_lost found free lost
      · exact pageWalkComplete_fail found free whole fail
  case lines =>
    intro s line r found
    refine ⟨?_, lineMigration_not found⟩
    rintro count mig far free s1 rfl there
    exact lineMigration_moves found count mig far free there
  case partitions =>
    intro s die k off v wide path hd hk
    refine ⟨partitionWrite_busy path hd hk, partitionWrite_mask path hd hk, fun free on dep => ?_, fun free on size ind => ⟨_, partitionWrite_pctl path hd hk free, writePctl_enables on size ind⟩⟩
    rw [partitionWrite_pctl path hd hk free, writePctl_refused on dep]
  case peers =>
    refine fun s off v aligned => ⟨peerMapWrite_entry aligned, ?_⟩
    rintro rfl
    exact peerMapWrite_count
  case writes =>
    exact fun s pa pkg qp bs fits ok => ⟨fun _ path => hostPostedWrite_lands path fits ok, fun inside hq bound => rdmaWrite_lands inside hq bound ok,
      fun inside up => peer_store up inside ok, fun plain b => mem_outsideWrite plain pa bs b⟩
  case homes =>
    exact fun s pkg pa bs req => ⟨peer_silent, fun up peer last home links => ⟨_, peer_home up peer last home links, rfl, fun q hq => l2Find_purges _ _ q hq⟩⟩
  case reads =>
    exact fun s pa n pkg op b c ty => ⟨fun ok path sound => hostRead_reads sound path ok, fun up inside ok sound => peer_load sound up inside ok,
      fun up inside aligned ok sound => peer_atomic sound up inside aligned ok⟩
  case snoop =>
    intro s pa path host
    exact ⟨s.purge pa, congrArg Host.Outcome.next ((if_pos path).trans (if_neg (by omega))), rfl, lines_purge s pa⟩
  case links =>
    intro s port p here up key
    refine ⟨flit_good here up key, fun few => flit_forged here up key ?_, fun last => flit_forged here up key ?_, flit_broken here up key⟩
    · rw [flit_carried up key, if_neg (by decide), if_neg (by omega), decide_eq_true few, up]
    · rw [flit_carried up key, if_neg (by decide), if_pos (by omega), decide_eq_false (by omega)]

end Sys2Proof.Machine
end

section
/-! PROOFS. Round ends, and job cards (R134, R201-R207, R217-R222, R230). -/
namespace Sys2Proof.Machine

/-! ## Round ends (R203) -/

/-- No team of an identity that is present halts. -/
theorem not_halted {s : State} {tid : Nat} (h : ∀ u, s.team? tid = some u → u.halt = none) : ((s.team? tid).bind (·.halt)).isSome = false := by
  cases e : s.team? tid with
  | none => rfl
  | some u => exact congrArg Option.isSome (h u e)

section
variable {s s1 s2 s3 : State} {tid : Nat} {t : Team} (team : s.team? tid = some t)
include team
theorem roundEnd_not (no : t.roundOver = false ∨ 3 ≤ t.roundStep) : exec (.roundEnd tid) s = .next s := by
  show execRoundEnd tid s = _
  rw [execRoundEnd, team]
  refine congrArg Host.Outcome.next (if_pos ?_)
  rcases no with no | late
  · rw [no]
    rfl
  · rw [decide_eq_true late, Bool.or_true]
theorem roundEnd_first (ends : t.roundOver = true) (step : t.roundStep = 0) (committed : ∀ u, (s.commitGroups tid t.groups.length).team? tid = some u → u.halt = none)
    (counted : ∀ u, (((s.commitGroups tid t.groups.length).countLnxt tid).modTeam tid (Team.atStep 1)).team? tid = some u → u.halt = none)
    (two : State.runEnds true tid t.groups.length 0 (((s.commitGroups tid t.groups.length).countLnxt tid).modTeam tid (Team.atStep 1)) = (s2, true))
    (three : State.runEnds false tid t.groups.length 0 (s2.modTeam tid (Team.atStep 2)) = (s3, true)) :
    exec (.roundEnd tid) s = .next ((s3.testBars tid).modTeam tid (Team.atStep 3)) := by
  show execRoundEnd tid s = _
  rw [execRoundEnd, team]
  have early : decide (3 ≤ 0) = false := rfl
  simp only [ends, step, early, not_halted committed, not_halted counted, two, three, Bool.not_true, Bool.or_false, Bool.false_eq_true, if_false, if_true, Nat.ofNat_pos]
theorem roundEnd_second (ends : t.roundOver = true) (step : t.roundStep = 1) (on : t.halt = none) (two : State.runEnds true tid t.groups.length 0 s = (s2, true))
    (three : State.runEnds false tid t.groups.length 0 (s2.modTeam tid (Team.atStep 2)) = (s3, true)) :
    exec (.roundEnd tid) s = .next ((s3.testBars tid).modTeam tid (Team.atStep 3)) := by
  show execRoundEnd tid s = _
  rw [execRoundEnd]
  simp [ends, step, on, two, three, team]
theorem roundEnd_third (ends : t.roundOver = true) (step : t.roundStep = 2) (on : t.halt = none)
    (three : State.runEnds false tid t.groups.length 0 (s.modTeam tid (Team.atStep 2)) = (s3, true)) :
    exec (.roundEnd tid) s = .next ((s3.testBars tid).modTeam tid (Team.atStep 3)) := by
  show execRoundEnd tid s = _
  rw [execRoundEnd]
  simp [ends, step, on, three, team]
theorem roundResume_eq (step : t.roundStep = 3) (busy : t.idle = false) (quiet : t.chanq = []) (done : ∀ g ∈ t.groups, g.ended = none ∨ ∀ l ∈ g.lanes, l.st.ends = false) :
    exec (.roundResume tid) s = .next (
      if (((t.ewts.foldl (fun s e => s.joinCards tid e.1 e.2.1 e.2.2) s).team? tid).bind (·.halt)).isSome then t.ewts.foldl (fun s e => s.joinCards tid e.1 e.2.1 e.2.2) s
      else (t.ewts.foldl (fun s e => s.ewtAcquire t e.1 e.2.2) (t.ewts.foldl (fun s e => s.joinCards tid e.1 e.2.1 e.2.2) s)).modTeam tid (fun t =>
        { t with groups := t.groups.map Group.resume, round := t.round + 1, roundStep := 0 })) := by
  have groups : t.groups.all (fun g => g.ended.isNone || g.lanes.all (fun l => !l.st.ends)) = true := by
    simpa using done
  show execRoundResume tid s = _
  rw [execRoundResume, team]
  exact congrArg Host.Outcome.next (if_pos ⟨step, by rw [busy]; rfl, quiet, groups⟩)
theorem roundResume_alone (step : t.roundStep = 3) (busy : t.idle = false) (quiet : t.chanq = []) (done : ∀ g ∈ t.groups, g.ended = none ∨ ∀ l ∈ g.lanes, l.st.ends = false)
    (alone : t.ewts = []) : ∃ u, exec (.roundResume tid) s = .next u ∧
      u.team? tid = some { t with groups := t.groups.map Group.resume, round := t.round + 1, roundStep := 0 } := by
  have on : t.halt = none := by
    rw [Team.idle, Bool.or_eq_false_iff] at busy
    simpa using busy.1
  refine ⟨s.modTeam tid (fun t => { t with groups := t.groups.map Group.resume, round := t.round + 1, roundStep := 0 }), ?_, ?_⟩
  · rw [roundResume_eq team step busy quiet done, alone]
    refine congrArg Host.Outcome.next (if_neg ?_)
    rw [List.foldl_nil, team]
    simp [on]
  · rw [team?_modTeam (f := fun t => { t with groups := t.groups.map Group.resume, round := t.round + 1, roundStep := 0 }) (fun _ => rfl), team]
    rfl
theorem roundResume_joins (step : t.roundStep = 3) (busy : t.idle = false) (quiet : t.chanq = []) (done : ∀ g ∈ t.groups, g.ended = none ∨ ∀ l ∈ g.lanes, l.st.ends = false)
    (on : ∀ u, (t.ewts.foldl (fun s e => s.joinCards tid e.1 e.2.1 e.2.2) s).team? tid = some u → u.halt = none) :
    exec (.roundResume tid) s = .next ((t.ewts.foldl (fun s e => s.ewtAcquire t e.1 e.2.2) (t.ewts.foldl (fun s e => s.joinCards tid e.1 e.2.1 e.2.2) s)).modTeam tid (fun t =>
        { t with groups := t.groups.map Group.resume, round := t.round + 1, roundStep := 0 })) := by
  rw [roundResume_eq team step busy quiet done]
  exact congrArg Host.Outcome.next (if_neg (by rw [not_halted on]; decide))
end

/-! ## Job cards (R134, R217-R221) -/

section
variable {s : State} {die cid : Nat} {c : Card} (card : s.card? die cid = some c)
include card
theorem cardStart_starts {ls : List Landing} {s' : State} (kind : kindOf c.words ≠ 7) (ready : s.cardReady die c = true) (admitted : s.cardAdmitted die c = true)
    (work : (engWork c).run s = .ok (ls, s')) : exec (.cardStart die cid) s = .next ((s'.runCard die c ls).admitted die (1, cid)) := by
  show execCardStart die cid s = _
  rw [execCardStart, card]
  dsimp only
  simp only [ready, admitted, decide_eq_true kind, Bool.and_true, if_true, work]
theorem cardComplete_eq (run : c.st = .running) (sound : c.fail = none) (free : s.landHeld c.land = false) : exec (.cardComplete die cid) s = .next (
    if c.succ.isSome then (c.pres.foldl (State.modCnt cntLand) (s.landCard die c c.land)).modCard die cid
        (fun k => { k.succeed with since := ((c.pres.foldl (State.modCnt cntLand) (s.landCard die c c.land)).die die).time })
      else (match c.tid with
        | some t => (c.pres.foldl (State.modCnt cntLand) (s.landCard die c c.land)).modTicket t c.slot c.seq (fun k => { k with busy := false })
        | none => c.pres.foldl (State.modCnt cntLand) (s.landCard die c c.land)).leaveCard c) := by
  have go : ¬(c.st ≠ .running ∨ c.fail.isSome = true ∨ s.landHeld c.land = true) := by
    rw [run, sound, free]
    decide
  show execCardComplete die cid s = _
  rw [execCardComplete, card]
  exact congrArg Host.Outcome.next (if_neg go)
theorem cardComplete_last (run : c.st = .running) (sound : c.fail = none) (free : s.landHeld c.land = false) (last : c.succ = none) (lines : c.pres = []) :
    exec (.cardComplete die cid) s = .next (((match c.tid with
        | some t => (s.landCard die c c.land).modTicket t c.slot c.seq (fun k => { k with busy := false })
        | none => s.landCard die c c.land)).leaveCard c) := by
  rw [cardComplete_eq card run sound free, last, lines]
  rfl
theorem cardComplete_next (run : c.st = .running) (sound : c.fail = none) (free : s.landHeld c.land = false) (more : c.succ ≠ none) :
    exec (.cardComplete die cid) s = .next ((c.pres.foldl (State.modCnt cntLand) (s.landCard die c c.land)).modCard die cid
        (fun k => { k.succeed with since := ((c.pres.foldl (State.modCnt cntLand) (s.landCard die c c.land)).die die).time })) :=
  (cardComplete_eq card run sound free).trans (congrArg Host.Outcome.next (if_pos (Option.isSome_iff_ne_none.2 more)))
section
variable {line : LineAt} (run : c.st = .running) (sound : c.fail = none) (some' : (c.splitLine line).1 ≠ []) (free : s.landHeld (c.splitLine line).1 = false)
include run sound some' free
theorem cardLineLanded_eq : exec (.cardLineLanded die cid line) s = .next (match lineKey line with
    | some k => (if c.pres.contains k then (s.landCard die c (c.splitLine line).1).modCnt cntLand k else s.landCard die c (c.splitLine line).1).modCard die cid
        (fun j => { j with land := (c.splitLine line).2, pres := j.pres.erase k })
    | none => (s.landCard die c (c.splitLine line).1).modCard die cid (fun k => { k with land := (c.splitLine line).2 })) := by
  have go : ¬(c.st ≠ .running ∨ c.fail.isSome = true ∨ (c.splitLine line).1 = [] ∨ s.landHeld (c.splitLine line).1 = true) := by
    rw [run, sound, free]
    simp [some']
  show execCardLineLanded die cid line s = _
  rw [execCardLineLanded, card]
  exact congrArg Host.Outcome.next (if_neg go)
theorem cardLineLanded_plain (plain : lineKey line = none) : exec (.cardLineLanded die cid line) s =
    .next ((s.landCard die c (c.splitLine line).1).modCard die cid (fun k => { k with land := (c.splitLine line).2 })) := by
  rw [cardLineLanded_eq card run sound some' free, plain]
theorem cardLineLanded_counted {k : Nat × Nat} (key : lineKey line = some k) (counted : k ∈ c.pres) : exec (.cardLineLanded die cid line) s =
    .next (((s.landCard die c (c.splitLine line).1).modCnt cntLand k).modCard die cid (fun j => { j with land := (c.splitLine line).2, pres := j.pres.erase k })) := by
  rw [cardLineLanded_eq card run sound some' free, key]
  dsimp only
  rw [if_pos (List.contains_iff_mem.2 counted)]
end
theorem cardFail_fails {cause a t : Nat} (failed : c.fail = some (cause, a)) (team : c.tid = some t) (own : c.node = none) :
    exec (.cardFail die cid) s = .next (((s.leaveCard c).modTicket t c.slot c.seq (fun k => { k with busy := false, failed := true })).raiseAny t [c.gi] c.pc (32 * c.gi)
      { code := causeCode cause, cause := cause, addr := a, ticket := c.ticket }) := by
  show execCardFail die cid s = _
  rw [execCardFail, card]
  dsimp only
  rw [failed, own]
  dsimp only
  rw [team]
theorem cardFail_not (sound : c.fail = none) : exec (.cardFail die cid) s = .next s := by
  show execCardFail die cid s = _
  rw [execCardFail, card]
  dsimp only
  rw [sound]
end

/-! ## A collective's cards meet (R230) -/

theorem aredMeet_meets {s s1 s2 : State} {ctx id p : Nat} {peers bs : List (List Byte)} {out : List Byte} {c0 c1 c2 c3 : Card} (h0 : s.aredAt ctx id 0 = some c0)
    (h1 : s.aredAt ctx id 1 = some c1) (h2 : s.aredAt ctx id 2 = some c2) (h3 : s.aredAt ctx id 3 = some c3) (e1 : aredShape c1 = aredShape c0)
    (e2 : aredShape c2 = aredShape c0) (e3 : aredShape c3 = aredShape c0) (hp : p = (aredShape c0).2.2)
    (count : (aredShape c0).2.1 = 1 → bitsAt (s.bar (0x0080_0000 + 8 * ctx)) 10 10 + 1 = p)
    (link : (aredShape c0).2.1 = 1 → 1 < p → ∃ q ∈ s.ports, q.up = true ∧ q.key.isSome = true)
    (a0 : s.cardAdmitted 0 c0 = true) (a1 : s.cardAdmitted 1 c1 = true) (a2 : s.cardAdmitted 2 c2 = true) (a3 : s.cardAdmitted 3 c3 = true)
    (read : aredReads s [(0, c0), (1, c1), (2, c2), (3, c3)] = .ok (bs, s1)) (result : s.aredResult ctx ((aredShape c0).2.1 == 1) p bs peers = some out)
    (write : aredWrites out s1 [(0, c0), (1, c1), (2, c2), (3, c3)] = .ok s2) : exec (.aredMeet ctx id peers) s = .next s2 := by
  subst hp
  have cards : (List.range 4).filterMap (fun d => (s.aredAt ctx id d).map (fun c => (d, c))) = [(0, c0), (1, c1), (2, c2), (3, c3)] := by
    rw [show List.range 4 = [0, 1, 2, 3] from rfl]
    simp only [List.filterMap_cons, List.filterMap_nil, h0, h1, h2, h3, Option.map_some]
  have shapes : [(0, c0), (1, c1), (2, c2), (3, c3)].any (fun q => aredShape q.2 != aredShape c0) = false := by simp [e1, e2, e3]
  have counted : ((aredShape c0).2.1 == 1 && bitsAt (s.bar (0x0080_0000 + 8 * ctx)) 10 10 + 1 != (aredShape c0).2.2) = false := by
    by_cases h : (aredShape c0).2.1 = 1
    · simp [h, count h]
    · simp [h]
  have linked : ((aredShape c0).2.1 == 1 && decide (1 < (aredShape c0).2.2) && !s.ports.any (fun q => q.up && q.key.isSome)) = false := by
    by_cases h : (aredShape c0).2.1 = 1 ∧ 1 < (aredShape c0).2.2
    · obtain ⟨q, hq, up⟩ := link h.1 h.2
      have some : s.ports.any (fun q => q.up && q.key.isSome) = true := List.any_eq_true.2 ⟨q, hq, by rw [up.1, up.2]; rfl⟩
      rw [some, Bool.not_true, Bool.and_false]
    · have : ((aredShape c0).2.1 == 1 && decide (1 < (aredShape c0).2.2)) = false := by simpa using h
      rw [this, Bool.false_and]
  have admitted : [(0, c0), (1, c1), (2, c2), (3, c3)].any (fun q => !s.cardAdmitted q.1 q.2) = false := by simp [a0, a1, a2, a3]
  show execAredMeet ctx id peers s = _
  rw [execAredMeet, cards]
  dsimp only
  rw [shapes, counted, linked, admitted, read]
  simp only [Bool.or_false, Bool.false_eq_true, if_false, result, write]

end Sys2Proof.Machine
end

section
/-! PROOFS. Merges (R204-R207, R245): what a merge writes depends on no team and no card. -/
namespace Sys2Proof.Machine

/-! ## The state without teams and cards -/

/-- A die without its cards. -/
def Die.bare (x : Die) : Die := { x with cards := [] }
/-- The state without teams and cards. -/
def State.bare (s : State) : State := { s with teams := [], saved := [], dies := s.dies.map Die.bare }

section
variable (s : State)
theorem map_updAt {α β : Type} {f : α → α} {f' : β → β} {g : α → β} (h : ∀ x, g (f x) = f' (g x)) (l : List α) (i : Nat) : (updAt l i f).map g = updAt (l.map g) i f' := by
  refine List.ext_getElem? fun j => ?_
  simp only [List.getElem?_map, updAt_getElem?, Option.map_map]
  split
  · cases l[j]? with
    | none => rfl
    | some x => exact congrArg some (h x)
  · rfl
theorem bare_modDie (d : Nat) (f : Die → Die) (h : ∀ x, (f x).bare = f x.bare := by exact fun _ => rfl) : (s.modDie d f).bare = s.bare.modDie d f := by
  unfold State.modDie State.bare
  dsimp only
  rw [map_updAt h]
theorem die_bare (d : Nat) : s.bare.die d = (s.die d).bare := by
  unfold State.die State.bare
  rw [List.getElem?_map]
  cases s.dies[d]? <;> rfl
theorem l2Find_bare (line : Nat) : s.bare.l2Find line = s.l2Find line := by
  rw [State.l2Find, die_bare]
  rfl
theorem l2Count_bare : s.bare.l2Count = s.l2Count := by
  unfold State.l2Count State.bare
  rw [List.map_map]
  rfl
theorem l2In_bare (node : Nat) : s.bare.l2In node = s.l2In node := by
  unfold State.l2In State.bare
  dsimp only
  rw [List.flatMap_map]
  rfl
theorem bare_useCh (ch : Nat) : (s.useCh ch).bare = s.bare.useCh ch := bare_modDie s ..
theorem bare_useChannel (pa : Nat) : (s.useChannel pa).bare = s.bare.useChannel pa := by
  unfold State.useChannel
  split
  · rfl
  · exact bare_useCh ..
theorem bare_useMirror (pa : Nat) : (s.useMirror pa).bare = s.bare.useMirror pa := bare_useCh ..
theorem bare_useLine (pa : Nat) : (s.useLine pa).bare = s.bare.useLine pa := by
  unfold State.useLine
  rw [l2Find_bare]
  split
  · rfl
  · exact bare_useChannel ..
theorem bare_addBar64 (o n : Nat) : (s.addBar64 o n).bare = s.bare.addBar64 o n := rfl
theorem bare_modLine (line : Nat) (f : L2Line → L2Line) : (s.modLine line f).bare = s.bare.modLine line f := bare_modDie s ..
theorem bare_homeL2 (line : Nat) : (s.homeL2 line).bare = s.bare.homeL2 line := by
  exact (bare_modLine ..).trans (congrArg (State.modLine · line _) (bare_modDie s ..))
theorem bare_loseL2 (fill : Option Nat) (y : L2Line) : (s.loseL2 fill y).bare = s.bare.loseL2 fill y := by
  unfold State.loseL2
  cases y.dctx with
  | none => exact bare_modDie s ..
  | some c =>
    cases fill with
    | none => exact (bare_useChannel ..).trans (congrArg (State.useChannel · _) (bare_modDie s ..))
    | some f =>
      dsimp only
      split
      · rw [bare_addBar64, bare_useChannel]
        exact congrArg (fun u : State => (u.useChannel _).addBar64 _ _) (bare_modDie s ..)
      · rw [bare_addBar64, bare_addBar64, bare_addBar64, bare_useChannel]
        exact congrArg (fun u : State => (((u.useChannel _).addBar64 _ _).addBar64 _ _).addBar64 _ _) (bare_modDie s ..)
theorem bare_freeL2 (n node room : Nat) (fill : Option Nat) (s : State) :
    (State.freeL2 n node room fill s).1.bare = (State.freeL2 n node room fill s.bare).1 ∧ (State.freeL2 n node room fill s).2 = (State.freeL2 n node room fill s.bare).2 := by
  induction n generalizing node room fill s with
  | zero => exact ⟨rfl, rfl⟩
  | succ n ih =>
    unfold State.freeL2
    dsimp only
    rw [l2In_bare]
    split
    · exact ⟨rfl, rfl⟩
    · split
      · exact ⟨rfl, rfl⟩
      · next y _ =>
        split
        · obtain ⟨st, took⟩ := ih node room fill ((State.freeL2 n (s.homeNode y.line) (s.l2Room (s.homeNode y.line)) none s).1.homeL2 y.line)
          rw [st, took, bare_homeL2, (ih ..).1]
          exact ⟨rfl, rfl⟩
        · rw [(ih ..).1, bare_loseL2]
          exact ⟨rfl, rfl⟩
theorem bare_roomL2 (node : Nat) (fill : Option Nat) : (s.roomL2 node fill).1.bare = (s.bare.roomL2 node fill).1 ∧ (s.roomL2 node fill).2 = (s.bare.roomL2 node fill).2 := by
  unfold State.roomL2
  rw [l2Count_bare]
  split
  · exact ⟨rfl, rfl⟩
  · exact bare_freeL2 ..
theorem bare_l2Touch (ctx node pa : Nat) (mig : Bool) (cp : Nat) (write : Bool) : (s.l2Touch ctx node pa mig cp write).bare = s.bare.l2Touch ctx node pa mig cp write := by
  unfold State.l2Touch
  split
  · exact bare_useChannel ..
  · dsimp only
    rw [l2Find_bare]
    split
    · obtain ⟨st, took⟩ := bare_roomL2 s (s.homeNode (pa / 128)) (some ctx)
      rw [bare_addBar64, took]
      refine congrArg (State.addBar64 · _ _) ((bare_modDie ..).trans (congrArg (State.modDie · _ _) ?_))
      rw [bare_useChannel, st]
      rfl
    · split
      · exact bare_modLine ..
      · exact (bare_addBar64 ..).trans (congrArg (State.addBar64 · _ _) (bare_modLine ..))
theorem bare_unlose (l : List Nat) : (s.unlose l).bare = s.bare.unlose l := by
  have same : s.bare.dies.any (fun d => d.lost.any (fun p => l.contains p.1)) = s.dies.any (fun d => d.lost.any (fun p => l.contains p.1)) := List.any_map
  unfold State.unlose
  rw [same]
  split
  · unfold State.bare
    dsimp only
    rw [List.map_map, List.map_map]
    rfl
  · rfl
theorem bare_dropReaders (line : Nat) : (s.dropReaders line).bare = s.bare.dropReaders line := by
  unfold State.dropReaders
  split <;> rename_i h
  · exact (if_pos h).symm
  · exact (if_neg h).symm
theorem bare_putPhys (pa : Nat) (mir : Bool) (bs : List Byte) : (s.putPhys pa mir bs).bare = s.bare.putPhys pa mir bs := by
  unfold State.putPhys
  rw [bare_useLine]
  refine congrArg (State.useLine · pa) ?_
  have put (m : SMap Byte) : (({ s with mem := m }.unlose (wholeSectors pa bs.length)).dropReaders (pa / 128)).bare =
      ({ s.bare with mem := m }.unlose (wholeSectors pa bs.length)).dropReaders (pa / 128) := by
    rw [bare_dropReaders, bare_unlose]
    rfl
  split
  · exact (bare_useMirror ..).trans (congrArg (State.useMirror · pa) (put _))
  · exact put _
theorem bare_landPhys (pa : Nat) (mir : Bool) (bs : List Byte) : (s.landPhys pa mir bs).bare = s.bare.landPhys pa mir bs := by
  have lost (u : State) (line : Nat) : (u.loseResv line none).bare = u.bare := rfl
  have none' (u : State) (line : Nat) : u.bare.loseResv line none = u.bare := rfl
  rw [State.landPhys, State.landPhys, lost, ← bare_putPhys, none']
theorem bare_land (l : Loc) (bs : List Byte) : (s.land l bs).bare = s.bare.land l bs := by
  cases l with
  | shm a => rfl
  | pad d sl o => rfl
  | phys pa sh mir mig cp => exact bare_landPhys s pa mir bs
theorem bare_mergeLand (x : Nat) (l : Loc) (bs : List Byte) : (s.mergeLand x l bs).bare = s.bare.mergeLand x l bs := by
  cases l with
  | shm a => rfl
  | pad d sl o => rfl
  | phys pa sh mir mig cp => exact (bare_land ..).trans (congrArg (State.land · _ bs) (bare_l2Touch ..))
theorem bare_foldl {α : Type} {f : State → α → State} (h : ∀ s q, (f s q).bare = f s.bare q) (l : List α) (s : State) : (l.foldl f s).bare = l.foldl f s.bare := by
  induction l generalizing s with
  | nil => rfl
  | cons q r ih => rw [List.foldl_cons, List.foldl_cons, ih, h]
/-- A merge's writes of one sector. -/
def State.mergeSector (x : Nat) (m : Merged) (s : State) (l : Loc) : State := (sectorRuns (m.sector l)).foldl (fun s r => s.mergeLand x (l.plus r.1) r.2) s
theorem bare_mergeSector (x : Nat) (m : Merged) (s : State) (l : Loc) : (s.mergeSector x m l).bare = s.bare.mergeSector x m l := by
  unfold State.mergeSector
  exact bare_foldl (fun s r => bare_mergeLand s x (l.plus r.1) r.2) _ s
theorem bare_writeMerge (x : Nat) (v : Versions) (m : Merged) : (s.writeMerge x v m).bare = s.bare.writeMerge x v m :=
  bare_foldl (bare_mergeSector x m) (mergedSectors v) s
theorem bare_keepOld (own : Bool) (old : List (Nat × Byte)) (p : Team → Bool) : (s.keepOld own old p).bare = s.bare := by
  unfold State.keepOld State.bare
  dsimp only
  rw [List.map_map]
  rfl
end

/-! ## The merges of a grid (R206, R245) -/

theorem preMerge_clear {s : State} {g : Grid} {v : Versions} (free : s.mergeStop v = none) (agree : conflictOf v = none) : s.preMerge g v = .ok s := by
  unfold State.preMerge
  rw [free, agree]
section
variable {s : State} {gid : Nat} {g : Grid} (grid : s.grid? gid = some g) (bridle : g.la.bridle = true)
include grid bridle
theorem gridSyncMerge_merges (alive : g.killed = false) (fresh : g.synced = false) (all : s.allLnxt g = true) (free : s.mergeStop g.atSync = none) (agree : conflictOf g.atSync = none) :
    exec (.gridSyncMerge gid) s =
      .next (((s.keepOld true (s.oldBytes (s.mergeOf g.atSync)) (fun t => t.grid == gid)).writeMerge g.ctx g.atSync (s.mergeOf g.atSync)).modGrid gid
        (fun g => { g with synced := true, held := g.held.map (fun p => (p.1, if g.snaps.any (fun q => q.1 == p.1) then p.2 else [])) })) := by
  show execGridSyncMerge gid s = _
  rw [execGridSyncMerge, grid]
  simp only [bridle, fresh, alive, all, preMerge_clear free agree, agree, Bool.not_true, Bool.or_false, Bool.false_eq_true, if_false]
/-- The grids that read what a grid's end overwrites: its successors of a bridle context. -/
def State.readsAfter (s : State) (gid : Nat) (k : Grid) : Bool := k.la.bridle && s.follows gid s.grids.length k
/-- The merge of a grid's end, before the grid goes. -/
def State.endMerged (s : State) (gid : Nat) (g : Grid) : State :=
  (s.keepOld false (s.oldBytes (s.mergeOf g.remaining)) (fun t => t.la.bridle && (s.grid? t.grid).any (s.readsAfter gid))).writeMerge g.ctx g.remaining (s.mergeOf g.remaining)
theorem gridEndMerge_eq (ends : g.over = true) (before : s.predOver g = true) (synced : g.synced = true ∨ g.snaps = [] ∨ s.allLnxt g = false)
    (free : s.mergeStop g.remaining = none) (agree : conflictOf g.remaining = none) : exec (.gridEndMerge gid) s =
      .next (State.endGrid { s.endMerged gid g with grids := (s.endMerged gid g).grids.map (fun k =>
        if s.readsAfter gid k then { k with layer := k.layer ++ s.oldBytes (s.mergeOf g.remaining) } else k) } g) := by
  have go : (!g.synced && g.snaps != [] && s.allLnxt g && !g.killed) = false := by
    rcases synced with h | h | h
    · rw [h]
      rfl
    · rw [h, bne_self_eq_false, Bool.and_false]
      rfl
    · rw [h, Bool.and_false]
      rfl
  show execGridEndMerge gid s = _
  rw [execGridEndMerge, grid]
  dsimp only
  rw [preMerge_clear free agree, bridle, ends, before, go]
  rfl
end
theorem mem_endMerged (s : State) (gid : Nat) (g : Grid) : (s.endMerged gid g).mem = (s.writeMerge g.ctx g.remaining (s.mergeOf g.remaining)).mem ∧
    (s.endMerged gid g).pad = (s.writeMerge g.ctx g.remaining (s.mergeOf g.remaining)).pad := by
  have same : (s.endMerged gid g).bare = (s.writeMerge g.ctx g.remaining (s.mergeOf g.remaining)).bare := by
    rw [State.endMerged, bare_writeMerge, bare_keepOld, bare_writeMerge]
  exact ⟨(congrArg State.mem same :), (congrArg State.pad same :)⟩
/-- The end of a grid leaves what reads nothing of grids, contexts' notes, queues, registers and interrupts. -/
theorem endGrid_keeps {α : Type} {p : State → α} (hc : ∀ s x, p { s with ctxs := x } = p s) (hs : ∀ s x, p { s with started := x } = p s)
    (hb : ∀ s x, p { s with bar0 := x } = p s) (hi : ∀ s x, p { s with irqs := x } = p s) (s : State) (g : Grid) :
    p (s.endGrid g) = p { s with grids := s.grids.filter (fun k => k.gid != g.gid) } := by
  have complete (s : State) (x q i : Nat) : p (s.completePacket x q i) = p s :=
    (foldl_keeps (p := p) (f := fun (s : State) (_ : Started) => s.irq (s.queueVec x q)) (fun _ _ => hi ..) _ _).trans ((hs ..).trans ((hb ..).trans (hs ..)))
  unfold State.endGrid
  dsimp only
  split
  · exact hc ..
  · exact (complete ..).trans (hc ..)
theorem grid?_filter (l : List Grid) (gid : Nat) : (l.filter (fun k => k.gid != gid)).find? (fun k => k.gid == gid) = none := by
  rw [List.find?_eq_none]
  intro k hk
  simpa using (List.mem_filter.1 hk).2
theorem gid_of_grid? {s : State} {gid : Nat} {g : Grid} (h : s.grid? gid = some g) : g.gid = gid := by simpa using List.find?_some h
theorem gridEndMerge_ends {s : State} {gid : Nat} {g : Grid} (grid : s.grid? gid = some g) (bridle : g.la.bridle = true) (ends : g.over = true) (before : s.predOver g = true)
    (synced : g.synced = true ∨ g.snaps = [] ∨ s.allLnxt g = false) (free : s.mergeStop g.remaining = none) (agree : conflictOf g.remaining = none) :
    ∃ s2, exec (.gridEndMerge gid) s = .next s2 ∧ s2.grid? gid = none ∧ s2.mem = (s.writeMerge g.ctx g.remaining (s.mergeOf g.remaining)).mem ∧
      s2.pad = (s.writeMerge g.ctx g.remaining (s.mergeOf g.remaining)).pad := by
  refine ⟨_, gridEndMerge_eq grid bridle ends before synced free agree, ?_, ?_, ?_⟩
  · rw [endGrid_keeps (p := fun s => s.grid? gid) (fun _ _ => rfl) (fun _ _ => rfl) (fun _ _ => rfl) (fun _ _ => rfl), gid_of_grid? grid]
    exact grid?_filter ..
  · rw [endGrid_keeps (p := State.mem) (fun _ _ => rfl) (fun _ _ => rfl) (fun _ _ => rfl) (fun _ _ => rfl)]
    exact (mem_endMerged s gid g).1
  · rw [endGrid_keeps (p := State.pad) (fun _ _ => rfl) (fun _ _ => rfl) (fun _ _ => rfl) (fun _ _ => rfl)]
    exact (mem_endMerged s gid g).2

/-- Settles O53: each event's lemma above; what a merge writes is the same over the state without teams and cards, which keeping their old bytes alone changes. -/
theorem roundMergeAndCardEventsComplete : Obligations.RoundMergeAndCardEventsComplete := by
  unfold Obligations.RoundMergeAndCardEventsComplete
  refine ⟨?rounds, fun s gid g grid bridle alive => ⟨gridSyncMerge_merges grid bridle alive, gridEndMerge_ends grid bridle⟩, ?cards,
    fun s s1 s2 ctx id p peers bs out c0 c1 c2 c3 => aredMeet_meets⟩
  case rounds =>
    rintro s s1 s2 s3 tid n t team rfl
    refine ⟨roundEnd_not team, ?_, roundEnd_second team, roundEnd_third team, roundResume_alone team, ?_⟩
    · rintro ends step rfl committed counted two three
      exact roundEnd_first team ends step committed counted two three
    · rintro step busy quiet done rfl on
      exact roundResume_joins team step busy quiet done on
  case cards =>
    exact fun s die cid c card => ⟨fun ls s' => cardStart_starts card, cardComplete_last card, cardComplete_next card,
      fun line run sound some free => ⟨cardLineLanded_plain card run sound some free, fun k => cardLineLanded_counted card run sound some free⟩,
      fun cause a t => cardFail_fails card, cardFail_not card⟩

end Sys2Proof.Machine
end

section
/-! PROOFS. Placement, stopping and retirement of teams (R45, R47, R49, R198, R242, R244, R252, R281-R284, R287). -/
namespace Sys2Proof.Machine

/-! ## Placement -/

theorem placement_new {s : State} {gid d : Nat} {w : Want} {g : Grid} {sps : List Spot} {b : Bool} (next : s.nextWant gid b = some (w, d, sps))
    (free : sps.any (fun sp => s.coreStuck w.ctx [] sp.core) = false) (fresh : w.back = false) (grid : s.grid? gid = some g) :
    exec (if b then .bridleClusterPlacement gid else .clusterPlacement gid) s =
      .next ((State.placeNew { s with claims := SMap.set [] s.claims gid [] } g w d sps).admitted d (0, gid)) := by
  have there : State.grid? { s with claims := SMap.set [] s.claims gid [] } gid = some g := grid
  have place : s.placeNext gid b = (State.placeNew { s with claims := SMap.set [] s.claims gid [] } g w d sps).admitted d (0, gid) := by
    unfold State.placeNext
    rw [next]
    simp only [free, fresh, there, Bool.false_eq_true, if_false]
  cases b <;> exact congrArg Host.Outcome.next place
theorem placement_back {s : State} {gid d : Nat} {w : Want} {sps : List Spot} {b : Bool} (next : s.nextWant gid b = some (w, d, sps))
    (free : sps.any (fun sp => s.coreStuck w.ctx [] sp.core) = false) (back : w.back = true) :
    exec (if b then .bridleClusterPlacement gid else .clusterPlacement gid) s =
      .next ((State.placeBack { s with claims := SMap.set [] s.claims gid [] } w d sps).admitted d (0, gid)) := by
  have place : s.placeNext gid b = (State.placeBack { s with claims := SMap.set [] s.claims gid [] } w d sps).admitted d (0, gid) := by
    unfold State.placeNext
    rw [next]
    simp only [free, back, Bool.false_eq_true, if_false, if_true]
  cases b <;> exact congrArg Host.Outcome.next place
theorem taskPlacement_places {s : State} {die : Nat} {k : Task} {r : List Task} {ty : TaskType} {sp : Spot} {sl : List Nat} (bin : s.binTasks die (s.die die).bin = k :: r)
    (open' : s.binSpent die = false) (first : s.launchFirst k = false) (type : s.taskType k.ctx (fieldAt k.bytes 4 4 % 64) = .ok (some ty))
    (takes : s.taskTakes k (s.taskLaunch k ty) = some (sp, sl)) (free : s.coreStuck k.ctx k.spans sp.core = false) :
    exec (.taskPlacement die) s = .next ((s.taskTouch k.ctx (fieldAt k.bytes 4 4 % 64)).placeTask k ty sp sl) := by
  show execTaskPlacement die s = _
  rw [execTaskPlacement, bin]
  simp only [open', first, type, takes, free, Bool.or_false, Bool.false_eq_true, if_false]
theorem binSwitch_switches {s : State} {die b : Nat} (leave : s.binTasks die (s.die die).bin = [] ∨ s.binSpent die = true) (next : s.nextBin die = some b)
    (there : die < s.dies.length) :
    ∃ s2, exec (.binSwitch die) s = .next s2 ∧ (s2.die die).bin = b ∧ (s2.die die).binMade = 0 ∧ (s2.die die).binSince = (s.die die).time := by
  refine ⟨s.modDie die (fun x => { x with bin := b, binMade := 0, binSince := x.time }), ?_, ?_⟩
  · refine congrArg Host.Outcome.next ((if_pos leave).trans ?_)
    rw [next]
  · rw [die_modDie there]
    exact ⟨rfl, rfl, rfl⟩

/-! ## Stopping, time slices, saving and restoring (R281-R284, R287) -/

section
variable {s : State} {tid : Nat} {t : Team} (team : s.team? tid = some t)
include team
theorem preempt_of_team? : s.preempt tid = (s.cluster t).foldl (fun s u => s.modTeam u.tid (Team.stop 1)) s := by
  unfold State.preempt
  rw [team]
theorem timeSliceExpiry_eq : exec (.timeSliceExpiry tid) s = .next (if !s.sliceDue t then s
    else if s.wanted t || t.groups.all (fun g => g.ready == 0) then (s.modTeam tid (fun u => { u with slices := s.slicesOf t })).preempt tid
    else s.modTeam tid (fun u => { u with slices := s.slicesOf t })) := by
  show execTimeSliceExpiry tid s = _
  rw [execTimeSliceExpiry, team]
theorem timeSliceExpiry_yields (due : s.sliceDue t = true) (yields : s.wanted t = true ∨ ∀ g ∈ t.groups, g.ready = 0) :
    exec (.timeSliceExpiry tid) s = .next ((s.modTeam tid (fun u => { u with slices := s.slicesOf t })).preempt tid) := by
  have go : (s.wanted t || t.groups.all (fun g => g.ready == 0)) = true := by simpa using yields
  rw [timeSliceExpiry_eq team, due, go]
  rfl
theorem timeSliceExpiry_stays (due : s.sliceDue t = true) (alone : s.wanted t = false) (ready : ∃ g ∈ t.groups, g.ready ≠ 0) :
    exec (.timeSliceExpiry tid) s = .next (s.modTeam tid (fun u => { u with slices := s.slicesOf t })) := by
  have go : t.groups.all (fun g => g.ready == 0) = false := by simpa using ready
  rw [timeSliceExpiry_eq team, due, alone, go]
  rfl
theorem timeSliceExpiry_early (early : s.sliceDue t = false) : exec (.timeSliceExpiry tid) s = .next s := by
  rw [timeSliceExpiry_eq team, early]
  rfl
theorem teamSaveComplete_running (on : t.halt = none) : exec (.teamSaveComplete tid) s = .next s := by
  show execTeamSaveComplete tid s = _
  rw [execTeamSaveComplete, team]
  dsimp only
  rw [on]
  rfl
theorem teamSaveComplete_saves (off : t.halt ≠ none) (last : t.rerunnable = false) : exec (.teamSaveComplete tid) s = .next (s.saveCluster t) := by
  show execTeamSaveComplete tid s = _
  rw [execTeamSaveComplete, team]
  simp only [Option.isNone_eq_false_iff.2 (Option.isSome_iff_ne_none.2 off), last, Bool.false_eq_true, if_false]
theorem teamSaveComplete_reruns {u : Team} (off : t.halt ≠ none) (again : t.rerunnable = true) (quiet : s.shmQuiet tid = true) (done : ∀ k ∈ t.tickets, k.busy = false)
    (start : s.again t = .ok u) : exec (.teamSaveComplete tid) s = .next (((s.drainTeam t).modTeam tid (fun _ => u)).countEvent evRerun) := by
  have idle : t.tickets.all (fun k => !k.busy) = true := by simpa using done
  show execTeamSaveComplete tid s = _
  rw [execTeamSaveComplete, team]
  simp only [Option.isNone_eq_false_iff.2 (Option.isSome_iff_ne_none.2 off), again, quiet, idle, start, Bool.and_self, Bool.false_eq_true, if_false, if_true]
theorem teamRestoreComplete_restores {d b a : Nat} {u : Team} (back : t.back = some (d, b, a)) (load : s.loadBlock t d a = .ok u) : exec (.teamRestoreComplete tid) s =
    .next ((if s.padSave t.ctx then s else s.devTouch t.ctx a t.saveMap.size).modTeam tid (fun _ => u.restored (s.die (dieOf t.pcore)).time)) := by
  show execTeamRestoreComplete tid s = _
  rw [execTeamRestoreComplete, team]
  dsimp only
  rw [back]
  dsimp only
  rw [load]
theorem teamRestoreComplete_placed (here : t.back = none) : exec (.teamRestoreComplete tid) s = .next s := by
  show execTeamRestoreComplete tid s = _
  rw [execTeamRestoreComplete, team]
  dsimp only
  rw [here]
end
theorem sliceDue_iff (s : State) (t : Team) : s.sliceDue t = true ↔ t.idle = false ∧ bitsAt (s.bar (ctxOff t.ctx 0x30)) 20 12 ≠ 0 ∧
    t.slices < ((s.die (dieOf t.pcore)).time - t.since) / (10000 * bitsAt (s.bar (ctxOff t.ctx 0x30)) 20 12) := by
  rw [State.sliceDue, State.slicesOf, State.tsl]
  generalize bitsAt (s.bar (ctxOff t.ctx 0x30)) 20 12 = n
  rw [Bool.and_eq_true, Bool.not_eq_true', decide_eq_true_eq]
  by_cases h : n = 0
  · simp [h]
  · rw [if_neg (by omega)]
    simp [h]
theorem stop_stops {t : Team} (on : t.halt = none) : (Team.stop 1 t).halt = some ⟨1, 0, 0, 0, 0, 0, 0, 0, 0, [], []⟩ ∧ ∀ g ∈ (Team.stop 1 t).groups, g.stopped = true := by
  unfold Team.stop
  rw [on]
  refine ⟨rfl, fun g hg => ?_⟩
  obtain ⟨g, _, rfl⟩ := List.mem_map.1 hg
  rfl
theorem stop_halted {u : Team} {h : Halt} (off : u.halt = some h) : Team.stop 1 u = u := by
  unfold Team.stop
  rw [off]

/-! ## Retirement (R49) -/

theorem endGrid_grids (s : State) (g : Grid) : (s.endGrid g).grids = s.grids.filter (fun k => k.gid != g.gid) :=
  endGrid_keeps (p := State.grids) (fun _ _ => rfl) (fun _ _ => rfl) (fun _ _ => rfl) (fun _ _ => rfl) s g
theorem allTeams_endGrid (s : State) (g : Grid) : (s.endGrid g).allTeams = s.allTeams :=
  endGrid_keeps (p := State.allTeams) (fun _ _ => rfl) (fun _ _ => rfl) (fun _ _ => rfl) (fun _ _ => rfl) s g
theorem allTeams_countRetired (s : State) (u : Team) : (s.countRetired u).allTeams = s.allTeams := by
  unfold State.countRetired
  dsimp only
  split
  · rfl
  · split
    · exact allTeams_endGrid ..
    · rfl
theorem allTeams_freeTask (s : State) (id : Nat) : (s.freeTask id).allTeams = s.allTeams := by
  unfold State.freeTask
  split <;> rfl
/-- The state without a team, resident or saved. -/
def State.without (s : State) (tid : Nat) : State :=
  { s with teams := s.teams.filter (fun u => u.tid != tid), saved := s.saved.filter (fun k => k.team.tid != tid) }
theorem anyTeam?_without (s : State) (tid : Nat) : (s.without tid).anyTeam? tid = none := by
  unfold State.anyTeam? State.allTeams State.without
  rw [List.find?_eq_none]
  intro t ht
  rcases List.mem_append.1 ht with ht | ht
  · simpa using (List.mem_filter.1 ht).2
  · obtain ⟨k, hk, rfl⟩ := List.mem_map.1 ht
    simpa using (List.mem_filter.1 hk).2
/-- What a team's L1 lines and cards leave as it goes. -/
def State.released (s : State) (t : Team) : State :=
  if (s.team? t.tid).isSome then (s.loseL1 t.pcore (fun y => y.ctx == t.ctx && y.shr == .core)).keepShm t else s
/-- Teams apart from their reservations and marks, the saved ones, and the grids. -/
def State.roster (s : State) : List Team × List Saved × List Grid := (s.teams.map Team.frame, s.saved, s.grids)
theorem aside_roster : Aside State.roster :=
  ⟨fun _ _ => rfl, fun _ _ => rfl, fun _ _ => rfl, fun _ _ => rfl, fun _ _ _ => rfl, fun _ _ => rfl, fun _ _ => rfl, fun s _ h => congrArg (·, s.saved, s.grids) h⟩
theorem roster_released (s : State) (t : Team) : (s.released t).roster = s.roster := by
  unfold State.released
  split
  · have keep (u : State) : (u.keepShm t).roster = u.roster := by
      unfold State.keepShm
      dsimp only
      split <;> rfl
    exact (keep _).trans (aside_roster.loseL1 s (fun _ _ => rfl) ..)
  · rfl
theorem frame_find? (l : List Team) (tid : Nat) : (l.find? (fun t => t.tid == tid)).map Team.frame = (l.map Team.frame).find? (fun t => t.tid == tid) := by
  rw [List.find?_map]
  rfl
theorem frame_anyTeam? {s s' : State} (h : s'.roster = s.roster) (tid : Nat) : (s'.anyTeam? tid).map Team.frame = (s.anyTeam? tid).map Team.frame := by
  obtain ⟨teams, rest⟩ := Prod.ext_iff.1 h
  obtain ⟨saved, _⟩ := Prod.ext_iff.1 rest
  unfold State.anyTeam? State.allTeams
  rw [frame_find?, frame_find?, List.map_append, List.map_append, show s'.teams.map Team.frame = s.teams.map Team.frame from teams,
    show s'.saved = s.saved from saved]

section
variable {s : State} {tid : Nat} {t : Team} (team : s.anyTeam? tid = some t)
include team
theorem tid_of_anyTeam? : t.tid = tid := by simpa using List.find?_some team
theorem teamRetire_not (no : s.retirable t = false) : exec (.teamRetire tid) s = .next s := by
  show execTeamRetire tid s = _
  rw [execTeamRetire, team]
  exact congrArg Host.Outcome.next (if_pos (by rw [no]; rfl))
/-- The versions of a team's cards joined, as it retires. -/
def State.cardsJoined (s : State) (tid : Nat) (t : Team) : State := (t.joins.map Prod.fst).eraseDups.foldl (fun s x => s.joinCards tid 0 0 x) s
/-- A team that retires, with the versions it holds then. -/
def State.leaving (s : State) (tid : Nat) (t : Team) : Team := ((s.released t).anyTeam? tid).getD t
variable (may : s.retirable t = true) (calm : ∀ k ∈ s.saved, k.team.tid = tid → k.trapped = false)
  (free : (s.team? tid).isSome = true → s.stuckIn t.pcore (fun (y : L1Sec) => y.ctx == t.ctx && y.shr == .core) = none)
include may calm free
theorem teamRetire_eq : exec (.teamRetire tid) s = .next (if t.la.bridle && (((s.cardsJoined tid t).team? tid).bind (·.halt)).isSome then s.cardsJoined tid t
    else match t.task with
      | some id => (((s.cardsJoined tid t).released t).without tid).freeTask id
      | none => (((s.cardsJoined tid t).released t).without tid).countRetired ((s.cardsJoined tid t).leaving tid t)) := by
  have tidy := tid_of_anyTeam? team
  have go : ¬((!s.retirable t || s.saved.any (fun k => k.team.tid == tid && k.trapped)) = true) := by
    have none : s.saved.any (fun k => k.team.tid == tid && k.trapped) = false := by simpa using calm
    rw [may, none]
    decide
  have clear : ¬(((s.team? tid).isSome && (s.stuckIn t.pcore (fun (y : L1Sec) => y.ctx == t.ctx && y.shr == .core)).isSome) = true) := by
    intro h
    obtain ⟨here, stuck⟩ := Bool.and_eq_true_iff.1 h
    rw [free here] at stuck
    cases stuck
  show execTeamRetire tid s = _
  rw [execTeamRetire, team]
  dsimp only
  rw [if_neg go, if_neg clear]
  subst tidy
  rfl
theorem teamRetire_halts (bridle : t.la.bridle = true) (halted : (((s.cardsJoined tid t).team? tid).bind (·.halt)).isSome = true) :
    exec (.teamRetire tid) s = .next (s.cardsJoined tid t) :=
  (teamRetire_eq team may calm free).trans (congrArg Host.Outcome.next (if_pos (by rw [bridle, halted]; rfl)))
variable (go : t.la.bridle = false ∨ (((s.cardsJoined tid t).team? tid).bind (·.halt)).isSome = false)
include go
theorem teamRetire_leaves : exec (.teamRetire tid) s = .next (match t.task with
      | some id => (((s.cardsJoined tid t).released t).without tid).freeTask id
      | none => (((s.cardsJoined tid t).released t).without tid).countRetired ((s.cardsJoined tid t).leaving tid t)) := by
  refine (teamRetire_eq team may calm free).trans (congrArg Host.Outcome.next (if_neg ?_))
  rcases go with h | h
  · rw [h]
    exact Bool.false_ne_true
  · rw [h, Bool.and_false]
    exact Bool.false_ne_true
end
/-- The grid's record once a team of it has retired. -/
def Grid.counting (u : Team) (g : Grid) : Grid := { g with retired := g.retired + 1, held := if u.la.bridle then g.held ++ [(u.lin, u.held)] else g.held }
theorem countRetired_grid {s : State} {u : Team} {g : Grid} (grid : s.grid? u.grid = some g) :
    (s.countRetired u).grid? u.grid = if (g.counting u).over && !g.la.bridle then none else some (g.counting u) := by
  have counted : (s.modGrid u.grid (Grid.counting u)).grid? u.grid = some (g.counting u) := grid?_modGrid (fun _ => rfl) grid
  have gid : g.gid = u.grid := gid_of_grid? grid
  have same : (g.counting u).gid = u.grid := gid
  have step : s.countRetired u = if (g.counting u).over && !g.la.bridle then (s.modGrid u.grid (Grid.counting u)).endGrid (g.counting u)
      else s.modGrid u.grid (Grid.counting u) := by
    show (match (s.modGrid u.grid (Grid.counting u)).grid? u.grid with
      | none => s.modGrid u.grid (Grid.counting u)
      | some g => if g.over && !g.la.bridle then (s.modGrid u.grid (Grid.counting u)).endGrid g else s.modGrid u.grid (Grid.counting u)) = _
    rw [counted]
    rfl
  rw [step]
  by_cases ends : ((g.counting u).over && !g.la.bridle) = true
  · rw [if_pos ends, if_pos ends, State.grid?, endGrid_grids, same]
    exact grid?_filter ..
  · rw [if_neg ends, if_neg ends]
    exact counted
section
variable {s : State} {tid : Nat} {t : Team} (team : s.anyTeam? tid = some t)
include team
/-- A team that leaves is the team that retired, apart from what others' writes take of it. -/
theorem leaving_frame : (s.leaving tid t).frame = t.frame := by
  have same := frame_anyTeam? (roster_released s t) tid
  rw [team] at same
  obtain ⟨u, hu, frame⟩ := Option.map_eq_some_iff.1 same
  rw [State.leaving, hu]
  exact frame
theorem leaving_counts (g : Grid) (grid : s.grid? t.grid = some g) :
    ((((s.released t).without tid).countRetired (s.leaving tid t)).grid? t.grid) = if (g.counting t).over && !g.la.bridle then none else some (g.counting t) := by
  have frame := leaving_frame team
  have number : (s.leaving tid t).grid = t.grid := (congrArg Team.grid frame :)
  have counting : Grid.counting (s.leaving tid t) = Grid.counting t := by
    have la : (s.leaving tid t).la = t.la := (congrArg Team.la frame :)
    have lin : (s.leaving tid t).lin = t.lin := (congrArg Team.lin frame :)
    have held : (s.leaving tid t).held = t.held := (congrArg Team.held frame :)
    funext g
    rw [Grid.counting, Grid.counting, la, lin, held]
  have still : ((s.released t).without tid).grid? t.grid = some g := by
    have grids : (s.released t).grids = s.grids := congrArg (fun r : List Team × List Saved × List Grid => r.2.2) (roster_released s t)
    rw [← grid]
    exact congrArg (List.find? (fun g : Grid => g.gid == t.grid)) grids
  have := countRetired_grid (u := s.leaving tid t) (number.symm ▸ still)
  rwa [number, counting] at this
end
theorem teamRetire_counts {s : State} {tid : Nat} {t : Team} (team : s.anyTeam? tid = some t) (may : s.retirable t = true)
    (calm : ∀ k ∈ s.saved, k.team.tid = tid → k.trapped = false)
    (free : (s.team? tid).isSome = true → s.stuckIn t.pcore (fun (y : L1Sec) => y.ctx == t.ctx && y.shr == .core) = none)
    (go : t.la.bridle = false ∨ (((s.cardsJoined tid t).team? tid).bind (·.halt)).isSome = false) :
    ∃ s2, exec (.teamRetire tid) s = .next s2 ∧ s2.anyTeam? tid = none ∧ (∀ g, t.task = none → (s.cardsJoined tid t).grid? t.grid = some g → t.joins = [] →
      (t.la.bridle = false → g.la.bridle = false → { g with retired := g.retired + 1 }.over = false → s2.grid? t.grid = some { g with retired := g.retired + 1 }) ∧
      (t.la.bridle = false → g.la.bridle = false → { g with retired := g.retired + 1 }.over = true → s2.grid? t.grid = none) ∧
      (t.la.bridle = true → g.la.bridle = true → s2.grid? t.grid = some { g with retired := g.retired + 1, held := g.held ++ [(t.lin, t.held)] })) := by
  refine ⟨_, teamRetire_leaves team may calm free go, ?_, fun g noTask grid none => ?_⟩
  · have gone := anyTeam?_without ((s.cardsJoined tid t).released t) tid
    unfold State.anyTeam? at gone ⊢
    split
    · rw [allTeams_freeTask, gone]
    · rw [allTeams_countRetired, gone]
  · have joined : s.cardsJoined tid t = s := by
      rw [State.cardsJoined, none]
      rfl
    rw [joined] at grid
    have counts := leaving_counts team g grid
    rw [joined, noTask]
    dsimp only
    rw [counts]
    have plain (h : t.la.bridle = false) : g.counting t = { g with retired := g.retired + 1 } := by
      rw [Grid.counting, h]
      rfl
    refine ⟨fun ht hg more => ?_, fun ht hg last => ?_, fun ht hg => ?_⟩
    · rw [plain ht, more, Bool.false_and, if_neg Bool.false_ne_true]
    · rw [plain ht, last, hg]
      rfl
    · rw [hg, Bool.not_true, Bool.and_false, if_neg Bool.false_ne_true, Grid.counting, ht]
      rfl

/-! ## Pre-emption for realtime work (R244) -/

theorem realtimePreempt_preempts {s : State} {gid : Nat} {w : Want} {cs : List Nat} (want : s.wants.find? (fun w => w.gid == gid) = some w) (long : s.waitedLong w = true)
    (full : s.takes w = none) (fresh : SMap.get [] s.claims gid = []) (yields : s.yielding w = some cs) :
    exec (.realtimePreempt gid) s = .next ((s.teams.filter (fun t => cs.contains t.pcore)).foldl (fun s t => s.preempt t.tid) { s with claims := SMap.set [] s.claims gid cs }) := by
  show execRealtimePreempt gid s = _
  rw [execRealtimePreempt, want]
  simp only [long, full, fresh, yields, Option.isSome_none, bne_self_eq_false, Bool.not_true, Bool.or_false, Bool.false_eq_true, if_false]

/-- Settles O52: each event's lemma above. A team that retires is, apart from its reservations and marks, the one that was to retire, so that its grid counts what it held. -/
theorem placementEventsComplete : Obligations.PlacementEventsComplete := by
  unfold Obligations.PlacementEventsComplete
  refine ⟨?place, fun s die k r ty sp sl => taskPlacement_places, fun s die b => binSwitch_switches, ?stop, ?stopped, ?retire, fun s gid w cs => realtimePreempt_preempts⟩
  case place =>
    rintro s s0 gid d w g sps b i rfl rfl next free
    exact ⟨placement_new next free, placement_back next free⟩
  case stop =>
    exact fun s tid t team => ⟨congrArg Host.Outcome.next (preempt_of_team? team), timeSliceExpiry_yields team, timeSliceExpiry_stays team, timeSliceExpiry_early team,
      sliceDue_iff s t, teamSaveComplete_running team, teamSaveComplete_saves team, fun u => teamSaveComplete_reruns team,
      fun d b a u => teamRestoreComplete_restores team, teamRestoreComplete_placed team⟩
  case stopped =>
    exact fun h t on => ⟨(stop_stops on).1, (stop_stops on).2, fun u => stop_halted⟩
  case retire =>
    intro s s1 tid t team
    refine ⟨?_, teamRetire_not team⟩
    rintro may calm free rfl
    exact ⟨teamRetire_halts team may calm free, teamRetire_counts team may calm free⟩

end Sys2Proof.Machine
end

section
/-! PROOFS. Words of the spec decode, and reserved words are no instructions (R69-R90). -/
namespace Sys2Proof
open Machine

/-! ## Words that give no instruction -/

/-- What a word gives is no well-formed instruction. -/
def Rejected (r : Except Reject Instr) : Prop := ∀ i, r = .ok i → wellFormed i = false

theorem rejected_error (e : Reject) : Rejected (.error e) := fun _ h => nomatch h
theorem rejected_accept {uni zero : Bool} {i : Instr} : Rejected (accept uni zero i) ↔ (uni = false → zero = true → wellFormed i = false) := by
  cases uni <;> cases zero <;> simp [Rejected, accept]
theorem rejected_uni {uni zero : Bool} {i : Instr} (h : uni = true) : Rejected (accept uni zero i) :=
  rejected_accept.2 fun no => absurd h (Bool.eq_false_iff.1 no)
theorem accept_error {uni zero : Bool} {i : Instr} (h : uni = true ∨ zero = false) : ∃ e, accept uni zero i = .error e := by
  cases uni
  · cases zero
    · exact ⟨_, rfl⟩
    · exact absurd h (by decide)
  · exact ⟨_, rfl⟩
theorem toNat_bvAt (n w lo : Nat) : (bvAt n w lo).toNat = fld w lo n := BitVec.toNat_ofNat ..

theorem toNat_two : (2 : BitVec 3).toNat = 2 := rfl
theorem toNat_three : (3 : BitVec 3).toNat = 3 := rfl
theorem toNat_one : (1 : BitVec 2).toNat = 1 := rfl
theorem toNat_zero_six : (0 : BitVec 6).toNat = 0 := rfl
theorem toNat_zero_three : (0 : BitVec 3).toNat = 0 := rfl

/-! ## The decoder by its sets and lengths (R69, R70) -/

section
variable {w v : Nat}
theorem decodeWords_l1 (set : bit w 31 = false) (one : fld w 21 6 < 48) : decodeWords w v = decodeL1 w := by
  rw [decodeWords, twoWords, set, decide_eq_false (Nat.not_le.2 one)]
theorem decodeWords_u1 (set : bit w 31 = true) (one : fld w 21 6 < 48) : decodeWords w v = decodeU1 w := by
  rw [decodeWords, twoWords, set, decide_eq_false (Nat.not_le.2 one)]
theorem decodeWords_l2 (set : bit w 31 = false) (two : 48 ≤ fld w 21 6) : decodeWords w v = decodeL2 w v := by
  rw [decodeWords, twoWords, set, decide_eq_true two]
theorem decodeWords_u2 (set : bit w 31 = true) (two : 48 ≤ fld w 21 6) : decodeWords w v = decodeU2 w v := by
  rw [decodeWords, twoWords, set, decide_eq_true two]

theorem decodeL1_reserved (low : 0x2A ≤ fld w 21 6) : decodeL1 w = .error .reserved := by
  unfold decodeL1
  split
  pick_goal -1
  · rfl
  all_goals omega
theorem decodeL2_reserved (low : 0x3A ≤ fld w 21 6) (high : fld w 21 6 ≤ 0x3E) : decodeL2 w v = .error .reserved := by
  unfold decodeL2
  split
  pick_goal -1
  · rfl
  all_goals omega
theorem decodeU1_reserved (low : 0x1C ≤ fld w 21 6) : decodeU1 w = .error .reserved := by
  unfold decodeU1
  split
  pick_goal -1
  · rfl
  all_goals omega
theorem decodeU2_reserved (low : 0x3B ≤ fld w 21 6) : decodeU2 w v = .error .reserved := by
  unfold decodeU2
  split
  pick_goal -1
  · rfl
  all_goals omega

/-! ## Two-word formats, by their function -/

theorem rejected_xi (fn : (0x12 ≤ fld v 20 8 ∧ fld v 20 8 ≤ 0x1F) ∨ (0x2C ≤ fld v 20 8 ∧ fld v 20 8 ≤ 0x3F) ∨ 0x44 ≤ fld v 20 8) : Rejected (decodeXi w v) := by
  unfold decodeXi
  split
  pick_goal -1
  · exact rejected_error _
  all_goals omega
theorem rejected_xf (h : 0x11 ≤ fld v 20 8 ∨ fld v 10 3 = 4) : Rejected (decodeXf w v) := by
  unfold decodeXf
  split
  pick_goal -1
  · exact rejected_error _
  all_goals
    rw [rejected_accept]
    simp only [wellFormed, Bool.and_eq_true, Bool.and_eq_false_iff, beq_iff_eq, decide_eq_false_iff_not, toNat_bvAt]
    unfold fld at *
    omega
theorem rejected_xc (h : 5 ≤ fld v 20 8 ∨ 5 ≤ fld v 10 3) : Rejected (decodeXc w v) := by
  unfold decodeXc
  split
  pick_goal -1
  · exact rejected_error _
  all_goals
    rw [rejected_accept]
    simp only [wellFormed, Bool.and_eq_true, Bool.and_eq_false_iff, beq_iff_eq, decide_eq_false_iff_not, toNat_bvAt]
    omega
theorem rejected_xm (h : 0x0B ≤ fld v 20 8 ∨ 2 ≤ fld w 2 2 ∨ fld w 4 3 = 7) : Rejected (decodeXm w v) := by
  unfold decodeXm
  split
  pick_goal -1
  · exact rejected_error _
  all_goals
    rw [rejected_accept]
    simp only [wellFormed, Bool.and_eq_true, Bool.and_eq_false_iff, Bool.or_eq_false_iff, beq_eq_false_iff_ne, beq_iff_eq, decide_eq_false_iff_not, ne_eq, BitVec.toNat_eq,
      toNat_bvAt, toNat_two, toNat_three]
    unfold fld at *
    omega
theorem rejected_xm_uni (uni : bit w 27 = true) (h : fld v 20 8 ≠ 0 ∧ fld v 20 8 ≠ 2 ∧ fld v 20 8 ≠ 4 ∧ fld v 20 8 ≠ 6 ∨ fld w 2 2 ≠ 0) :
    Rejected (decodeXm w v) := by
  unfold decodeXm
  split
  case h_2 | h_4 | h_6 | h_8 | h_9 | h_10 | h_11 => exact rejected_uni uni
  case h_12 => exact rejected_error _
  all_goals
    rw [rejected_accept]
    simp only [uni, wellFormed, Bool.and_eq_false_iff, Bool.not_eq_false', Bool.true_and, beq_iff_eq, decide_eq_false_iff_not, BitVec.toNat_eq, toNat_bvAt, toNat_one]
    unfold fld at *
    omega
theorem atomTy_reserved {k : BitVec 4} (h : 14 ≤ k.toNat) (t : Ty) : atomTy k t = false := by
  unfold atomTy
  split
  case h_15 => rfl
  all_goals omega
theorem rejected_xa (h : 14 ≤ fld v 24 4 ∨ fld v 22 2 = 3 ∨ 4 ≤ fld v 10 3 ∨ fld v 0 6 ≠ 0) : Rejected (decodeXa w v) := by
  have op : atomTy (bvAt 4 v 24) (tyAt v 6) = false ∨ fld v 22 2 = 3 ∨ 4 ≤ fld v 10 3 ∨ fld v 0 6 ≠ 0 :=
    h.imp_left fun h => atomTy_reserved (by rwa [toNat_bvAt]) _
  unfold decodeXa
  split
  case h_7 => exact rejected_error _
  all_goals
    rw [rejected_accept]
    rcases op with op | op
    · intros
      simp only [wellFormed, op, Bool.false_and]
    · simp only [wellFormed, Bool.and_eq_true, Bool.and_eq_false_iff, Bool.or_eq_false_iff, beq_eq_false_iff_ne, beq_iff_eq, decide_eq_false_iff_not, ne_eq, BitVec.toNat_eq,
        toNat_bvAt, toNat_two, toNat_zero_three]
      omega
theorem rejected_xa_uni (uni : bit w 27 = true) : Rejected (decodeXa w v) := by
  unfold decodeXa
  split
  case h_7 => exact rejected_error _
  all_goals exact rejected_uni uni
theorem rejected_xc_uni (uni : bit w 27 = true) (h : fld v 20 8 = 3 ∨ fld v 20 8 = 4) : Rejected (decodeXc w v) := by
  unfold decodeXc
  split
  case h_4 | h_5 => exact rejected_uni uni
  case h_6 => exact rejected_error _
  all_goals omega
theorem rejected_xg (h : 6 ≤ fld v 20 8 ∨ bit w 27 = true) : Rejected (decodeXg w v) := by
  unfold decodeXg
  split
  case h_7 => exact rejected_error _
  all_goals exact rejected_uni (h.resolve_left (by omega))
theorem rejected_xx (h : 5 ≤ fld v 20 8 ∨ bit w 27 = true) : Rejected (decodeXx w v) := by
  unfold decodeXx
  split
  case h_6 => exact rejected_error _
  all_goals exact rejected_uni (h.resolve_left (by omega))
theorem rejected_xo (h : 2 ≤ fld v 20 8 ∨ bit w 27 = true) : Rejected (decodeXo w v) := by
  unfold decodeXo
  split
  case h_3 => exact rejected_error _
  all_goals exact rejected_uni (h.resolve_left (by omega))
theorem rejected_xt (h : 3 ≤ fld v 20 8 ∨ bit w 27 = true) : Rejected (decodeXt w v) := by
  unfold decodeXt
  split
  case h_4 => exact rejected_error _
  all_goals exact rejected_uni (h.resolve_left (by omega))
theorem rejected_xy (h : 2 ≤ fld v 20 8 ∨ bit w 27 = true) : Rejected (decodeXy w v) := by
  unfold decodeXy
  split
  case h_3 => exact rejected_error _
  all_goals exact rejected_uni (h.resolve_left (by omega))

/-! ## UNI on U-set words (R90) -/

theorem decodeU1_uni (uni : bit w 27 = true) : ∃ e, decodeU1 w = .error e := by
  unfold decodeU1
  split
  case h_13 | h_14 | h_28 =>
    split
    pick_goal -1
    · exact ⟨_, rfl⟩
    all_goals exact accept_error (.inl uni)
  case h_29 => exact ⟨_, rfl⟩
  all_goals exact accept_error (.inl uni)
theorem decodeU2_uni (uni : bit w 27 = true) : ∃ e, decodeU2 w v = .error e := by
  unfold decodeU2
  split
  pick_goal -1
  · exact ⟨_, rfl⟩
  all_goals exact accept_error (.inl uni)

/-! ## L-set one-word formats -/

theorem rejected_lr (maj : fld w 21 6 = 0x0B ∨ fld w 21 6 = 0x17 ∨ fld w 21 6 = 0x1E) (h : fld w 0 7 ≠ 0) : Rejected (decodeL1 w) := by
  rcases maj with maj | maj | maj <;> simp [decodeL1, maj, rejected_accept, h]
theorem rejected_shift (low : 0x14 ≤ fld w 21 6) (high : fld w 21 6 ≤ 0x16) (h : 32 ≤ fld w 0 7) : Rejected (decodeL1 w) := by
  obtain maj | maj | maj : fld w 21 6 = 0x14 ∨ fld w 21 6 = 0x15 ∨ fld w 21 6 = 0x16 := by omega
  all_goals
    simp only [decodeL1, maj, rejected_accept, wellFormed, toNat_bvAt, decide_eq_false (Nat.not_lt.2 h), implies_true]
theorem rejected_movg (maj : fld w 21 6 = 0x17) (h : bit w 13 = true) : Rejected (decodeL1 w) := by
  simp_all [decodeL1, rejected_accept]
theorem rejected_register_branch (maj : fld w 21 6 = 0x22 ∨ fld w 21 6 = 0x23) (h : fld w 14 7 ≠ 0 ∨ fld w 0 7 ≠ 0) : Rejected (decodeL1 w) := by
  rcases maj with maj | maj <;>
    simp only [decodeL1, maj, rejected_accept, Bool.and_eq_true, beq_iff_eq] <;> omega
theorem decodeL1_lz_reserved (maj : fld w 21 6 = 0x24) (h : 7 ≤ fld w 16 5) : decodeL1 w = .error .reserved := by
  simp only [decodeL1, maj]
  split
  pick_goal -1
  · rfl
  all_goals omega
theorem decodeL1_lz_nonzero (maj : fld w 21 6 = 0x24) (fn : fld w 16 5 ≤ 5) (h : fld w 0 16 ≠ 0) : ∃ e, decodeL1 w = .error e := by
  simp only [decodeL1, maj]
  split
  case h_7 => omega
  case h_8 => exact ⟨_, rfl⟩
  all_goals exact accept_error (.inr (beq_false_of_ne h))
theorem rejected_fence (maj : fld w 21 6 = 0x25) (h : 4 ≤ fld w 18 3 ∨ fld w 0 18 ≠ 0) : Rejected (decodeL1 w) := by
  simp only [decodeL1, maj]
  split
  case h_5 => exact rejected_error _
  all_goals
    rw [rejected_accept, beq_iff_eq]
    omega
theorem decodeL1_barrier_reserved (maj : fld w 21 6 = 0x26) (h : fld w 14 2 = 3) : decodeL1 w = .error .reserved := by
  simp only [decodeL1, maj, h]
theorem rejected_barrier (maj : fld w 21 6 = 0x26) (h : fld w 0 6 ≠ 0 ∨ (bit w 13 = false ∧ fld w 7 6 ≠ 0) ∨ (bit w 6 = true ∧ fld w 14 2 ≠ 0)) :
    Rejected (decodeL1 w) := by
  simp only [decodeL1, maj]
  split
  case h_4 => exact rejected_error _
  all_goals
    simp only [rejected_accept, wellFormed, Bool.or_eq_false_iff, beq_iff_eq, beq_eq_false_iff_ne, ne_eq, BitVec.toNat_eq, toNat_bvAt, toNat_zero_six]
    unfold bit fld at *
    simp only [beq_iff_eq, beq_eq_false_iff_ne] at *
    omega
theorem rejected_phaser (maj : fld w 21 6 = 0x27) (h : fld w 0 14 ≠ 0 ∨ (bit w 15 = true ∧ bit w 14 = true)) : Rejected (decodeL1 w) := by
  simp only [decodeL1, maj]
  split
  case h_3 => exact rejected_error _
  all_goals
    rw [rejected_accept, beq_iff_eq]
    unfold bit fld at *
    simp only [beq_iff_eq] at h
    omega
theorem rejected_channel (maj : fld w 21 6 = 0x28 ∨ fld w 21 6 = 0x29) (h : 3 ≤ fld w 4 3 ∨ fld w 14 2 ≠ 0 ∨ fld w 0 4 ≠ 0) : Rejected (decodeL1 w) := by
  rcases maj with maj | maj
  all_goals
    simp only [decodeL1, maj, rejected_accept, wellFormed, Bool.and_eq_true, Bool.and_eq_false_iff, beq_iff_eq, decide_eq_false_iff_not, toNat_bvAt]
    omega
theorem rejected_store_uni (uni : bit w 27 = true) (maj : fld w 21 6 = 0x19 ∨ fld w 21 6 = 0x1B ∨ fld w 21 6 = 0x1D) : Rejected (decodeL1 w) := by
  rcases maj with maj | maj | maj
  all_goals
    simp only [decodeL1, maj]
    exact rejected_uni uni
theorem rejected_control_uni (uni : bit w 27 = true) (low : 0x20 ≤ fld w 21 6) (high : fld w 21 6 ≤ 0x29) : Rejected (decodeL1 w) := by
  obtain maj | maj | maj : fld w 21 6 ≤ 0x23 ∨ fld w 21 6 ≤ 0x27 ∧ 0x24 ≤ fld w 21 6 ∨ 0x28 ≤ fld w 21 6 := by omega
  case inl =>
    obtain maj | maj | maj | maj : fld w 21 6 = 0x20 ∨ fld w 21 6 = 0x21 ∨ fld w 21 6 = 0x22 ∨ fld w 21 6 = 0x23 := by omega
    all_goals
      simp only [decodeL1, maj]
      exact rejected_uni uni
  case inr.inl =>
    obtain maj | maj | maj | maj : fld w 21 6 = 0x24 ∨ fld w 21 6 = 0x25 ∨ fld w 21 6 = 0x26 ∨ fld w 21 6 = 0x27 := by omega
    all_goals
      simp only [decodeL1, maj]
      split
      pick_goal -1
      · exact rejected_error _
      all_goals exact rejected_uni uni
  case inr.inr =>
    obtain maj | maj : fld w 21 6 = 0x28 ∨ fld w 21 6 = 0x29 := by omega
    all_goals
      simp only [decodeL1, maj]
      exact rejected_uni uni

/-! ## The L-set by its functional formats -/

theorem rejected_l2_uni (uni : bit w 27 = true) (low : 0x34 ≤ fld w 21 6) (high : fld w 21 6 ≤ 0x39) : Rejected (decodeL2 w v) := by
  obtain maj | maj | maj | maj | maj | maj :
      fld w 21 6 = 0x34 ∨ fld w 21 6 = 0x35 ∨ fld w 21 6 = 0x36 ∨ fld w 21 6 = 0x37 ∨ fld w 21 6 = 0x38 ∨ fld w 21 6 = 0x39 := by omega
  · exact decodeL2_xa w v maj ▸ rejected_xa_uni uni
  · exact decodeL2_xg w v maj ▸ rejected_xg (.inr uni)
  · exact decodeL2_xx w v maj ▸ rejected_xx (.inr uni)
  · exact decodeL2_xo w v maj ▸ rejected_xo (.inr uni)
  · exact decodeL2_xt w v maj ▸ rejected_xt (.inr uni)
  · exact decodeL2_xy w v maj ▸ rejected_xy (.inr uni)

variable (set : bit w 31 = false)
include set
theorem rejected_words_l1 (one : fld w 21 6 < 48) (h : Rejected (decodeL1 w)) : Rejected (decodeWords w v) := decodeWords_l1 set one ▸ h
theorem rejected_words_l2 (two : 48 ≤ fld w 21 6) (h : Rejected (decodeL2 w v)) : Rejected (decodeWords w v) := decodeWords_l2 set two ▸ h
theorem rejected_words_table {m : Nat} {table : Except Reject Instr} (maj : fld w 21 6 = m) (two : 48 ≤ m) (read : decodeL2 w v = table) (h : Rejected table) :
    Rejected (decodeWords w v) := rejected_words_l2 set (maj ▸ two) (read ▸ h)
end

/-- Settles O43: the words by evaluation; each reserved word by the set and the length its bits give, and the format's own condition. -/
theorem wordsOfTheSpecDecodeAndReservedOnesDoNot : Obligations.WordsOfTheSpecDecodeAndReservedOnesDoNot := by
  unfold Obligations.WordsOfTheSpecDecodeAndReservedOnesDoNot
  refine ⟨⟨rfl, rfl, rfl, rfl, rfl, rfl, rfl, rfl, rfl, rfl, rfl, rfl, rfl, rfl, rfl, rfl, rfl, rfl⟩, fun w v =>
    ⟨?_, ?_, ?_, ?_, fun set => ⟨?_, ?_, ?_, ?_, ?_, ?_, ?_, ?_, ?_, ?_, ?_, ?_, ?_, ?_, ?_, ?_, ?_, ?_, ?_, ?_, ?_⟩,
    fun uni => ⟨fun set => ?_, fun set => ⟨?_, ?_, ?_, ?_⟩⟩, decide_eq_true_iff⟩⟩
  · exact fun set low high => (decodeWords_l1 set (by omega)).trans (decodeL1_reserved low)
  · exact fun set low high => (decodeWords_l2 set (by omega)).trans (decodeL2_reserved low high)
  · exact fun set low high => (decodeWords_u1 set (by omega)).trans (decodeU1_reserved low)
  · exact fun set low => (decodeWords_u2 set (by omega)).trans (decodeU2_reserved low)
  · exact fun maj h => (decodeWords_l1 set (by omega)).trans (decodeL1_lz_reserved maj h)
  · exact fun maj h => (decodeWords_l1 set (by omega)).trans (decodeL1_barrier_reserved maj h)
  · exact fun maj h => rejected_words_l1 set (by omega) (rejected_lr maj h)
  · exact fun low high h => rejected_words_l1 set (by omega) (rejected_shift low high h)
  · exact fun maj h => rejected_words_l1 set (by omega) (rejected_movg maj h)
  · exact fun maj h => rejected_words_l1 set (by omega) (rejected_register_branch maj h)
  · exact fun maj fn h => decodeWords_l1 (v := v) set (by omega) ▸ decodeL1_lz_nonzero maj fn h
  · exact fun maj h => rejected_words_l1 set (by omega) (rejected_fence maj h)
  · exact fun maj h => rejected_words_l1 set (by omega) (rejected_barrier maj h)
  · exact fun maj h => rejected_words_l1 set (by omega) (rejected_phaser maj h)
  · exact fun maj h => rejected_words_l1 set (by omega) (rejected_channel maj h)
  · exact fun maj h => rejected_words_table set maj (by decide) (decodeL2_xi w v maj) (rejected_xi h)
  · exact fun maj h => rejected_words_table set maj (by decide) (decodeL2_xf w v maj) (rejected_xf h)
  · exact fun maj h => rejected_words_table set maj (by decide) (decodeL2_xc w v maj) (rejected_xc h)
  · exact fun maj h => rejected_words_table set maj (by decide) (decodeL2_xm w v maj) (rejected_xm h)
  · exact fun maj h => rejected_words_table set maj (by decide) (decodeL2_xa w v maj) (rejected_xa h)
  · exact fun maj h => rejected_words_table set maj (by decide) (decodeL2_xg w v maj) (rejected_xg (.inl h))
  · exact fun maj h => rejected_words_table set maj (by decide) (decodeL2_xx w v maj) (rejected_xx (.inl h))
  · exact fun maj h => rejected_words_table set maj (by decide) (decodeL2_xo w v maj) (rejected_xo (.inl h))
  · exact fun maj h => rejected_words_table set maj (by decide) (decodeL2_xt w v maj) (rejected_xt (.inl h))
  · exact fun maj h => rejected_words_table set maj (by decide) (decodeL2_xy w v maj) (rejected_xy (.inl h))
  · obtain one | two := Nat.lt_or_ge (fld w 21 6) 48
    · exact decodeWords_u1 (v := v) set one ▸ decodeU1_uni uni
    · exact decodeWords_u2 (v := v) set two ▸ decodeU2_uni uni
  · rintro (maj | maj | maj | ⟨low, high⟩)
    · exact rejected_words_l1 set (by omega) (rejected_store_uni uni (.inl maj))
    · exact rejected_words_l1 set (by omega) (rejected_store_uni uni (.inr (.inl maj)))
    · exact rejected_words_l1 set (by omega) (rejected_store_uni uni (.inr (.inr maj)))
    · exact rejected_words_l1 set (by omega) (rejected_control_uni uni low high)
  · exact fun maj h => rejected_words_table set maj (by decide) (decodeL2_xc w v maj) (rejected_xc_uni uni h)
  · exact fun maj h => rejected_words_table set maj (by decide) (decodeL2_xm w v maj) (rejected_xm_uni uni h)
  · exact fun low high => rejected_words_l2 set (by omega) (rejected_l2_uni uni low high)

end Sys2Proof
end
